-- ==== Sys2Proof/Word.lean ====
section
/-! DEFINITION. The word types of the N480 and nothing else: bit vectors for what the manual adds, shifts and masks. -/
namespace Sys2Proof

/-- A 64-bit general register, address or control register (R80). -/
abbrev Word := BitVec 64

/-- The smallest addressable unit of memory (R2). -/
abbrev Byte := BitVec 8

/-- One 32-bit lane of a vector register (R190). -/
abbrev Lane := BitVec 32

/-- One predicate register: bit L is lane L (R191). -/
abbrev PredBits := BitVec 1024

end Sys2Proof
end

