-- ==== Sys2Proof/Config.lean ====
section
/-! DEFINITION. What the spec leaves to the implementation and the free values. Every constant here is opaque: it has no body,
so no proof can use a value of it, and a claim that mentions it holds whatever it is. -/
namespace Sys2Proof.Config

/-- The L2 slice, modulo 768, that homes a T1 or T2 line (R17: spread by hash over all 768 slices; the hash is not given). -/
opaque homeSlice : Nat → Nat

/-- The set of the core TLB, modulo 512, that holds a page of an address space (R176: 8-way, the index is not given). -/
opaque tlbSet : Nat → Nat → Nat

/-- Whether an LPDDR6 line lies in the eight channels of IOD1 (R8, R429: the address map of the channels is not given). -/
opaque onIod1 : Nat → Bool

/-- Whether a T2 line is host memory reached over CXL.cache rather than CXL.mem (R113, R115: the host's own layout). -/
opaque hostLine : Nat → Bool

/-- Of host lines, when IOD1's port is a second upstream link: whether its link carries the line (R436: by address hash, not given). -/
opaque hostHash : Nat → Bool

/-- Byte `off` of the opaque part of the matrix save image written with counter `n` (R252). -/
opaque imageByte : Nat → Nat → Byte

/-- CHECK of the matrix save image written with counter `n` (R252: the implementation's own function). -/
opaque imageCheck : Nat → BitVec 64

/-- Byte `off` of what a failed matrix restore leaves in the tiles and planes, made with counter `n` (R254: a mixture). -/
opaque tornByte : Nat → Nat → Byte

/-- Byte `off` of a task save block whose layout R391 does not give, written with counter `n`. -/
opaque saveByte : Nat → Nat → Byte

/-- Byte `off` of the 64-byte engine fault record written with counter `n` (R394 gives its place, no rule its layout). -/
opaque recordByte : Nat → Nat → Byte

/-- Byte `off` of a directory entry written with counter `n` (R285, R308 give size and place, not the layout). -/
opaque directoryByte : Nat → Nat → Byte

/-- How many rows of a running MA.MM had entered the array when the engine froze (R253: a matter of timing). -/
opaque frozenRows : Nat → Nat

/-- What line `i` of a task's save block holds (R391 lists the contents and gives no layout): below 131,072, that line of the
pool; below 133,120, a column-store unit; below 157,696, a tile, 1,536 lines each; below 165,888, the rest of the matrix image; below
166,400, thread state, header, tables or records; anything else, nothing. -/
opaque saveLine : Nat → Nat

/-- Whether a third failing tag on a link direction follows the two before it without a good flit between (R425: a matter of
what the link carries). -/
opaque tagRun : Nat → Bool

/-- Byte `off` of the SPDM transcript of session `n` (R420, R432: ATTEST returns it; its bytes are not given). -/
opaque transcriptByte : Nat → Nat → Byte

/-- The length in bytes of the SPDM transcript of session `n` (R432). -/
opaque transcriptLen : Nat → Nat

/-- The directory entry, among those that are free, that a new state or handle takes (R328, R290: not given). -/
opaque pickEntry : Nat → Nat

/-- Byte `off` of the control block that an inheritance without an end would have to end in (R376 gives it no effective value):
for region `n`. -/
opaque regionByte : Nat → Nat → Byte

/-- Whether the far chip faults a unit of a remote copy or migration at this far address (R273: its tables are not this chip's). -/
opaque farFault : Nat → Nat → Bool

/-- Whether the far chip is short of slabs for a state that migrates there, by route and handle (R335). -/
opaque farShort : Nat → Nat → Bool

/-- A value that the spec leaves undefined, fresh for each counter (the field `free` of State). -/
opaque freeWord : Nat → BitVec 64

end Sys2Proof.Config
end

