-- ==== Sys2Proof/Syntax.lean ====
section
/-! DEFINITION. The syntax of Oaner and of the package's events: one constructor per row of spec/opcode_table.json, in its
order but that the engine words stand first (Lean compiles only code that builds the first 245 constructors of a type, and
the meanings put engine words into queues). Operands stand in the order of the fields of the row's word from the low bits up:
destination (or guard) first. -/
namespace Sys2Proof

/-- The four threads of a core (R13): loader, computer, storer, service. -/
inductive Role where
  | L
  | C
  | S
  | T
  deriving DecidableEq, Repr

/-- A source spec (R34): a g register, a peek or a pop of a channel. -/
inductive Src where
  | g (i : Fin 32)
  | peek (i : Fin 32)
  | pop (i : Fin 32)
  deriving DecidableEq, Repr

/-- A destination spec (R34): a g register or a channel. -/
inductive Dst where
  | g (i : Fin 32)
  | ch (i : Fin 32)
  deriving DecidableEq, Repr

/-- The array that suffers an error (R29): device memory, a core's pool, its column store, its accumulator tiles, a die's Grotto. -/
inductive ErrArray where
  | mem
  | pool (c : Fin 64)
  | column (c : Fin 64)
  | tile (c : Fin 64)
  | slab (d : Fin 4)
  | plane (c : Fin 64)
  | l1 (c : Fin 64)
  deriving DecidableEq, Repr

/-- A speculation-log entry of a state that another chip sends (R325, R335). -/
structure FarEntry where
  win   : Nat
  arow  : Bool
  k     : List Nat
  a     : List Nat
  b     : List Nat
  v     : List Nat
  deriving DecidableEq, Repr

/-- What arrives from another chip over Ethernet (R273, R335): units of a remote copy, with the barrier that they count into and whether a line
that they were read from is poisoned (R275), or a
fast-weight state with its target die, the region that it is charged to, its geometry word, its planes W and C, and its log. -/
inductive FarUnit where
  | units (asid va : Nat) (bytes : List (BitVec 8)) (bar : Nat) (bad : Bool)
  | state (die : Fin 4) (region geo : Nat) (w c : List (BitVec 8)) (log : List FarEntry)
  deriving DecidableEq, Repr

/-- A guard (R31, R36): a predicate p0 to p11, or unguarded (12). -/
inductive Guard where
  | p (i : Fin 12)
  | all
  deriving DecidableEq, Repr

/-- Every step of the opcode table. The words carry their operands; the events carry what the hardware, the driver or the
outside world supplies: the core or die, an index into the list of State the event is about, and the data of an input. -/
inductive Instr where
  /-- VADD_I32 (R200): Lane add mod 2^32. -/
  | vaddI32 (g : Guard) (d : Fin 64) (a : Fin 64) (b : Fin 64)
  /-- VSUB_I32 (R200): Lane subtract mod 2^32. -/
  | vsubI32 (g : Guard) (d : Fin 64) (a : Fin 64) (b : Fin 64)
  /-- VMUL_I32 (R200): Low 32 bits of lane product. -/
  | vmulI32 (g : Guard) (d : Fin 64) (a : Fin 64) (b : Fin 64)
  /-- VMULH_I32 (R200): High 32 bits of signed lane product. -/
  | vmulhI32 (g : Guard) (d : Fin 64) (a : Fin 64) (b : Fin 64)
  /-- VADDS_I32 (R200): Saturating signed lane add. -/
  | vaddsI32 (g : Guard) (d : Fin 64) (a : Fin 64) (b : Fin 64)
  /-- VSUBS_I32 (R200): Saturating signed lane subtract. -/
  | vsubsI32 (g : Guard) (d : Fin 64) (a : Fin 64) (b : Fin 64)
  /-- VADDS_N32 (R200): Saturating unsigned lane add. -/
  | vaddsN32 (g : Guard) (d : Fin 64) (a : Fin 64) (b : Fin 64)
  /-- VSUBS_N32 (R200): Saturating unsigned lane subtract. -/
  | vsubsN32 (g : Guard) (d : Fin 64) (a : Fin 64) (b : Fin 64)
  /-- VADD_F32 (R202): FP32 lane add. -/
  | vaddF32 (g : Guard) (d : Fin 64) (a : Fin 64) (b : Fin 64)
  /-- VSUB_F32 (R202): FP32 lane subtract. -/
  | vsubF32 (g : Guard) (d : Fin 64) (a : Fin 64) (b : Fin 64)
  /-- VMUL_F32 (R202): FP32 lane multiply. -/
  | vmulF32 (g : Guard) (d : Fin 64) (a : Fin 64) (b : Fin 64)
  /-- VFMA_F32 (R202): FP32 fused multiply-add. -/
  | vfmaF32 (g : Guard) (d : Fin 64) (a : Fin 64) (b : Fin 64)
  /-- VFMS_F32 (R202): FP32 fused z − x × y. -/
  | vfmsF32 (g : Guard) (d : Fin 64) (a : Fin 64) (b : Fin 64)
  /-- VMIN_F32 (R203): FP32 lane minimum. -/
  | vminF32 (g : Guard) (d : Fin 64) (a : Fin 64) (b : Fin 64)
  /-- VMAX_F32 (R203): FP32 lane maximum. -/
  | vmaxF32 (g : Guard) (d : Fin 64) (a : Fin 64) (b : Fin 64)
  /-- VAND (R204): Lane and into vd. -/
  | vand (g : Guard) (d : Fin 64) (a : Fin 64)
  /-- VOR (R204): Lane or into vd. -/
  | vor (g : Guard) (d : Fin 64) (a : Fin 64)
  /-- VXOR (R204): Lane xor into vd. -/
  | vxor (g : Guard) (d : Fin 64) (a : Fin 64)
  /-- VANDN (R204): Lane and-not into vd. -/
  | vandn (g : Guard) (d : Fin 64) (a : Fin 64)
  /-- VSLL (R204): Lane shift left by an immediate. -/
  | vsll (g : Guard) (d : Fin 64) (a : Fin 64) (i : Fin 64)
  /-- VSRL (R204): Lane logical shift right by an immediate. -/
  | vsrl (g : Guard) (d : Fin 64) (a : Fin 64) (i : Fin 64)
  /-- VSRA (R204): Lane arithmetic shift right by an immediate. -/
  | vsra (g : Guard) (d : Fin 64) (a : Fin 64) (i : Fin 64)
  /-- VMOV (R204): Lane move. -/
  | vmov (g : Guard) (d : Fin 64) (a : Fin 64)
  /-- VCMP_I32 (R205): Integer lane compare into a predicate pair. -/
  | vcmpI32 (g : Guard) (k : Fin 8) (c : Fin 8) (a : Fin 64) (b : Fin 64)
  /-- VCMP_F32 (R206): FP32 lane compare into a predicate pair. -/
  | vcmpF32 (g : Guard) (k : Fin 8) (c : Fin 8) (a : Fin 64) (b : Fin 64)
  /-- VSEL (R207): Selects lanes of va or vb by a predicate. -/
  | vsel (g : Guard) (d : Fin 64) (a : Fin 64) (b : Fin 64)
  /-- VMIN_I32 (R208): Signed lane minimum. -/
  | vminI32 (g : Guard) (d : Fin 64) (a : Fin 64) (b : Fin 64)
  /-- VMAX_I32 (R208): Signed lane maximum. -/
  | vmaxI32 (g : Guard) (d : Fin 64) (a : Fin 64) (b : Fin 64)
  /-- VMIN_N32 (R208): Unsigned lane minimum. -/
  | vminN32 (g : Guard) (d : Fin 64) (a : Fin 64) (b : Fin 64)
  /-- VMAX_N32 (R208): Unsigned lane maximum. -/
  | vmaxN32 (g : Guard) (d : Fin 64) (a : Fin 64) (b : Fin 64)
  /-- VROTR_IMM (R209): Row-axis rotate by an immediate. -/
  | vrotrImm (g : Guard) (d : Fin 64) (a : Fin 64) (i : Fin 64)
  /-- VROTR_REG (R209): Row-axis rotate by a g register. -/
  | vrotrReg (g : Guard) (d : Fin 64) (a : Fin 64) (s : Fin 32)
  /-- VROTC_IMM (R209): Column-axis rotate by an immediate. -/
  | vrotcImm (g : Guard) (d : Fin 64) (a : Fin 64) (i : Fin 16)
  /-- VROTC_REG (R209): Column-axis rotate by a g register. -/
  | vrotcReg (g : Guard) (d : Fin 64) (a : Fin 64) (s : Fin 32)
  /-- VBCR_IMM (R209): Row-axis broadcast of a column by an immediate. -/
  | vbcrImm (g : Guard) (d : Fin 64) (a : Fin 64) (i : Fin 64)
  /-- VBCR_REG (R209): Row-axis broadcast of a column by a g register. -/
  | vbcrReg (g : Guard) (d : Fin 64) (a : Fin 64) (s : Fin 32)
  /-- VBCC_IMM (R209): Column-axis broadcast of a row by an immediate. -/
  | vbccImm (g : Guard) (d : Fin 64) (a : Fin 64) (i : Fin 16)
  /-- VBCC_REG (R209): Column-axis broadcast of a row by a g register. -/
  | vbccReg (g : Guard) (d : Fin 64) (a : Fin 64) (s : Fin 32)
  /-- VRSUM_F32 (R211): Tree sum of each row. -/
  | vrsumF32 (g : Guard) (d : Fin 64) (a : Fin 64)
  /-- VCSUM_F32 (R211): Tree sum of each column. -/
  | vcsumF32 (g : Guard) (d : Fin 64) (a : Fin 64)
  /-- VRMAX_F32 (R211): Maximum of each row. -/
  | vrmaxF32 (g : Guard) (d : Fin 64) (a : Fin 64)
  /-- VCMAX_F32 (R211): Maximum of each column. -/
  | vcmaxF32 (g : Guard) (d : Fin 64) (a : Fin 64)
  /-- VRMIN_F32 (R211): Minimum of each row. -/
  | vrminF32 (g : Guard) (d : Fin 64) (a : Fin 64)
  /-- VCMIN_F32 (R211): Minimum of each column. -/
  | vcminF32 (g : Guard) (d : Fin 64) (a : Fin 64)
  /-- VRSUM_I32 (R211): Integer sum of each row. -/
  | vrsumI32 (g : Guard) (d : Fin 64) (a : Fin 64)
  /-- VCSUM_I32 (R211): Integer sum of each column. -/
  | vcsumI32 (g : Guard) (d : Fin 64) (a : Fin 64)
  /-- PAND (R212): Predicate and. -/
  | pand (g : Guard) (d : Fin 12) (a : Fin 12) (b : Fin 12)
  /-- POR (R212): Predicate or. -/
  | por (g : Guard) (d : Fin 12) (a : Fin 12) (b : Fin 12)
  /-- PXOR (R212): Predicate xor. -/
  | pxor (g : Guard) (d : Fin 12) (a : Fin 12) (b : Fin 12)
  /-- PANDN (R212): Predicate and-not. -/
  | pandn (g : Guard) (d : Fin 12) (a : Fin 12) (b : Fin 12)
  /-- PNEZ (R212): Sets a predicate where a vector lane is nonzero. -/
  | pnez (g : Guard) (d : Fin 12) (a : Fin 64)
  /-- VMOVP (R212): Expands a predicate into lane masks. -/
  | vmovp (g : Guard) (d : Fin 64) (a : Fin 12)
  /-- PSET (R212): Sets predicate lanes to 0 or 1. -/
  | pset (g : Guard) (d : Fin 12) (i : Fin 2)
  /-- PFIRST (R212): Keeps only the lowest set lane. -/
  | pfirst (g : Guard) (d : Fin 12) (a : Fin 12)
  /-- VLIDX (R213): Writes lane, row or column indices. -/
  | vlidx (g : Guard) (d : Fin 64) (s : Fin 4)
  /-- VEXT_N32 (R213): Extracts a lane zero-extended to a g register. -/
  | vextN32 (d : Fin 32) (a : Fin 64) (s : Fin 32)
  /-- VEXT_I32 (R213): Extracts a lane sign-extended to a g register. -/
  | vextI32 (d : Fin 32) (a : Fin 64) (s : Fin 32)
  /-- VINS (R213): Inserts a g register into one lane. -/
  | vins (g : Guard) (d : Fin 64) (a : Fin 32) (s : Fin 32)
  /-- VBCG (R213): Broadcasts a g register to every lane. -/
  | vbcg (g : Guard) (d : Fin 64) (a : Fin 32)
  /-- VMOVI (R213): Broadcasts a signed 6-bit immediate. -/
  | vmovi (g : Guard) (d : Fin 64) (i : Fin 64)
  /-- PCNT (R213): Counts set lanes of a predicate. -/
  | pcnt (d : Fin 32) (a : Fin 12)
  /-- PFIND (R213): Finds the lowest set lane of a predicate. -/
  | pfind (d : Fin 32) (a : Fin 12)
  /-- VCVT_BF16_F32 (R219): Narrows FP32 to BF16. -/
  | vcvtBf16F32 (g : Guard) (d : Fin 64) (a : Fin 64) (p : Fin 4) (s : Fin 2) (r : Fin 8)
  /-- VCVT_F16_F32 (R219): Narrows FP32 to FP16. -/
  | vcvtF16F32 (g : Guard) (d : Fin 64) (a : Fin 64) (p : Fin 4) (s : Fin 2) (r : Fin 8)
  /-- VCVT_E4M3_F32 (R219): Narrows FP32 to E4M3. -/
  | vcvtE4m3F32 (g : Guard) (d : Fin 64) (a : Fin 64) (p : Fin 4) (s : Fin 2) (r : Fin 8)
  /-- VCVT_E5M2_F32 (R219): Narrows FP32 to E5M2. -/
  | vcvtE5m2F32 (g : Guard) (d : Fin 64) (a : Fin 64) (p : Fin 4) (s : Fin 2) (r : Fin 8)
  /-- VCVT_F32_BF16 (R219): Widens BF16 to FP32. -/
  | vcvtF32Bf16 (g : Guard) (d : Fin 64) (a : Fin 64) (p : Fin 4)
  /-- VCVT_F32_F16 (R219): Widens FP16 to FP32. -/
  | vcvtF32F16 (g : Guard) (d : Fin 64) (a : Fin 64) (p : Fin 4)
  /-- VCVT_F32_E4M3 (R219): Widens E4M3 to FP32. -/
  | vcvtF32E4m3 (g : Guard) (d : Fin 64) (a : Fin 64) (p : Fin 4)
  /-- VCVT_F32_E5M2 (R219): Widens E5M2 to FP32. -/
  | vcvtF32E5m2 (g : Guard) (d : Fin 64) (a : Fin 64) (p : Fin 4)
  /-- VCVT_I32_F32 (R221): Converts FP32 to signed integer. -/
  | vcvtI32F32 (g : Guard) (d : Fin 64) (a : Fin 64) (r : Fin 8)
  /-- VCVT_N32_F32 (R221): Converts FP32 to unsigned integer. -/
  | vcvtN32F32 (g : Guard) (d : Fin 64) (a : Fin 64) (r : Fin 8)
  /-- VCVT_F32_I32 (R221): Converts signed integer to FP32. -/
  | vcvtF32I32 (g : Guard) (d : Fin 64) (a : Fin 64) (r : Fin 8)
  /-- VCVT_F32_N32 (R221): Converts unsigned integer to FP32. -/
  | vcvtF32N32 (g : Guard) (d : Fin 64) (a : Fin 64) (r : Fin 8)
  /-- VRINT_F32 (R222): Rounds FP32 to an integral value. -/
  | vrintF32 (g : Guard) (d : Fin 64) (a : Fin 64) (r : Fin 8)
  /-- VCVT_MX_F32 (R223): Encodes FP32 lanes as MX codes and scales. -/
  | vcvtMxF32 (d : Fin 32) (a : Fin 64) (m : Fin 4) (r : Fin 8)
  /-- VCVT_F32_MX (R224): Decodes MX codes and scales to FP32. -/
  | vcvtF32Mx (g : Guard) (d : Fin 64) (a : Fin 32) (m : Fin 4)
  /-- VEXP_F32 (R76): EXP of each lane. -/
  | vexpF32 (g : Guard) (d : Fin 64) (a : Fin 64)
  /-- VEXP2_F32 (R76): EXP2 of each lane. -/
  | vexp2F32 (g : Guard) (d : Fin 64) (a : Fin 64)
  /-- VLOG2_F32 (R77): LOG2 of each lane. -/
  | vlog2F32 (g : Guard) (d : Fin 64) (a : Fin 64)
  /-- VRCP_F32 (R78): Correctly rounded reciprocal. -/
  | vrcpF32 (g : Guard) (d : Fin 64) (a : Fin 64)
  /-- VRSQRT_F32 (R78): Correctly rounded reciprocal square root. -/
  | vrsqrtF32 (g : Guard) (d : Fin 64) (a : Fin 64)
  /-- VSQRT_F32 (R78): Correctly rounded square root. -/
  | vsqrtF32 (g : Guard) (d : Fin 64) (a : Fin 64)
  /-- VTANH_F32 (R79): TANH of each lane. -/
  | vtanhF32 (g : Guard) (d : Fin 64) (a : Fin 64)
  /-- VCMPR (R229): Keeps the k largest-magnitude candidates of each group and zeroes the rest. -/
  | vcmpr (g : Guard) (d : Fin 64) (a : Fin 64) (k : Fin 16) (s : Fin 4)
  /-- VTOPK_F32 (R229): Writes the top-k FP32 values and columns of each group. -/
  | vtopkF32 (g : Guard) (d : Fin 32) (a : Fin 64) (k : Fin 16) (s : Fin 4)
  /-- VSCAN_F32 (R230): FP32 prefix sum along rows or columns. -/
  | vscanF32 (g : Guard) (d : Fin 64) (a : Fin 64) (e : Fin 2) (c : Fin 2)
  /-- VSCAN_I32 (R230): Integer prefix sum along rows or columns. -/
  | vscanI32 (g : Guard) (d : Fin 64) (a : Fin 64) (e : Fin 2) (c : Fin 2)
  /-- VRAND_N32 (R231): Writes Mix values per lane. -/
  | vrandN32 (g : Guard) (d : Fin 64) (s : Fin 32)
  /-- VRAND_F32 (R231): Writes uniform FP32 draws per lane. -/
  | vrandF32 (g : Guard) (d : Fin 64) (s : Fin 32)
  /-- VTOPK_I32 (R229): Writes the top-k signed values and columns of each group. -/
  | vtopkI32 (g : Guard) (d : Fin 32) (a : Fin 64) (k : Fin 16) (s : Fin 4)
  /-- MA_MM (R249): Multiplies slot rows by a B plane into an accumulator tile. -/
  | maMm (a : Fin 16) (t : Fin 64) (p : Fin 2) (k : Fin 16) (z : Fin 2) (r : Fin 2)
  /-- MA_CFG (R245): Sets FMTA and FMTB after the matrix work drains, and empties the planes. -/
  | maCfg (a : Fin 16) (b : Fin 16)
  /-- MA_LDB (R247): Loads a B plane from the column store. -/
  | maLdb (p : Fin 2) (c : Fin 2048) (g : Fin 32)
  /-- MA_LDW (R246): Fills the column store from a typed page. -/
  | maLdw (a : Fin 32) (b : Fin 32) (c : Fin 32)
  /-- MA_ZERO (R250): Zeroes a tile and clears its poison. -/
  | maZero (a : Fin 16)
  /-- MA_MOV_TV (R250): Moves a tile window to a vector register. -/
  | maMovTv (a : Fin 16) (r : Fin 8) (c : Fin 4) (v : Fin 64)
  /-- MA_MOV_VT (R250): Moves a vector register into a tile window. -/
  | maMovVt (a : Fin 16) (r : Fin 8) (c : Fin 4) (v : Fin 64)
  /-- MA_MOV_TP (R250): Stores a whole tile to the pool. -/
  | maMovTp (a : Fin 16) (g : Fin 32)
  /-- MA_MOV_SUM (R250): Tree-joins n tiles into a destination tile. -/
  | maMovSum (d : Fin 16) (s : Fin 16) (n : Fin 16)
  /-- MA_WAIT (R251): Blocks until the named tiles, or all matrix work, complete. -/
  | maWait (m : Fin 65536)
  /-- MA_SAVE (R253): Freezes the matrix engine, writes its image and parks it. -/
  | maSave (a : Fin 32)
  /-- MA_RSTR (R254): Reloads a matrix image and unparks the engine. -/
  | maRstr (a : Fin 32)
  /-- CP_COPY (R271): Queues a descriptor copy between package addresses. -/
  | cpCopy (a : Fin 32) (d : Fin 32)
  /-- CP_COPY_TS (R271): Queues a copy that fills a tile slot. -/
  | cpCopyTs (a : Fin 32) (d : Fin 32)
  /-- CP_COPY_RC (R273): Queues a copy to another chip over a route. -/
  | cpCopyRc (a : Fin 32) (b : Fin 32) (d : Fin 32)
  /-- CP_GATH (R271): Queues a gather by an index table. -/
  | cpGath (a : Fin 32) (b : Fin 32) (d : Fin 32) (t : Fin 2)
  /-- CP_SCAT (R271): Queues a scatter by an index table. -/
  | cpScat (a : Fin 32) (b : Fin 32) (d : Fin 32)
  /-- CP_FILL (R274): Queues a fill of a value. -/
  | cpFill (a : Fin 32) (b : Fin 32) (d : Fin 32) (t : Fin 2)
  /-- TS_DEF (R276): Writes a slot definition once PEND and LOCK clear. -/
  | tsDef (a : Fin 32) (b : Fin 32)
  /-- TS_REL (R277): Releases a tile slot. -/
  | tsRel (a : Fin 32) (d : Fin 32)
  /-- TS_STAT (R278): Reads slot state or definition, or waits as a consumer. -/
  | tsStat (a : Fin 32) (d : Fin 32) (f : Fin 2) (w : Fin 2)
  /-- BAR_INIT (R287): Configures a barrier slot. -/
  | barInit (a : Fin 32) (b : Fin 32) (d : Fin 32) (s : Fin 8)
  /-- BAR_ARR (R288): Releases and arrives at a barrier. -/
  | barArr (a : Fin 32) (d : Fin 32)
  /-- BAR_WAIT (R289): Waits for a phase to pass a token, then acquires. -/
  | barWait (a : Fin 32) (b : Fin 32) (d : Fin 32)
  /-- BAR_ARW (R289): Arrives at a local barrier and waits on its token. -/
  | barArw (a : Fin 32) (d : Fin 32)
  /-- BAR_EXPB (R288): Posts expected bytes to a barrier. -/
  | barExpb (a : Fin 32) (b : Fin 32) (d : Fin 32)
  /-- BAR_STAT (R290): Reads a barrier word and optionally clears its sticky bits. -/
  | barStat (a : Fin 32) (d : Fin 32) (c : Fin 2)
  /-- BAR_EXP (R290): Exports a handle to a barrier slot. -/
  | barExp (a : Fin 32) (d : Fin 32)
  /-- BAR_UNEX (R290): Withdraws a live barrier handle. -/
  | barUnex (a : Fin 32) (d : Fin 32)
  /-- SEM_INIT (R292): Configures a semaphore slot. -/
  | semInit (a : Fin 32) (b : Fin 32) (d : Fin 32) (s : Fin 8)
  /-- SEM_SET (R292): Releases and sets a semaphore value. -/
  | semSet (a : Fin 32) (b : Fin 32) (d : Fin 32)
  /-- SEM_ADD (R292): Releases and adds to a semaphore with saturation. -/
  | semAdd (a : Fin 32) (b : Fin 32) (d : Fin 32)
  /-- SEM_WGE (R293): Waits until SVAL reaches a threshold, optionally subtracting it. -/
  | semWge (a : Fin 32) (b : Fin 32) (d : Fin 32) (u : Fin 2)
  /-- CH_CFG (R300): Configures a home or link channel entry. -/
  | chCfg (d : Fin 32) (a : Fin 32) (b : Fin 32)
  /-- CH_REG (R301): Registers the thread as a producer on a channel. -/
  | chReg (d : Fin 32) (a : Fin 32)
  /-- CH_EOS (R301): Enqueues an end-of-stream marker for the thread. -/
  | chEos (d : Fin 32) (a : Fin 32)
  /-- CH_TAKE (R301): Takes a value or EOS marker from a ring. -/
  | chTake (d : Fin 16) (a : Fin 32) (p : Fin 2)
  /-- CH_STAT (R301): Reads a channel entry's state. -/
  | chStat (d : Fin 32) (a : Fin 32)
  /-- FW_FU (R321): Applies a chunk of delta-rule steps and writes outputs. -/
  | fwFu (a : Fin 32) (b : Fin 32) (d : Fin 32)
  /-- FW_FWD (R321): Computes outputs from W or W′ without changing the state. -/
  | fwFwd (a : Fin 32) (b : Fin 32) (d : Fin 32)
  /-- FW_UPD (R321): Applies delta-rule steps without reads. -/
  | fwUpd (a : Fin 32) (b : Fin 32) (d : Fin 32)
  /-- FW_OPEN (R328): Allocates a new fast-weight state. -/
  | fwOpen (a : Fin 32) (d : Fin 32)
  /-- FW_CLOSE (R329): Discards pending entries and pages the state out to T1. -/
  | fwClose (a : Fin 32) (d : Fin 32)
  /-- FW_FREE (R329): Frees a state and advances its generation. -/
  | fwFree (a : Fin 32) (d : Fin 32)
  /-- FW_PAGE (R330): Pages out, pages in, exports or imports a state by OP. -/
  | fwPage (a : Fin 32) (b : Fin 32) (d : Fin 32) (o : Fin 8)
  /-- FW_STAT (R331): Returns a state's status word. -/
  | fwStat (a : Fin 32) (d : Fin 32)
  /-- FW_SNAP (R332): Makes a copy-on-write snapshot state. -/
  | fwSnap (a : Fin 32) (d : Fin 32)
  /-- FW_AVG (R333): Writes a weighted tree sum of source states. -/
  | fwAvg (a : Fin 32) (b : Fin 32) (d : Fin 32)
  /-- FW_ROLL (R334): Replaces a target's planes with a source's. -/
  | fwRoll (a : Fin 32) (b : Fin 32) (d : Fin 32)
  /-- FW_MIG (R335): Migrates a state to another die or chip. -/
  | fwMig (a : Fin 32) (b : Fin 32) (d : Fin 32)
  /-- FW_LOGC (R326): Commits the oldest n speculation entries. -/
  | fwLogc (a : Fin 32) (b : Fin 32) (d : Fin 32)
  /-- FW_LOGD (R327): Discards speculation entries from a window on. -/
  | fwLogd (a : Fin 32) (b : Fin 32) (d : Fin 32)
  /-- CX_START (R347): Makes a context ACTIVE, optionally setting RESET. -/
  | cxStart (a : Fin 32) (d : Fin 32) (r : Fin 2)
  /-- CX_PAUSE (R347): Makes a context PAUSED. -/
  | cxPause (a : Fin 32) (d : Fin 32)
  /-- CX_END (R347): Ends a context and discards its pending entries. -/
  | cxEnd (a : Fin 32) (d : Fin 32)
  /-- CX_FORK (R351): Makes a child context a copy of the parent's committed point. -/
  | cxFork (a : Fin 32) (b : Fin 32) (d : Fin 32)
  /-- CX_CANCEL (R350): Discards a context's entries and rows from a window on. -/
  | cxCancel (a : Fin 32) (b : Fin 32) (d : Fin 32) (l : Fin 2)
  /-- CX_SPEC (R348): Appends n tokens of a window to the context journal. -/
  | cxSpec (a : Fin 32) (b : Fin 32) (d : Fin 32)
  /-- CX_COMMIT (R349): Commits n journal tokens to CLEN and optionally the grammar. -/
  | cxCommit (a : Fin 32) (b : Fin 32) (d : Fin 32)
  /-- GR_BIND (R356): Checks and binds a grammar image to a context. -/
  | grBind (a : Fin 32) (b : Fin 32) (d : Fin 32)
  /-- GR_STEP (R357): Takes a token from the committed or speculative configuration. -/
  | grStep (a : Fin 32) (b : Fin 32) (d : Fin 32) (s : Fin 2)
  /-- GR_MASK (R358): Writes the speculative mask into slot 64. -/
  | grMask (a : Fin 32) (d : Fin 32)
  /-- GR_LATT (R362): Computes a mask per lattice row and the valid-row mask. -/
  | grLatt (a : Fin 32) (b : Fin 32) (d : Fin 32)
  /-- GR_SAVE (R359): Writes a grammar save image. -/
  | grSave (a : Fin 32) (b : Fin 32) (d : Fin 32)
  /-- GR_FORK (R359): Copies a committed grammar configuration to another context. -/
  | grFork (a : Fin 32) (b : Fin 32) (d : Fin 32)
  /-- GR_ROLL (R359): Restores a grammar configuration and journal from an image. -/
  | grRoll (a : Fin 32) (b : Fin 32) (d : Fin 32)
  /-- SK_OPEN (R364): Opens a sink row and returns a ticket. -/
  | skOpen (a : Fin 32) (d : Fin 32)
  /-- SK_CLOSE (R366): Waits for a row's blocks and writes its shortlist. -/
  | skClose (a : Fin 32) (b : Fin 32) (d : Fin 32) (f : Fin 2)
  /-- SK_DRAW (R367): Draws a token from a closed row and frees it. -/
  | skDraw (a : Fin 32) (d : Fin 32)
  /-- LT_EXP (R361): Expands a draft lattice into path rows. -/
  | ltExp (a : Fin 32) (d : Fin 32)
  /-- SQ_CFG (R368): Configures a speculation queue on the receiving die. -/
  | sqCfg (a : Fin 32) (b : Fin 32) (d : Fin 32)
  /-- SQ_SEND (R369): Releases at .pk and sends a record to a speculation queue. -/
  | sqSend (a : Fin 32) (b : Fin 32) (d : Fin 32)
  /-- SQ_RECV (R370): Takes the head record, optionally draining stale epochs, and acquires. -/
  | sqRecv (a : Fin 32) (b : Fin 32) (d : Fin 32)
  /-- PACKAGE_RESET (R27): Package power-up or forced reset wipes all volatile state, keeps only the fuses and the root's nonvolatile storage, and starts attestation of every chiplet. -/
  | packageReset
  /-- POWER_OFF (R422): Package power goes off and every chiplet enters OFF with its data links down. -/
  | powerOff
  /-- CHIPLET_ATTESTATION (R420): The root runs an SPDM 1.3 session with a chiplet and either admits it or leaves it QUARANTINED. -/
  | chipletAttestation (c : Fin 18) (ok : Bool) (why : Nat)
  /-- FLIT_TAG_FAILURE (R425): A received flit fails its GCM tag and is dropped and retried; a third consecutive failure quarantines and resets the sending chiplet. -/
  | flitTagFailure (l : Fin 40)
  /-- KEY_ROLLOVER_START (R426): After 2^31 flits under one key, or on the root's request, the root installs the next key at the receiver. -/
  | keyRolloverStart (l : Fin 40)
  /-- KEY_ROLLOVER_ACK (R426): The receiver acknowledges the new key and the sender switches the key phase at a flit boundary. -/
  | keyRolloverAck (l : Fin 40)
  /-- DRAIN_MARKER (R426): The drain marker reaches the receiver, which then retires the old key. -/
  | drainMarker (l : Fin 40)
  /-- ROLLOVER_SEND_STOP (R426): At 2^32 flits without a phase switch, the sender stops sending on that direction. -/
  | rolloverSendStop (l : Fin 40)
  /-- ROLLOVER_STOP_TIMEOUT (R426): A send stop that lasts more than 1 ms is handled as a link failure under R425. -/
  | rolloverStopTimeout (l : Fin 40)
  /-- DIE_READMISSION (R427): After wipe and re-attestation, fresh keys are installed, the links open, and routing returns to R10 after the drain. -/
  | dieReadmission (die : Fin 4)
  /-- ROUTE_RESEND (R12): Once the DIEX completions of a channel are delivered, the source re-sends those requests in order on the other ring direction. -/
  | routeResend (src : Fin 64) (dst : Fin 4)
  /-- HOST_LINK_DOWN (R437): The host link drops; accesses to host memory complete with DIEX 0x50 as replayable engine faults, and .sy releases stall. -/
  | hostLinkDown
  /-- SYSWR (R432): Mailbox command 0x01 writes a system register. -/
  | syswr (n : Nat) (v : BitVec 64)
  /-- TLBINV (R180): Mailbox command 0x02 performs TLB.INV at .pk followed by TLB.SYNC. -/
  | tlbinv (kind : Fin 4) (a : BitVec 64) (b : BitVec 64)
  /-- FEAT (R432): Mailbox command 0x03 writes FEATACK0 and sets LOCK if asked. -/
  | feat (ack : BitVec 64) (lock : Bool)
  /-- ANSWER (R399): Mailbox command 0x04 answers a host trap with RETRY or ABORT for a TASKID and thread. -/
  | answer (task : Nat) (r : Role) (i : Nat) (retry : Bool)
  /-- LISTS (R433): Mailbox command 0x05 sets the frame-list and reclaim-ring bases. -/
  | lists (bases : List (BitVec 64))
  /-- ROUTE (R437): Mailbox command 0x06 writes a route entry. -/
  | route (h : Nat) (chip : Nat) (ports : Nat) (assoc : Nat)
  /-- PREEMPT (R389): Mailbox command 0x07 requests urgent pre-emption of a TASKID. -/
  | preempt (task : Nat)
  /-- DIERST (R427): Mailbox command 0x08 starts a single-die reset: quarantine, DIEX completions, generation advance, poisoning, wipe and re-attestation. -/
  | dierst (c : Fin 18)
  /-- LCS (R428): Mailbox command 0x09 requests a life-cycle change, which takes effect at a forced package reset. -/
  | lcs (next : Fin 5) (signed : Bool)
  /-- AGE (R434): Mailbox command 0x0A returns the ageing records of every chiplet. -/
  | age
  /-- ATTEST (R432): Mailbox command 0x0B returns the stored SPDM transcript of a chiplet. -/
  | attest (c : Fin 18)
  /-- AGE_UPDATE (R434): Every 2^30 cycles the controller updates the ageing records, and raises MSI-X vector 1 when an EOLH falls below 720 hours. -/
  | ageUpdate (recs : List (BitVec 128))
  /-- BLOCK_FETCH (R38): A thread fetches a whole block into its loop buffer and checks the header and page before any body word issues. -/
  | blockFetch (c : Fin 64) (r : Role)
  /-- LINE_REQUEST_RETURN (R114): Data or an acknowledgement returns for a line request, the result is written, and the request-table entry is freed. -/
  | lineRequestReturn (c : Fin 64) (i : Nat)
  /-- REQUEST_TABLE_GRANT (R114): A freed request-table entry goes to the issuer that has waited longest. -/
  | requestTableGrant (c : Fin 64)
  /-- STORE_PERFORMED (R133): A retired store is taken by its home slice, base die or pool SRAM. -/
  | storePerformed (c : Fin 64) (r : Role) (i : Nat)
  /-- ATOMIC_AT_HOME (R122): An atomic request performs its indivisible read-modify-write at the home slice or base die, in arrival order. -/
  | atomicAtHome (c : Fin 64) (i : Nat)
  /-- WAITA_WAKE (R126): A write to a watched line wakes the WAITA thread with code 0. -/
  | waitaWake (c : Fin 64) (r : Role)
  /-- WAITA_TIMEOUT (R126): The WAITA timeout expires and the thread wakes with code 1. -/
  | waitaTimeout (c : Fin 64) (r : Role)
  /-- PAGE_WALK_COMPLETE (R177): A page walk completes, fills the TLBs, and releases the requests that joined it in join order. -/
  | pageWalkComplete (c : Fin 64) (i : Nat)
  /-- MISS_TABLE_GRANT (R177): A freed miss-table entry goes to the request that has waited longest. -/
  | missTableGrant (c : Fin 64)
  /-- COW_BREAK (R171): A write to a COW leaf locks the leaf, copies or unshares the page through the fork walker, invalidates it, and replays the write. -/
  | cowBreak (die : Fin 4) (i : Nat)
  /-- PAGE_MIGRATION_COMPLETE (R173): A page copy ends; FRAME, TIER and COUNT move, BUSY clears, and the old frame goes to the reclaim ring. -/
  | pageMigrationComplete (die : Fin 4) (i : Nat)
  /-- TLB_INV_COMPLETE (R184): A TLB.INV's entries are dropped and every access that used them has completed. -/
  | tlbInvComplete (i : Nat)
  /-- L1_WRAP_CLEAR_DONE (R111): The 64-cycle physical L1 clear at a generation wrap ends, and the stalled L1 lookups proceed. -/
  | l1WrapClearDone (c : Fin 64)
  /-- VECTOR_START (R194): A queued vector instruction starts once its issue, occupancy and hazard conditions hold, and reads its sources. -/
  | vectorStart (c : Fin 64)
  /-- VECTOR_COMPLETE (R194): A vector instruction writes its destination lanes and ORs its flags into the issuer's FPCR. -/
  | vectorComplete (c : Fin 64) (i : Nat)
  /-- MATRIX_START (R240): A queued matrix instruction starts on its unit once its hazards clear, taking its locks. -/
  | matrixStart (c : Fin 64) (i : Nat)
  /-- MATRIX_COMPLETE (R241): A matrix instruction completes at start plus latency, and its tile or plane results stand. -/
  | matrixComplete (c : Fin 64) (i : Nat)
  /-- LOCK_CLEAR (R242): A live lock clears, and the writes it held are performed. -/
  | lockClear (c : Fin 64) (i : Nat)
  /-- COPY_START (R269): A queued copy starts and performs its units in order, converting formats. -/
  | copyStart (c : Fin 64) (i : Nat)
  /-- COPY_PIECE_POST (R267): The copy engine posts the byte count of a run of performed units to its barrier. -/
  | copyPiecePost (c : Fin 64) (i : Nat)
  /-- COPY_COMPLETE (R260): A copy completes; a producer sets TAG and FULL and clears PEND. -/
  | copyComplete (c : Fin 64) (i : Nat)
  /-- ARRIVE_EVENT (R282): An arrival reaches a barrier slot and decrements ACNT or marks an overrun, then checks for completion. -/
  | arriveEvent (c : Fin 64) (i : Nat)
  /-- BYTES_EVENT (R282): A byte piece reaches a barrier slot and lowers BCNT, then checks for completion. -/
  | bytesEvent (c : Fin 64) (i : Nat)
  /-- POST_EVENT (R282): A post of expected bytes reaches a barrier slot, raises BCNT, sets BPOST and checks for completion. -/
  | postEvent (c : Fin 64) (i : Nat)
  /-- HANDLE_RESOLVE (R285): The first use of a barrier handle reads the directory entry and caches the slot location. -/
  | handleResolve (c : Fin 64) (h : Nat)
  /-- LINK_PUSH_LAND (R296): A link push lands at the home ring in claim order, or is discarded with DROP. -/
  | linkPushLand (c : Fin 64) (i : Nat)
  /-- FW_START (R323): A queued fast-weight form starts, rejudges its handle, waits for page-in, and applies the SPEC and slab-copy rules. -/
  | fwStart (c : Fin 64)
  /-- FW_COMPLETE (R313): A fast-weight form completes and writes its result or failure to gD. -/
  | fwComplete (c : Fin 64)
  /-- FW_DIRECTORY_RESOLVE (R308): The first use of a fast-weight handle reads the directory and caches the result. -/
  | fwDirectoryResolve (c : Fin 64)
  /-- FW_PAGE_IN_DONE (R311): The pager brings a paged-out state back into Grotto, and the waiting instruction proceeds. -/
  | fwPageInDone (c : Fin 64)
  /-- FW_TRANSFER_COMPLETE (R335): The pager transfer of FW.MIG or FW.PAGE ends and writes its result to gD, or holds it until the resume. -/
  | fwTransferComplete (i : Nat)
  /-- SEQ_START (R342): A queued sequence form starts in its lane and takes the context LOCK. -/
  | seqStart (c : Fin 64) (i : Nat)
  /-- SEQ_COMPLETE (R345): A sequence form makes its record and journal changes in one step, clears LOCK and writes gD. -/
  | seqComplete (c : Fin 64) (i : Nat)
  /-- SINK_BLOCK_PROCESS (R365): A landed logit block whose mask slot is ready is written back as y and folded into m and S. -/
  | sinkBlockProcess (bd : Fin 8) (row : Nat) (blk : Nat)
  /-- SQ_RECORD_LAND (R369): A speculation-queue record lands whole in the receiver's ring in SEQ order. -/
  | sqRecordLand (c : Fin 64) (i : Nat)
  /-- DISPATCH_ROUND (R383): Every 64 cycles a die dispatcher chooses tasks for its freed cores by priority and pass. -/
  | dispatchRound (die : Fin 4)
  /-- TASK_FIRST_ISSUE (R385): 2,600 cycles after the team forms, the role threads start at their entry headers. -/
  | taskFirstIssue (task : Nat)
  /-- PREEMPT_ESCALATE (R389): An ordinary pre-emption not complete within 65,536 cycles becomes urgent. -/
  | preemptEscalate (task : Nat)
  /-- TASK_SAVE (R391): After the drain, the team releases at .pk and each core writes its state to its save block. -/
  | taskSave (task : Nat)
  /-- TASK_RESUME (R393): A saved team is reloaded on chosen cores, held barrier events are applied, and the threads restart. -/
  | taskResume (task : Nat)
  /-- TASK_END (R408): When L, C and S have ended, the task drains, releases at .pk, advances NCHUNK, signals SIGM and frees its cores. -/
  | taskEnd (task : Nat)
  /-- TRAP_DELIVERY (R399): After outstanding results are written, a trap is delivered either to T or to the host as a host event. -/
  | trapDelivery (c : Fin 64)
  /-- HOST_EVENT_POST (R435): T posts a 64-byte host event with a release at .sy once the ring has room, and raises MSI-X vector 2. -/
  | hostEventPost
  /-- WATCHDOG_EXPIRY (R402): A role thread blocked for WDOG × 1,024 cycles raises WATCH at the blocked word. -/
  | watchdogExpiry (c : Fin 64) (r : Role)
  /-- T_WATCHDOG_EXPIRY (R400): T running longer than WDOG × 1,024 cycles ends the task FAULTED, or halts it under DEBUG. -/
  | tWatchdogExpiry (c : Fin 64)
  /-- SAFE_COUNT_EXPIRY (R388): The 16,385th retirement without a safe point raises SAFE instead of retiring. -/
  | safeCountExpiry (c : Fin 64) (r : Role)
  /-- JMP (R85): Jumps to a block header at a 25-bit halfword offset. -/
  | jmp (o : Fin 33554432)
  /-- CALL (R85): Sets g31 to the next block's header and jumps to an entry header. -/
  | call (o : Fin 33554432)
  /-- CONDITIONAL_BRANCH (R86): Compares two g registers under COND and branches to a header when the condition holds. -/
  | conditionalBranch (c : Fin 8) (a : Fin 32) (b : Fin 32) (o : Fin 4096)
  /-- NOP (R90): 32-bit form with no effect. -/
  | nop
  /-- NOP_H16 (R90): 16-bit form with no effect. -/
  | nopH16
  /-- RET (R88): Jumps to g31. -/
  | ret
  /-- JR (R88): Jumps to the address in a g register. -/
  | jr (a : Fin 32)
  /-- CALLR (R88): Reads its target from a g register, writes g31 and jumps. -/
  | callr (a : Fin 32)
  /-- BRK (R91): Raises BRK with a 14-bit code. -/
  | brk (c : Fin 16384)
  /-- CSRR (R99): Reads a control and status register into a g register. -/
  | csrr (d : Fin 32) (n : Fin 128)
  /-- CSRW (R99): Writes the writable fields of a control and status register. -/
  | csrw (a : Fin 32) (n : Fin 128)
  /-- ADD (R93): a + b mod 2^64. -/
  | add (d : Dst) (a : Src) (b : Src)
  /-- SUB (R93): a − b mod 2^64. -/
  | sub (d : Dst) (a : Src) (b : Src)
  /-- AND (R93): Bitwise and. -/
  | and (d : Dst) (a : Src) (b : Src)
  /-- OR (R93): Bitwise or. -/
  | or (d : Dst) (a : Src) (b : Src)
  /-- XOR (R93): Bitwise exclusive or. -/
  | xor (d : Dst) (a : Src) (b : Src)
  /-- ANDN (R93): a and not b. -/
  | andn (d : Dst) (a : Src) (b : Src)
  /-- MIN (R93): Signed minimum. -/
  | min (d : Dst) (a : Src) (b : Src)
  /-- MAX (R93): Signed maximum. -/
  | max (d : Dst) (a : Src) (b : Src)
  /-- MINN (R93): Unsigned minimum. -/
  | minn (d : Dst) (a : Src) (b : Src)
  /-- MAXN (R93): Unsigned maximum. -/
  | maxn (d : Dst) (a : Src) (b : Src)
  /-- SH1ADD (R93): a + (b << 1). -/
  | sh1add (d : Dst) (a : Src) (b : Src)
  /-- SH2ADD (R93): a + (b << 2). -/
  | sh2add (d : Dst) (a : Src) (b : Src)
  /-- SH3ADD (R93): a + (b << 3). -/
  | sh3add (d : Dst) (a : Src) (b : Src)
  /-- SH4ADD (R93): a + (b << 4). -/
  | sh4add (d : Dst) (a : Src) (b : Src)
  /-- ADDI (R94): Adds a sign-extended 10-bit immediate. -/
  | addi (d : Dst) (a : Src) (i : Fin 1024)
  /-- ANDI (R94): Ands a sign-extended immediate. -/
  | andi (d : Dst) (a : Src) (i : Fin 1024)
  /-- ORI (R94): Ors a sign-extended immediate. -/
  | ori (d : Dst) (a : Src) (i : Fin 1024)
  /-- SLLI (R94): Shift left by an immediate. -/
  | slli (d : Dst) (a : Src) (s : Fin 64)
  /-- SRLI (R94): Logical shift right by an immediate. -/
  | srli (d : Dst) (a : Src) (s : Fin 64)
  /-- SRAI (R94): Arithmetic shift right by an immediate. -/
  | srai (d : Dst) (a : Src) (s : Fin 64)
  /-- RORI (R94): Rotate right by an immediate. -/
  | rori (d : Dst) (a : Src) (s : Fin 64)
  /-- LIH (R98): Loads a sign-extended 20-bit immediate × 1,024. -/
  | lih (d : Fin 32) (i : Fin 1048576)
  /-- SLL (R95): a << (b and 63). -/
  | sll (d : Dst) (a : Src) (b : Src)
  /-- SRL (R95): Logical shift right by (b and 63). -/
  | srl (d : Dst) (a : Src) (b : Src)
  /-- SRA (R95): Arithmetic shift right by (b and 63). -/
  | sra (d : Dst) (a : Src) (b : Src)
  /-- ROR (R95): Rotate right by (b and 63). -/
  | ror (d : Dst) (a : Src) (b : Src)
  /-- CLZ (R95): Counts leading zero bits. -/
  | clz (d : Dst) (a : Src)
  /-- CTZ (R95): Counts trailing zero bits. -/
  | ctz (d : Dst) (a : Src)
  /-- POPC (R95): Counts one bits. -/
  | popc (d : Dst) (a : Src)
  /-- SEL (R96): Selects a or b by the old value of gd. -/
  | sel (d : Fin 32) (a : Src) (b : Src)
  /-- SEQ (R95): 1 if a = b. -/
  | seq (d : Dst) (a : Src) (b : Src)
  /-- SNE (R95): 1 if a ≠ b. -/
  | sne (d : Dst) (a : Src) (b : Src)
  /-- SLT (R95): 1 if a < b signed. -/
  | slt (d : Dst) (a : Src) (b : Src)
  /-- SGE (R95): 1 if a ≥ b signed. -/
  | sge (d : Dst) (a : Src) (b : Src)
  /-- SLTN (R95): 1 if a < b unsigned. -/
  | sltn (d : Dst) (a : Src) (b : Src)
  /-- SGEN (R95): 1 if a ≥ b unsigned. -/
  | sgen (d : Dst) (a : Src) (b : Src)
  /-- EXT_I8 (R95): Sign-extends the low 8 bits. -/
  | extI8 (d : Dst) (a : Src)
  /-- EXT_I16 (R95): Sign-extends the low 16 bits. -/
  | extI16 (d : Dst) (a : Src)
  /-- EXT_I32 (R95): Sign-extends the low 32 bits. -/
  | extI32 (d : Dst) (a : Src)
  /-- EXT_N8 (R95): Zero-extends the low 8 bits. -/
  | extN8 (d : Dst) (a : Src)
  /-- EXT_N16 (R95): Zero-extends the low 16 bits. -/
  | extN16 (d : Dst) (a : Src)
  /-- EXT_N32 (R95): Zero-extends the low 32 bits. -/
  | extN32 (d : Dst) (a : Src)
  /-- MUL (R97): Low 64 bits of the product. -/
  | mul (d : Dst) (a : Src) (b : Src)
  /-- MULH (R97): High 64 bits of the signed product. -/
  | mulh (d : Dst) (a : Src) (b : Src)
  /-- MULHN (R97): High 64 bits of the unsigned product. -/
  | mulhn (d : Dst) (a : Src) (b : Src)
  /-- DIV (R97): Signed quotient, with defined results for zero and overflow. -/
  | div (d : Dst) (a : Src) (b : Src)
  /-- DIVN (R97): Unsigned quotient. -/
  | divn (d : Dst) (a : Src) (b : Src)
  /-- REM (R97): Signed remainder. -/
  | rem (d : Dst) (a : Src) (b : Src)
  /-- REMN (R97): Unsigned remainder. -/
  | remn (d : Dst) (a : Src) (b : Src)
  /-- MOV_H16 (R33): 16-bit form of or g, gB, g0. -/
  | movH16 (g : Fin 32) (b : Fin 32)
  /-- LI_H16 (R33): 16-bit form of addi g, g0, imm. -/
  | liH16 (g : Fin 32) (i : Fin 64)
  /-- ADDI_H16 (R33): 16-bit form of addi g, g, imm. -/
  | addiH16 (g : Fin 32) (i : Fin 64)
  /-- ADD_H16 (R33): 16-bit form of add g, g, gB. -/
  | addH16 (g : Fin 32) (b : Fin 32)
  /-- SUB_H16 (R33): 16-bit form of sub g, g, gB. -/
  | subH16 (g : Fin 32) (b : Fin 32)
  /-- AND_H16 (R33): 16-bit form of and g, g, gB. -/
  | andH16 (g : Fin 32) (b : Fin 32)
  /-- OR_H16 (R33): 16-bit form of or g, g, gB. -/
  | orH16 (g : Fin 32) (b : Fin 32)
  /-- XOR_H16 (R33): 16-bit form of xor g, g, gB. -/
  | xorH16 (g : Fin 32) (b : Fin 32)
  /-- SLLI_H16 (R33): 16-bit form of slli g, g, imm. -/
  | slliH16 (g : Fin 32) (i : Fin 64)
  /-- SRLI_H16 (R33): 16-bit form of srli g, g, imm. -/
  | srliH16 (g : Fin 32) (i : Fin 64)
  /-- SRAI_H16 (R33): 16-bit form of srai g, g, imm. -/
  | sraiH16 (g : Fin 32) (i : Fin 64)
  /-- MUL_H16 (R33): 16-bit form of mul g, g, gB. -/
  | mulH16 (g : Fin 32) (b : Fin 32)
  /-- LD_N8 (R116): Loads a byte zero-extended. -/
  | ldN8 (d : Dst) (a : Src) (o : Fin 512)
  /-- LD_I8 (R116): Loads a byte sign-extended. -/
  | ldI8 (d : Dst) (a : Src) (o : Fin 512)
  /-- LD_N16 (R116): Loads a halfword zero-extended. -/
  | ldN16 (d : Dst) (a : Src) (o : Fin 512)
  /-- LD_I16 (R116): Loads a halfword sign-extended. -/
  | ldI16 (d : Dst) (a : Src) (o : Fin 512)
  /-- LD_N32 (R116): Loads a word zero-extended. -/
  | ldN32 (d : Dst) (a : Src) (o : Fin 512)
  /-- LD_I32 (R116): Loads a word sign-extended. -/
  | ldI32 (d : Dst) (a : Src) (o : Fin 512)
  /-- LD_64 (R116): Loads a doubleword. -/
  | ld64 (d : Dst) (a : Src) (o : Fin 512)
  /-- ST_8 (R117): Stores a byte. -/
  | st8 (s : Fin 32) (a : Src) (i : Fin 1024)
  /-- ST_16 (R117): Stores a halfword. -/
  | st16 (s : Fin 32) (a : Src) (i : Fin 1024)
  /-- ST_32 (R117): Stores a word. -/
  | st32 (s : Fin 32) (a : Src) (i : Fin 1024)
  /-- ST_64 (R117): Stores a doubleword. -/
  | st64 (s : Fin 32) (a : Src) (i : Fin 1024)
  /-- VLD (R119): Loads a vector register from contiguous lanes. -/
  | vld (g : Guard) (d : Fin 64) (b : Fin 32)
  /-- VST (R119): Stores a vector register to contiguous lanes. -/
  | vst (g : Guard) (d : Fin 64) (b : Fin 32)
  /-- VLD_S (R118): Strided vector load. -/
  | vldS (g : Guard) (d : Fin 64) (s : Fin 32) (b : Fin 32)
  /-- VST_S (R118): Strided vector store. -/
  | vstS (g : Guard) (d : Fin 64) (s : Fin 32) (b : Fin 32)
  /-- VLD_G (R118): Gather load by a vector of indices. -/
  | vldG (g : Guard) (d : Fin 64) (i : Fin 64) (b : Fin 32)
  /-- VST_X (R118): Scatter store by a vector of indices. -/
  | vstX (g : Guard) (d : Fin 64) (i : Fin 64) (b : Fin 32)
  /-- VLD_B (R118): Loads one 256-byte row into every row. -/
  | vldB (g : Guard) (d : Fin 64) (b : Fin 32)
  /-- AADD (R121): Atomic add at the L2 home slice. -/
  | aadd (w : Fin 2) (a : Fin 32) (b : Fin 32) (d : Fin 32) (o : Fin 4) (s : Fin 8)
  /-- AAND (R121): Atomic and at the L2 home slice. -/
  | aand (w : Fin 2) (a : Fin 32) (b : Fin 32) (d : Fin 32) (o : Fin 4) (s : Fin 8)
  /-- AOR (R121): Atomic or at the L2 home slice. -/
  | aor (w : Fin 2) (a : Fin 32) (b : Fin 32) (d : Fin 32) (o : Fin 4) (s : Fin 8)
  /-- AXOR (R121): Atomic xor at the L2 home slice. -/
  | axor (w : Fin 2) (a : Fin 32) (b : Fin 32) (d : Fin 32) (o : Fin 4) (s : Fin 8)
  /-- AMIN_I (R121): Atomic signed minimum at L2. -/
  | aminI (w : Fin 2) (a : Fin 32) (b : Fin 32) (d : Fin 32) (o : Fin 4) (s : Fin 8)
  /-- AMIN_N (R121): Atomic unsigned minimum at L2. -/
  | aminN (w : Fin 2) (a : Fin 32) (b : Fin 32) (d : Fin 32) (o : Fin 4) (s : Fin 8)
  /-- AMAX_I (R121): Atomic signed maximum at L2. -/
  | amaxI (w : Fin 2) (a : Fin 32) (b : Fin 32) (d : Fin 32) (o : Fin 4) (s : Fin 8)
  /-- AMAX_N (R121): Atomic unsigned maximum at L2. -/
  | amaxN (w : Fin 2) (a : Fin 32) (b : Fin 32) (d : Fin 32) (o : Fin 4) (s : Fin 8)
  /-- SWAP (R121): Atomic swap at L2. -/
  | swap (w : Fin 2) (a : Fin 32) (b : Fin 32) (d : Fin 32) (o : Fin 4) (s : Fin 8)
  /-- CAS_64 (R122): 64-bit compare and swap at L2. -/
  | cas64 (a : Fin 32) (b : Fin 32) (d : Fin 32) (o : Fin 4) (s : Fin 8)
  /-- CAS_128 (R122): 128-bit compare and swap at L2. -/
  | cas128 (a : Fin 32) (b : Fin 16) (d : Fin 16) (o : Fin 4) (s : Fin 8)
  /-- AADD_MS (R121): Atomic add in the base die. -/
  | aaddMs (w : Fin 2) (a : Fin 32) (b : Fin 32) (d : Fin 32) (o : Fin 4) (s : Fin 8)
  /-- AAND_MS (R121): Atomic and in the base die. -/
  | aandMs (w : Fin 2) (a : Fin 32) (b : Fin 32) (d : Fin 32) (o : Fin 4) (s : Fin 8)
  /-- AOR_MS (R121): Atomic or in the base die. -/
  | aorMs (w : Fin 2) (a : Fin 32) (b : Fin 32) (d : Fin 32) (o : Fin 4) (s : Fin 8)
  /-- AXOR_MS (R121): Atomic xor in the base die. -/
  | axorMs (w : Fin 2) (a : Fin 32) (b : Fin 32) (d : Fin 32) (o : Fin 4) (s : Fin 8)
  /-- AMIN_I_MS (R121): Atomic signed minimum in the base die. -/
  | aminIMs (w : Fin 2) (a : Fin 32) (b : Fin 32) (d : Fin 32) (o : Fin 4) (s : Fin 8)
  /-- AMIN_N_MS (R121): Atomic unsigned minimum in the base die. -/
  | aminNMs (w : Fin 2) (a : Fin 32) (b : Fin 32) (d : Fin 32) (o : Fin 4) (s : Fin 8)
  /-- AMAX_I_MS (R121): Atomic signed maximum in the base die. -/
  | amaxIMs (w : Fin 2) (a : Fin 32) (b : Fin 32) (d : Fin 32) (o : Fin 4) (s : Fin 8)
  /-- AMAX_N_MS (R121): Atomic unsigned maximum in the base die. -/
  | amaxNMs (w : Fin 2) (a : Fin 32) (b : Fin 32) (d : Fin 32) (o : Fin 4) (s : Fin 8)
  /-- SWAP_MS (R121): Atomic swap in the base die. -/
  | swapMs (w : Fin 2) (a : Fin 32) (b : Fin 32) (d : Fin 32) (o : Fin 4) (s : Fin 8)
  /-- CAS_64_MS (R122): 64-bit compare and swap in the base die. -/
  | cas64Ms (a : Fin 32) (b : Fin 32) (d : Fin 32) (o : Fin 4) (s : Fin 8)
  /-- CAS_128_MS (R122): 128-bit compare and swap in the base die. -/
  | cas128Ms (a : Fin 32) (b : Fin 16) (d : Fin 16) (o : Fin 4) (s : Fin 8)
  /-- PF (R124): Prefetches up to 1,024 lines to the home slice and optionally L1. -/
  | pf (a : Fin 32) (b : Fin 32) (l : Fin 2)
  /-- WAITA (R125): Arms a watch on a line and blocks until a wake cause. -/
  | waita (a : Fin 32) (b : Fin 32) (d : Fin 32) (c : Fin 2)
  /-- ACQ (R147): Acquire at the given scope. -/
  | acq (s : Fin 8)
  /-- REL (R148): Release at the given scope, with the ENG check at .di or wider. -/
  | rel (s : Fin 8)
  /-- FEN (R148): Release, then acquire, at the given scope. -/
  | fen (s : Fin 8)
  /-- EFEN (R151): Waits for the thread's asynchronous instructions of the selected classes, raising ENG on a record. -/
  | efen (f : Fin 32)
  /-- TLB_INV (R183): Drops TLB entries of a page, range, ASID or everything within a scope. -/
  | tlbInv (a : Fin 32) (b : Fin 32) (k : Fin 4) (s : Fin 8)
  /-- TLB_SYNC (R184): Waits for earlier TLB.INVs to complete, then bumps L1GEN in their scope. -/
  | tlbSync
  /-- PG_MIG (R186): Requests migration of a page to a tier and stack, waiting with .w. -/
  | pgMig (a : Fin 32) (b : Fin 32) (d : Fin 32) (w : Fin 2)
  /-- PG_PIN (R187): Sets or clears PIN on a leaf. -/
  | pgPin (a : Fin 32) (d : Fin 32) (c : Fin 2)
  /-- PG_PROBE (R185): Walks an address and returns the leaf or the fault found. -/
  | pgProbe (a : Fin 32) (d : Fin 32)
  /-- FC_INC (R188): Adds to a frame's reference count. -/
  | fcInc (a : Fin 32) (b : Fin 32) (d : Fin 32)
  /-- FC_DEC (R188): Subtracts from a frame's reference count. -/
  | fcDec (a : Fin 32) (b : Fin 32) (d : Fin 32)
  /-- FC_READ (R188): Reads a frame's reference count. -/
  | fcRead (a : Fin 32) (d : Fin 32)
  /-- TQ_PUSH (R407): Pushes a task record onto a queue. -/
  | tqPush (a : Fin 32) (b : Fin 32) (d : Fin 32)
  /-- TK_END (R408): Ends the issuing role thread after draining its work. -/
  | tkEnd
  /-- TK_YIELD (R409): Safe point that requests an ordinary pre-emption. -/
  | tkYield (a : Fin 32)
  /-- TK_CANCEL (R410): Cancels a task or a record not yet taken. -/
  | tkCancel (a : Fin 32) (d : Fin 32)
  /-- SAFEPT (R411): Safe point with a live-register mask. -/
  | safept (c : Fin 1048576)
  /-- TRAP (R412): Raises SYS with a code. -/
  | trap (c : Fin 1048576)
  /-- TRET (R413): Returns from a trap to the served thread. -/
  | tret
  /-- SYS_RD (R414): Reads a system register. -/
  | sysRd (a : Fin 32) (d : Fin 32)
  /-- SYS_WR (R414): Writes a system register. -/
  | sysWr (a : Fin 32) (b : Fin 32)
  /-- ENG_RPL (R415): Replays engine fault records. -/
  | engRpl (a : Fin 32) (d : Fin 32)
  /-- ENG_DROP (R415): Discards engine fault records. -/
  | engDrop (a : Fin 32) (d : Fin 32)
  /-- TQ_CFG (R416): Configures a queue from an image. -/
  | tqCfg (a : Fin 32) (b : Fin 32) (d : Fin 32)
  /-- TQ_KILL (R416): Marks a queue DEAD. -/
  | tqKill (a : Fin 32) (d : Fin 32)
  /-- TK_PRE (R417): Requests ordinary or urgent pre-emption of a task. -/
  | tkPre (a : Fin 32) (d : Fin 32) (u : Fin 2)
  /-- HOST_WRITE (R139): A host write over CXL.cache or CXL.mem is performed at .sy when the host's coherence protocol completes it, leaving no older copy in any L2 slice. -/
  | hostWrite (pa : Nat) (bytes : List (BitVec 8))
  /-- CXL_SNOOP (R134): A back-invalidate or CXL.cache snoop from the host reaches the package and is applied in the L2 slices. -/
  | cxlSnoop (pa : Nat)
  /-- HOST_LINK_UP (R437): The host link returns after a drop, ending the stall of releases at .sy and the DIEX completions to host memory. -/
  | hostLinkUp
  /-- PORT_LINK_CHANGE (R437): An Ethernet port links or drops, or its MACsec association goes live or dead, which makes a route up or down. -/
  | portLinkChange (port : Fin 8) (assoc : Option Nat) (up : Bool)
  /-- REMOTE_COPY_RECEIVE (R273): Units of a remote copy or a fast-weight migration from another chip arrive over Ethernet and are written, acknowledged or faulted here. -/
  | remoteCopyReceive (u : FarUnit)
  /-- SEM_EVENT_LAND (R292): A posted SEM.SET or SEM.ADD lands at a semaphore slot of another core, changes SVAL and completes the waiters it satisfies. -/
  | semEventLand (c : Fin 64) (i : Nat)
  /-- SOFT_ERROR (R29): An SRAM, L2, HBM4E or LPDDR6 array suffers an error that ECC corrects, counting toward the trend, or cannot correct, which poisons the line. `place`: the address, the pool offset, or the number of the unit, tile or slab. -/
  | softError (place : Nat) (x : ErrArray) (fixed : Bool)
  /-- L2_LINE_EVICTION (R115): The L2 evicts a line at any time, writing it back, so that later accesses take the tier's time. -/
  | l2LineEviction (pa : Nat)
  /-- L1_LINE_DROP (R110): The L1 drops any line at any moment, so a later load misses. -/
  | l1LineDrop (c : Fin 64) (line : Nat)
  deriving DecidableEq, Repr

end Sys2Proof
end

