-- ==== Sys2Proof/WellFormed.lean ====
section
/-! DEFINITION. Which instructions have a word: the operand values that the encoding strips and the rows of spec/ exclude by
ILL 0x03 to 0x06 (R47) though the operand types would hold them. Events are well formed whatever they carry. -/
namespace Sys2Proof

/-- CSR numbers R100 lists; any other raises ILL 0x03 (R99). -/
def csrKnown : List Nat :=
  [0x00, 0x01, 0x02, 0x08, 0x09, 0x0A, 0x0B, 0x10, 0x11, 0x12, 0x13, 0x14, 0x18, 0x20, 0x21, 0x22, 0x23,
   0x30, 0x31, 0x32, 0x33, 0x34, 0x35, 0x36, 0x37, 0x38]

def csrUnknown (n : Nat) : Bool := !(csrKnown.contains n)

/-- FMTB, FMTA pairs R233 does not list (R245). -/
def pairBad (a b : Nat) : Bool :=
  !(((a == 4 || a == 5) && (b == 4 || b == 5)) || (a == b && (a == 2 || a == 6 || a == 7 || a == 8)))

/-- The instruction has an encoding that R47 does not refuse before issue. -/
def WellFormed : Instr → Bool
  | .packageReset => true
  | .powerOff => true
  | .chipletAttestation _ _ _ => true
  | .flitTagFailure _ => true
  | .keyRolloverStart _ => true
  | .keyRolloverAck _ => true
  | .drainMarker _ => true
  | .rolloverSendStop _ => true
  | .rolloverStopTimeout _ => true
  | .dieReadmission _ => true
  | .routeResend _ _ => true
  | .hostLinkDown => true
  | .syswr _ _ => true
  | .tlbinv _ _ _ => true
  | .feat _ _ => true
  | .answer _ _ _ _ => true
  | .lists _ => true
  | .route _ _ _ _ => true
  | .preempt _ => true
  | .dierst _ => true
  | .lcs _ _ => true
  | .age => true
  | .attest _ => true
  | .ageUpdate _ => true
  | .blockFetch _ _ => true
  | .lineRequestReturn _ _ => true
  | .requestTableGrant _ => true
  | .storePerformed _ _ _ => true
  | .atomicAtHome _ _ => true
  | .waitaWake _ _ => true
  | .waitaTimeout _ _ => true
  | .pageWalkComplete _ _ => true
  | .missTableGrant _ => true
  | .cowBreak _ _ => true
  | .pageMigrationComplete _ _ => true
  | .tlbInvComplete _ => true
  | .l1WrapClearDone _ => true
  | .vectorStart _ => true
  | .vectorComplete _ _ => true
  | .matrixStart _ _ => true
  | .matrixComplete _ _ => true
  | .lockClear _ _ => true
  | .copyStart _ _ => true
  | .copyPiecePost _ _ => true
  | .copyComplete _ _ => true
  | .arriveEvent _ _ => true
  | .bytesEvent _ _ => true
  | .postEvent _ _ => true
  | .handleResolve _ _ => true
  | .linkPushLand _ _ => true
  | .fwStart _ => true
  | .fwComplete _ => true
  | .fwDirectoryResolve _ => true
  | .fwPageInDone _ => true
  | .fwTransferComplete _ => true
  | .seqStart _ _ => true
  | .seqComplete _ _ => true
  | .sinkBlockProcess _ _ _ => true
  | .sqRecordLand _ _ => true
  | .dispatchRound _ => true
  | .taskFirstIssue _ => true
  | .preemptEscalate _ => true
  | .taskSave _ => true
  | .taskResume _ => true
  | .taskEnd _ => true
  | .trapDelivery _ => true
  | .hostEventPost => true
  | .watchdogExpiry _ _ => true
  | .tWatchdogExpiry _ => true
  | .safeCountExpiry _ _ => true
  | .jmp _ => true
  | .call _ => true
  | .conditionalBranch c _ _ _ => decide (¬ (6 ≤ c.val))
  | .nop => true
  | .nopH16 => true
  | .ret => true
  | .jr _ => true
  | .callr _ => true
  | .brk _ => true
  | .csrr _ n => decide (¬ (csrUnknown n.val = true))
  | .csrw _ n => decide (¬ (csrUnknown n.val = true))
  | .add _ _ _ => true
  | .sub _ _ _ => true
  | .and _ _ _ => true
  | .or _ _ _ => true
  | .xor _ _ _ => true
  | .andn _ _ _ => true
  | .min _ _ _ => true
  | .max _ _ _ => true
  | .minn _ _ _ => true
  | .maxn _ _ _ => true
  | .sh1add _ _ _ => true
  | .sh2add _ _ _ => true
  | .sh3add _ _ _ => true
  | .sh4add _ _ _ => true
  | .addi _ _ _ => true
  | .andi _ _ _ => true
  | .ori _ _ _ => true
  | .slli _ _ _ => true
  | .srli _ _ _ => true
  | .srai _ _ _ => true
  | .rori _ _ _ => true
  | .lih _ _ => true
  | .sll _ _ _ => true
  | .srl _ _ _ => true
  | .sra _ _ _ => true
  | .ror _ _ _ => true
  | .clz _ _ => true
  | .ctz _ _ => true
  | .popc _ _ => true
  | .sel _ _ _ => true
  | .seq _ _ _ => true
  | .sne _ _ _ => true
  | .slt _ _ _ => true
  | .sge _ _ _ => true
  | .sltn _ _ _ => true
  | .sgen _ _ _ => true
  | .extI8 _ _ => true
  | .extI16 _ _ => true
  | .extI32 _ _ => true
  | .extN8 _ _ => true
  | .extN16 _ _ => true
  | .extN32 _ _ => true
  | .mul _ _ _ => true
  | .mulh _ _ _ => true
  | .mulhn _ _ _ => true
  | .div _ _ _ => true
  | .divn _ _ _ => true
  | .rem _ _ _ => true
  | .remn _ _ _ => true
  | .movH16 g _ => decide (¬ (g.val = 0))
  | .liH16 g _ => decide (¬ (g.val = 0))
  | .addiH16 g _ => decide (¬ (g.val = 0))
  | .addH16 g _ => decide (¬ (g.val = 0))
  | .subH16 g _ => decide (¬ (g.val = 0))
  | .andH16 g _ => decide (¬ (g.val = 0))
  | .orH16 g _ => decide (¬ (g.val = 0))
  | .xorH16 g _ => decide (¬ (g.val = 0))
  | .slliH16 g _ => decide (¬ (g.val = 0))
  | .srliH16 g _ => decide (¬ (g.val = 0))
  | .sraiH16 g _ => decide (¬ (g.val = 0))
  | .mulH16 g _ => decide (¬ (g.val = 0))
  | .ldN8 _ _ _ => true
  | .ldI8 _ _ _ => true
  | .ldN16 _ _ _ => true
  | .ldI16 _ _ _ => true
  | .ldN32 _ _ _ => true
  | .ldI32 _ _ _ => true
  | .ld64 _ _ _ => true
  | .st8 _ _ _ => true
  | .st16 _ _ _ => true
  | .st32 _ _ _ => true
  | .st64 _ _ _ => true
  | .vld _ _ _ => true
  | .vst _ _ _ => true
  | .vldS _ _ _ _ => true
  | .vstS _ _ _ _ => true
  | .vldG _ _ _ _ => true
  | .vstX _ _ _ _ => true
  | .vldB _ _ _ => true
  | .aadd _ _ _ _ o s => decide (¬ ((6 ≤ s.val ∨ (o.val = 0 ∧ s.val ≠ 0))))
  | .aand _ _ _ _ o s => decide (¬ ((6 ≤ s.val ∨ (o.val = 0 ∧ s.val ≠ 0))))
  | .aor _ _ _ _ o s => decide (¬ ((6 ≤ s.val ∨ (o.val = 0 ∧ s.val ≠ 0))))
  | .axor _ _ _ _ o s => decide (¬ ((6 ≤ s.val ∨ (o.val = 0 ∧ s.val ≠ 0))))
  | .aminI _ _ _ _ o s => decide (¬ ((6 ≤ s.val ∨ (o.val = 0 ∧ s.val ≠ 0))))
  | .aminN _ _ _ _ o s => decide (¬ ((6 ≤ s.val ∨ (o.val = 0 ∧ s.val ≠ 0))))
  | .amaxI _ _ _ _ o s => decide (¬ ((6 ≤ s.val ∨ (o.val = 0 ∧ s.val ≠ 0))))
  | .amaxN _ _ _ _ o s => decide (¬ ((6 ≤ s.val ∨ (o.val = 0 ∧ s.val ≠ 0))))
  | .swap _ _ _ _ o s => decide (¬ ((6 ≤ s.val ∨ (o.val = 0 ∧ s.val ≠ 0))))
  | .cas64 _ _ _ o s => decide (¬ ((6 ≤ s.val ∨ (o.val = 0 ∧ s.val ≠ 0))))
  | .cas128 _ _ d o s => decide (¬ ((6 ≤ s.val ∨ (o.val = 0 ∧ s.val ≠ 0)) ∨ d.val = 0))
  | .aaddMs _ _ _ _ o s => decide (¬ ((6 ≤ s.val ∨ (o.val = 0 ∧ s.val ≠ 0))))
  | .aandMs _ _ _ _ o s => decide (¬ ((6 ≤ s.val ∨ (o.val = 0 ∧ s.val ≠ 0))))
  | .aorMs _ _ _ _ o s => decide (¬ ((6 ≤ s.val ∨ (o.val = 0 ∧ s.val ≠ 0))))
  | .axorMs _ _ _ _ o s => decide (¬ ((6 ≤ s.val ∨ (o.val = 0 ∧ s.val ≠ 0))))
  | .aminIMs _ _ _ _ o s => decide (¬ ((6 ≤ s.val ∨ (o.val = 0 ∧ s.val ≠ 0))))
  | .aminNMs _ _ _ _ o s => decide (¬ ((6 ≤ s.val ∨ (o.val = 0 ∧ s.val ≠ 0))))
  | .amaxIMs _ _ _ _ o s => decide (¬ ((6 ≤ s.val ∨ (o.val = 0 ∧ s.val ≠ 0))))
  | .amaxNMs _ _ _ _ o s => decide (¬ ((6 ≤ s.val ∨ (o.val = 0 ∧ s.val ≠ 0))))
  | .swapMs _ _ _ _ o s => decide (¬ ((6 ≤ s.val ∨ (o.val = 0 ∧ s.val ≠ 0))))
  | .cas64Ms _ _ _ o s => decide (¬ ((6 ≤ s.val ∨ (o.val = 0 ∧ s.val ≠ 0))))
  | .cas128Ms _ _ d o s => decide (¬ ((6 ≤ s.val ∨ (o.val = 0 ∧ s.val ≠ 0)) ∨ d.val = 0))
  | .pf _ _ _ => true
  | .waita _ _ _ _ => true
  | .acq s => decide (¬ (6 ≤ s.val))
  | .rel s => decide (¬ (6 ≤ s.val))
  | .fen s => decide (¬ (6 ≤ s.val))
  | .efen _ => true
  | .tlbInv _ _ _ s => decide (¬ ((s.val ≠ 1 ∧ s.val ≠ 3 ∧ s.val ≠ 4)))
  | .tlbSync => true
  | .pgMig _ _ _ _ => true
  | .pgPin _ _ _ => true
  | .pgProbe _ _ => true
  | .fcInc _ _ _ => true
  | .fcDec _ _ _ => true
  | .fcRead _ _ => true
  | .vaddI32 _ _ _ _ => true
  | .vsubI32 _ _ _ _ => true
  | .vmulI32 _ _ _ _ => true
  | .vmulhI32 _ _ _ _ => true
  | .vaddsI32 _ _ _ _ => true
  | .vsubsI32 _ _ _ _ => true
  | .vaddsN32 _ _ _ _ => true
  | .vsubsN32 _ _ _ _ => true
  | .vaddF32 _ _ _ _ => true
  | .vsubF32 _ _ _ _ => true
  | .vmulF32 _ _ _ _ => true
  | .vfmaF32 _ _ _ _ => true
  | .vfmsF32 _ _ _ _ => true
  | .vminF32 _ _ _ _ => true
  | .vmaxF32 _ _ _ _ => true
  | .vand _ _ _ => true
  | .vor _ _ _ => true
  | .vxor _ _ _ => true
  | .vandn _ _ _ => true
  | .vsll _ _ _ _ => true
  | .vsrl _ _ _ _ => true
  | .vsra _ _ _ _ => true
  | .vmov _ _ _ => true
  | .vcmpI32 _ k c _ _ => decide (¬ (6 ≤ k.val ∨ 6 ≤ c.val))
  | .vcmpF32 _ k _ _ _ => decide (¬ (6 ≤ k.val))
  | .vsel g _ _ _ => decide (¬ (g = .all))
  | .vminI32 _ _ _ _ => true
  | .vmaxI32 _ _ _ _ => true
  | .vminN32 _ _ _ _ => true
  | .vmaxN32 _ _ _ _ => true
  | .vrotrImm _ _ _ _ => true
  | .vrotrReg _ _ _ _ => true
  | .vrotcImm _ _ _ _ => true
  | .vrotcReg _ _ _ _ => true
  | .vbcrImm _ _ _ _ => true
  | .vbcrReg _ _ _ _ => true
  | .vbccImm _ _ _ _ => true
  | .vbccReg _ _ _ _ => true
  | .vrsumF32 _ _ _ => true
  | .vcsumF32 _ _ _ => true
  | .vrmaxF32 _ _ _ => true
  | .vcmaxF32 _ _ _ => true
  | .vrminF32 _ _ _ => true
  | .vcminF32 _ _ _ => true
  | .vrsumI32 _ _ _ => true
  | .vcsumI32 _ _ _ => true
  | .pand _ _ _ _ => true
  | .por _ _ _ _ => true
  | .pxor _ _ _ _ => true
  | .pandn _ _ _ _ => true
  | .pnez _ _ _ => true
  | .vmovp _ _ _ => true
  | .pset _ _ _ => true
  | .pfirst _ _ _ => true
  | .vlidx _ _ s => decide (¬ (s.val = 3))
  | .vextN32 _ _ _ => true
  | .vextI32 _ _ _ => true
  | .vins _ _ _ _ => true
  | .vbcg _ _ _ => true
  | .vmovi _ _ _ => true
  | .pcnt _ _ => true
  | .pfind _ _ => true
  | .vcvtBf16F32 _ _ a p s r => decide (¬ ((2 ≤ p.val ∨ (r.val = 7 ∧ s.val = 1)) ∨ (p.val = 1 ∧ a.val % 2 ≠ 0) ∨ r.val = 6))
  | .vcvtF16F32 _ _ a p s r => decide (¬ ((2 ≤ p.val ∨ (r.val = 7 ∧ s.val = 1)) ∨ (p.val = 1 ∧ a.val % 2 ≠ 0) ∨ r.val = 6))
  | .vcvtE4m3F32 _ _ a p s r => decide (¬ ((p.val = 1 ∨ p.val = 3 ∨ (r.val = 7 ∧ s.val = 1)) ∨ (p.val = 2 ∧ a.val % 4 ≠ 0) ∨ r.val = 6))
  | .vcvtE5m2F32 _ _ a p s r => decide (¬ ((p.val = 1 ∨ p.val = 3 ∨ (r.val = 7 ∧ s.val = 1)) ∨ (p.val = 2 ∧ a.val % 4 ≠ 0) ∨ r.val = 6))
  | .vcvtF32Bf16 _ d _ p => decide (¬ (2 ≤ p.val ∨ (p.val = 1 ∧ d.val % 2 ≠ 0)))
  | .vcvtF32F16 _ d _ p => decide (¬ (2 ≤ p.val ∨ (p.val = 1 ∧ d.val % 2 ≠ 0)))
  | .vcvtF32E4m3 _ d _ p => decide (¬ ((p.val = 1 ∨ p.val = 3) ∨ (p.val = 2 ∧ d.val % 4 ≠ 0)))
  | .vcvtF32E5m2 _ d _ p => decide (¬ ((p.val = 1 ∨ p.val = 3) ∨ (p.val = 2 ∧ d.val % 4 ≠ 0)))
  | .vcvtI32F32 _ _ _ r => decide (¬ (r.val = 6))
  | .vcvtN32F32 _ _ _ r => decide (¬ (r.val = 6))
  | .vcvtF32I32 _ _ _ r => decide (¬ (r.val = 6))
  | .vcvtF32N32 _ _ _ r => decide (¬ (r.val = 6))
  | .vrintF32 _ _ _ r => decide (¬ (r.val = 6))
  | .vcvtMxF32 _ _ m r => decide (¬ (m.val = 3 ∨ r.val = 6))
  | .vcvtF32Mx _ _ _ m => decide (¬ (m.val = 3))
  | .vexpF32 _ _ _ => true
  | .vexp2F32 _ _ _ => true
  | .vlog2F32 _ _ _ => true
  | .vrcpF32 _ _ _ => true
  | .vrsqrtF32 _ _ _ => true
  | .vsqrtF32 _ _ _ => true
  | .vtanhF32 _ _ _ => true
  | .vcmpr _ _ _ k s => decide (¬ ((s.val = 0 ∧ 8 ≤ k.val)))
  | .vtopkF32 _ _ _ k s => decide (¬ ((s.val = 0 ∧ 8 ≤ k.val)))
  | .vscanF32 _ _ _ _ _ => true
  | .vscanI32 _ _ _ _ _ => true
  | .vrandN32 _ _ _ => true
  | .vrandF32 _ _ _ => true
  | .vtopkI32 _ _ _ k s => decide (¬ ((s.val = 0 ∧ 8 ≤ k.val)))
  | .maMm _ _ _ _ _ _ => true
  | .maCfg a b => decide (¬ (pairBad a.val b.val = true))
  | .maLdb _ _ _ => true
  | .maLdw _ _ _ => true
  | .maZero _ => true
  | .maMovTv _ _ c _ => decide (¬ (c.val = 3))
  | .maMovVt _ _ c _ => decide (¬ (c.val = 3))
  | .maMovTp _ _ => true
  | .maMovSum _ s n => decide (¬ ((n.val = 0 ∨ 15 < s.val + n.val)))
  | .maWait _ => true
  | .maSave _ => true
  | .maRstr _ => true
  | .cpCopy _ _ => true
  | .cpCopyTs _ _ => true
  | .cpCopyRc _ _ _ => true
  | .cpGath _ _ _ _ => true
  | .cpScat _ _ _ => true
  | .cpFill _ _ _ _ => true
  | .tsDef _ _ => true
  | .tsRel _ _ => true
  | .tsStat _ _ f w => decide (¬ ((w.val = 1 ∧ f.val = 1)))
  | .barInit _ _ _ s => decide (¬ ((s.val = 0 ∨ 6 ≤ s.val)))
  | .barArr _ _ => true
  | .barWait _ _ _ => true
  | .barArw _ _ => true
  | .barExpb _ _ _ => true
  | .barStat _ _ _ => true
  | .barExp _ _ => true
  | .barUnex _ _ => true
  | .semInit _ _ _ s => decide (¬ ((s.val = 0 ∨ 6 ≤ s.val)))
  | .semSet _ _ _ => true
  | .semAdd _ _ _ => true
  | .semWge _ _ _ _ => true
  | .chCfg _ _ _ => true
  | .chReg _ _ => true
  | .chEos _ _ => true
  | .chTake d _ _ => decide (¬ (d.val = 0))
  | .chStat _ _ => true
  | .fwFu _ _ _ => true
  | .fwFwd _ _ _ => true
  | .fwUpd _ _ _ => true
  | .fwOpen _ _ => true
  | .fwClose _ _ => true
  | .fwFree _ _ => true
  | .fwPage _ b _ o => decide (¬ ((5 ≤ o.val ∨ (o.val ≤ 2 ∧ b.val ≠ 0))))
  | .fwStat _ _ => true
  | .fwSnap _ _ => true
  | .fwAvg _ _ _ => true
  | .fwRoll _ _ _ => true
  | .fwMig _ _ _ => true
  | .fwLogc _ _ _ => true
  | .fwLogd _ _ _ => true
  | .cxStart _ _ _ => true
  | .cxPause _ _ => true
  | .cxEnd _ _ => true
  | .cxFork _ _ _ => true
  | .cxCancel _ _ _ _ => true
  | .cxSpec _ _ _ => true
  | .cxCommit _ _ _ => true
  | .grBind _ _ _ => true
  | .grStep _ _ _ _ => true
  | .grMask _ _ => true
  | .grLatt _ _ _ => true
  | .grSave _ _ _ => true
  | .grFork _ _ _ => true
  | .grRoll _ _ _ => true
  | .skOpen _ _ => true
  | .skClose _ _ _ _ => true
  | .skDraw _ _ => true
  | .ltExp _ _ => true
  | .sqCfg _ _ _ => true
  | .sqSend _ _ _ => true
  | .sqRecv _ _ _ => true
  | .tqPush _ _ _ => true
  | .tkEnd => true
  | .tkYield _ => true
  | .tkCancel _ _ => true
  | .safept _ => true
  | .trap _ => true
  | .tret => true
  | .sysRd _ _ => true
  | .sysWr _ _ => true
  | .engRpl _ _ => true
  | .engDrop _ _ => true
  | .tqCfg _ _ _ => true
  | .tqKill _ _ => true
  | .tkPre _ _ _ => true
  | .hostWrite _ _ => true
  | .cxlSnoop _ => true
  | .hostLinkUp => true
  | .portLinkChange _ _ _ => true
  | .remoteCopyReceive _ => true
  | .semEventLand _ _ => true
  | .softError _ _ _ => true
  | .l2LineEviction _ => true
  | .l1LineDrop _ _ => true

end Sys2Proof
end

