-- ==== Sys2Proof/Decode.lean ====
section
/-! DEFINITION. The decoder of Oaner words, rejecting by the ILL detail of R47, and the encoder, both from the encoding strips
of the spec and its opcode table. A word is a natural number below 2^32 (2^16 for an H16 word); the checks of R47 that need
only the word (1 to 7) are made here in R47's order, the others where the word issues. -/
namespace Sys2Proof

-- Lean's compiler cannot build constructors beyond the 245th; the kernel can. The definitions reduce all the same.
noncomputable section

/-- Bits lo + n − 1 : lo of a word. -/
def fld (w lo n : Nat) : Nat := w / 2 ^ lo % 2 ^ n

/-- A 7-bit source spec with class 0 and its pop bit set is refused (R34). -/
def srcBad (x : Nat) : Bool := decide (x < 64) && decide (32 ≤ x)

def srcOf (x : Nat) : Src :=
  if x < 64 then .g (Fin.ofNat 32 x) else if x < 96 then .peek (Fin.ofNat 32 x) else .pop (Fin.ofNat 32 x)

def dstOf (x : Nat) : Dst := if x < 32 then .g (Fin.ofNat 32 x) else .ch (Fin.ofNat 32 x)

def guardOf (x : Nat) : Guard := if x < 12 then .p (Fin.ofNat 12 x) else .all

def predOf (x : Nat) : Fin 12 := Fin.ofNat 12 x

def srcBits : Src → Nat
  | .g i => i.val
  | .peek i => 64 + i.val
  | .pop i => 96 + i.val

def dstBits : Dst → Nat
  | .g i => i.val
  | .ch i => 32 + i.val

def guardBits : Guard → Nat
  | .p i => i.val
  | .all => 12

/-- MAJ 1: R85. -/
def decMaj1 (w : Nat) : Except Nat Instr :=
  .ok (.jmp (Fin.ofNat 33554432 (fld w 7 25)))

/-- MAJ 2: R85. -/
def decMaj2 (w : Nat) : Except Nat Instr :=
  .ok (.call (Fin.ofNat 33554432 (fld w 7 25)))

/-- MAJ 3: R86. -/
def decMaj3 (w : Nat) : Except Nat Instr :=
  if 6 ≤ fld w 7 3 then .error 6 else
  .ok (.conditionalBranch (Fin.ofNat 8 (fld w 7 3)) (Fin.ofNat 32 (fld w 10 5)) (Fin.ofNat 32 (fld w 15 5)) (Fin.ofNat 4096 (fld w 20 12)))

/-- MAJ 4: R88, R90, R91, R99. -/
def decMaj4 (w : Nat) : Except Nat Instr :=
  match fld w 7 5 with
  | 0 =>
      if fld w 12 20 ≠ 0 then .error 3 else
      .ok .nop
  | 1 =>
      if fld w 12 20 ≠ 0 then .error 3 else
      .ok .ret
  | 2 =>
      if fld w 12 6 ≠ 0 ∨ fld w 25 7 ≠ 0 then .error 3 else
      if fld w 23 2 ≠ 0 then .error 5 else
      .ok (.jr (Fin.ofNat 32 (fld w 18 5)))
  | 3 =>
      if fld w 12 6 ≠ 0 ∨ fld w 25 7 ≠ 0 then .error 3 else
      if fld w 23 2 ≠ 0 then .error 5 else
      .ok (.callr (Fin.ofNat 32 (fld w 18 5)))
  | 4 =>
      if fld w 12 6 ≠ 0 then .error 3 else
      .ok (.brk (Fin.ofNat 16384 (fld w 18 14)))
  | 5 =>
      if fld w 18 7 ≠ 0 ∨ csrUnknown (fld w 25 7) = true then .error 3 else
      if fld w 17 1 ≠ 0 then .error 5 else
      .ok (.csrr (Fin.ofNat 32 (fld w 12 5)) (Fin.ofNat 128 (fld w 25 7)))
  | 6 =>
      if fld w 12 6 ≠ 0 ∨ csrUnknown (fld w 25 7) = true then .error 3 else
      if fld w 23 2 ≠ 0 then .error 5 else
      .ok (.csrw (Fin.ofNat 32 (fld w 18 5)) (Fin.ofNat 128 (fld w 25 7)))
  | _ => .error 2

/-- MAJ 5: R93. -/
def decMaj5 (w : Nat) : Except Nat Instr :=
  match fld w 7 5 with
  | 0 =>
      if srcBad (fld w 18 7) ∨ srcBad (fld w 25 7) then .error 5 else
      .ok (.add (dstOf (fld w 12 6)) (srcOf (fld w 18 7)) (srcOf (fld w 25 7)))
  | 1 =>
      if srcBad (fld w 18 7) ∨ srcBad (fld w 25 7) then .error 5 else
      .ok (.sub (dstOf (fld w 12 6)) (srcOf (fld w 18 7)) (srcOf (fld w 25 7)))
  | 2 =>
      if srcBad (fld w 18 7) ∨ srcBad (fld w 25 7) then .error 5 else
      .ok (.and (dstOf (fld w 12 6)) (srcOf (fld w 18 7)) (srcOf (fld w 25 7)))
  | 3 =>
      if srcBad (fld w 18 7) ∨ srcBad (fld w 25 7) then .error 5 else
      .ok (.or (dstOf (fld w 12 6)) (srcOf (fld w 18 7)) (srcOf (fld w 25 7)))
  | 4 =>
      if srcBad (fld w 18 7) ∨ srcBad (fld w 25 7) then .error 5 else
      .ok (.xor (dstOf (fld w 12 6)) (srcOf (fld w 18 7)) (srcOf (fld w 25 7)))
  | 5 =>
      if srcBad (fld w 18 7) ∨ srcBad (fld w 25 7) then .error 5 else
      .ok (.andn (dstOf (fld w 12 6)) (srcOf (fld w 18 7)) (srcOf (fld w 25 7)))
  | 6 =>
      if srcBad (fld w 18 7) ∨ srcBad (fld w 25 7) then .error 5 else
      .ok (.min (dstOf (fld w 12 6)) (srcOf (fld w 18 7)) (srcOf (fld w 25 7)))
  | 7 =>
      if srcBad (fld w 18 7) ∨ srcBad (fld w 25 7) then .error 5 else
      .ok (.max (dstOf (fld w 12 6)) (srcOf (fld w 18 7)) (srcOf (fld w 25 7)))
  | 8 =>
      if srcBad (fld w 18 7) ∨ srcBad (fld w 25 7) then .error 5 else
      .ok (.minn (dstOf (fld w 12 6)) (srcOf (fld w 18 7)) (srcOf (fld w 25 7)))
  | 9 =>
      if srcBad (fld w 18 7) ∨ srcBad (fld w 25 7) then .error 5 else
      .ok (.maxn (dstOf (fld w 12 6)) (srcOf (fld w 18 7)) (srcOf (fld w 25 7)))
  | 10 =>
      if srcBad (fld w 18 7) ∨ srcBad (fld w 25 7) then .error 5 else
      .ok (.sh1add (dstOf (fld w 12 6)) (srcOf (fld w 18 7)) (srcOf (fld w 25 7)))
  | 11 =>
      if srcBad (fld w 18 7) ∨ srcBad (fld w 25 7) then .error 5 else
      .ok (.sh2add (dstOf (fld w 12 6)) (srcOf (fld w 18 7)) (srcOf (fld w 25 7)))
  | 12 =>
      if srcBad (fld w 18 7) ∨ srcBad (fld w 25 7) then .error 5 else
      .ok (.sh3add (dstOf (fld w 12 6)) (srcOf (fld w 18 7)) (srcOf (fld w 25 7)))
  | 13 =>
      if srcBad (fld w 18 7) ∨ srcBad (fld w 25 7) then .error 5 else
      .ok (.sh4add (dstOf (fld w 12 6)) (srcOf (fld w 18 7)) (srcOf (fld w 25 7)))
  | _ => .error 2

/-- MAJ 6: R94. -/
def decMaj6 (w : Nat) : Except Nat Instr :=
  match fld w 7 2 with
  | 0 =>
      if srcBad (fld w 15 7) then .error 5 else
      .ok (.addi (dstOf (fld w 9 6)) (srcOf (fld w 15 7)) (Fin.ofNat 1024 (fld w 22 10)))
  | 1 =>
      if srcBad (fld w 15 7) then .error 5 else
      .ok (.andi (dstOf (fld w 9 6)) (srcOf (fld w 15 7)) (Fin.ofNat 1024 (fld w 22 10)))
  | 2 =>
      if srcBad (fld w 15 7) then .error 5 else
      .ok (.ori (dstOf (fld w 9 6)) (srcOf (fld w 15 7)) (Fin.ofNat 1024 (fld w 22 10)))
  | _ =>
    match fld w 30 2 with
    | 0 =>
      if fld w 28 2 ≠ 0 then .error 3 else
      if srcBad (fld w 15 7) then .error 5 else
      .ok (.slli (dstOf (fld w 9 6)) (srcOf (fld w 15 7)) (Fin.ofNat 64 (fld w 22 6)))
    | 1 =>
      if fld w 28 2 ≠ 0 then .error 3 else
      if srcBad (fld w 15 7) then .error 5 else
      .ok (.srli (dstOf (fld w 9 6)) (srcOf (fld w 15 7)) (Fin.ofNat 64 (fld w 22 6)))
    | 2 =>
      if fld w 28 2 ≠ 0 then .error 3 else
      if srcBad (fld w 15 7) then .error 5 else
      .ok (.srai (dstOf (fld w 9 6)) (srcOf (fld w 15 7)) (Fin.ofNat 64 (fld w 22 6)))
    | _ =>
      if fld w 28 2 ≠ 0 then .error 3 else
      if srcBad (fld w 15 7) then .error 5 else
      .ok (.rori (dstOf (fld w 9 6)) (srcOf (fld w 15 7)) (Fin.ofNat 64 (fld w 22 6)))

/-- MAJ 7: R98. -/
def decMaj7 (w : Nat) : Except Nat Instr :=
  .ok (.lih (Fin.ofNat 32 (fld w 7 5)) (Fin.ofNat 1048576 (fld w 12 20)))

/-- MAJ 8: R95, R96. -/
def decMaj8 (w : Nat) : Except Nat Instr :=
  match fld w 7 5 with
  | 0 =>
      if srcBad (fld w 18 7) ∨ srcBad (fld w 25 7) then .error 5 else
      .ok (.sll (dstOf (fld w 12 6)) (srcOf (fld w 18 7)) (srcOf (fld w 25 7)))
  | 1 =>
      if srcBad (fld w 18 7) ∨ srcBad (fld w 25 7) then .error 5 else
      .ok (.srl (dstOf (fld w 12 6)) (srcOf (fld w 18 7)) (srcOf (fld w 25 7)))
  | 2 =>
      if srcBad (fld w 18 7) ∨ srcBad (fld w 25 7) then .error 5 else
      .ok (.sra (dstOf (fld w 12 6)) (srcOf (fld w 18 7)) (srcOf (fld w 25 7)))
  | 3 =>
      if srcBad (fld w 18 7) ∨ srcBad (fld w 25 7) then .error 5 else
      .ok (.ror (dstOf (fld w 12 6)) (srcOf (fld w 18 7)) (srcOf (fld w 25 7)))
  | 4 =>
      if fld w 25 7 ≠ 0 then .error 3 else
      if srcBad (fld w 18 7) then .error 5 else
      .ok (.clz (dstOf (fld w 12 6)) (srcOf (fld w 18 7)))
  | 5 =>
      if fld w 25 7 ≠ 0 then .error 3 else
      if srcBad (fld w 18 7) then .error 5 else
      .ok (.ctz (dstOf (fld w 12 6)) (srcOf (fld w 18 7)))
  | 6 =>
      if fld w 25 7 ≠ 0 then .error 3 else
      if srcBad (fld w 18 7) then .error 5 else
      .ok (.popc (dstOf (fld w 12 6)) (srcOf (fld w 18 7)))
  | 7 =>
      if fld w 17 1 ≠ 0 ∨ srcBad (fld w 18 7) ∨ srcBad (fld w 25 7) then .error 5 else
      .ok (.sel (Fin.ofNat 32 (fld w 12 5)) (srcOf (fld w 18 7)) (srcOf (fld w 25 7)))
  | 8 =>
      if srcBad (fld w 18 7) ∨ srcBad (fld w 25 7) then .error 5 else
      .ok (.seq (dstOf (fld w 12 6)) (srcOf (fld w 18 7)) (srcOf (fld w 25 7)))
  | 9 =>
      if srcBad (fld w 18 7) ∨ srcBad (fld w 25 7) then .error 5 else
      .ok (.sne (dstOf (fld w 12 6)) (srcOf (fld w 18 7)) (srcOf (fld w 25 7)))
  | 10 =>
      if srcBad (fld w 18 7) ∨ srcBad (fld w 25 7) then .error 5 else
      .ok (.slt (dstOf (fld w 12 6)) (srcOf (fld w 18 7)) (srcOf (fld w 25 7)))
  | 11 =>
      if srcBad (fld w 18 7) ∨ srcBad (fld w 25 7) then .error 5 else
      .ok (.sge (dstOf (fld w 12 6)) (srcOf (fld w 18 7)) (srcOf (fld w 25 7)))
  | 12 =>
      if srcBad (fld w 18 7) ∨ srcBad (fld w 25 7) then .error 5 else
      .ok (.sltn (dstOf (fld w 12 6)) (srcOf (fld w 18 7)) (srcOf (fld w 25 7)))
  | 13 =>
      if srcBad (fld w 18 7) ∨ srcBad (fld w 25 7) then .error 5 else
      .ok (.sgen (dstOf (fld w 12 6)) (srcOf (fld w 18 7)) (srcOf (fld w 25 7)))
  | 14 =>
      if fld w 25 7 ≠ 0 then .error 3 else
      if srcBad (fld w 18 7) then .error 5 else
      .ok (.extI8 (dstOf (fld w 12 6)) (srcOf (fld w 18 7)))
  | 15 =>
      if fld w 25 7 ≠ 0 then .error 3 else
      if srcBad (fld w 18 7) then .error 5 else
      .ok (.extI16 (dstOf (fld w 12 6)) (srcOf (fld w 18 7)))
  | 16 =>
      if fld w 25 7 ≠ 0 then .error 3 else
      if srcBad (fld w 18 7) then .error 5 else
      .ok (.extI32 (dstOf (fld w 12 6)) (srcOf (fld w 18 7)))
  | 17 =>
      if fld w 25 7 ≠ 0 then .error 3 else
      if srcBad (fld w 18 7) then .error 5 else
      .ok (.extN8 (dstOf (fld w 12 6)) (srcOf (fld w 18 7)))
  | 18 =>
      if fld w 25 7 ≠ 0 then .error 3 else
      if srcBad (fld w 18 7) then .error 5 else
      .ok (.extN16 (dstOf (fld w 12 6)) (srcOf (fld w 18 7)))
  | 19 =>
      if fld w 25 7 ≠ 0 then .error 3 else
      if srcBad (fld w 18 7) then .error 5 else
      .ok (.extN32 (dstOf (fld w 12 6)) (srcOf (fld w 18 7)))
  | _ => .error 2

/-- MAJ 9: R97. -/
def decMaj9 (w : Nat) : Except Nat Instr :=
  match fld w 7 5 with
  | 0 =>
      if srcBad (fld w 18 7) ∨ srcBad (fld w 25 7) then .error 5 else
      .ok (.mul (dstOf (fld w 12 6)) (srcOf (fld w 18 7)) (srcOf (fld w 25 7)))
  | 1 =>
      if srcBad (fld w 18 7) ∨ srcBad (fld w 25 7) then .error 5 else
      .ok (.mulh (dstOf (fld w 12 6)) (srcOf (fld w 18 7)) (srcOf (fld w 25 7)))
  | 2 =>
      if srcBad (fld w 18 7) ∨ srcBad (fld w 25 7) then .error 5 else
      .ok (.mulhn (dstOf (fld w 12 6)) (srcOf (fld w 18 7)) (srcOf (fld w 25 7)))
  | 3 =>
      if srcBad (fld w 18 7) ∨ srcBad (fld w 25 7) then .error 5 else
      .ok (.div (dstOf (fld w 12 6)) (srcOf (fld w 18 7)) (srcOf (fld w 25 7)))
  | 4 =>
      if srcBad (fld w 18 7) ∨ srcBad (fld w 25 7) then .error 5 else
      .ok (.divn (dstOf (fld w 12 6)) (srcOf (fld w 18 7)) (srcOf (fld w 25 7)))
  | 5 =>
      if srcBad (fld w 18 7) ∨ srcBad (fld w 25 7) then .error 5 else
      .ok (.rem (dstOf (fld w 12 6)) (srcOf (fld w 18 7)) (srcOf (fld w 25 7)))
  | 6 =>
      if srcBad (fld w 18 7) ∨ srcBad (fld w 25 7) then .error 5 else
      .ok (.remn (dstOf (fld w 12 6)) (srcOf (fld w 18 7)) (srcOf (fld w 25 7)))
  | _ => .error 2

/-- MAJ 10: R116. -/
def decMaj10 (w : Nat) : Except Nat Instr :=
  match fld w 7 2 with
  | 0 =>
    if fld w 31 1 = 0 then
      if srcBad (fld w 15 7) then .error 5 else
      .ok (.ldN8 (dstOf (fld w 9 6)) (srcOf (fld w 15 7)) (Fin.ofNat 512 (fld w 22 9)))
    else
      if srcBad (fld w 15 7) then .error 5 else
      .ok (.ldI8 (dstOf (fld w 9 6)) (srcOf (fld w 15 7)) (Fin.ofNat 512 (fld w 22 9)))
  | 1 =>
    if fld w 31 1 = 0 then
      if srcBad (fld w 15 7) then .error 5 else
      .ok (.ldN16 (dstOf (fld w 9 6)) (srcOf (fld w 15 7)) (Fin.ofNat 512 (fld w 22 9)))
    else
      if srcBad (fld w 15 7) then .error 5 else
      .ok (.ldI16 (dstOf (fld w 9 6)) (srcOf (fld w 15 7)) (Fin.ofNat 512 (fld w 22 9)))
  | 2 =>
    if fld w 31 1 = 0 then
      if srcBad (fld w 15 7) then .error 5 else
      .ok (.ldN32 (dstOf (fld w 9 6)) (srcOf (fld w 15 7)) (Fin.ofNat 512 (fld w 22 9)))
    else
      if srcBad (fld w 15 7) then .error 5 else
      .ok (.ldI32 (dstOf (fld w 9 6)) (srcOf (fld w 15 7)) (Fin.ofNat 512 (fld w 22 9)))
  | _ =>
      if fld w 31 1 ≠ 0 then .error 3 else
      if srcBad (fld w 15 7) then .error 5 else
      .ok (.ld64 (dstOf (fld w 9 6)) (srcOf (fld w 15 7)) (Fin.ofNat 512 (fld w 22 9)))

/-- MAJ 11: R117. -/
def decMaj11 (w : Nat) : Except Nat Instr :=
  match fld w 7 2 with
  | 0 =>
      if fld w 14 1 ≠ 0 ∨ srcBad (fld w 15 7) then .error 5 else
      .ok (.st8 (Fin.ofNat 32 (fld w 9 5)) (srcOf (fld w 15 7)) (Fin.ofNat 1024 (fld w 22 10)))
  | 1 =>
      if fld w 14 1 ≠ 0 ∨ srcBad (fld w 15 7) then .error 5 else
      .ok (.st16 (Fin.ofNat 32 (fld w 9 5)) (srcOf (fld w 15 7)) (Fin.ofNat 1024 (fld w 22 10)))
  | 2 =>
      if fld w 14 1 ≠ 0 ∨ srcBad (fld w 15 7) then .error 5 else
      .ok (.st32 (Fin.ofNat 32 (fld w 9 5)) (srcOf (fld w 15 7)) (Fin.ofNat 1024 (fld w 22 10)))
  | _ =>
      if fld w 14 1 ≠ 0 ∨ srcBad (fld w 15 7) then .error 5 else
      .ok (.st64 (Fin.ofNat 32 (fld w 9 5)) (srcOf (fld w 15 7)) (Fin.ofNat 1024 (fld w 22 10)))

/-- MAJ 12: R118, R119. -/
def decMaj12 (w : Nat) : Except Nat Instr :=
  match fld w 11 3 with
  | 0 =>
      if fld w 20 6 ≠ 0 then .error 3 else
      if 12 < fld w 7 4 then .error 4 else
      if fld w 31 1 ≠ 0 then .error 5 else
      .ok (.vld (guardOf (fld w 7 4)) (Fin.ofNat 64 (fld w 14 6)) (Fin.ofNat 32 (fld w 26 5)))
  | 1 =>
      if fld w 20 6 ≠ 0 then .error 3 else
      if 12 < fld w 7 4 then .error 4 else
      if fld w 31 1 ≠ 0 then .error 5 else
      .ok (.vst (guardOf (fld w 7 4)) (Fin.ofNat 64 (fld w 14 6)) (Fin.ofNat 32 (fld w 26 5)))
  | 2 =>
      if 12 < fld w 7 4 then .error 4 else
      if fld w 31 1 ≠ 0 ∨ fld w 25 1 ≠ 0 then .error 5 else
      .ok (.vldS (guardOf (fld w 7 4)) (Fin.ofNat 64 (fld w 14 6)) (Fin.ofNat 32 (fld w 20 5)) (Fin.ofNat 32 (fld w 26 5)))
  | 3 =>
      if 12 < fld w 7 4 then .error 4 else
      if fld w 31 1 ≠ 0 ∨ fld w 25 1 ≠ 0 then .error 5 else
      .ok (.vstS (guardOf (fld w 7 4)) (Fin.ofNat 64 (fld w 14 6)) (Fin.ofNat 32 (fld w 20 5)) (Fin.ofNat 32 (fld w 26 5)))
  | 4 =>
      if 12 < fld w 7 4 then .error 4 else
      if fld w 31 1 ≠ 0 then .error 5 else
      .ok (.vldG (guardOf (fld w 7 4)) (Fin.ofNat 64 (fld w 14 6)) (Fin.ofNat 64 (fld w 20 6)) (Fin.ofNat 32 (fld w 26 5)))
  | 5 =>
      if 12 < fld w 7 4 then .error 4 else
      if fld w 31 1 ≠ 0 then .error 5 else
      .ok (.vstX (guardOf (fld w 7 4)) (Fin.ofNat 64 (fld w 14 6)) (Fin.ofNat 64 (fld w 20 6)) (Fin.ofNat 32 (fld w 26 5)))
  | 6 =>
      if fld w 20 6 ≠ 0 then .error 3 else
      if 12 < fld w 7 4 then .error 4 else
      if fld w 31 1 ≠ 0 then .error 5 else
      .ok (.vldB (guardOf (fld w 7 4)) (Fin.ofNat 64 (fld w 14 6)) (Fin.ofNat 32 (fld w 26 5)))
  | _ => .error 2

/-- MAJ 13: R121, R122. -/
def decMaj13 (w : Nat) : Except Nat Instr :=
  match fld w 7 5 with
  | 0 =>
      if (6 ≤ fld w 29 3 ∨ (fld w 27 2 = 0 ∧ fld w 29 3 ≠ 0)) then .error 3 else
      .ok (.aadd (Fin.ofNat 2 (fld w 7 1)) (Fin.ofNat 32 (fld w 12 5)) (Fin.ofNat 32 (fld w 17 5)) (Fin.ofNat 32 (fld w 22 5)) (Fin.ofNat 4 (fld w 27 2)) (Fin.ofNat 8 (fld w 29 3)))
  | 1 =>
      if (6 ≤ fld w 29 3 ∨ (fld w 27 2 = 0 ∧ fld w 29 3 ≠ 0)) then .error 3 else
      .ok (.aadd (Fin.ofNat 2 (fld w 7 1)) (Fin.ofNat 32 (fld w 12 5)) (Fin.ofNat 32 (fld w 17 5)) (Fin.ofNat 32 (fld w 22 5)) (Fin.ofNat 4 (fld w 27 2)) (Fin.ofNat 8 (fld w 29 3)))
  | 2 =>
      if (6 ≤ fld w 29 3 ∨ (fld w 27 2 = 0 ∧ fld w 29 3 ≠ 0)) then .error 3 else
      .ok (.aand (Fin.ofNat 2 (fld w 7 1)) (Fin.ofNat 32 (fld w 12 5)) (Fin.ofNat 32 (fld w 17 5)) (Fin.ofNat 32 (fld w 22 5)) (Fin.ofNat 4 (fld w 27 2)) (Fin.ofNat 8 (fld w 29 3)))
  | 3 =>
      if (6 ≤ fld w 29 3 ∨ (fld w 27 2 = 0 ∧ fld w 29 3 ≠ 0)) then .error 3 else
      .ok (.aand (Fin.ofNat 2 (fld w 7 1)) (Fin.ofNat 32 (fld w 12 5)) (Fin.ofNat 32 (fld w 17 5)) (Fin.ofNat 32 (fld w 22 5)) (Fin.ofNat 4 (fld w 27 2)) (Fin.ofNat 8 (fld w 29 3)))
  | 4 =>
      if (6 ≤ fld w 29 3 ∨ (fld w 27 2 = 0 ∧ fld w 29 3 ≠ 0)) then .error 3 else
      .ok (.aor (Fin.ofNat 2 (fld w 7 1)) (Fin.ofNat 32 (fld w 12 5)) (Fin.ofNat 32 (fld w 17 5)) (Fin.ofNat 32 (fld w 22 5)) (Fin.ofNat 4 (fld w 27 2)) (Fin.ofNat 8 (fld w 29 3)))
  | 5 =>
      if (6 ≤ fld w 29 3 ∨ (fld w 27 2 = 0 ∧ fld w 29 3 ≠ 0)) then .error 3 else
      .ok (.aor (Fin.ofNat 2 (fld w 7 1)) (Fin.ofNat 32 (fld w 12 5)) (Fin.ofNat 32 (fld w 17 5)) (Fin.ofNat 32 (fld w 22 5)) (Fin.ofNat 4 (fld w 27 2)) (Fin.ofNat 8 (fld w 29 3)))
  | 6 =>
      if (6 ≤ fld w 29 3 ∨ (fld w 27 2 = 0 ∧ fld w 29 3 ≠ 0)) then .error 3 else
      .ok (.axor (Fin.ofNat 2 (fld w 7 1)) (Fin.ofNat 32 (fld w 12 5)) (Fin.ofNat 32 (fld w 17 5)) (Fin.ofNat 32 (fld w 22 5)) (Fin.ofNat 4 (fld w 27 2)) (Fin.ofNat 8 (fld w 29 3)))
  | 7 =>
      if (6 ≤ fld w 29 3 ∨ (fld w 27 2 = 0 ∧ fld w 29 3 ≠ 0)) then .error 3 else
      .ok (.axor (Fin.ofNat 2 (fld w 7 1)) (Fin.ofNat 32 (fld w 12 5)) (Fin.ofNat 32 (fld w 17 5)) (Fin.ofNat 32 (fld w 22 5)) (Fin.ofNat 4 (fld w 27 2)) (Fin.ofNat 8 (fld w 29 3)))
  | 8 =>
      if (6 ≤ fld w 29 3 ∨ (fld w 27 2 = 0 ∧ fld w 29 3 ≠ 0)) then .error 3 else
      .ok (.aminI (Fin.ofNat 2 (fld w 7 1)) (Fin.ofNat 32 (fld w 12 5)) (Fin.ofNat 32 (fld w 17 5)) (Fin.ofNat 32 (fld w 22 5)) (Fin.ofNat 4 (fld w 27 2)) (Fin.ofNat 8 (fld w 29 3)))
  | 9 =>
      if (6 ≤ fld w 29 3 ∨ (fld w 27 2 = 0 ∧ fld w 29 3 ≠ 0)) then .error 3 else
      .ok (.aminI (Fin.ofNat 2 (fld w 7 1)) (Fin.ofNat 32 (fld w 12 5)) (Fin.ofNat 32 (fld w 17 5)) (Fin.ofNat 32 (fld w 22 5)) (Fin.ofNat 4 (fld w 27 2)) (Fin.ofNat 8 (fld w 29 3)))
  | 10 =>
      if (6 ≤ fld w 29 3 ∨ (fld w 27 2 = 0 ∧ fld w 29 3 ≠ 0)) then .error 3 else
      .ok (.aminN (Fin.ofNat 2 (fld w 7 1)) (Fin.ofNat 32 (fld w 12 5)) (Fin.ofNat 32 (fld w 17 5)) (Fin.ofNat 32 (fld w 22 5)) (Fin.ofNat 4 (fld w 27 2)) (Fin.ofNat 8 (fld w 29 3)))
  | 11 =>
      if (6 ≤ fld w 29 3 ∨ (fld w 27 2 = 0 ∧ fld w 29 3 ≠ 0)) then .error 3 else
      .ok (.aminN (Fin.ofNat 2 (fld w 7 1)) (Fin.ofNat 32 (fld w 12 5)) (Fin.ofNat 32 (fld w 17 5)) (Fin.ofNat 32 (fld w 22 5)) (Fin.ofNat 4 (fld w 27 2)) (Fin.ofNat 8 (fld w 29 3)))
  | 12 =>
      if (6 ≤ fld w 29 3 ∨ (fld w 27 2 = 0 ∧ fld w 29 3 ≠ 0)) then .error 3 else
      .ok (.amaxI (Fin.ofNat 2 (fld w 7 1)) (Fin.ofNat 32 (fld w 12 5)) (Fin.ofNat 32 (fld w 17 5)) (Fin.ofNat 32 (fld w 22 5)) (Fin.ofNat 4 (fld w 27 2)) (Fin.ofNat 8 (fld w 29 3)))
  | 13 =>
      if (6 ≤ fld w 29 3 ∨ (fld w 27 2 = 0 ∧ fld w 29 3 ≠ 0)) then .error 3 else
      .ok (.amaxI (Fin.ofNat 2 (fld w 7 1)) (Fin.ofNat 32 (fld w 12 5)) (Fin.ofNat 32 (fld w 17 5)) (Fin.ofNat 32 (fld w 22 5)) (Fin.ofNat 4 (fld w 27 2)) (Fin.ofNat 8 (fld w 29 3)))
  | 14 =>
      if (6 ≤ fld w 29 3 ∨ (fld w 27 2 = 0 ∧ fld w 29 3 ≠ 0)) then .error 3 else
      .ok (.amaxN (Fin.ofNat 2 (fld w 7 1)) (Fin.ofNat 32 (fld w 12 5)) (Fin.ofNat 32 (fld w 17 5)) (Fin.ofNat 32 (fld w 22 5)) (Fin.ofNat 4 (fld w 27 2)) (Fin.ofNat 8 (fld w 29 3)))
  | 15 =>
      if (6 ≤ fld w 29 3 ∨ (fld w 27 2 = 0 ∧ fld w 29 3 ≠ 0)) then .error 3 else
      .ok (.amaxN (Fin.ofNat 2 (fld w 7 1)) (Fin.ofNat 32 (fld w 12 5)) (Fin.ofNat 32 (fld w 17 5)) (Fin.ofNat 32 (fld w 22 5)) (Fin.ofNat 4 (fld w 27 2)) (Fin.ofNat 8 (fld w 29 3)))
  | 16 =>
      if (6 ≤ fld w 29 3 ∨ (fld w 27 2 = 0 ∧ fld w 29 3 ≠ 0)) then .error 3 else
      .ok (.swap (Fin.ofNat 2 (fld w 7 1)) (Fin.ofNat 32 (fld w 12 5)) (Fin.ofNat 32 (fld w 17 5)) (Fin.ofNat 32 (fld w 22 5)) (Fin.ofNat 4 (fld w 27 2)) (Fin.ofNat 8 (fld w 29 3)))
  | 17 =>
      if (6 ≤ fld w 29 3 ∨ (fld w 27 2 = 0 ∧ fld w 29 3 ≠ 0)) then .error 3 else
      .ok (.swap (Fin.ofNat 2 (fld w 7 1)) (Fin.ofNat 32 (fld w 12 5)) (Fin.ofNat 32 (fld w 17 5)) (Fin.ofNat 32 (fld w 22 5)) (Fin.ofNat 4 (fld w 27 2)) (Fin.ofNat 8 (fld w 29 3)))
  | 18 =>
      if (6 ≤ fld w 29 3 ∨ (fld w 27 2 = 0 ∧ fld w 29 3 ≠ 0)) then .error 3 else
      .ok (.cas64 (Fin.ofNat 32 (fld w 12 5)) (Fin.ofNat 32 (fld w 17 5)) (Fin.ofNat 32 (fld w 22 5)) (Fin.ofNat 4 (fld w 27 2)) (Fin.ofNat 8 (fld w 29 3)))
  | 19 =>
      if (6 ≤ fld w 29 3 ∨ (fld w 27 2 = 0 ∧ fld w 29 3 ≠ 0)) then .error 3 else
      if fld w 22 1 ≠ 0 ∨ fld w 17 1 ≠ 0 ∨ fld w 23 4 = 0 then .error 5 else
      .ok (.cas128 (Fin.ofNat 32 (fld w 12 5)) (Fin.ofNat 16 (fld w 18 4)) (Fin.ofNat 16 (fld w 23 4)) (Fin.ofNat 4 (fld w 27 2)) (Fin.ofNat 8 (fld w 29 3)))
  | _ => .error 2

/-- MAJ 14: R121, R122, R124, R125. -/
def decMaj14 (w : Nat) : Except Nat Instr :=
  match fld w 7 5 with
  | 0 =>
      if (6 ≤ fld w 29 3 ∨ (fld w 27 2 = 0 ∧ fld w 29 3 ≠ 0)) then .error 3 else
      .ok (.aaddMs (Fin.ofNat 2 (fld w 7 1)) (Fin.ofNat 32 (fld w 12 5)) (Fin.ofNat 32 (fld w 17 5)) (Fin.ofNat 32 (fld w 22 5)) (Fin.ofNat 4 (fld w 27 2)) (Fin.ofNat 8 (fld w 29 3)))
  | 1 =>
      if (6 ≤ fld w 29 3 ∨ (fld w 27 2 = 0 ∧ fld w 29 3 ≠ 0)) then .error 3 else
      .ok (.aaddMs (Fin.ofNat 2 (fld w 7 1)) (Fin.ofNat 32 (fld w 12 5)) (Fin.ofNat 32 (fld w 17 5)) (Fin.ofNat 32 (fld w 22 5)) (Fin.ofNat 4 (fld w 27 2)) (Fin.ofNat 8 (fld w 29 3)))
  | 2 =>
      if (6 ≤ fld w 29 3 ∨ (fld w 27 2 = 0 ∧ fld w 29 3 ≠ 0)) then .error 3 else
      .ok (.aandMs (Fin.ofNat 2 (fld w 7 1)) (Fin.ofNat 32 (fld w 12 5)) (Fin.ofNat 32 (fld w 17 5)) (Fin.ofNat 32 (fld w 22 5)) (Fin.ofNat 4 (fld w 27 2)) (Fin.ofNat 8 (fld w 29 3)))
  | 3 =>
      if (6 ≤ fld w 29 3 ∨ (fld w 27 2 = 0 ∧ fld w 29 3 ≠ 0)) then .error 3 else
      .ok (.aandMs (Fin.ofNat 2 (fld w 7 1)) (Fin.ofNat 32 (fld w 12 5)) (Fin.ofNat 32 (fld w 17 5)) (Fin.ofNat 32 (fld w 22 5)) (Fin.ofNat 4 (fld w 27 2)) (Fin.ofNat 8 (fld w 29 3)))
  | 4 =>
      if (6 ≤ fld w 29 3 ∨ (fld w 27 2 = 0 ∧ fld w 29 3 ≠ 0)) then .error 3 else
      .ok (.aorMs (Fin.ofNat 2 (fld w 7 1)) (Fin.ofNat 32 (fld w 12 5)) (Fin.ofNat 32 (fld w 17 5)) (Fin.ofNat 32 (fld w 22 5)) (Fin.ofNat 4 (fld w 27 2)) (Fin.ofNat 8 (fld w 29 3)))
  | 5 =>
      if (6 ≤ fld w 29 3 ∨ (fld w 27 2 = 0 ∧ fld w 29 3 ≠ 0)) then .error 3 else
      .ok (.aorMs (Fin.ofNat 2 (fld w 7 1)) (Fin.ofNat 32 (fld w 12 5)) (Fin.ofNat 32 (fld w 17 5)) (Fin.ofNat 32 (fld w 22 5)) (Fin.ofNat 4 (fld w 27 2)) (Fin.ofNat 8 (fld w 29 3)))
  | 6 =>
      if (6 ≤ fld w 29 3 ∨ (fld w 27 2 = 0 ∧ fld w 29 3 ≠ 0)) then .error 3 else
      .ok (.axorMs (Fin.ofNat 2 (fld w 7 1)) (Fin.ofNat 32 (fld w 12 5)) (Fin.ofNat 32 (fld w 17 5)) (Fin.ofNat 32 (fld w 22 5)) (Fin.ofNat 4 (fld w 27 2)) (Fin.ofNat 8 (fld w 29 3)))
  | 7 =>
      if (6 ≤ fld w 29 3 ∨ (fld w 27 2 = 0 ∧ fld w 29 3 ≠ 0)) then .error 3 else
      .ok (.axorMs (Fin.ofNat 2 (fld w 7 1)) (Fin.ofNat 32 (fld w 12 5)) (Fin.ofNat 32 (fld w 17 5)) (Fin.ofNat 32 (fld w 22 5)) (Fin.ofNat 4 (fld w 27 2)) (Fin.ofNat 8 (fld w 29 3)))
  | 8 =>
      if (6 ≤ fld w 29 3 ∨ (fld w 27 2 = 0 ∧ fld w 29 3 ≠ 0)) then .error 3 else
      .ok (.aminIMs (Fin.ofNat 2 (fld w 7 1)) (Fin.ofNat 32 (fld w 12 5)) (Fin.ofNat 32 (fld w 17 5)) (Fin.ofNat 32 (fld w 22 5)) (Fin.ofNat 4 (fld w 27 2)) (Fin.ofNat 8 (fld w 29 3)))
  | 9 =>
      if (6 ≤ fld w 29 3 ∨ (fld w 27 2 = 0 ∧ fld w 29 3 ≠ 0)) then .error 3 else
      .ok (.aminIMs (Fin.ofNat 2 (fld w 7 1)) (Fin.ofNat 32 (fld w 12 5)) (Fin.ofNat 32 (fld w 17 5)) (Fin.ofNat 32 (fld w 22 5)) (Fin.ofNat 4 (fld w 27 2)) (Fin.ofNat 8 (fld w 29 3)))
  | 10 =>
      if (6 ≤ fld w 29 3 ∨ (fld w 27 2 = 0 ∧ fld w 29 3 ≠ 0)) then .error 3 else
      .ok (.aminNMs (Fin.ofNat 2 (fld w 7 1)) (Fin.ofNat 32 (fld w 12 5)) (Fin.ofNat 32 (fld w 17 5)) (Fin.ofNat 32 (fld w 22 5)) (Fin.ofNat 4 (fld w 27 2)) (Fin.ofNat 8 (fld w 29 3)))
  | 11 =>
      if (6 ≤ fld w 29 3 ∨ (fld w 27 2 = 0 ∧ fld w 29 3 ≠ 0)) then .error 3 else
      .ok (.aminNMs (Fin.ofNat 2 (fld w 7 1)) (Fin.ofNat 32 (fld w 12 5)) (Fin.ofNat 32 (fld w 17 5)) (Fin.ofNat 32 (fld w 22 5)) (Fin.ofNat 4 (fld w 27 2)) (Fin.ofNat 8 (fld w 29 3)))
  | 12 =>
      if (6 ≤ fld w 29 3 ∨ (fld w 27 2 = 0 ∧ fld w 29 3 ≠ 0)) then .error 3 else
      .ok (.amaxIMs (Fin.ofNat 2 (fld w 7 1)) (Fin.ofNat 32 (fld w 12 5)) (Fin.ofNat 32 (fld w 17 5)) (Fin.ofNat 32 (fld w 22 5)) (Fin.ofNat 4 (fld w 27 2)) (Fin.ofNat 8 (fld w 29 3)))
  | 13 =>
      if (6 ≤ fld w 29 3 ∨ (fld w 27 2 = 0 ∧ fld w 29 3 ≠ 0)) then .error 3 else
      .ok (.amaxIMs (Fin.ofNat 2 (fld w 7 1)) (Fin.ofNat 32 (fld w 12 5)) (Fin.ofNat 32 (fld w 17 5)) (Fin.ofNat 32 (fld w 22 5)) (Fin.ofNat 4 (fld w 27 2)) (Fin.ofNat 8 (fld w 29 3)))
  | 14 =>
      if (6 ≤ fld w 29 3 ∨ (fld w 27 2 = 0 ∧ fld w 29 3 ≠ 0)) then .error 3 else
      .ok (.amaxNMs (Fin.ofNat 2 (fld w 7 1)) (Fin.ofNat 32 (fld w 12 5)) (Fin.ofNat 32 (fld w 17 5)) (Fin.ofNat 32 (fld w 22 5)) (Fin.ofNat 4 (fld w 27 2)) (Fin.ofNat 8 (fld w 29 3)))
  | 15 =>
      if (6 ≤ fld w 29 3 ∨ (fld w 27 2 = 0 ∧ fld w 29 3 ≠ 0)) then .error 3 else
      .ok (.amaxNMs (Fin.ofNat 2 (fld w 7 1)) (Fin.ofNat 32 (fld w 12 5)) (Fin.ofNat 32 (fld w 17 5)) (Fin.ofNat 32 (fld w 22 5)) (Fin.ofNat 4 (fld w 27 2)) (Fin.ofNat 8 (fld w 29 3)))
  | 16 =>
      if (6 ≤ fld w 29 3 ∨ (fld w 27 2 = 0 ∧ fld w 29 3 ≠ 0)) then .error 3 else
      .ok (.swapMs (Fin.ofNat 2 (fld w 7 1)) (Fin.ofNat 32 (fld w 12 5)) (Fin.ofNat 32 (fld w 17 5)) (Fin.ofNat 32 (fld w 22 5)) (Fin.ofNat 4 (fld w 27 2)) (Fin.ofNat 8 (fld w 29 3)))
  | 17 =>
      if (6 ≤ fld w 29 3 ∨ (fld w 27 2 = 0 ∧ fld w 29 3 ≠ 0)) then .error 3 else
      .ok (.swapMs (Fin.ofNat 2 (fld w 7 1)) (Fin.ofNat 32 (fld w 12 5)) (Fin.ofNat 32 (fld w 17 5)) (Fin.ofNat 32 (fld w 22 5)) (Fin.ofNat 4 (fld w 27 2)) (Fin.ofNat 8 (fld w 29 3)))
  | 18 =>
      if (6 ≤ fld w 29 3 ∨ (fld w 27 2 = 0 ∧ fld w 29 3 ≠ 0)) then .error 3 else
      .ok (.cas64Ms (Fin.ofNat 32 (fld w 12 5)) (Fin.ofNat 32 (fld w 17 5)) (Fin.ofNat 32 (fld w 22 5)) (Fin.ofNat 4 (fld w 27 2)) (Fin.ofNat 8 (fld w 29 3)))
  | 19 =>
      if (6 ≤ fld w 29 3 ∨ (fld w 27 2 = 0 ∧ fld w 29 3 ≠ 0)) then .error 3 else
      if fld w 22 1 ≠ 0 ∨ fld w 17 1 ≠ 0 ∨ fld w 23 4 = 0 then .error 5 else
      .ok (.cas128Ms (Fin.ofNat 32 (fld w 12 5)) (Fin.ofNat 16 (fld w 18 4)) (Fin.ofNat 16 (fld w 23 4)) (Fin.ofNat 4 (fld w 27 2)) (Fin.ofNat 8 (fld w 29 3)))
  | 20 =>
      if fld w 22 5 ≠ 0 ∨ fld w 28 4 ≠ 0 then .error 3 else
      .ok (.pf (Fin.ofNat 32 (fld w 12 5)) (Fin.ofNat 32 (fld w 17 5)) (Fin.ofNat 2 (fld w 27 1)))
  | 21 =>
      if fld w 28 4 ≠ 0 then .error 3 else
      .ok (.waita (Fin.ofNat 32 (fld w 12 5)) (Fin.ofNat 32 (fld w 17 5)) (Fin.ofNat 32 (fld w 22 5)) (Fin.ofNat 2 (fld w 27 1)))
  | _ => .error 2

/-- MAJ 15: R147, R148. -/
def decMaj15 (w : Nat) : Except Nat Instr :=
  match fld w 7 5 with
  | 0 =>
      if fld w 12 17 ≠ 0 ∨ 6 ≤ fld w 29 3 then .error 3 else
      .ok (.acq (Fin.ofNat 8 (fld w 29 3)))
  | 1 =>
      if fld w 12 17 ≠ 0 ∨ 6 ≤ fld w 29 3 then .error 3 else
      .ok (.rel (Fin.ofNat 8 (fld w 29 3)))
  | 2 =>
      if fld w 12 17 ≠ 0 ∨ 6 ≤ fld w 29 3 then .error 3 else
      .ok (.fen (Fin.ofNat 8 (fld w 29 3)))
  | _ => .error 2

/-- MAJ 16: R151. -/
def decMaj16 (w : Nat) : Except Nat Instr :=
  match fld w 7 5 with
  | 0 =>
      if fld w 12 15 ≠ 0 then .error 3 else
      .ok (.efen (Fin.ofNat 32 (fld w 27 5)))
  | _ => .error 2

/-- MAJ 17: R183, R184. -/
def decMaj17 (w : Nat) : Except Nat Instr :=
  match fld w 7 5 with
  | 0 =>
      if fld w 22 5 ≠ 0 ∨ (fld w 29 3 ≠ 1 ∧ fld w 29 3 ≠ 3 ∧ fld w 29 3 ≠ 4) then .error 3 else
      .ok (.tlbInv (Fin.ofNat 32 (fld w 12 5)) (Fin.ofNat 32 (fld w 17 5)) (Fin.ofNat 4 (fld w 27 2)) (Fin.ofNat 8 (fld w 29 3)))
  | 1 =>
      if fld w 12 20 ≠ 0 then .error 3 else
      .ok .tlbSync
  | _ => .error 2

/-- MAJ 18: R185, R186, R187. -/
def decMaj18 (w : Nat) : Except Nat Instr :=
  match fld w 7 5 with
  | 0 =>
      if fld w 28 4 ≠ 0 then .error 3 else
      .ok (.pgMig (Fin.ofNat 32 (fld w 12 5)) (Fin.ofNat 32 (fld w 17 5)) (Fin.ofNat 32 (fld w 22 5)) (Fin.ofNat 2 (fld w 27 1)))
  | 1 =>
      if fld w 17 5 ≠ 0 ∨ fld w 28 4 ≠ 0 then .error 3 else
      .ok (.pgPin (Fin.ofNat 32 (fld w 12 5)) (Fin.ofNat 32 (fld w 22 5)) (Fin.ofNat 2 (fld w 27 1)))
  | 2 =>
      if fld w 17 5 ≠ 0 ∨ fld w 27 5 ≠ 0 then .error 3 else
      .ok (.pgProbe (Fin.ofNat 32 (fld w 12 5)) (Fin.ofNat 32 (fld w 22 5)))
  | _ => .error 2

/-- MAJ 19: R188. -/
def decMaj19 (w : Nat) : Except Nat Instr :=
  match fld w 7 5 with
  | 0 =>
      if fld w 27 5 ≠ 0 then .error 3 else
      .ok (.fcInc (Fin.ofNat 32 (fld w 12 5)) (Fin.ofNat 32 (fld w 17 5)) (Fin.ofNat 32 (fld w 22 5)))
  | 1 =>
      if fld w 27 5 ≠ 0 then .error 3 else
      .ok (.fcDec (Fin.ofNat 32 (fld w 12 5)) (Fin.ofNat 32 (fld w 17 5)) (Fin.ofNat 32 (fld w 22 5)))
  | 2 =>
      if fld w 17 5 ≠ 0 ∨ fld w 27 5 ≠ 0 then .error 3 else
      .ok (.fcRead (Fin.ofNat 32 (fld w 12 5)) (Fin.ofNat 32 (fld w 22 5)))
  | _ => .error 2

/-- MAJ 20: R200. -/
def decMaj20 (w : Nat) : Except Nat Instr :=
  match fld w 11 3 with
  | 0 =>
      if 12 < fld w 7 4 then .error 4 else
      .ok (.vaddI32 (guardOf (fld w 7 4)) (Fin.ofNat 64 (fld w 14 6)) (Fin.ofNat 64 (fld w 20 6)) (Fin.ofNat 64 (fld w 26 6)))
  | 1 =>
      if 12 < fld w 7 4 then .error 4 else
      .ok (.vsubI32 (guardOf (fld w 7 4)) (Fin.ofNat 64 (fld w 14 6)) (Fin.ofNat 64 (fld w 20 6)) (Fin.ofNat 64 (fld w 26 6)))
  | 2 =>
      if 12 < fld w 7 4 then .error 4 else
      .ok (.vmulI32 (guardOf (fld w 7 4)) (Fin.ofNat 64 (fld w 14 6)) (Fin.ofNat 64 (fld w 20 6)) (Fin.ofNat 64 (fld w 26 6)))
  | 3 =>
      if 12 < fld w 7 4 then .error 4 else
      .ok (.vmulhI32 (guardOf (fld w 7 4)) (Fin.ofNat 64 (fld w 14 6)) (Fin.ofNat 64 (fld w 20 6)) (Fin.ofNat 64 (fld w 26 6)))
  | 4 =>
      if 12 < fld w 7 4 then .error 4 else
      .ok (.vaddsI32 (guardOf (fld w 7 4)) (Fin.ofNat 64 (fld w 14 6)) (Fin.ofNat 64 (fld w 20 6)) (Fin.ofNat 64 (fld w 26 6)))
  | 5 =>
      if 12 < fld w 7 4 then .error 4 else
      .ok (.vsubsI32 (guardOf (fld w 7 4)) (Fin.ofNat 64 (fld w 14 6)) (Fin.ofNat 64 (fld w 20 6)) (Fin.ofNat 64 (fld w 26 6)))
  | 6 =>
      if 12 < fld w 7 4 then .error 4 else
      .ok (.vaddsN32 (guardOf (fld w 7 4)) (Fin.ofNat 64 (fld w 14 6)) (Fin.ofNat 64 (fld w 20 6)) (Fin.ofNat 64 (fld w 26 6)))
  | _ =>
      if 12 < fld w 7 4 then .error 4 else
      .ok (.vsubsN32 (guardOf (fld w 7 4)) (Fin.ofNat 64 (fld w 14 6)) (Fin.ofNat 64 (fld w 20 6)) (Fin.ofNat 64 (fld w 26 6)))

/-- MAJ 21: R202, R203. -/
def decMaj21 (w : Nat) : Except Nat Instr :=
  match fld w 11 3 with
  | 0 =>
      if 12 < fld w 7 4 then .error 4 else
      .ok (.vaddF32 (guardOf (fld w 7 4)) (Fin.ofNat 64 (fld w 14 6)) (Fin.ofNat 64 (fld w 20 6)) (Fin.ofNat 64 (fld w 26 6)))
  | 1 =>
      if 12 < fld w 7 4 then .error 4 else
      .ok (.vsubF32 (guardOf (fld w 7 4)) (Fin.ofNat 64 (fld w 14 6)) (Fin.ofNat 64 (fld w 20 6)) (Fin.ofNat 64 (fld w 26 6)))
  | 2 =>
      if 12 < fld w 7 4 then .error 4 else
      .ok (.vmulF32 (guardOf (fld w 7 4)) (Fin.ofNat 64 (fld w 14 6)) (Fin.ofNat 64 (fld w 20 6)) (Fin.ofNat 64 (fld w 26 6)))
  | 3 =>
      if 12 < fld w 7 4 then .error 4 else
      .ok (.vfmaF32 (guardOf (fld w 7 4)) (Fin.ofNat 64 (fld w 14 6)) (Fin.ofNat 64 (fld w 20 6)) (Fin.ofNat 64 (fld w 26 6)))
  | 4 =>
      if 12 < fld w 7 4 then .error 4 else
      .ok (.vfmsF32 (guardOf (fld w 7 4)) (Fin.ofNat 64 (fld w 14 6)) (Fin.ofNat 64 (fld w 20 6)) (Fin.ofNat 64 (fld w 26 6)))
  | 5 =>
      if 12 < fld w 7 4 then .error 4 else
      .ok (.vminF32 (guardOf (fld w 7 4)) (Fin.ofNat 64 (fld w 14 6)) (Fin.ofNat 64 (fld w 20 6)) (Fin.ofNat 64 (fld w 26 6)))
  | 6 =>
      if 12 < fld w 7 4 then .error 4 else
      .ok (.vmaxF32 (guardOf (fld w 7 4)) (Fin.ofNat 64 (fld w 14 6)) (Fin.ofNat 64 (fld w 20 6)) (Fin.ofNat 64 (fld w 26 6)))
  | _ => .error 2

/-- MAJ 22: R204. -/
def decMaj22 (w : Nat) : Except Nat Instr :=
  match fld w 11 3 with
  | 0 =>
      if fld w 26 6 ≠ 0 then .error 3 else
      if 12 < fld w 7 4 then .error 4 else
      .ok (.vand (guardOf (fld w 7 4)) (Fin.ofNat 64 (fld w 14 6)) (Fin.ofNat 64 (fld w 20 6)))
  | 1 =>
      if fld w 26 6 ≠ 0 then .error 3 else
      if 12 < fld w 7 4 then .error 4 else
      .ok (.vor (guardOf (fld w 7 4)) (Fin.ofNat 64 (fld w 14 6)) (Fin.ofNat 64 (fld w 20 6)))
  | 2 =>
      if fld w 26 6 ≠ 0 then .error 3 else
      if 12 < fld w 7 4 then .error 4 else
      .ok (.vxor (guardOf (fld w 7 4)) (Fin.ofNat 64 (fld w 14 6)) (Fin.ofNat 64 (fld w 20 6)))
  | 3 =>
      if fld w 26 6 ≠ 0 then .error 3 else
      if 12 < fld w 7 4 then .error 4 else
      .ok (.vandn (guardOf (fld w 7 4)) (Fin.ofNat 64 (fld w 14 6)) (Fin.ofNat 64 (fld w 20 6)))
  | 4 =>
      if 12 < fld w 7 4 then .error 4 else
      .ok (.vsll (guardOf (fld w 7 4)) (Fin.ofNat 64 (fld w 14 6)) (Fin.ofNat 64 (fld w 20 6)) (Fin.ofNat 64 (fld w 26 6)))
  | 5 =>
      if 12 < fld w 7 4 then .error 4 else
      .ok (.vsrl (guardOf (fld w 7 4)) (Fin.ofNat 64 (fld w 14 6)) (Fin.ofNat 64 (fld w 20 6)) (Fin.ofNat 64 (fld w 26 6)))
  | 6 =>
      if 12 < fld w 7 4 then .error 4 else
      .ok (.vsra (guardOf (fld w 7 4)) (Fin.ofNat 64 (fld w 14 6)) (Fin.ofNat 64 (fld w 20 6)) (Fin.ofNat 64 (fld w 26 6)))
  | _ =>
      if fld w 26 6 ≠ 0 then .error 3 else
      if 12 < fld w 7 4 then .error 4 else
      .ok (.vmov (guardOf (fld w 7 4)) (Fin.ofNat 64 (fld w 14 6)) (Fin.ofNat 64 (fld w 20 6)))

/-- MAJ 23: R205, R206, R207, R208. -/
def decMaj23 (w : Nat) : Except Nat Instr :=
  match fld w 11 3 with
  | 0 =>
      if 12 < fld w 7 4 then .error 4 else
      if 6 ≤ fld w 14 3 then .error 5 else
      if 6 ≤ fld w 17 3 then .error 6 else
      .ok (.vcmpI32 (guardOf (fld w 7 4)) (Fin.ofNat 8 (fld w 14 3)) (Fin.ofNat 8 (fld w 17 3)) (Fin.ofNat 64 (fld w 20 6)) (Fin.ofNat 64 (fld w 26 6)))
  | 1 =>
      if 12 < fld w 7 4 then .error 4 else
      if 6 ≤ fld w 14 3 then .error 5 else
      .ok (.vcmpF32 (guardOf (fld w 7 4)) (Fin.ofNat 8 (fld w 14 3)) (Fin.ofNat 8 (fld w 17 3)) (Fin.ofNat 64 (fld w 20 6)) (Fin.ofNat 64 (fld w 26 6)))
  | 2 =>
      if 12 < fld w 7 4 ∨ fld w 7 4 = 12 then .error 4 else
      .ok (.vsel (guardOf (fld w 7 4)) (Fin.ofNat 64 (fld w 14 6)) (Fin.ofNat 64 (fld w 20 6)) (Fin.ofNat 64 (fld w 26 6)))
  | 3 =>
      if 12 < fld w 7 4 then .error 4 else
      .ok (.vminI32 (guardOf (fld w 7 4)) (Fin.ofNat 64 (fld w 14 6)) (Fin.ofNat 64 (fld w 20 6)) (Fin.ofNat 64 (fld w 26 6)))
  | 4 =>
      if 12 < fld w 7 4 then .error 4 else
      .ok (.vmaxI32 (guardOf (fld w 7 4)) (Fin.ofNat 64 (fld w 14 6)) (Fin.ofNat 64 (fld w 20 6)) (Fin.ofNat 64 (fld w 26 6)))
  | 5 =>
      if 12 < fld w 7 4 then .error 4 else
      .ok (.vminN32 (guardOf (fld w 7 4)) (Fin.ofNat 64 (fld w 14 6)) (Fin.ofNat 64 (fld w 20 6)) (Fin.ofNat 64 (fld w 26 6)))
  | 6 =>
      if 12 < fld w 7 4 then .error 4 else
      .ok (.vmaxN32 (guardOf (fld w 7 4)) (Fin.ofNat 64 (fld w 14 6)) (Fin.ofNat 64 (fld w 20 6)) (Fin.ofNat 64 (fld w 26 6)))
  | _ => .error 2

/-- MAJ 24: R209. -/
def decMaj24 (w : Nat) : Except Nat Instr :=
  match fld w 11 3 with
  | 0 =>
      if 12 < fld w 7 4 then .error 4 else
      .ok (.vrotrImm (guardOf (fld w 7 4)) (Fin.ofNat 64 (fld w 14 6)) (Fin.ofNat 64 (fld w 20 6)) (Fin.ofNat 64 (fld w 26 6)))
  | 1 =>
      if 12 < fld w 7 4 then .error 4 else
      if fld w 31 1 ≠ 0 then .error 5 else
      .ok (.vrotrReg (guardOf (fld w 7 4)) (Fin.ofNat 64 (fld w 14 6)) (Fin.ofNat 64 (fld w 20 6)) (Fin.ofNat 32 (fld w 26 5)))
  | 2 =>
      if fld w 30 2 ≠ 0 then .error 3 else
      if 12 < fld w 7 4 then .error 4 else
      .ok (.vrotcImm (guardOf (fld w 7 4)) (Fin.ofNat 64 (fld w 14 6)) (Fin.ofNat 64 (fld w 20 6)) (Fin.ofNat 16 (fld w 26 4)))
  | 3 =>
      if 12 < fld w 7 4 then .error 4 else
      if fld w 31 1 ≠ 0 then .error 5 else
      .ok (.vrotcReg (guardOf (fld w 7 4)) (Fin.ofNat 64 (fld w 14 6)) (Fin.ofNat 64 (fld w 20 6)) (Fin.ofNat 32 (fld w 26 5)))
  | 4 =>
      if 12 < fld w 7 4 then .error 4 else
      .ok (.vbcrImm (guardOf (fld w 7 4)) (Fin.ofNat 64 (fld w 14 6)) (Fin.ofNat 64 (fld w 20 6)) (Fin.ofNat 64 (fld w 26 6)))
  | 5 =>
      if 12 < fld w 7 4 then .error 4 else
      if fld w 31 1 ≠ 0 then .error 5 else
      .ok (.vbcrReg (guardOf (fld w 7 4)) (Fin.ofNat 64 (fld w 14 6)) (Fin.ofNat 64 (fld w 20 6)) (Fin.ofNat 32 (fld w 26 5)))
  | 6 =>
      if fld w 30 2 ≠ 0 then .error 3 else
      if 12 < fld w 7 4 then .error 4 else
      .ok (.vbccImm (guardOf (fld w 7 4)) (Fin.ofNat 64 (fld w 14 6)) (Fin.ofNat 64 (fld w 20 6)) (Fin.ofNat 16 (fld w 26 4)))
  | _ =>
      if 12 < fld w 7 4 then .error 4 else
      if fld w 31 1 ≠ 0 then .error 5 else
      .ok (.vbccReg (guardOf (fld w 7 4)) (Fin.ofNat 64 (fld w 14 6)) (Fin.ofNat 64 (fld w 20 6)) (Fin.ofNat 32 (fld w 26 5)))

/-- MAJ 25: R211. -/
def decMaj25 (w : Nat) : Except Nat Instr :=
  match fld w 11 3 with
  | 0 =>
      if fld w 26 6 ≠ 0 then .error 3 else
      if 12 < fld w 7 4 then .error 4 else
      .ok (.vrsumF32 (guardOf (fld w 7 4)) (Fin.ofNat 64 (fld w 14 6)) (Fin.ofNat 64 (fld w 20 6)))
  | 1 =>
      if fld w 26 6 ≠ 0 then .error 3 else
      if 12 < fld w 7 4 then .error 4 else
      .ok (.vcsumF32 (guardOf (fld w 7 4)) (Fin.ofNat 64 (fld w 14 6)) (Fin.ofNat 64 (fld w 20 6)))
  | 2 =>
      if fld w 26 6 ≠ 0 then .error 3 else
      if 12 < fld w 7 4 then .error 4 else
      .ok (.vrmaxF32 (guardOf (fld w 7 4)) (Fin.ofNat 64 (fld w 14 6)) (Fin.ofNat 64 (fld w 20 6)))
  | 3 =>
      if fld w 26 6 ≠ 0 then .error 3 else
      if 12 < fld w 7 4 then .error 4 else
      .ok (.vcmaxF32 (guardOf (fld w 7 4)) (Fin.ofNat 64 (fld w 14 6)) (Fin.ofNat 64 (fld w 20 6)))
  | 4 =>
      if fld w 26 6 ≠ 0 then .error 3 else
      if 12 < fld w 7 4 then .error 4 else
      .ok (.vrminF32 (guardOf (fld w 7 4)) (Fin.ofNat 64 (fld w 14 6)) (Fin.ofNat 64 (fld w 20 6)))
  | 5 =>
      if fld w 26 6 ≠ 0 then .error 3 else
      if 12 < fld w 7 4 then .error 4 else
      .ok (.vcminF32 (guardOf (fld w 7 4)) (Fin.ofNat 64 (fld w 14 6)) (Fin.ofNat 64 (fld w 20 6)))
  | 6 =>
      if fld w 26 6 ≠ 0 then .error 3 else
      if 12 < fld w 7 4 then .error 4 else
      .ok (.vrsumI32 (guardOf (fld w 7 4)) (Fin.ofNat 64 (fld w 14 6)) (Fin.ofNat 64 (fld w 20 6)))
  | _ =>
      if fld w 26 6 ≠ 0 then .error 3 else
      if 12 < fld w 7 4 then .error 4 else
      .ok (.vcsumI32 (guardOf (fld w 7 4)) (Fin.ofNat 64 (fld w 14 6)) (Fin.ofNat 64 (fld w 20 6)))

/-- MAJ 26: R212. -/
def decMaj26 (w : Nat) : Except Nat Instr :=
  match fld w 11 3 with
  | 0 =>
      if 12 < fld w 7 4 then .error 4 else
      if 11 < fld w 14 6 ∨ 11 < fld w 20 6 ∨ 11 < fld w 26 6 then .error 5 else
      .ok (.pand (guardOf (fld w 7 4)) (predOf (fld w 14 6)) (predOf (fld w 20 6)) (predOf (fld w 26 6)))
  | 1 =>
      if 12 < fld w 7 4 then .error 4 else
      if 11 < fld w 14 6 ∨ 11 < fld w 20 6 ∨ 11 < fld w 26 6 then .error 5 else
      .ok (.por (guardOf (fld w 7 4)) (predOf (fld w 14 6)) (predOf (fld w 20 6)) (predOf (fld w 26 6)))
  | 2 =>
      if 12 < fld w 7 4 then .error 4 else
      if 11 < fld w 14 6 ∨ 11 < fld w 20 6 ∨ 11 < fld w 26 6 then .error 5 else
      .ok (.pxor (guardOf (fld w 7 4)) (predOf (fld w 14 6)) (predOf (fld w 20 6)) (predOf (fld w 26 6)))
  | 3 =>
      if 12 < fld w 7 4 then .error 4 else
      if 11 < fld w 14 6 ∨ 11 < fld w 20 6 ∨ 11 < fld w 26 6 then .error 5 else
      .ok (.pandn (guardOf (fld w 7 4)) (predOf (fld w 14 6)) (predOf (fld w 20 6)) (predOf (fld w 26 6)))
  | 4 =>
      if fld w 26 6 ≠ 0 then .error 3 else
      if 12 < fld w 7 4 then .error 4 else
      if 11 < fld w 14 6 then .error 5 else
      .ok (.pnez (guardOf (fld w 7 4)) (predOf (fld w 14 6)) (Fin.ofNat 64 (fld w 20 6)))
  | 5 =>
      if fld w 26 6 ≠ 0 then .error 3 else
      if 12 < fld w 7 4 then .error 4 else
      if 11 < fld w 20 6 then .error 5 else
      .ok (.vmovp (guardOf (fld w 7 4)) (Fin.ofNat 64 (fld w 14 6)) (predOf (fld w 20 6)))
  | 6 =>
      if fld w 21 11 ≠ 0 then .error 3 else
      if 12 < fld w 7 4 then .error 4 else
      if 11 < fld w 14 6 then .error 5 else
      .ok (.pset (guardOf (fld w 7 4)) (predOf (fld w 14 6)) (Fin.ofNat 2 (fld w 20 1)))
  | _ =>
      if fld w 26 6 ≠ 0 then .error 3 else
      if 12 < fld w 7 4 then .error 4 else
      if 11 < fld w 14 6 ∨ 11 < fld w 20 6 then .error 5 else
      .ok (.pfirst (guardOf (fld w 7 4)) (predOf (fld w 14 6)) (predOf (fld w 20 6)))

/-- MAJ 27: R213. -/
def decMaj27 (w : Nat) : Except Nat Instr :=
  match fld w 11 3 with
  | 0 =>
      if fld w 20 6 ≠ 0 ∨ fld w 28 4 ≠ 0 ∨ fld w 26 2 = 3 then .error 3 else
      if 12 < fld w 7 4 then .error 4 else
      .ok (.vlidx (guardOf (fld w 7 4)) (Fin.ofNat 64 (fld w 14 6)) (Fin.ofNat 4 (fld w 26 2)))
  | 1 =>
      if fld w 7 4 ≠ 12 then .error 4 else
      if fld w 31 1 ≠ 0 ∨ fld w 19 1 ≠ 0 then .error 5 else
      .ok (.vextN32 (Fin.ofNat 32 (fld w 14 5)) (Fin.ofNat 64 (fld w 20 6)) (Fin.ofNat 32 (fld w 26 5)))
  | 2 =>
      if fld w 7 4 ≠ 12 then .error 4 else
      if fld w 31 1 ≠ 0 ∨ fld w 19 1 ≠ 0 then .error 5 else
      .ok (.vextI32 (Fin.ofNat 32 (fld w 14 5)) (Fin.ofNat 64 (fld w 20 6)) (Fin.ofNat 32 (fld w 26 5)))
  | 3 =>
      if 12 < fld w 7 4 then .error 4 else
      if fld w 31 1 ≠ 0 ∨ fld w 25 1 ≠ 0 then .error 5 else
      .ok (.vins (guardOf (fld w 7 4)) (Fin.ofNat 64 (fld w 14 6)) (Fin.ofNat 32 (fld w 20 5)) (Fin.ofNat 32 (fld w 26 5)))
  | 4 =>
      if fld w 26 6 ≠ 0 then .error 3 else
      if 12 < fld w 7 4 then .error 4 else
      if fld w 25 1 ≠ 0 then .error 5 else
      .ok (.vbcg (guardOf (fld w 7 4)) (Fin.ofNat 64 (fld w 14 6)) (Fin.ofNat 32 (fld w 20 5)))
  | 5 =>
      if fld w 20 6 ≠ 0 then .error 3 else
      if 12 < fld w 7 4 then .error 4 else
      .ok (.vmovi (guardOf (fld w 7 4)) (Fin.ofNat 64 (fld w 14 6)) (Fin.ofNat 64 (fld w 26 6)))
  | 6 =>
      if fld w 26 6 ≠ 0 then .error 3 else
      if fld w 7 4 ≠ 12 then .error 4 else
      if fld w 19 1 ≠ 0 ∨ 11 < fld w 20 6 then .error 5 else
      .ok (.pcnt (Fin.ofNat 32 (fld w 14 5)) (predOf (fld w 20 6)))
  | _ =>
      if fld w 26 6 ≠ 0 then .error 3 else
      if fld w 7 4 ≠ 12 then .error 4 else
      if fld w 19 1 ≠ 0 ∨ 11 < fld w 20 6 then .error 5 else
      .ok (.pfind (Fin.ofNat 32 (fld w 14 5)) (predOf (fld w 20 6)))

/-- MAJ 28: R219. -/
def decMaj28 (w : Nat) : Except Nat Instr :=
  match fld w 11 3 with
  | 0 =>
      if (2 ≤ fld w 26 2 ∨ (fld w 29 3 = 7 ∧ fld w 28 1 = 1)) then .error 3 else
      if 12 < fld w 7 4 then .error 4 else
      if (fld w 26 2 = 1 ∧ fld w 20 6 % 2 ≠ 0) then .error 5 else
      if fld w 29 3 = 6 then .error 6 else
      .ok (.vcvtBf16F32 (guardOf (fld w 7 4)) (Fin.ofNat 64 (fld w 14 6)) (Fin.ofNat 64 (fld w 20 6)) (Fin.ofNat 4 (fld w 26 2)) (Fin.ofNat 2 (fld w 28 1)) (Fin.ofNat 8 (fld w 29 3)))
  | 1 =>
      if (2 ≤ fld w 26 2 ∨ (fld w 29 3 = 7 ∧ fld w 28 1 = 1)) then .error 3 else
      if 12 < fld w 7 4 then .error 4 else
      if (fld w 26 2 = 1 ∧ fld w 20 6 % 2 ≠ 0) then .error 5 else
      if fld w 29 3 = 6 then .error 6 else
      .ok (.vcvtF16F32 (guardOf (fld w 7 4)) (Fin.ofNat 64 (fld w 14 6)) (Fin.ofNat 64 (fld w 20 6)) (Fin.ofNat 4 (fld w 26 2)) (Fin.ofNat 2 (fld w 28 1)) (Fin.ofNat 8 (fld w 29 3)))
  | 2 =>
      if (fld w 26 2 = 1 ∨ fld w 26 2 = 3 ∨ (fld w 29 3 = 7 ∧ fld w 28 1 = 1)) then .error 3 else
      if 12 < fld w 7 4 then .error 4 else
      if (fld w 26 2 = 2 ∧ fld w 20 6 % 4 ≠ 0) then .error 5 else
      if fld w 29 3 = 6 then .error 6 else
      .ok (.vcvtE4m3F32 (guardOf (fld w 7 4)) (Fin.ofNat 64 (fld w 14 6)) (Fin.ofNat 64 (fld w 20 6)) (Fin.ofNat 4 (fld w 26 2)) (Fin.ofNat 2 (fld w 28 1)) (Fin.ofNat 8 (fld w 29 3)))
  | 3 =>
      if (fld w 26 2 = 1 ∨ fld w 26 2 = 3 ∨ (fld w 29 3 = 7 ∧ fld w 28 1 = 1)) then .error 3 else
      if 12 < fld w 7 4 then .error 4 else
      if (fld w 26 2 = 2 ∧ fld w 20 6 % 4 ≠ 0) then .error 5 else
      if fld w 29 3 = 6 then .error 6 else
      .ok (.vcvtE5m2F32 (guardOf (fld w 7 4)) (Fin.ofNat 64 (fld w 14 6)) (Fin.ofNat 64 (fld w 20 6)) (Fin.ofNat 4 (fld w 26 2)) (Fin.ofNat 2 (fld w 28 1)) (Fin.ofNat 8 (fld w 29 3)))
  | 4 =>
      if fld w 28 4 ≠ 0 ∨ 2 ≤ fld w 26 2 then .error 3 else
      if 12 < fld w 7 4 then .error 4 else
      if (fld w 26 2 = 1 ∧ fld w 14 6 % 2 ≠ 0) then .error 5 else
      .ok (.vcvtF32Bf16 (guardOf (fld w 7 4)) (Fin.ofNat 64 (fld w 14 6)) (Fin.ofNat 64 (fld w 20 6)) (Fin.ofNat 4 (fld w 26 2)))
  | 5 =>
      if fld w 28 4 ≠ 0 ∨ 2 ≤ fld w 26 2 then .error 3 else
      if 12 < fld w 7 4 then .error 4 else
      if (fld w 26 2 = 1 ∧ fld w 14 6 % 2 ≠ 0) then .error 5 else
      .ok (.vcvtF32F16 (guardOf (fld w 7 4)) (Fin.ofNat 64 (fld w 14 6)) (Fin.ofNat 64 (fld w 20 6)) (Fin.ofNat 4 (fld w 26 2)))
  | 6 =>
      if fld w 28 4 ≠ 0 ∨ (fld w 26 2 = 1 ∨ fld w 26 2 = 3) then .error 3 else
      if 12 < fld w 7 4 then .error 4 else
      if (fld w 26 2 = 2 ∧ fld w 14 6 % 4 ≠ 0) then .error 5 else
      .ok (.vcvtF32E4m3 (guardOf (fld w 7 4)) (Fin.ofNat 64 (fld w 14 6)) (Fin.ofNat 64 (fld w 20 6)) (Fin.ofNat 4 (fld w 26 2)))
  | _ =>
      if fld w 28 4 ≠ 0 ∨ (fld w 26 2 = 1 ∨ fld w 26 2 = 3) then .error 3 else
      if 12 < fld w 7 4 then .error 4 else
      if (fld w 26 2 = 2 ∧ fld w 14 6 % 4 ≠ 0) then .error 5 else
      .ok (.vcvtF32E5m2 (guardOf (fld w 7 4)) (Fin.ofNat 64 (fld w 14 6)) (Fin.ofNat 64 (fld w 20 6)) (Fin.ofNat 4 (fld w 26 2)))

/-- MAJ 29: R221, R222, R223, R224. -/
def decMaj29 (w : Nat) : Except Nat Instr :=
  match fld w 11 3 with
  | 0 =>
      if fld w 26 3 ≠ 0 then .error 3 else
      if 12 < fld w 7 4 then .error 4 else
      if fld w 29 3 = 6 then .error 6 else
      .ok (.vcvtI32F32 (guardOf (fld w 7 4)) (Fin.ofNat 64 (fld w 14 6)) (Fin.ofNat 64 (fld w 20 6)) (Fin.ofNat 8 (fld w 29 3)))
  | 1 =>
      if fld w 26 3 ≠ 0 then .error 3 else
      if 12 < fld w 7 4 then .error 4 else
      if fld w 29 3 = 6 then .error 6 else
      .ok (.vcvtN32F32 (guardOf (fld w 7 4)) (Fin.ofNat 64 (fld w 14 6)) (Fin.ofNat 64 (fld w 20 6)) (Fin.ofNat 8 (fld w 29 3)))
  | 2 =>
      if fld w 26 3 ≠ 0 then .error 3 else
      if 12 < fld w 7 4 then .error 4 else
      if fld w 29 3 = 6 then .error 6 else
      .ok (.vcvtF32I32 (guardOf (fld w 7 4)) (Fin.ofNat 64 (fld w 14 6)) (Fin.ofNat 64 (fld w 20 6)) (Fin.ofNat 8 (fld w 29 3)))
  | 3 =>
      if fld w 26 3 ≠ 0 then .error 3 else
      if 12 < fld w 7 4 then .error 4 else
      if fld w 29 3 = 6 then .error 6 else
      .ok (.vcvtF32N32 (guardOf (fld w 7 4)) (Fin.ofNat 64 (fld w 14 6)) (Fin.ofNat 64 (fld w 20 6)) (Fin.ofNat 8 (fld w 29 3)))
  | 4 =>
      if fld w 26 3 ≠ 0 then .error 3 else
      if 12 < fld w 7 4 then .error 4 else
      if fld w 29 3 = 6 then .error 6 else
      .ok (.vrintF32 (guardOf (fld w 7 4)) (Fin.ofNat 64 (fld w 14 6)) (Fin.ofNat 64 (fld w 20 6)) (Fin.ofNat 8 (fld w 29 3)))
  | 5 =>
      if fld w 28 1 ≠ 0 ∨ fld w 26 2 = 3 then .error 3 else
      if fld w 7 4 ≠ 12 then .error 4 else
      if fld w 14 1 ≠ 0 then .error 5 else
      if fld w 29 3 = 6 then .error 6 else
      .ok (.vcvtMxF32 (Fin.ofNat 32 (fld w 15 5)) (Fin.ofNat 64 (fld w 20 6)) (Fin.ofNat 4 (fld w 26 2)) (Fin.ofNat 8 (fld w 29 3)))
  | 6 =>
      if fld w 28 4 ≠ 0 ∨ fld w 26 2 = 3 then .error 3 else
      if 12 < fld w 7 4 then .error 4 else
      if fld w 20 1 ≠ 0 then .error 5 else
      .ok (.vcvtF32Mx (guardOf (fld w 7 4)) (Fin.ofNat 64 (fld w 14 6)) (Fin.ofNat 32 (fld w 21 5)) (Fin.ofNat 4 (fld w 26 2)))
  | _ => .error 2

/-- MAJ 30: R76, R77, R78, R79. -/
def decMaj30 (w : Nat) : Except Nat Instr :=
  match fld w 11 3 with
  | 0 =>
      if fld w 26 6 ≠ 0 then .error 3 else
      if 12 < fld w 7 4 then .error 4 else
      .ok (.vexpF32 (guardOf (fld w 7 4)) (Fin.ofNat 64 (fld w 14 6)) (Fin.ofNat 64 (fld w 20 6)))
  | 1 =>
      if fld w 26 6 ≠ 0 then .error 3 else
      if 12 < fld w 7 4 then .error 4 else
      .ok (.vexp2F32 (guardOf (fld w 7 4)) (Fin.ofNat 64 (fld w 14 6)) (Fin.ofNat 64 (fld w 20 6)))
  | 2 =>
      if fld w 26 6 ≠ 0 then .error 3 else
      if 12 < fld w 7 4 then .error 4 else
      .ok (.vlog2F32 (guardOf (fld w 7 4)) (Fin.ofNat 64 (fld w 14 6)) (Fin.ofNat 64 (fld w 20 6)))
  | 3 =>
      if fld w 26 6 ≠ 0 then .error 3 else
      if 12 < fld w 7 4 then .error 4 else
      .ok (.vrcpF32 (guardOf (fld w 7 4)) (Fin.ofNat 64 (fld w 14 6)) (Fin.ofNat 64 (fld w 20 6)))
  | 4 =>
      if fld w 26 6 ≠ 0 then .error 3 else
      if 12 < fld w 7 4 then .error 4 else
      .ok (.vrsqrtF32 (guardOf (fld w 7 4)) (Fin.ofNat 64 (fld w 14 6)) (Fin.ofNat 64 (fld w 20 6)))
  | 5 =>
      if fld w 26 6 ≠ 0 then .error 3 else
      if 12 < fld w 7 4 then .error 4 else
      .ok (.vsqrtF32 (guardOf (fld w 7 4)) (Fin.ofNat 64 (fld w 14 6)) (Fin.ofNat 64 (fld w 20 6)))
  | 6 =>
      if fld w 26 6 ≠ 0 then .error 3 else
      if 12 < fld w 7 4 then .error 4 else
      .ok (.vtanhF32 (guardOf (fld w 7 4)) (Fin.ofNat 64 (fld w 14 6)) (Fin.ofNat 64 (fld w 20 6)))
  | _ => .error 2

/-- MAJ 31: R229, R230, R231. -/
def decMaj31 (w : Nat) : Except Nat Instr :=
  match fld w 11 3 with
  | 0 =>
      if (fld w 30 2 = 0 ∧ 8 ≤ fld w 26 4) then .error 3 else
      if 12 < fld w 7 4 then .error 4 else
      .ok (.vcmpr (guardOf (fld w 7 4)) (Fin.ofNat 64 (fld w 14 6)) (Fin.ofNat 64 (fld w 20 6)) (Fin.ofNat 16 (fld w 26 4)) (Fin.ofNat 4 (fld w 30 2)))
  | 1 =>
      if (fld w 30 2 = 0 ∧ 8 ≤ fld w 26 4) then .error 3 else
      if 12 < fld w 7 4 then .error 4 else
      if fld w 14 1 ≠ 0 then .error 5 else
      .ok (.vtopkF32 (guardOf (fld w 7 4)) (Fin.ofNat 32 (fld w 15 5)) (Fin.ofNat 64 (fld w 20 6)) (Fin.ofNat 16 (fld w 26 4)) (Fin.ofNat 4 (fld w 30 2)))
  | 2 =>
      if fld w 28 4 ≠ 0 then .error 3 else
      if 12 < fld w 7 4 then .error 4 else
      .ok (.vscanF32 (guardOf (fld w 7 4)) (Fin.ofNat 64 (fld w 14 6)) (Fin.ofNat 64 (fld w 20 6)) (Fin.ofNat 2 (fld w 26 1)) (Fin.ofNat 2 (fld w 27 1)))
  | 3 =>
      if fld w 28 4 ≠ 0 then .error 3 else
      if 12 < fld w 7 4 then .error 4 else
      .ok (.vscanI32 (guardOf (fld w 7 4)) (Fin.ofNat 64 (fld w 14 6)) (Fin.ofNat 64 (fld w 20 6)) (Fin.ofNat 2 (fld w 26 1)) (Fin.ofNat 2 (fld w 27 1)))
  | 4 =>
      if fld w 20 6 ≠ 0 then .error 3 else
      if 12 < fld w 7 4 then .error 4 else
      if fld w 31 1 ≠ 0 then .error 5 else
      .ok (.vrandN32 (guardOf (fld w 7 4)) (Fin.ofNat 64 (fld w 14 6)) (Fin.ofNat 32 (fld w 26 5)))
  | 5 =>
      if fld w 20 6 ≠ 0 then .error 3 else
      if 12 < fld w 7 4 then .error 4 else
      if fld w 31 1 ≠ 0 then .error 5 else
      .ok (.vrandF32 (guardOf (fld w 7 4)) (Fin.ofNat 64 (fld w 14 6)) (Fin.ofNat 32 (fld w 26 5)))
  | 6 =>
      if (fld w 30 2 = 0 ∧ 8 ≤ fld w 26 4) then .error 3 else
      if 12 < fld w 7 4 then .error 4 else
      if fld w 14 1 ≠ 0 then .error 5 else
      .ok (.vtopkI32 (guardOf (fld w 7 4)) (Fin.ofNat 32 (fld w 15 5)) (Fin.ofNat 64 (fld w 20 6)) (Fin.ofNat 16 (fld w 26 4)) (Fin.ofNat 4 (fld w 30 2)))
  | _ => .error 2

/-- MAJ 32: R249. -/
def decMaj32 (w : Nat) : Except Nat Instr :=
  if fld w 24 8 ≠ 0 then .error 3 else
  .ok (.maMm (Fin.ofNat 16 (fld w 7 4)) (Fin.ofNat 64 (fld w 11 6)) (Fin.ofNat 2 (fld w 17 1)) (Fin.ofNat 16 (fld w 18 4)) (Fin.ofNat 2 (fld w 22 1)) (Fin.ofNat 2 (fld w 23 1)))

/-- MAJ 33: R245, R246, R247. -/
def decMaj33 (w : Nat) : Except Nat Instr :=
  match fld w 7 4 with
  | 0 =>
      if fld w 19 13 ≠ 0 ∨ pairBad (fld w 11 4) (fld w 15 4) = true then .error 3 else
      .ok (.maCfg (Fin.ofNat 16 (fld w 11 4)) (Fin.ofNat 16 (fld w 15 4)))
  | 1 =>
      if fld w 28 4 ≠ 0 then .error 3 else
      .ok (.maLdb (Fin.ofNat 2 (fld w 11 1)) (Fin.ofNat 2048 (fld w 12 11)) (Fin.ofNat 32 (fld w 23 5)))
  | 2 =>
      if fld w 26 6 ≠ 0 then .error 3 else
      .ok (.maLdw (Fin.ofNat 32 (fld w 11 5)) (Fin.ofNat 32 (fld w 16 5)) (Fin.ofNat 32 (fld w 21 5)))
  | _ => .error 2

/-- MAJ 34: R250. -/
def decMaj34 (w : Nat) : Except Nat Instr :=
  match fld w 7 4 with
  | 0 =>
      if fld w 15 17 ≠ 0 then .error 3 else
      .ok (.maZero (Fin.ofNat 16 (fld w 11 4)))
  | 1 =>
      if fld w 26 6 ≠ 0 ∨ fld w 18 2 = 3 then .error 3 else
      .ok (.maMovTv (Fin.ofNat 16 (fld w 11 4)) (Fin.ofNat 8 (fld w 15 3)) (Fin.ofNat 4 (fld w 18 2)) (Fin.ofNat 64 (fld w 20 6)))
  | 2 =>
      if fld w 26 6 ≠ 0 ∨ fld w 18 2 = 3 then .error 3 else
      .ok (.maMovVt (Fin.ofNat 16 (fld w 11 4)) (Fin.ofNat 8 (fld w 15 3)) (Fin.ofNat 4 (fld w 18 2)) (Fin.ofNat 64 (fld w 20 6)))
  | 3 =>
      if fld w 15 5 ≠ 0 ∨ fld w 25 7 ≠ 0 then .error 3 else
      .ok (.maMovTp (Fin.ofNat 16 (fld w 11 4)) (Fin.ofNat 32 (fld w 20 5)))
  | 4 =>
      if fld w 15 5 ≠ 0 ∨ fld w 24 2 ≠ 0 ∨ fld w 30 2 ≠ 0 ∨ (fld w 26 4 = 0 ∨ 15 < fld w 20 4 + fld w 26 4) then .error 3 else
      .ok (.maMovSum (Fin.ofNat 16 (fld w 11 4)) (Fin.ofNat 16 (fld w 20 4)) (Fin.ofNat 16 (fld w 26 4)))
  | _ => .error 2

/-- MAJ 35: R251, R253, R254. -/
def decMaj35 (w : Nat) : Except Nat Instr :=
  match fld w 7 4 with
  | 0 =>
      if fld w 27 5 ≠ 0 then .error 3 else
      .ok (.maWait (Fin.ofNat 65536 (fld w 11 16)))
  | 1 =>
      if fld w 16 16 ≠ 0 then .error 3 else
      .ok (.maSave (Fin.ofNat 32 (fld w 11 5)))
  | 2 =>
      if fld w 16 16 ≠ 0 then .error 3 else
      .ok (.maRstr (Fin.ofNat 32 (fld w 11 5)))
  | _ => .error 2

/-- MAJ 36: R271, R273. -/
def decMaj36 (w : Nat) : Except Nat Instr :=
  match fld w 7 5 with
  | 0 =>
      if fld w 17 5 ≠ 0 ∨ fld w 27 5 ≠ 0 then .error 3 else
      .ok (.cpCopy (Fin.ofNat 32 (fld w 12 5)) (Fin.ofNat 32 (fld w 22 5)))
  | 1 =>
      if fld w 17 5 ≠ 0 ∨ fld w 27 5 ≠ 0 then .error 3 else
      .ok (.cpCopyTs (Fin.ofNat 32 (fld w 12 5)) (Fin.ofNat 32 (fld w 22 5)))
  | 2 =>
      if fld w 27 5 ≠ 0 then .error 3 else
      .ok (.cpCopyRc (Fin.ofNat 32 (fld w 12 5)) (Fin.ofNat 32 (fld w 17 5)) (Fin.ofNat 32 (fld w 22 5)))
  | _ => .error 2

/-- MAJ 37: R271, R274. -/
def decMaj37 (w : Nat) : Except Nat Instr :=
  match fld w 7 5 with
  | 0 =>
      if fld w 28 4 ≠ 0 then .error 3 else
      .ok (.cpGath (Fin.ofNat 32 (fld w 12 5)) (Fin.ofNat 32 (fld w 17 5)) (Fin.ofNat 32 (fld w 22 5)) (Fin.ofNat 2 (fld w 27 1)))
  | 1 =>
      if fld w 27 5 ≠ 0 then .error 3 else
      .ok (.cpScat (Fin.ofNat 32 (fld w 12 5)) (Fin.ofNat 32 (fld w 17 5)) (Fin.ofNat 32 (fld w 22 5)))
  | 2 =>
      if fld w 28 4 ≠ 0 then .error 3 else
      .ok (.cpFill (Fin.ofNat 32 (fld w 12 5)) (Fin.ofNat 32 (fld w 17 5)) (Fin.ofNat 32 (fld w 22 5)) (Fin.ofNat 2 (fld w 27 1)))
  | _ => .error 2

/-- MAJ 38: R276, R277, R278. -/
def decMaj38 (w : Nat) : Except Nat Instr :=
  match fld w 7 5 with
  | 0 =>
      if fld w 22 10 ≠ 0 then .error 3 else
      .ok (.tsDef (Fin.ofNat 32 (fld w 12 5)) (Fin.ofNat 32 (fld w 17 5)))
  | 1 =>
      if fld w 17 5 ≠ 0 ∨ fld w 27 5 ≠ 0 then .error 3 else
      .ok (.tsRel (Fin.ofNat 32 (fld w 12 5)) (Fin.ofNat 32 (fld w 22 5)))
  | 2 =>
      if fld w 17 5 ≠ 0 ∨ fld w 29 3 ≠ 0 ∨ (fld w 28 1 = 1 ∧ fld w 27 1 = 1) then .error 3 else
      .ok (.tsStat (Fin.ofNat 32 (fld w 12 5)) (Fin.ofNat 32 (fld w 22 5)) (Fin.ofNat 2 (fld w 27 1)) (Fin.ofNat 2 (fld w 28 1)))
  | _ => .error 2

/-- MAJ 39: R287, R288, R289, R290. -/
def decMaj39 (w : Nat) : Except Nat Instr :=
  match fld w 7 5 with
  | 0 =>
      if fld w 27 2 ≠ 0 ∨ (fld w 29 3 = 0 ∨ 6 ≤ fld w 29 3) then .error 3 else
      .ok (.barInit (Fin.ofNat 32 (fld w 12 5)) (Fin.ofNat 32 (fld w 17 5)) (Fin.ofNat 32 (fld w 22 5)) (Fin.ofNat 8 (fld w 29 3)))
  | 1 =>
      if fld w 17 5 ≠ 0 ∨ fld w 27 5 ≠ 0 then .error 3 else
      .ok (.barArr (Fin.ofNat 32 (fld w 12 5)) (Fin.ofNat 32 (fld w 22 5)))
  | 2 =>
      if fld w 27 5 ≠ 0 then .error 3 else
      .ok (.barWait (Fin.ofNat 32 (fld w 12 5)) (Fin.ofNat 32 (fld w 17 5)) (Fin.ofNat 32 (fld w 22 5)))
  | 3 =>
      if fld w 17 5 ≠ 0 ∨ fld w 27 5 ≠ 0 then .error 3 else
      .ok (.barArw (Fin.ofNat 32 (fld w 12 5)) (Fin.ofNat 32 (fld w 22 5)))
  | 4 =>
      if fld w 27 5 ≠ 0 then .error 3 else
      .ok (.barExpb (Fin.ofNat 32 (fld w 12 5)) (Fin.ofNat 32 (fld w 17 5)) (Fin.ofNat 32 (fld w 22 5)))
  | 5 =>
      if fld w 17 5 ≠ 0 ∨ fld w 28 4 ≠ 0 then .error 3 else
      .ok (.barStat (Fin.ofNat 32 (fld w 12 5)) (Fin.ofNat 32 (fld w 22 5)) (Fin.ofNat 2 (fld w 27 1)))
  | 6 =>
      if fld w 17 5 ≠ 0 ∨ fld w 27 5 ≠ 0 then .error 3 else
      .ok (.barExp (Fin.ofNat 32 (fld w 12 5)) (Fin.ofNat 32 (fld w 22 5)))
  | 7 =>
      if fld w 17 5 ≠ 0 ∨ fld w 27 5 ≠ 0 then .error 3 else
      .ok (.barUnex (Fin.ofNat 32 (fld w 12 5)) (Fin.ofNat 32 (fld w 22 5)))
  | _ => .error 2

/-- MAJ 40: R292, R293. -/
def decMaj40 (w : Nat) : Except Nat Instr :=
  match fld w 7 5 with
  | 0 =>
      if fld w 27 2 ≠ 0 ∨ (fld w 29 3 = 0 ∨ 6 ≤ fld w 29 3) then .error 3 else
      .ok (.semInit (Fin.ofNat 32 (fld w 12 5)) (Fin.ofNat 32 (fld w 17 5)) (Fin.ofNat 32 (fld w 22 5)) (Fin.ofNat 8 (fld w 29 3)))
  | 1 =>
      if fld w 27 5 ≠ 0 then .error 3 else
      .ok (.semSet (Fin.ofNat 32 (fld w 12 5)) (Fin.ofNat 32 (fld w 17 5)) (Fin.ofNat 32 (fld w 22 5)))
  | 2 =>
      if fld w 27 5 ≠ 0 then .error 3 else
      .ok (.semAdd (Fin.ofNat 32 (fld w 12 5)) (Fin.ofNat 32 (fld w 17 5)) (Fin.ofNat 32 (fld w 22 5)))
  | 3 =>
      if fld w 28 4 ≠ 0 then .error 3 else
      .ok (.semWge (Fin.ofNat 32 (fld w 12 5)) (Fin.ofNat 32 (fld w 17 5)) (Fin.ofNat 32 (fld w 22 5)) (Fin.ofNat 2 (fld w 27 1)))
  | _ => .error 2

/-- MAJ 41: R300, R301. -/
def decMaj41 (w : Nat) : Except Nat Instr :=
  match fld w 7 5 with
  | 0 =>
      if fld w 30 2 ≠ 0 ∨ fld w 23 2 ≠ 0 ∨ fld w 17 1 ≠ 0 then .error 5 else
      .ok (.chCfg (Fin.ofNat 32 (fld w 12 5)) (Fin.ofNat 32 (fld w 18 5)) (Fin.ofNat 32 (fld w 25 5)))
  | 1 =>
      if fld w 25 7 ≠ 0 then .error 3 else
      if fld w 23 2 ≠ 0 ∨ fld w 17 1 ≠ 0 then .error 5 else
      .ok (.chReg (Fin.ofNat 32 (fld w 12 5)) (Fin.ofNat 32 (fld w 18 5)))
  | 2 =>
      if fld w 25 7 ≠ 0 then .error 3 else
      if fld w 23 2 ≠ 0 ∨ fld w 17 1 ≠ 0 then .error 5 else
      .ok (.chEos (Fin.ofNat 32 (fld w 12 5)) (Fin.ofNat 32 (fld w 18 5)))
  | 3 =>
      if fld w 25 7 ≠ 0 then .error 3 else
      if fld w 17 1 ≠ 0 ∨ fld w 12 1 ≠ 0 ∨ (fld w 24 1 = 0) ∨ fld w 13 4 = 0 then .error 5 else
      .ok (.chTake (Fin.ofNat 16 (fld w 13 4)) (Fin.ofNat 32 (fld w 18 5)) (Fin.ofNat 2 (fld w 23 1)))
  | 4 =>
      if fld w 25 7 ≠ 0 then .error 3 else
      if fld w 23 2 ≠ 0 ∨ fld w 17 1 ≠ 0 then .error 5 else
      .ok (.chStat (Fin.ofNat 32 (fld w 12 5)) (Fin.ofNat 32 (fld w 18 5)))
  | _ => .error 2

/-- MAJ 42: R321. -/
def decMaj42 (w : Nat) : Except Nat Instr :=
  match fld w 7 5 with
  | 0 =>
      if fld w 27 5 ≠ 0 then .error 3 else
      .ok (.fwFu (Fin.ofNat 32 (fld w 12 5)) (Fin.ofNat 32 (fld w 17 5)) (Fin.ofNat 32 (fld w 22 5)))
  | 1 =>
      if fld w 27 5 ≠ 0 then .error 3 else
      .ok (.fwFwd (Fin.ofNat 32 (fld w 12 5)) (Fin.ofNat 32 (fld w 17 5)) (Fin.ofNat 32 (fld w 22 5)))
  | 2 =>
      if fld w 27 5 ≠ 0 then .error 3 else
      .ok (.fwUpd (Fin.ofNat 32 (fld w 12 5)) (Fin.ofNat 32 (fld w 17 5)) (Fin.ofNat 32 (fld w 22 5)))
  | _ => .error 2

/-- MAJ 43: R328, R329, R330, R331. -/
def decMaj43 (w : Nat) : Except Nat Instr :=
  match fld w 7 5 with
  | 0 =>
      if fld w 17 5 ≠ 0 ∨ fld w 27 5 ≠ 0 then .error 3 else
      .ok (.fwOpen (Fin.ofNat 32 (fld w 12 5)) (Fin.ofNat 32 (fld w 22 5)))
  | 1 =>
      if fld w 17 5 ≠ 0 ∨ fld w 27 5 ≠ 0 then .error 3 else
      .ok (.fwClose (Fin.ofNat 32 (fld w 12 5)) (Fin.ofNat 32 (fld w 22 5)))
  | 2 =>
      if fld w 17 5 ≠ 0 ∨ fld w 27 5 ≠ 0 then .error 3 else
      .ok (.fwFree (Fin.ofNat 32 (fld w 12 5)) (Fin.ofNat 32 (fld w 22 5)))
  | 3 =>
      if fld w 30 2 ≠ 0 ∨ (5 ≤ fld w 27 3 ∨ (fld w 27 3 ≤ 2 ∧ fld w 17 5 ≠ 0)) then .error 3 else
      .ok (.fwPage (Fin.ofNat 32 (fld w 12 5)) (Fin.ofNat 32 (fld w 17 5)) (Fin.ofNat 32 (fld w 22 5)) (Fin.ofNat 8 (fld w 27 3)))
  | 4 =>
      if fld w 17 5 ≠ 0 ∨ fld w 27 5 ≠ 0 then .error 3 else
      .ok (.fwStat (Fin.ofNat 32 (fld w 12 5)) (Fin.ofNat 32 (fld w 22 5)))
  | _ => .error 2

/-- MAJ 44: R332, R333, R334, R335. -/
def decMaj44 (w : Nat) : Except Nat Instr :=
  match fld w 7 5 with
  | 0 =>
      if fld w 17 5 ≠ 0 ∨ fld w 27 5 ≠ 0 then .error 3 else
      .ok (.fwSnap (Fin.ofNat 32 (fld w 12 5)) (Fin.ofNat 32 (fld w 22 5)))
  | 1 =>
      if fld w 27 5 ≠ 0 then .error 3 else
      .ok (.fwAvg (Fin.ofNat 32 (fld w 12 5)) (Fin.ofNat 32 (fld w 17 5)) (Fin.ofNat 32 (fld w 22 5)))
  | 2 =>
      if fld w 27 5 ≠ 0 then .error 3 else
      .ok (.fwRoll (Fin.ofNat 32 (fld w 12 5)) (Fin.ofNat 32 (fld w 17 5)) (Fin.ofNat 32 (fld w 22 5)))
  | 3 =>
      if fld w 27 5 ≠ 0 then .error 3 else
      .ok (.fwMig (Fin.ofNat 32 (fld w 12 5)) (Fin.ofNat 32 (fld w 17 5)) (Fin.ofNat 32 (fld w 22 5)))
  | _ => .error 2

/-- MAJ 45: R326, R327. -/
def decMaj45 (w : Nat) : Except Nat Instr :=
  match fld w 7 5 with
  | 0 =>
      if fld w 27 5 ≠ 0 then .error 3 else
      .ok (.fwLogc (Fin.ofNat 32 (fld w 12 5)) (Fin.ofNat 32 (fld w 17 5)) (Fin.ofNat 32 (fld w 22 5)))
  | 1 =>
      if fld w 27 5 ≠ 0 then .error 3 else
      .ok (.fwLogd (Fin.ofNat 32 (fld w 12 5)) (Fin.ofNat 32 (fld w 17 5)) (Fin.ofNat 32 (fld w 22 5)))
  | _ => .error 2

/-- MAJ 46: R347, R348, R349, R350, R351. -/
def decMaj46 (w : Nat) : Except Nat Instr :=
  match fld w 7 5 with
  | 0 =>
      if fld w 17 5 ≠ 0 ∨ fld w 28 4 ≠ 0 then .error 3 else
      .ok (.cxStart (Fin.ofNat 32 (fld w 12 5)) (Fin.ofNat 32 (fld w 22 5)) (Fin.ofNat 2 (fld w 27 1)))
  | 1 =>
      if fld w 17 5 ≠ 0 ∨ fld w 27 5 ≠ 0 then .error 3 else
      .ok (.cxPause (Fin.ofNat 32 (fld w 12 5)) (Fin.ofNat 32 (fld w 22 5)))
  | 2 =>
      if fld w 17 5 ≠ 0 ∨ fld w 27 5 ≠ 0 then .error 3 else
      .ok (.cxEnd (Fin.ofNat 32 (fld w 12 5)) (Fin.ofNat 32 (fld w 22 5)))
  | 3 =>
      if fld w 27 5 ≠ 0 then .error 3 else
      .ok (.cxFork (Fin.ofNat 32 (fld w 12 5)) (Fin.ofNat 32 (fld w 17 5)) (Fin.ofNat 32 (fld w 22 5)))
  | 4 =>
      if fld w 28 4 ≠ 0 then .error 3 else
      .ok (.cxCancel (Fin.ofNat 32 (fld w 12 5)) (Fin.ofNat 32 (fld w 17 5)) (Fin.ofNat 32 (fld w 22 5)) (Fin.ofNat 2 (fld w 27 1)))
  | 5 =>
      if fld w 27 5 ≠ 0 then .error 3 else
      .ok (.cxSpec (Fin.ofNat 32 (fld w 12 5)) (Fin.ofNat 32 (fld w 17 5)) (Fin.ofNat 32 (fld w 22 5)))
  | 6 =>
      if fld w 27 5 ≠ 0 then .error 3 else
      .ok (.cxCommit (Fin.ofNat 32 (fld w 12 5)) (Fin.ofNat 32 (fld w 17 5)) (Fin.ofNat 32 (fld w 22 5)))
  | _ => .error 2

/-- MAJ 47: R356, R357, R358, R359, R362. -/
def decMaj47 (w : Nat) : Except Nat Instr :=
  match fld w 7 5 with
  | 0 =>
      if fld w 27 5 ≠ 0 then .error 3 else
      .ok (.grBind (Fin.ofNat 32 (fld w 12 5)) (Fin.ofNat 32 (fld w 17 5)) (Fin.ofNat 32 (fld w 22 5)))
  | 1 =>
      if fld w 28 4 ≠ 0 then .error 3 else
      .ok (.grStep (Fin.ofNat 32 (fld w 12 5)) (Fin.ofNat 32 (fld w 17 5)) (Fin.ofNat 32 (fld w 22 5)) (Fin.ofNat 2 (fld w 27 1)))
  | 2 =>
      if fld w 17 5 ≠ 0 ∨ fld w 27 5 ≠ 0 then .error 3 else
      .ok (.grMask (Fin.ofNat 32 (fld w 12 5)) (Fin.ofNat 32 (fld w 22 5)))
  | 3 =>
      if fld w 27 5 ≠ 0 then .error 3 else
      .ok (.grLatt (Fin.ofNat 32 (fld w 12 5)) (Fin.ofNat 32 (fld w 17 5)) (Fin.ofNat 32 (fld w 22 5)))
  | 4 =>
      if fld w 27 5 ≠ 0 then .error 3 else
      .ok (.grSave (Fin.ofNat 32 (fld w 12 5)) (Fin.ofNat 32 (fld w 17 5)) (Fin.ofNat 32 (fld w 22 5)))
  | 5 =>
      if fld w 27 5 ≠ 0 then .error 3 else
      .ok (.grFork (Fin.ofNat 32 (fld w 12 5)) (Fin.ofNat 32 (fld w 17 5)) (Fin.ofNat 32 (fld w 22 5)))
  | 6 =>
      if fld w 27 5 ≠ 0 then .error 3 else
      .ok (.grRoll (Fin.ofNat 32 (fld w 12 5)) (Fin.ofNat 32 (fld w 17 5)) (Fin.ofNat 32 (fld w 22 5)))
  | _ => .error 2

/-- MAJ 48: R364, R366, R367. -/
def decMaj48 (w : Nat) : Except Nat Instr :=
  match fld w 7 5 with
  | 0 =>
      if fld w 17 5 ≠ 0 ∨ fld w 27 5 ≠ 0 then .error 3 else
      .ok (.skOpen (Fin.ofNat 32 (fld w 12 5)) (Fin.ofNat 32 (fld w 22 5)))
  | 1 =>
      if fld w 28 4 ≠ 0 then .error 3 else
      .ok (.skClose (Fin.ofNat 32 (fld w 12 5)) (Fin.ofNat 32 (fld w 17 5)) (Fin.ofNat 32 (fld w 22 5)) (Fin.ofNat 2 (fld w 27 1)))
  | 2 =>
      if fld w 17 5 ≠ 0 ∨ fld w 27 5 ≠ 0 then .error 3 else
      .ok (.skDraw (Fin.ofNat 32 (fld w 12 5)) (Fin.ofNat 32 (fld w 22 5)))
  | _ => .error 2

/-- MAJ 49: R361. -/
def decMaj49 (w : Nat) : Except Nat Instr :=
  match fld w 7 5 with
  | 0 =>
      if fld w 17 5 ≠ 0 ∨ fld w 27 5 ≠ 0 then .error 3 else
      .ok (.ltExp (Fin.ofNat 32 (fld w 12 5)) (Fin.ofNat 32 (fld w 22 5)))
  | _ => .error 2

/-- MAJ 50: R368, R369, R370. -/
def decMaj50 (w : Nat) : Except Nat Instr :=
  match fld w 7 5 with
  | 0 =>
      if fld w 27 5 ≠ 0 then .error 3 else
      .ok (.sqCfg (Fin.ofNat 32 (fld w 12 5)) (Fin.ofNat 32 (fld w 17 5)) (Fin.ofNat 32 (fld w 22 5)))
  | 1 =>
      if fld w 27 5 ≠ 0 then .error 3 else
      .ok (.sqSend (Fin.ofNat 32 (fld w 12 5)) (Fin.ofNat 32 (fld w 17 5)) (Fin.ofNat 32 (fld w 22 5)))
  | 2 =>
      if fld w 27 5 ≠ 0 then .error 3 else
      .ok (.sqRecv (Fin.ofNat 32 (fld w 12 5)) (Fin.ofNat 32 (fld w 17 5)) (Fin.ofNat 32 (fld w 22 5)))
  | _ => .error 2

/-- MAJ 51: R407, R408, R409, R410. -/
def decMaj51 (w : Nat) : Except Nat Instr :=
  match fld w 7 5 with
  | 0 =>
      if fld w 27 5 ≠ 0 then .error 3 else
      .ok (.tqPush (Fin.ofNat 32 (fld w 12 5)) (Fin.ofNat 32 (fld w 17 5)) (Fin.ofNat 32 (fld w 22 5)))
  | 1 =>
      if fld w 12 20 ≠ 0 then .error 3 else
      .ok .tkEnd
  | 2 =>
      if fld w 17 15 ≠ 0 then .error 3 else
      .ok (.tkYield (Fin.ofNat 32 (fld w 12 5)))
  | 3 =>
      if fld w 17 5 ≠ 0 ∨ fld w 27 5 ≠ 0 then .error 3 else
      .ok (.tkCancel (Fin.ofNat 32 (fld w 12 5)) (Fin.ofNat 32 (fld w 22 5)))
  | _ => .error 2

/-- MAJ 52: R411, R412, R413. -/
def decMaj52 (w : Nat) : Except Nat Instr :=
  match fld w 7 5 with
  | 0 =>
      .ok (.safept (Fin.ofNat 1048576 (fld w 12 20)))
  | 1 =>
      .ok (.trap (Fin.ofNat 1048576 (fld w 12 20)))
  | 2 =>
      if fld w 12 20 ≠ 0 then .error 3 else
      .ok .tret
  | _ => .error 2

/-- MAJ 53: R414. -/
def decMaj53 (w : Nat) : Except Nat Instr :=
  match fld w 7 5 with
  | 0 =>
      if fld w 17 5 ≠ 0 ∨ fld w 27 5 ≠ 0 then .error 3 else
      .ok (.sysRd (Fin.ofNat 32 (fld w 12 5)) (Fin.ofNat 32 (fld w 22 5)))
  | 1 =>
      if fld w 22 10 ≠ 0 then .error 3 else
      .ok (.sysWr (Fin.ofNat 32 (fld w 12 5)) (Fin.ofNat 32 (fld w 17 5)))
  | _ => .error 2

/-- MAJ 54: R415. -/
def decMaj54 (w : Nat) : Except Nat Instr :=
  match fld w 7 5 with
  | 0 =>
      if fld w 17 5 ≠ 0 ∨ fld w 27 5 ≠ 0 then .error 3 else
      .ok (.engRpl (Fin.ofNat 32 (fld w 12 5)) (Fin.ofNat 32 (fld w 22 5)))
  | 1 =>
      if fld w 17 5 ≠ 0 ∨ fld w 27 5 ≠ 0 then .error 3 else
      .ok (.engDrop (Fin.ofNat 32 (fld w 12 5)) (Fin.ofNat 32 (fld w 22 5)))
  | _ => .error 2

/-- MAJ 55: R416, R417. -/
def decMaj55 (w : Nat) : Except Nat Instr :=
  match fld w 7 5 with
  | 0 =>
      if fld w 27 5 ≠ 0 then .error 3 else
      .ok (.tqCfg (Fin.ofNat 32 (fld w 12 5)) (Fin.ofNat 32 (fld w 17 5)) (Fin.ofNat 32 (fld w 22 5)))
  | 1 =>
      if fld w 17 5 ≠ 0 ∨ fld w 27 5 ≠ 0 then .error 3 else
      .ok (.tqKill (Fin.ofNat 32 (fld w 12 5)) (Fin.ofNat 32 (fld w 22 5)))
  | 2 =>
      if fld w 17 5 ≠ 0 ∨ fld w 28 4 ≠ 0 then .error 3 else
      .ok (.tkPre (Fin.ofNat 32 (fld w 12 5)) (Fin.ofNat 32 (fld w 22 5)) (Fin.ofNat 2 (fld w 27 1)))
  | _ => .error 2

/-- A 32-bit word inside a body (R46, R47): checks 2 to 7. -/
def decode32 (w : Nat) : Except Nat Instr :=
  match fld w 1 6 with
  | 1 => decMaj1 w
  | 2 => decMaj2 w
  | 3 => decMaj3 w
  | 4 => decMaj4 w
  | 5 => decMaj5 w
  | 6 => decMaj6 w
  | 7 => decMaj7 w
  | 8 => decMaj8 w
  | 9 => decMaj9 w
  | 10 => decMaj10 w
  | 11 => decMaj11 w
  | 12 => decMaj12 w
  | 13 => decMaj13 w
  | 14 => decMaj14 w
  | 15 => decMaj15 w
  | 16 => decMaj16 w
  | 17 => decMaj17 w
  | 18 => decMaj18 w
  | 19 => decMaj19 w
  | 20 => decMaj20 w
  | 21 => decMaj21 w
  | 22 => decMaj22 w
  | 23 => decMaj23 w
  | 24 => decMaj24 w
  | 25 => decMaj25 w
  | 26 => decMaj26 w
  | 27 => decMaj27 w
  | 28 => decMaj28 w
  | 29 => decMaj29 w
  | 30 => decMaj30 w
  | 31 => decMaj31 w
  | 32 => decMaj32 w
  | 33 => decMaj33 w
  | 34 => decMaj34 w
  | 35 => decMaj35 w
  | 36 => decMaj36 w
  | 37 => decMaj37 w
  | 38 => decMaj38 w
  | 39 => decMaj39 w
  | 40 => decMaj40 w
  | 41 => decMaj41 w
  | 42 => decMaj42 w
  | 43 => decMaj43 w
  | 44 => decMaj44 w
  | 45 => decMaj45 w
  | 46 => decMaj46 w
  | 47 => decMaj47 w
  | 48 => decMaj48 w
  | 49 => decMaj49 w
  | 50 => decMaj50 w
  | 51 => decMaj51 w
  | 52 => decMaj52 w
  | 53 => decMaj53 w
  | 54 => decMaj54 w
  | 55 => decMaj55 w
  | _ => .error 1

/-- A 16-bit word (R33, R47): OP 0, 13 and 15 are refused with 0x0D. -/
def decode16 (w : Nat) : Except Nat Instr :=
  match fld w 1 4 with
  | 14 =>
      if fld w 5 11 ≠ 0 then .error 3 else
      .ok .nopH16
  | 1 =>
      if fld w 15 1 ≠ 0 ∨ fld w 5 5 = 0 then .error 3 else
      .ok (.movH16 (Fin.ofNat 32 (fld w 5 5)) (Fin.ofNat 32 (fld w 10 5)))
  | 2 =>
      if fld w 5 5 = 0 then .error 3 else
      .ok (.liH16 (Fin.ofNat 32 (fld w 5 5)) (Fin.ofNat 64 (fld w 10 6)))
  | 3 =>
      if fld w 5 5 = 0 then .error 3 else
      .ok (.addiH16 (Fin.ofNat 32 (fld w 5 5)) (Fin.ofNat 64 (fld w 10 6)))
  | 4 =>
      if fld w 15 1 ≠ 0 ∨ fld w 5 5 = 0 then .error 3 else
      .ok (.addH16 (Fin.ofNat 32 (fld w 5 5)) (Fin.ofNat 32 (fld w 10 5)))
  | 5 =>
      if fld w 15 1 ≠ 0 ∨ fld w 5 5 = 0 then .error 3 else
      .ok (.subH16 (Fin.ofNat 32 (fld w 5 5)) (Fin.ofNat 32 (fld w 10 5)))
  | 6 =>
      if fld w 15 1 ≠ 0 ∨ fld w 5 5 = 0 then .error 3 else
      .ok (.andH16 (Fin.ofNat 32 (fld w 5 5)) (Fin.ofNat 32 (fld w 10 5)))
  | 7 =>
      if fld w 15 1 ≠ 0 ∨ fld w 5 5 = 0 then .error 3 else
      .ok (.orH16 (Fin.ofNat 32 (fld w 5 5)) (Fin.ofNat 32 (fld w 10 5)))
  | 8 =>
      if fld w 15 1 ≠ 0 ∨ fld w 5 5 = 0 then .error 3 else
      .ok (.xorH16 (Fin.ofNat 32 (fld w 5 5)) (Fin.ofNat 32 (fld w 10 5)))
  | 9 =>
      if fld w 5 5 = 0 then .error 3 else
      .ok (.slliH16 (Fin.ofNat 32 (fld w 5 5)) (Fin.ofNat 64 (fld w 10 6)))
  | 10 =>
      if fld w 5 5 = 0 then .error 3 else
      .ok (.srliH16 (Fin.ofNat 32 (fld w 5 5)) (Fin.ofNat 64 (fld w 10 6)))
  | 11 =>
      if fld w 5 5 = 0 then .error 3 else
      .ok (.sraiH16 (Fin.ofNat 32 (fld w 5 5)) (Fin.ofNat 64 (fld w 10 6)))
  | 12 =>
      if fld w 15 1 ≠ 0 ∨ fld w 5 5 = 0 then .error 3 else
      .ok (.mulH16 (Fin.ofNat 32 (fld w 5 5)) (Fin.ofNat 32 (fld w 10 5)))
  | _ => .error 0x0D

/-- The result of reading one word from the halfwords of a body. -/
inductive Decoded where
  /-- An instruction and its length in halfwords. -/
  | instr (i : Instr) (len : Nat)
  /-- Refused with an ILL detail of R47; the length is that of the word. -/
  | ill (detail : Nat) (len : Nat)
  /-- A 32-bit word whose second halfword lies past the end of the block (R40); the MAJ of its first half. -/
  | cut (maj : Nat)
  /-- No halfword is left. -/
  | empty
  deriving DecidableEq, Repr

/-- Reads the first word of a list of halfwords (R30). -/
def decode : List (BitVec 16) → Decoded
  | [] => .empty
  | h :: t =>
    if h.toNat % 2 = 0 then
      match decode16 h.toNat with
      | .ok i => .instr i 1
      | .error d => .ill d 1
    else
      match t with
      | [] => .cut (fld h.toNat 1 6)
      | h2 :: _ =>
        match decode32 (h.toNat + 65536 * h2.toNat) with
        | .ok i => .instr i 2
        | .error d => .ill d 2

/-- The halfwords of a byte stream, little-endian (R2, R30); a last odd byte is dropped. -/
def halfwords : List Byte → List (BitVec 16)
  | a :: b :: t => BitVec.ofNat 16 (a.toNat + 256 * b.toNat) :: halfwords t
  | _ => []

/-- Reads the first word of a byte stream. Total: any bytes give an instruction, a refusal or nothing. -/
def decodeBytes (bs : List Byte) : Decoded := decode (halfwords bs)

/-- The halfwords of a table row's word of `nbits` bits. -/
def tableHalves (nbits w : Nat) : List (BitVec 16) :=
  if nbits ≤ 16 then [BitVec.ofNat 16 w] else [BitVec.ofNat 16 w, BitVec.ofNat 16 (w / 65536)]

/-- What the decoder reads from a word numbered as the opcode table numbers it; the bits above `nbits` are zero. -/
def decodeTableWord (nbits w : Nat) : Option Instr :=
  match decode (tableHalves nbits (w % 2 ^ nbits)) with
  | .instr i _ => some i
  | _ => none

/-- The word of an instruction, from the encoding strips: its size in bits and its value. An event has no word. -/
def encode : Instr → Option (Nat × Nat)
  | .packageReset => none
  | .powerOff => none
  | .chipletAttestation _ _ _ => none
  | .flitTagFailure _ => none
  | .keyRolloverStart _ => none
  | .keyRolloverAck _ => none
  | .drainMarker _ => none
  | .rolloverSendStop _ => none
  | .rolloverStopTimeout _ => none
  | .dieReadmission _ => none
  | .routeResend _ _ => none
  | .hostLinkDown => none
  | .syswr _ _ => none
  | .tlbinv _ _ _ => none
  | .feat _ _ => none
  | .answer _ _ _ _ => none
  | .lists _ => none
  | .route _ _ _ _ => none
  | .preempt _ => none
  | .dierst _ => none
  | .lcs _ _ => none
  | .age => none
  | .attest _ => none
  | .ageUpdate _ => none
  | .blockFetch _ _ => none
  | .lineRequestReturn _ _ => none
  | .requestTableGrant _ => none
  | .storePerformed _ _ _ => none
  | .atomicAtHome _ _ => none
  | .waitaWake _ _ => none
  | .waitaTimeout _ _ => none
  | .pageWalkComplete _ _ => none
  | .missTableGrant _ => none
  | .cowBreak _ _ => none
  | .pageMigrationComplete _ _ => none
  | .tlbInvComplete _ => none
  | .l1WrapClearDone _ => none
  | .vectorStart _ => none
  | .vectorComplete _ _ => none
  | .matrixStart _ _ => none
  | .matrixComplete _ _ => none
  | .lockClear _ _ => none
  | .copyStart _ _ => none
  | .copyPiecePost _ _ => none
  | .copyComplete _ _ => none
  | .arriveEvent _ _ => none
  | .bytesEvent _ _ => none
  | .postEvent _ _ => none
  | .handleResolve _ _ => none
  | .linkPushLand _ _ => none
  | .fwStart _ => none
  | .fwComplete _ => none
  | .fwDirectoryResolve _ => none
  | .fwPageInDone _ => none
  | .fwTransferComplete _ => none
  | .seqStart _ _ => none
  | .seqComplete _ _ => none
  | .sinkBlockProcess _ _ _ => none
  | .sqRecordLand _ _ => none
  | .dispatchRound _ => none
  | .taskFirstIssue _ => none
  | .preemptEscalate _ => none
  | .taskSave _ => none
  | .taskResume _ => none
  | .taskEnd _ => none
  | .trapDelivery _ => none
  | .hostEventPost => none
  | .watchdogExpiry _ _ => none
  | .tWatchdogExpiry _ => none
  | .safeCountExpiry _ _ => none
  | .jmp o => some (32, 0x3 + o.val * 128)
  | .call o => some (32, 0x5 + o.val * 128)
  | .conditionalBranch c a b o => some (32, 0x7 + c.val * 128 + a.val * 1024 + b.val * 32768 + o.val * 1048576)
  | .nop => some (32, 0x9)
  | .nopH16 => some (16, 0x1c)
  | .ret => some (32, 0x89)
  | .jr a => some (32, 0x109 + a.val * 262144)
  | .callr a => some (32, 0x189 + a.val * 262144)
  | .brk c => some (32, 0x209 + c.val * 262144)
  | .csrr d n => some (32, 0x289 + d.val * 4096 + n.val * 33554432)
  | .csrw a n => some (32, 0x309 + a.val * 262144 + n.val * 33554432)
  | .add d a b => some (32, 0xb + dstBits d * 4096 + srcBits a * 262144 + srcBits b * 33554432)
  | .sub d a b => some (32, 0x8b + dstBits d * 4096 + srcBits a * 262144 + srcBits b * 33554432)
  | .and d a b => some (32, 0x10b + dstBits d * 4096 + srcBits a * 262144 + srcBits b * 33554432)
  | .or d a b => some (32, 0x18b + dstBits d * 4096 + srcBits a * 262144 + srcBits b * 33554432)
  | .xor d a b => some (32, 0x20b + dstBits d * 4096 + srcBits a * 262144 + srcBits b * 33554432)
  | .andn d a b => some (32, 0x28b + dstBits d * 4096 + srcBits a * 262144 + srcBits b * 33554432)
  | .min d a b => some (32, 0x30b + dstBits d * 4096 + srcBits a * 262144 + srcBits b * 33554432)
  | .max d a b => some (32, 0x38b + dstBits d * 4096 + srcBits a * 262144 + srcBits b * 33554432)
  | .minn d a b => some (32, 0x40b + dstBits d * 4096 + srcBits a * 262144 + srcBits b * 33554432)
  | .maxn d a b => some (32, 0x48b + dstBits d * 4096 + srcBits a * 262144 + srcBits b * 33554432)
  | .sh1add d a b => some (32, 0x50b + dstBits d * 4096 + srcBits a * 262144 + srcBits b * 33554432)
  | .sh2add d a b => some (32, 0x58b + dstBits d * 4096 + srcBits a * 262144 + srcBits b * 33554432)
  | .sh3add d a b => some (32, 0x60b + dstBits d * 4096 + srcBits a * 262144 + srcBits b * 33554432)
  | .sh4add d a b => some (32, 0x68b + dstBits d * 4096 + srcBits a * 262144 + srcBits b * 33554432)
  | .addi d a i => some (32, 0xd + dstBits d * 512 + srcBits a * 32768 + i.val * 4194304)
  | .andi d a i => some (32, 0x8d + dstBits d * 512 + srcBits a * 32768 + i.val * 4194304)
  | .ori d a i => some (32, 0x10d + dstBits d * 512 + srcBits a * 32768 + i.val * 4194304)
  | .slli d a s => some (32, 0x18d + dstBits d * 512 + srcBits a * 32768 + s.val * 4194304)
  | .srli d a s => some (32, 0x4000018d + dstBits d * 512 + srcBits a * 32768 + s.val * 4194304)
  | .srai d a s => some (32, 0x8000018d + dstBits d * 512 + srcBits a * 32768 + s.val * 4194304)
  | .rori d a s => some (32, 0xc000018d + dstBits d * 512 + srcBits a * 32768 + s.val * 4194304)
  | .lih d i => some (32, 0xf + d.val * 128 + i.val * 4096)
  | .sll d a b => some (32, 0x11 + dstBits d * 4096 + srcBits a * 262144 + srcBits b * 33554432)
  | .srl d a b => some (32, 0x91 + dstBits d * 4096 + srcBits a * 262144 + srcBits b * 33554432)
  | .sra d a b => some (32, 0x111 + dstBits d * 4096 + srcBits a * 262144 + srcBits b * 33554432)
  | .ror d a b => some (32, 0x191 + dstBits d * 4096 + srcBits a * 262144 + srcBits b * 33554432)
  | .clz d a => some (32, 0x211 + dstBits d * 4096 + srcBits a * 262144)
  | .ctz d a => some (32, 0x291 + dstBits d * 4096 + srcBits a * 262144)
  | .popc d a => some (32, 0x311 + dstBits d * 4096 + srcBits a * 262144)
  | .sel d a b => some (32, 0x391 + d.val * 4096 + srcBits a * 262144 + srcBits b * 33554432)
  | .seq d a b => some (32, 0x411 + dstBits d * 4096 + srcBits a * 262144 + srcBits b * 33554432)
  | .sne d a b => some (32, 0x491 + dstBits d * 4096 + srcBits a * 262144 + srcBits b * 33554432)
  | .slt d a b => some (32, 0x511 + dstBits d * 4096 + srcBits a * 262144 + srcBits b * 33554432)
  | .sge d a b => some (32, 0x591 + dstBits d * 4096 + srcBits a * 262144 + srcBits b * 33554432)
  | .sltn d a b => some (32, 0x611 + dstBits d * 4096 + srcBits a * 262144 + srcBits b * 33554432)
  | .sgen d a b => some (32, 0x691 + dstBits d * 4096 + srcBits a * 262144 + srcBits b * 33554432)
  | .extI8 d a => some (32, 0x711 + dstBits d * 4096 + srcBits a * 262144)
  | .extI16 d a => some (32, 0x791 + dstBits d * 4096 + srcBits a * 262144)
  | .extI32 d a => some (32, 0x811 + dstBits d * 4096 + srcBits a * 262144)
  | .extN8 d a => some (32, 0x891 + dstBits d * 4096 + srcBits a * 262144)
  | .extN16 d a => some (32, 0x911 + dstBits d * 4096 + srcBits a * 262144)
  | .extN32 d a => some (32, 0x991 + dstBits d * 4096 + srcBits a * 262144)
  | .mul d a b => some (32, 0x13 + dstBits d * 4096 + srcBits a * 262144 + srcBits b * 33554432)
  | .mulh d a b => some (32, 0x93 + dstBits d * 4096 + srcBits a * 262144 + srcBits b * 33554432)
  | .mulhn d a b => some (32, 0x113 + dstBits d * 4096 + srcBits a * 262144 + srcBits b * 33554432)
  | .div d a b => some (32, 0x193 + dstBits d * 4096 + srcBits a * 262144 + srcBits b * 33554432)
  | .divn d a b => some (32, 0x213 + dstBits d * 4096 + srcBits a * 262144 + srcBits b * 33554432)
  | .rem d a b => some (32, 0x293 + dstBits d * 4096 + srcBits a * 262144 + srcBits b * 33554432)
  | .remn d a b => some (32, 0x313 + dstBits d * 4096 + srcBits a * 262144 + srcBits b * 33554432)
  | .movH16 g b => some (16, 0x2 + g.val * 32 + b.val * 1024)
  | .liH16 g i => some (16, 0x4 + g.val * 32 + i.val * 1024)
  | .addiH16 g i => some (16, 0x6 + g.val * 32 + i.val * 1024)
  | .addH16 g b => some (16, 0x8 + g.val * 32 + b.val * 1024)
  | .subH16 g b => some (16, 0xa + g.val * 32 + b.val * 1024)
  | .andH16 g b => some (16, 0xc + g.val * 32 + b.val * 1024)
  | .orH16 g b => some (16, 0xe + g.val * 32 + b.val * 1024)
  | .xorH16 g b => some (16, 0x10 + g.val * 32 + b.val * 1024)
  | .slliH16 g i => some (16, 0x12 + g.val * 32 + i.val * 1024)
  | .srliH16 g i => some (16, 0x14 + g.val * 32 + i.val * 1024)
  | .sraiH16 g i => some (16, 0x16 + g.val * 32 + i.val * 1024)
  | .mulH16 g b => some (16, 0x18 + g.val * 32 + b.val * 1024)
  | .ldN8 d a o => some (32, 0x15 + dstBits d * 512 + srcBits a * 32768 + o.val * 4194304)
  | .ldI8 d a o => some (32, 0x80000015 + dstBits d * 512 + srcBits a * 32768 + o.val * 4194304)
  | .ldN16 d a o => some (32, 0x95 + dstBits d * 512 + srcBits a * 32768 + o.val * 4194304)
  | .ldI16 d a o => some (32, 0x80000095 + dstBits d * 512 + srcBits a * 32768 + o.val * 4194304)
  | .ldN32 d a o => some (32, 0x115 + dstBits d * 512 + srcBits a * 32768 + o.val * 4194304)
  | .ldI32 d a o => some (32, 0x80000115 + dstBits d * 512 + srcBits a * 32768 + o.val * 4194304)
  | .ld64 d a o => some (32, 0x195 + dstBits d * 512 + srcBits a * 32768 + o.val * 4194304)
  | .st8 s a i => some (32, 0x17 + s.val * 512 + srcBits a * 32768 + i.val * 4194304)
  | .st16 s a i => some (32, 0x97 + s.val * 512 + srcBits a * 32768 + i.val * 4194304)
  | .st32 s a i => some (32, 0x117 + s.val * 512 + srcBits a * 32768 + i.val * 4194304)
  | .st64 s a i => some (32, 0x197 + s.val * 512 + srcBits a * 32768 + i.val * 4194304)
  | .vld g d b => some (32, 0x19 + guardBits g * 128 + d.val * 16384 + b.val * 67108864)
  | .vst g d b => some (32, 0x819 + guardBits g * 128 + d.val * 16384 + b.val * 67108864)
  | .vldS g d s b => some (32, 0x1019 + guardBits g * 128 + d.val * 16384 + s.val * 1048576 + b.val * 67108864)
  | .vstS g d s b => some (32, 0x1819 + guardBits g * 128 + d.val * 16384 + s.val * 1048576 + b.val * 67108864)
  | .vldG g d i b => some (32, 0x2019 + guardBits g * 128 + d.val * 16384 + i.val * 1048576 + b.val * 67108864)
  | .vstX g d i b => some (32, 0x2819 + guardBits g * 128 + d.val * 16384 + i.val * 1048576 + b.val * 67108864)
  | .vldB g d b => some (32, 0x3019 + guardBits g * 128 + d.val * 16384 + b.val * 67108864)
  | .aadd w a b d o s => some (32, 0x1b + w.val * 128 + a.val * 4096 + b.val * 131072 + d.val * 4194304 + o.val * 134217728 + s.val * 536870912)
  | .aand w a b d o s => some (32, 0x11b + w.val * 128 + a.val * 4096 + b.val * 131072 + d.val * 4194304 + o.val * 134217728 + s.val * 536870912)
  | .aor w a b d o s => some (32, 0x21b + w.val * 128 + a.val * 4096 + b.val * 131072 + d.val * 4194304 + o.val * 134217728 + s.val * 536870912)
  | .axor w a b d o s => some (32, 0x31b + w.val * 128 + a.val * 4096 + b.val * 131072 + d.val * 4194304 + o.val * 134217728 + s.val * 536870912)
  | .aminI w a b d o s => some (32, 0x41b + w.val * 128 + a.val * 4096 + b.val * 131072 + d.val * 4194304 + o.val * 134217728 + s.val * 536870912)
  | .aminN w a b d o s => some (32, 0x51b + w.val * 128 + a.val * 4096 + b.val * 131072 + d.val * 4194304 + o.val * 134217728 + s.val * 536870912)
  | .amaxI w a b d o s => some (32, 0x61b + w.val * 128 + a.val * 4096 + b.val * 131072 + d.val * 4194304 + o.val * 134217728 + s.val * 536870912)
  | .amaxN w a b d o s => some (32, 0x71b + w.val * 128 + a.val * 4096 + b.val * 131072 + d.val * 4194304 + o.val * 134217728 + s.val * 536870912)
  | .swap w a b d o s => some (32, 0x81b + w.val * 128 + a.val * 4096 + b.val * 131072 + d.val * 4194304 + o.val * 134217728 + s.val * 536870912)
  | .cas64 a b d o s => some (32, 0x91b + a.val * 4096 + b.val * 131072 + d.val * 4194304 + o.val * 134217728 + s.val * 536870912)
  | .cas128 a b d o s => some (32, 0x99b + a.val * 4096 + b.val * 262144 + d.val * 8388608 + o.val * 134217728 + s.val * 536870912)
  | .aaddMs w a b d o s => some (32, 0x1d + w.val * 128 + a.val * 4096 + b.val * 131072 + d.val * 4194304 + o.val * 134217728 + s.val * 536870912)
  | .aandMs w a b d o s => some (32, 0x11d + w.val * 128 + a.val * 4096 + b.val * 131072 + d.val * 4194304 + o.val * 134217728 + s.val * 536870912)
  | .aorMs w a b d o s => some (32, 0x21d + w.val * 128 + a.val * 4096 + b.val * 131072 + d.val * 4194304 + o.val * 134217728 + s.val * 536870912)
  | .axorMs w a b d o s => some (32, 0x31d + w.val * 128 + a.val * 4096 + b.val * 131072 + d.val * 4194304 + o.val * 134217728 + s.val * 536870912)
  | .aminIMs w a b d o s => some (32, 0x41d + w.val * 128 + a.val * 4096 + b.val * 131072 + d.val * 4194304 + o.val * 134217728 + s.val * 536870912)
  | .aminNMs w a b d o s => some (32, 0x51d + w.val * 128 + a.val * 4096 + b.val * 131072 + d.val * 4194304 + o.val * 134217728 + s.val * 536870912)
  | .amaxIMs w a b d o s => some (32, 0x61d + w.val * 128 + a.val * 4096 + b.val * 131072 + d.val * 4194304 + o.val * 134217728 + s.val * 536870912)
  | .amaxNMs w a b d o s => some (32, 0x71d + w.val * 128 + a.val * 4096 + b.val * 131072 + d.val * 4194304 + o.val * 134217728 + s.val * 536870912)
  | .swapMs w a b d o s => some (32, 0x81d + w.val * 128 + a.val * 4096 + b.val * 131072 + d.val * 4194304 + o.val * 134217728 + s.val * 536870912)
  | .cas64Ms a b d o s => some (32, 0x91d + a.val * 4096 + b.val * 131072 + d.val * 4194304 + o.val * 134217728 + s.val * 536870912)
  | .cas128Ms a b d o s => some (32, 0x99d + a.val * 4096 + b.val * 262144 + d.val * 8388608 + o.val * 134217728 + s.val * 536870912)
  | .pf a b l => some (32, 0xa1d + a.val * 4096 + b.val * 131072 + l.val * 134217728)
  | .waita a b d c => some (32, 0xa9d + a.val * 4096 + b.val * 131072 + d.val * 4194304 + c.val * 134217728)
  | .acq s => some (32, 0x1f + s.val * 536870912)
  | .rel s => some (32, 0x9f + s.val * 536870912)
  | .fen s => some (32, 0x11f + s.val * 536870912)
  | .efen f => some (32, 0x21 + f.val * 134217728)
  | .tlbInv a b k s => some (32, 0x23 + a.val * 4096 + b.val * 131072 + k.val * 134217728 + s.val * 536870912)
  | .tlbSync => some (32, 0xa3)
  | .pgMig a b d w => some (32, 0x25 + a.val * 4096 + b.val * 131072 + d.val * 4194304 + w.val * 134217728)
  | .pgPin a d c => some (32, 0xa5 + a.val * 4096 + d.val * 4194304 + c.val * 134217728)
  | .pgProbe a d => some (32, 0x125 + a.val * 4096 + d.val * 4194304)
  | .fcInc a b d => some (32, 0x27 + a.val * 4096 + b.val * 131072 + d.val * 4194304)
  | .fcDec a b d => some (32, 0xa7 + a.val * 4096 + b.val * 131072 + d.val * 4194304)
  | .fcRead a d => some (32, 0x127 + a.val * 4096 + d.val * 4194304)
  | .vaddI32 g d a b => some (32, 0x29 + guardBits g * 128 + d.val * 16384 + a.val * 1048576 + b.val * 67108864)
  | .vsubI32 g d a b => some (32, 0x829 + guardBits g * 128 + d.val * 16384 + a.val * 1048576 + b.val * 67108864)
  | .vmulI32 g d a b => some (32, 0x1029 + guardBits g * 128 + d.val * 16384 + a.val * 1048576 + b.val * 67108864)
  | .vmulhI32 g d a b => some (32, 0x1829 + guardBits g * 128 + d.val * 16384 + a.val * 1048576 + b.val * 67108864)
  | .vaddsI32 g d a b => some (32, 0x2029 + guardBits g * 128 + d.val * 16384 + a.val * 1048576 + b.val * 67108864)
  | .vsubsI32 g d a b => some (32, 0x2829 + guardBits g * 128 + d.val * 16384 + a.val * 1048576 + b.val * 67108864)
  | .vaddsN32 g d a b => some (32, 0x3029 + guardBits g * 128 + d.val * 16384 + a.val * 1048576 + b.val * 67108864)
  | .vsubsN32 g d a b => some (32, 0x3829 + guardBits g * 128 + d.val * 16384 + a.val * 1048576 + b.val * 67108864)
  | .vaddF32 g d a b => some (32, 0x2b + guardBits g * 128 + d.val * 16384 + a.val * 1048576 + b.val * 67108864)
  | .vsubF32 g d a b => some (32, 0x82b + guardBits g * 128 + d.val * 16384 + a.val * 1048576 + b.val * 67108864)
  | .vmulF32 g d a b => some (32, 0x102b + guardBits g * 128 + d.val * 16384 + a.val * 1048576 + b.val * 67108864)
  | .vfmaF32 g d a b => some (32, 0x182b + guardBits g * 128 + d.val * 16384 + a.val * 1048576 + b.val * 67108864)
  | .vfmsF32 g d a b => some (32, 0x202b + guardBits g * 128 + d.val * 16384 + a.val * 1048576 + b.val * 67108864)
  | .vminF32 g d a b => some (32, 0x282b + guardBits g * 128 + d.val * 16384 + a.val * 1048576 + b.val * 67108864)
  | .vmaxF32 g d a b => some (32, 0x302b + guardBits g * 128 + d.val * 16384 + a.val * 1048576 + b.val * 67108864)
  | .vand g d a => some (32, 0x2d + guardBits g * 128 + d.val * 16384 + a.val * 1048576)
  | .vor g d a => some (32, 0x82d + guardBits g * 128 + d.val * 16384 + a.val * 1048576)
  | .vxor g d a => some (32, 0x102d + guardBits g * 128 + d.val * 16384 + a.val * 1048576)
  | .vandn g d a => some (32, 0x182d + guardBits g * 128 + d.val * 16384 + a.val * 1048576)
  | .vsll g d a i => some (32, 0x202d + guardBits g * 128 + d.val * 16384 + a.val * 1048576 + i.val * 67108864)
  | .vsrl g d a i => some (32, 0x282d + guardBits g * 128 + d.val * 16384 + a.val * 1048576 + i.val * 67108864)
  | .vsra g d a i => some (32, 0x302d + guardBits g * 128 + d.val * 16384 + a.val * 1048576 + i.val * 67108864)
  | .vmov g d a => some (32, 0x382d + guardBits g * 128 + d.val * 16384 + a.val * 1048576)
  | .vcmpI32 g k c a b => some (32, 0x2f + guardBits g * 128 + k.val * 16384 + c.val * 131072 + a.val * 1048576 + b.val * 67108864)
  | .vcmpF32 g k c a b => some (32, 0x82f + guardBits g * 128 + k.val * 16384 + c.val * 131072 + a.val * 1048576 + b.val * 67108864)
  | .vsel g d a b => some (32, 0x102f + guardBits g * 128 + d.val * 16384 + a.val * 1048576 + b.val * 67108864)
  | .vminI32 g d a b => some (32, 0x182f + guardBits g * 128 + d.val * 16384 + a.val * 1048576 + b.val * 67108864)
  | .vmaxI32 g d a b => some (32, 0x202f + guardBits g * 128 + d.val * 16384 + a.val * 1048576 + b.val * 67108864)
  | .vminN32 g d a b => some (32, 0x282f + guardBits g * 128 + d.val * 16384 + a.val * 1048576 + b.val * 67108864)
  | .vmaxN32 g d a b => some (32, 0x302f + guardBits g * 128 + d.val * 16384 + a.val * 1048576 + b.val * 67108864)
  | .vrotrImm g d a i => some (32, 0x31 + guardBits g * 128 + d.val * 16384 + a.val * 1048576 + i.val * 67108864)
  | .vrotrReg g d a s => some (32, 0x831 + guardBits g * 128 + d.val * 16384 + a.val * 1048576 + s.val * 67108864)
  | .vrotcImm g d a i => some (32, 0x1031 + guardBits g * 128 + d.val * 16384 + a.val * 1048576 + i.val * 67108864)
  | .vrotcReg g d a s => some (32, 0x1831 + guardBits g * 128 + d.val * 16384 + a.val * 1048576 + s.val * 67108864)
  | .vbcrImm g d a i => some (32, 0x2031 + guardBits g * 128 + d.val * 16384 + a.val * 1048576 + i.val * 67108864)
  | .vbcrReg g d a s => some (32, 0x2831 + guardBits g * 128 + d.val * 16384 + a.val * 1048576 + s.val * 67108864)
  | .vbccImm g d a i => some (32, 0x3031 + guardBits g * 128 + d.val * 16384 + a.val * 1048576 + i.val * 67108864)
  | .vbccReg g d a s => some (32, 0x3831 + guardBits g * 128 + d.val * 16384 + a.val * 1048576 + s.val * 67108864)
  | .vrsumF32 g d a => some (32, 0x33 + guardBits g * 128 + d.val * 16384 + a.val * 1048576)
  | .vcsumF32 g d a => some (32, 0x833 + guardBits g * 128 + d.val * 16384 + a.val * 1048576)
  | .vrmaxF32 g d a => some (32, 0x1033 + guardBits g * 128 + d.val * 16384 + a.val * 1048576)
  | .vcmaxF32 g d a => some (32, 0x1833 + guardBits g * 128 + d.val * 16384 + a.val * 1048576)
  | .vrminF32 g d a => some (32, 0x2033 + guardBits g * 128 + d.val * 16384 + a.val * 1048576)
  | .vcminF32 g d a => some (32, 0x2833 + guardBits g * 128 + d.val * 16384 + a.val * 1048576)
  | .vrsumI32 g d a => some (32, 0x3033 + guardBits g * 128 + d.val * 16384 + a.val * 1048576)
  | .vcsumI32 g d a => some (32, 0x3833 + guardBits g * 128 + d.val * 16384 + a.val * 1048576)
  | .pand g d a b => some (32, 0x35 + guardBits g * 128 + d.val * 16384 + a.val * 1048576 + b.val * 67108864)
  | .por g d a b => some (32, 0x835 + guardBits g * 128 + d.val * 16384 + a.val * 1048576 + b.val * 67108864)
  | .pxor g d a b => some (32, 0x1035 + guardBits g * 128 + d.val * 16384 + a.val * 1048576 + b.val * 67108864)
  | .pandn g d a b => some (32, 0x1835 + guardBits g * 128 + d.val * 16384 + a.val * 1048576 + b.val * 67108864)
  | .pnez g d a => some (32, 0x2035 + guardBits g * 128 + d.val * 16384 + a.val * 1048576)
  | .vmovp g d a => some (32, 0x2835 + guardBits g * 128 + d.val * 16384 + a.val * 1048576)
  | .pset g d i => some (32, 0x3035 + guardBits g * 128 + d.val * 16384 + i.val * 1048576)
  | .pfirst g d a => some (32, 0x3835 + guardBits g * 128 + d.val * 16384 + a.val * 1048576)
  | .vlidx g d s => some (32, 0x37 + guardBits g * 128 + d.val * 16384 + s.val * 67108864)
  | .vextN32 d a s => some (32, 0xe37 + d.val * 16384 + a.val * 1048576 + s.val * 67108864)
  | .vextI32 d a s => some (32, 0x1637 + d.val * 16384 + a.val * 1048576 + s.val * 67108864)
  | .vins g d a s => some (32, 0x1837 + guardBits g * 128 + d.val * 16384 + a.val * 1048576 + s.val * 67108864)
  | .vbcg g d a => some (32, 0x2037 + guardBits g * 128 + d.val * 16384 + a.val * 1048576)
  | .vmovi g d i => some (32, 0x2837 + guardBits g * 128 + d.val * 16384 + i.val * 67108864)
  | .pcnt d a => some (32, 0x3637 + d.val * 16384 + a.val * 1048576)
  | .pfind d a => some (32, 0x3e37 + d.val * 16384 + a.val * 1048576)
  | .vcvtBf16F32 g d a p s r => some (32, 0x39 + guardBits g * 128 + d.val * 16384 + a.val * 1048576 + p.val * 67108864 + s.val * 268435456 + r.val * 536870912)
  | .vcvtF16F32 g d a p s r => some (32, 0x839 + guardBits g * 128 + d.val * 16384 + a.val * 1048576 + p.val * 67108864 + s.val * 268435456 + r.val * 536870912)
  | .vcvtE4m3F32 g d a p s r => some (32, 0x1039 + guardBits g * 128 + d.val * 16384 + a.val * 1048576 + p.val * 67108864 + s.val * 268435456 + r.val * 536870912)
  | .vcvtE5m2F32 g d a p s r => some (32, 0x1839 + guardBits g * 128 + d.val * 16384 + a.val * 1048576 + p.val * 67108864 + s.val * 268435456 + r.val * 536870912)
  | .vcvtF32Bf16 g d a p => some (32, 0x2039 + guardBits g * 128 + d.val * 16384 + a.val * 1048576 + p.val * 67108864)
  | .vcvtF32F16 g d a p => some (32, 0x2839 + guardBits g * 128 + d.val * 16384 + a.val * 1048576 + p.val * 67108864)
  | .vcvtF32E4m3 g d a p => some (32, 0x3039 + guardBits g * 128 + d.val * 16384 + a.val * 1048576 + p.val * 67108864)
  | .vcvtF32E5m2 g d a p => some (32, 0x3839 + guardBits g * 128 + d.val * 16384 + a.val * 1048576 + p.val * 67108864)
  | .vcvtI32F32 g d a r => some (32, 0x3b + guardBits g * 128 + d.val * 16384 + a.val * 1048576 + r.val * 536870912)
  | .vcvtN32F32 g d a r => some (32, 0x83b + guardBits g * 128 + d.val * 16384 + a.val * 1048576 + r.val * 536870912)
  | .vcvtF32I32 g d a r => some (32, 0x103b + guardBits g * 128 + d.val * 16384 + a.val * 1048576 + r.val * 536870912)
  | .vcvtF32N32 g d a r => some (32, 0x183b + guardBits g * 128 + d.val * 16384 + a.val * 1048576 + r.val * 536870912)
  | .vrintF32 g d a r => some (32, 0x203b + guardBits g * 128 + d.val * 16384 + a.val * 1048576 + r.val * 536870912)
  | .vcvtMxF32 d a m r => some (32, 0x2e3b + d.val * 32768 + a.val * 1048576 + m.val * 67108864 + r.val * 536870912)
  | .vcvtF32Mx g d a m => some (32, 0x303b + guardBits g * 128 + d.val * 16384 + a.val * 2097152 + m.val * 67108864)
  | .vexpF32 g d a => some (32, 0x3d + guardBits g * 128 + d.val * 16384 + a.val * 1048576)
  | .vexp2F32 g d a => some (32, 0x83d + guardBits g * 128 + d.val * 16384 + a.val * 1048576)
  | .vlog2F32 g d a => some (32, 0x103d + guardBits g * 128 + d.val * 16384 + a.val * 1048576)
  | .vrcpF32 g d a => some (32, 0x183d + guardBits g * 128 + d.val * 16384 + a.val * 1048576)
  | .vrsqrtF32 g d a => some (32, 0x203d + guardBits g * 128 + d.val * 16384 + a.val * 1048576)
  | .vsqrtF32 g d a => some (32, 0x283d + guardBits g * 128 + d.val * 16384 + a.val * 1048576)
  | .vtanhF32 g d a => some (32, 0x303d + guardBits g * 128 + d.val * 16384 + a.val * 1048576)
  | .vcmpr g d a k s => some (32, 0x3f + guardBits g * 128 + d.val * 16384 + a.val * 1048576 + k.val * 67108864 + s.val * 1073741824)
  | .vtopkF32 g d a k s => some (32, 0x83f + guardBits g * 128 + d.val * 32768 + a.val * 1048576 + k.val * 67108864 + s.val * 1073741824)
  | .vscanF32 g d a e c => some (32, 0x103f + guardBits g * 128 + d.val * 16384 + a.val * 1048576 + e.val * 67108864 + c.val * 134217728)
  | .vscanI32 g d a e c => some (32, 0x183f + guardBits g * 128 + d.val * 16384 + a.val * 1048576 + e.val * 67108864 + c.val * 134217728)
  | .vrandN32 g d s => some (32, 0x203f + guardBits g * 128 + d.val * 16384 + s.val * 67108864)
  | .vrandF32 g d s => some (32, 0x283f + guardBits g * 128 + d.val * 16384 + s.val * 67108864)
  | .vtopkI32 g d a k s => some (32, 0x303f + guardBits g * 128 + d.val * 32768 + a.val * 1048576 + k.val * 67108864 + s.val * 1073741824)
  | .maMm a t p k z r => some (32, 0x41 + a.val * 128 + t.val * 2048 + p.val * 131072 + k.val * 262144 + z.val * 4194304 + r.val * 8388608)
  | .maCfg a b => some (32, 0x43 + a.val * 2048 + b.val * 32768)
  | .maLdb p c g => some (32, 0xc3 + p.val * 2048 + c.val * 4096 + g.val * 8388608)
  | .maLdw a b c => some (32, 0x143 + a.val * 2048 + b.val * 65536 + c.val * 2097152)
  | .maZero a => some (32, 0x45 + a.val * 2048)
  | .maMovTv a r c v => some (32, 0xc5 + a.val * 2048 + r.val * 32768 + c.val * 262144 + v.val * 1048576)
  | .maMovVt a r c v => some (32, 0x145 + a.val * 2048 + r.val * 32768 + c.val * 262144 + v.val * 1048576)
  | .maMovTp a g => some (32, 0x1c5 + a.val * 2048 + g.val * 1048576)
  | .maMovSum d s n => some (32, 0x245 + d.val * 2048 + s.val * 1048576 + n.val * 67108864)
  | .maWait m => some (32, 0x47 + m.val * 2048)
  | .maSave a => some (32, 0xc7 + a.val * 2048)
  | .maRstr a => some (32, 0x147 + a.val * 2048)
  | .cpCopy a d => some (32, 0x49 + a.val * 4096 + d.val * 4194304)
  | .cpCopyTs a d => some (32, 0xc9 + a.val * 4096 + d.val * 4194304)
  | .cpCopyRc a b d => some (32, 0x149 + a.val * 4096 + b.val * 131072 + d.val * 4194304)
  | .cpGath a b d t => some (32, 0x4b + a.val * 4096 + b.val * 131072 + d.val * 4194304 + t.val * 134217728)
  | .cpScat a b d => some (32, 0xcb + a.val * 4096 + b.val * 131072 + d.val * 4194304)
  | .cpFill a b d t => some (32, 0x14b + a.val * 4096 + b.val * 131072 + d.val * 4194304 + t.val * 134217728)
  | .tsDef a b => some (32, 0x4d + a.val * 4096 + b.val * 131072)
  | .tsRel a d => some (32, 0xcd + a.val * 4096 + d.val * 4194304)
  | .tsStat a d f w => some (32, 0x14d + a.val * 4096 + d.val * 4194304 + f.val * 134217728 + w.val * 268435456)
  | .barInit a b d s => some (32, 0x4f + a.val * 4096 + b.val * 131072 + d.val * 4194304 + s.val * 536870912)
  | .barArr a d => some (32, 0xcf + a.val * 4096 + d.val * 4194304)
  | .barWait a b d => some (32, 0x14f + a.val * 4096 + b.val * 131072 + d.val * 4194304)
  | .barArw a d => some (32, 0x1cf + a.val * 4096 + d.val * 4194304)
  | .barExpb a b d => some (32, 0x24f + a.val * 4096 + b.val * 131072 + d.val * 4194304)
  | .barStat a d c => some (32, 0x2cf + a.val * 4096 + d.val * 4194304 + c.val * 134217728)
  | .barExp a d => some (32, 0x34f + a.val * 4096 + d.val * 4194304)
  | .barUnex a d => some (32, 0x3cf + a.val * 4096 + d.val * 4194304)
  | .semInit a b d s => some (32, 0x51 + a.val * 4096 + b.val * 131072 + d.val * 4194304 + s.val * 536870912)
  | .semSet a b d => some (32, 0xd1 + a.val * 4096 + b.val * 131072 + d.val * 4194304)
  | .semAdd a b d => some (32, 0x151 + a.val * 4096 + b.val * 131072 + d.val * 4194304)
  | .semWge a b d u => some (32, 0x1d1 + a.val * 4096 + b.val * 131072 + d.val * 4194304 + u.val * 134217728)
  | .chCfg d a b => some (32, 0x53 + d.val * 4096 + a.val * 262144 + b.val * 33554432)
  | .chReg d a => some (32, 0xd3 + d.val * 4096 + a.val * 262144)
  | .chEos d a => some (32, 0x153 + d.val * 4096 + a.val * 262144)
  | .chTake d a p => some (32, 0x10001d3 + d.val * 8192 + a.val * 262144 + p.val * 8388608)
  | .chStat d a => some (32, 0x253 + d.val * 4096 + a.val * 262144)
  | .fwFu a b d => some (32, 0x55 + a.val * 4096 + b.val * 131072 + d.val * 4194304)
  | .fwFwd a b d => some (32, 0xd5 + a.val * 4096 + b.val * 131072 + d.val * 4194304)
  | .fwUpd a b d => some (32, 0x155 + a.val * 4096 + b.val * 131072 + d.val * 4194304)
  | .fwOpen a d => some (32, 0x57 + a.val * 4096 + d.val * 4194304)
  | .fwClose a d => some (32, 0xd7 + a.val * 4096 + d.val * 4194304)
  | .fwFree a d => some (32, 0x157 + a.val * 4096 + d.val * 4194304)
  | .fwPage a b d o => some (32, 0x1d7 + a.val * 4096 + b.val * 131072 + d.val * 4194304 + o.val * 134217728)
  | .fwStat a d => some (32, 0x257 + a.val * 4096 + d.val * 4194304)
  | .fwSnap a d => some (32, 0x59 + a.val * 4096 + d.val * 4194304)
  | .fwAvg a b d => some (32, 0xd9 + a.val * 4096 + b.val * 131072 + d.val * 4194304)
  | .fwRoll a b d => some (32, 0x159 + a.val * 4096 + b.val * 131072 + d.val * 4194304)
  | .fwMig a b d => some (32, 0x1d9 + a.val * 4096 + b.val * 131072 + d.val * 4194304)
  | .fwLogc a b d => some (32, 0x5b + a.val * 4096 + b.val * 131072 + d.val * 4194304)
  | .fwLogd a b d => some (32, 0xdb + a.val * 4096 + b.val * 131072 + d.val * 4194304)
  | .cxStart a d r => some (32, 0x5d + a.val * 4096 + d.val * 4194304 + r.val * 134217728)
  | .cxPause a d => some (32, 0xdd + a.val * 4096 + d.val * 4194304)
  | .cxEnd a d => some (32, 0x15d + a.val * 4096 + d.val * 4194304)
  | .cxFork a b d => some (32, 0x1dd + a.val * 4096 + b.val * 131072 + d.val * 4194304)
  | .cxCancel a b d l => some (32, 0x25d + a.val * 4096 + b.val * 131072 + d.val * 4194304 + l.val * 134217728)
  | .cxSpec a b d => some (32, 0x2dd + a.val * 4096 + b.val * 131072 + d.val * 4194304)
  | .cxCommit a b d => some (32, 0x35d + a.val * 4096 + b.val * 131072 + d.val * 4194304)
  | .grBind a b d => some (32, 0x5f + a.val * 4096 + b.val * 131072 + d.val * 4194304)
  | .grStep a b d s => some (32, 0xdf + a.val * 4096 + b.val * 131072 + d.val * 4194304 + s.val * 134217728)
  | .grMask a d => some (32, 0x15f + a.val * 4096 + d.val * 4194304)
  | .grLatt a b d => some (32, 0x1df + a.val * 4096 + b.val * 131072 + d.val * 4194304)
  | .grSave a b d => some (32, 0x25f + a.val * 4096 + b.val * 131072 + d.val * 4194304)
  | .grFork a b d => some (32, 0x2df + a.val * 4096 + b.val * 131072 + d.val * 4194304)
  | .grRoll a b d => some (32, 0x35f + a.val * 4096 + b.val * 131072 + d.val * 4194304)
  | .skOpen a d => some (32, 0x61 + a.val * 4096 + d.val * 4194304)
  | .skClose a b d f => some (32, 0xe1 + a.val * 4096 + b.val * 131072 + d.val * 4194304 + f.val * 134217728)
  | .skDraw a d => some (32, 0x161 + a.val * 4096 + d.val * 4194304)
  | .ltExp a d => some (32, 0x63 + a.val * 4096 + d.val * 4194304)
  | .sqCfg a b d => some (32, 0x65 + a.val * 4096 + b.val * 131072 + d.val * 4194304)
  | .sqSend a b d => some (32, 0xe5 + a.val * 4096 + b.val * 131072 + d.val * 4194304)
  | .sqRecv a b d => some (32, 0x165 + a.val * 4096 + b.val * 131072 + d.val * 4194304)
  | .tqPush a b d => some (32, 0x67 + a.val * 4096 + b.val * 131072 + d.val * 4194304)
  | .tkEnd => some (32, 0xe7)
  | .tkYield a => some (32, 0x167 + a.val * 4096)
  | .tkCancel a d => some (32, 0x1e7 + a.val * 4096 + d.val * 4194304)
  | .safept c => some (32, 0x69 + c.val * 4096)
  | .trap c => some (32, 0xe9 + c.val * 4096)
  | .tret => some (32, 0x169)
  | .sysRd a d => some (32, 0x6b + a.val * 4096 + d.val * 4194304)
  | .sysWr a b => some (32, 0xeb + a.val * 4096 + b.val * 131072)
  | .engRpl a d => some (32, 0x6d + a.val * 4096 + d.val * 4194304)
  | .engDrop a d => some (32, 0xed + a.val * 4096 + d.val * 4194304)
  | .tqCfg a b d => some (32, 0x6f + a.val * 4096 + b.val * 131072 + d.val * 4194304)
  | .tqKill a d => some (32, 0xef + a.val * 4096 + d.val * 4194304)
  | .tkPre a d u => some (32, 0x16f + a.val * 4096 + d.val * 4194304 + u.val * 134217728)
  | .hostWrite _ _ => none
  | .cxlSnoop _ => none
  | .hostLinkUp => none
  | .portLinkChange _ _ _ => none
  | .remoteCopyReceive _ => none
  | .semEventLand _ _ => none
  | .softError _ _ _ => none
  | .l2LineEviction _ => none
  | .l1LineDrop _ _ => none

end

end Sys2Proof
end

