-- ==== Sys2Proof/Machine/State.lean ====
section
/-! DEFINITION. The state of the whole package as plain data: sixty-four cores with their threads and engines, four compute
dies, eight base dies, device memory, system registers, tasks, chiplets and links. Every field names the rule of spec/ that
gives it; INVENTORY.md lists them with their reset values. -/
namespace Sys2Proof.Machine

/-- Why the machine stops with a fault. -/
inductive Fault where
  /-- Raised by no meaning: an instruction that the spec gives an effect never faults this model. It is kept so that the
  outcome type is complete. Safe. -/
  | unreachable
  deriving DecidableEq, Repr

/-- Why a step is refused. -/
inductive Refusal where
  /-- An arm of `exec` whose meaning is not written yet, by mnemonic. Safe. -/
  | notModelled (mnemonic : String)
  deriving DecidableEq, Repr

/-- A sparse store of bytes: addresses strictly rising, no entry equal to 0, which is what an unlisted address reads as. -/
abbrev Mem := List Host.Cell

/-! ## One thread -/

/-- A block in a loop buffer (R37, R38): its header address, header word and body halfwords. -/
structure Blk where
  hdr  : Nat
  head : BitVec 32
  body : List (BitVec 16)
  deriving DecidableEq, Repr

/-- Why a block is being fetched: which header rule of R42 holds, and where the thread goes on. -/
inductive FetchKind where
  /-- A taken branch, JMP, JR or RET: any header. -/
  | jump
  /-- CALL, CALLR: the target must be an entry header. -/
  | call
  /-- Fall-through after the last iteration (R39). -/
  | fall
  /-- Task start or trap vector: an entry header (R42). -/
  | entry
  /-- TRET or a resume: the block at HDR again, going on at WPOS with REPS (R44, R396). -/
  | resume (reps : Nat) (wpos : Nat)
  deriving DecidableEq, Repr

/-- A block fetch that has not completed: target and the address of the transferring word or last header (R42). -/
structure Fetch where
  target : Nat
  src    : Nat
  kind   : FetchKind
  deriving DecidableEq, Repr

/-- A trap raised by a thread and not yet delivered (R49, R84): the four trap CSRs and the frame's FVA and KIND (R395). -/
structure PTrap where
  cause  : Nat
  detail : Nat
  trapa  : Nat
  trappc : Nat
  fva    : Nat
  kind   : Nat
  hdr    : Nat
  reps   : Nat
  wpos   : Nat
  deriving DecidableEq, Repr

/-- A fault found while an access is checked or translated (R127, R166). `va` and `kind` go to the trap frame. -/
structure XFault where
  cause  : Nat
  detail : Nat
  va     : Nat
  kind   : Nat
  deriving DecidableEq, Repr

/-- What a walk finds (R160, R166): the leaf's physical place and value; or where and why it stopped. -/
inductive WalkRes where
  | leaf (pa : Nat) (e : Nat)
  | stop (level : Nat) (cause : Nat) (detail : Nat)
  deriving DecidableEq, Repr

/-- What a role thread is doing. -/
inductive Status where
  /-- No task gives this thread an entry header (R380), or no task runs. -/
  | idle
  | running
  /-- Blocked until the driver answers (R399); `T` halted for DEBUG (R400) is also here. -/
  | host
  /-- TK.END has retired (R408). -/
  | ended
  /-- Stopped for a pre-emption (R389): the STOP code of R396 and the live mask kept. -/
  | stopped (stop : Nat) (live : Nat)
  deriving DecidableEq, Repr

/-- The half of a two-part word that a thread has already performed. -/
inductive Stage where
  | none
  /-- BAR.WAIT waits on token k of a slot (R289). -/
  | bwait (slot k : Nat)
  /-- BAR.ARW has arrived and waits on token k of a slot (R289). -/
  | arw (slot k : Nat)
  /-- BAR.WAIT or BAR.ARW has passed its token: the phase, and the detail of an overrun that traps (R283). -/
  | passed (slot phase : Nat) (ov : Option Nat)
  /-- WAITA is armed: the watch with this identity (R125). -/
  | watch (id : Nat)
  /-- PG.MIG.W waits for its migration (R186). -/
  | mig (id : Nat)
  /-- PG.PIN has set BUSY on the leaf at `pa` and waits for the accesses under way through it: the old leaf (R187). -/
  | pin (pa : Nat) (old : Nat)
  /-- MA.WAIT has issued and waits (R251). -/
  | mwait
  /-- SEM.WGE waits in its slot's queue (R293). -/
  | sem (slot : Nat)
  /-- The word has passed its checks and would be the 16,385th retirement: SAFE will be raised at it (R388). -/
  | safe
  /-- A blocked word was granted by an event and completes on its next issue with this result (R293, R186). -/
  | result (v : Nat)
  deriving DecidableEq, Repr

/-- A store that has issued and has not been performed (R117, R133). -/
structure Store where
  id    : Nat
  /-- Physical address in device memory, or an offset in the pool of core `pool`. -/
  addr  : Nat
  pool  : Option (Fin 64)
  bytes : List (Nat × Byte)
  /-- Through a memory-side or sink page (R110, R113). -/
  ms    : Bool
  /-- The virtual address, for an engine fault record (R130), and the 4 KiB frames of the page that it was translated by (R184). -/
  va    : Nat
  pages : Nat
  /-- The write that it is a part of: the lines of one vector store share it (R242). -/
  whole : Nat
  /-- The L1 has taken it already, in this order among the core's stores: the core's other threads may see it (R110, R140). -/
  seen  : Option Nat := none
  deriving DecidableEq, Repr

/-- Where a word stands in its block: the header, the repeats still to run, the halfword offset (R44). -/
structure At where
  hdr  : Nat
  reps : Nat
  wpos : Nat
  deriving DecidableEq, Repr

/-- A release that a REL has begun (R133): its scope, its word and the number of that word, for the ENG of R148. -/
structure RelMark where
  scope : Nat
  word  : At
  nth   : Nat
  deriving DecidableEq, Repr

/-- A thread (R80). The program counter is (`hdr`, `wpos`) with `reps` repeats still to run, or the pending `fetch`. -/
structure Thread where
  g       : Vector Word 32
  /-- For each register, the outstanding operation that will write it (R82). -/
  own     : Vector (Option Nat) 32
  fpcr    : Word
  rngseed : BitVec 32
  rngctr  : BitVec 32
  hdr     : Nat
  blk     : Option Blk
  reps    : Nat
  wpos    : Nat
  fetch   : Option Fetch
  trap    : Option PTrap
  status  : Status
  /-- WSR WHY and OBJ of this thread (R303). -/
  why     : Nat
  obj     : Nat
  /-- WSR WCODE (R126, R304). -/
  wcode   : Nat
  /-- Instructions retired since the last reset of R388. -/
  scnt    : Nat
  /-- Words retired since reset (the model's own: it tells whether a word has issued after another one, R49). -/
  issued  : Nat
  /-- The next block, once the fall-through fetch that begins with the last iteration has read it (R45). -/
  ahead   : Option Blk
  /-- The thread's latest acquire was one at .sy (R139). -/
  sysAcq  : Bool
  stage   : Stage
  /-- The page and result of a walk that completed while this thread's word waits, used when it issues again, and the threads that
  joined the walk before it (R177). -/
  xwalk   : Option (Nat × WalkRes × List Role)
  stores  : List Store
  /-- A release not yet complete: operations numbered below this one must be done first (R133). -/
  relUpto : Option Nat
  /-- The word and scope of that release. -/
  relMark : Option RelMark
  deriving DecidableEq, Repr

/-! ## Memory side of a core -/

/-- A line of the L1 (R110, R111). -/
structure L1Line where
  line  : Nat
  tag   : Nat
  bytes : List Byte
  /-- An uncorrectable error has hit it (R29). -/
  bad   : Bool := false
  deriving DecidableEq, Repr

/-- Where a scalar result goes: a g register or a claimed channel entry (R83). -/
inductive Dest where
  | g (i : Fin 32)
  | ch (i : Fin 32)
  deriving DecidableEq, Repr

/-- What a line request does when it returns (R114). -/
inductive ReqKind where
  | load (dst : Dest) (size : Nat) (signed : Bool)
  /-- Lanes of a register with their addresses, and the register lines that its word covers whole (R119, R129). -/
  | vload (vd : Nat) (lanes : List (Nat × Nat)) (whole : List Nat)
  /-- An atomic with its operation number, operands b, e and their high halves, scope and acquire bit (R122). -/
  | atomic (op : Nat) (b : Nat) (e : Nat) (gd : Nat) (scope : Nat) (acq : Bool)
  | prefetch (l1 : Bool)
  /-- The arming read of a WAITA (R125). -/
  | arm (cmp : Bool) (timed : Bool) (e : Nat) (watch : Nat)
  /-- An atomic that has performed and whose acquire waits for earlier reads (R122, R134). -/
  | acquire (scope : Nat)
  deriving DecidableEq, Repr

/-- An entry of the request table (R114), or a load from a pool that is served later than its issue, which takes none (R109). -/
structure Req where
  id   : Nat
  role : Role
  /-- Physical address, or the offset in the pool of core `pool`. -/
  addr : Nat
  pool : Option (Fin 64)
  va   : Nat
  /-- The 4 KiB frames of the page that it was translated by (R184). -/
  pages : Nat
  /-- The word that made it, and its number among the thread's words. -/
  word : At
  nth  : Nat
  /-- The word has changed nothing yet: no lane has come, and it names no channel. -/
  plain : Bool
  gen  : Nat
  /-- The page's leaf allows the L1 (R110). -/
  l1ok : Bool
  ms   : Bool
  kind : ReqKind
  deriving DecidableEq, Repr

/-- An armed WAITA (R125, R126): `fired` holds the wake cause once one has occurred. -/
structure Watch where
  id    : Nat
  core  : Fin 64
  role  : Role
  line  : Nat
  va    : Nat
  timed : Bool
  fired : Option Nat
  deriving DecidableEq, Repr

/-- A translation held in a TLB (R176): address space, first virtual 4 KiB page, number of pages, leaf entry. -/
structure TlbEnt where
  asid  : Nat
  vpage : Nat
  pages : Nat
  leaf  : Word
  deriving DecidableEq, Repr

/-- A walk in flight in the miss table (R176, R177); the threads that joined it, in order. The 512 walks of a die with the lowest
numbers have a walker. -/
structure Walk where
  id    : Nat
  asid  : Nat
  vpage : Nat
  roles : List Role
  deriving DecidableEq, Repr

/-- Who waits for an entry of the request table or of the miss table (R114, R177). -/
inductive Issuer where
  | thr (r : Role)
  | copy
  | fill
  | seq
  /-- A block fetch of a thread. -/
  | fetch (r : Role)
  deriving DecidableEq, Repr

/-! ## Vector and matrix engines -/

/-- What a vector instruction will write when it completes (R194): lanes of registers by register, predicate lanes as a mask
and values, a g register, flags. -/
structure VOut where
  lanes : List (Nat × List (Nat × Lane))
  preds : List (Nat × PredBits × PredBits)
  g     : Option (Nat × Word)
  flags : Nat
  /-- Lanes that other agents have met already as written, by register and lane: each lane decides alone (R198). -/
  landed : List (Nat × Nat) := []
  deriving DecidableEq, Repr

/-- An entry of the vector queue (R193, R194): the word, its captured g sources and controls, its result once started. -/
structure VEnt where
  id   : Nat
  role : Role
  op   : Instr
  gs   : List Word
  fpcr : Word
  seed : BitVec 32
  ctr  : BitVec 32
  out  : Option VOut
  deriving DecidableEq, Repr

/-- A stored lock (R242, R243): a byte range of the pool or of device memory and the operation that holds it. -/
structure LockRec where
  op     : Nat
  /-- `none`: an own-pool offset; `some asid`: a device virtual address. -/
  space  : Option Nat
  base   : Nat
  len    : Nat
  parked : Bool
  deriving DecidableEq, Repr

/-- An entry of the matrix queue (R239, R240). -/
structure MEnt where
  id      : Nat
  role    : Role
  op      : Instr
  gs      : List Word
  started : Bool
  /-- Every row has entered the array, or the last source line has been read (R242). -/
  cleared : Bool
  /-- Halted on a tag mismatch, with the tag found, and whether its SCHED has been raised (R262). -/
  halted  : Option Nat
  told    : Bool
  /-- A rows captured so far, and the plane they meet (R249, R253). -/
  rows    : List (List Byte)
  plane   : List (List Byte)
  poison  : Bool
  /-- Groups of a fill that have been read (R246); rows of an MA.MM that a freeze found written (R253). -/
  done    : Nat
  /-- The fault that a fill has met, while it waits for a record place (R181). -/
  stop    : Option XFault := none
  deriving DecidableEq, Repr

/-- One B plane of the array (R237): empty, or 192 column images. -/
structure Plane where
  empty  : Bool
  cols   : List (List Byte)
  poison : Bool
  deriving DecidableEq, Repr

/-- An accumulator tile (R238): 128 × 192 FP32 in row order, as bytes, and its poison mark. -/
structure Tile where
  data   : Mem
  poison : Bool
  deriving DecidableEq, Repr

/-- The matrix side of a core (R233 to R256). -/
structure Matrix where
  fmta    : Nat
  fmtb    : Nat
  planes  : Vector Plane 2
  tiles   : Vector Tile 16
  queue   : List MEnt
  frozen  : Bool
  parked  : Bool
  /-- Parked work of C that the image holds has not completed (R151, R253). -/
  owed    : Bool
  deriving DecidableEq, Repr

/-! ## Copy engine -/

/-- A copy descriptor (R263). -/
structure CDesc where
  src  : Nat
  dst  : Nat
  six  : Nat
  dix  : Nat
  rows : Nat
  len  : Nat
  sstr : Int
  dstr : Int
  bar  : Nat
  tag  : Nat
  mode : Nat
  sfmt : Nat
  dfmt : Nat
  seed : Nat
  ctr  : Nat
  deriving DecidableEq, Repr

/-- An entry of the copy queue (R269, R271): progress in units (R266), the read index table, and its place in the channel. -/
structure CEnt where
  id      : Nat
  role    : Role
  op      : Instr
  d       : CDesc
  gb      : Word
  asid    : Nat
  started : Bool
  idx     : List Int
  done    : Nat
  /-- Units past `done` that have been performed out of order, by first element (R266). -/
  ahead   : List Nat
  /-- Source units of 8 bytes that a piece has used a part of, by address, as it read them (R143). -/
  kept    : List (Nat × List Byte) := []
  /-- Destination lines that took bytes from a poisoned source line (R129, R275): core or memory, and line. -/
  bad     : List (Option (Fin 64) × Nat)
  /-- The fault that it has met, while it waits for a record place (R181). -/
  stop    : Option XFault := none
  deriving DecidableEq, Repr

/-- A slot of the tile-slot table: DEF (R257) and STATE (R258). -/
structure Slot where
  defw  : Word
  state : Word
  deriving DecidableEq, Repr

/-! ## Synchronisation -/

/-- Where a posted event goes (R284): a team member's slot, a handle not resolved, or a resolved handle's slot (R285). -/
inductive Target where
  | member (m : Nat) (slot : Nat)
  | handle (h : Nat)
  | slot (task : Nat) (teamix : Nat) (slot : Nat)
  deriving DecidableEq, Repr

/-- What a posted event does where it lands (R282, R292, R296). -/
inductive PostKind where
  | arrive
  | bytes (n : Nat)
  | expect (n : Nat)
  | semSet (v : Word)
  | semAdd (v : Word)
  /-- A push on a link to ring `rix`; the value, or the operation it still waits for. -/
  | push (rix : Nat) (link : Nat) (pid : Nat) (v : Word) (pend : Option Nat)
  | eos (rix : Nat) (link : Nat) (pid : Nat)
  | reg (rix : Nat) (link : Nat) (pid : Nat)
  deriving DecidableEq, Repr

/-- A posted event that has not landed (R146, R284); an arrival leaves once the thread's earlier accesses are done. -/
structure Post where
  id     : Nat
  role   : Role
  target : Target
  kind   : PostKind
  /-- It has claimed an entry of its home ring (R296). -/
  claim  : Bool := false
  deriving DecidableEq, Repr

/-- An entry of a channel ring (R296): its value lies in the pool; it is not ready while an operation owes it. -/
structure ChEnt where
  pos  : Nat
  eos  : Option Nat
  pend : Option Nat
  deriving DecidableEq, Repr

/-- A channel table entry (R294 to R297). -/
structure Chan where
  link   : Bool
  memb   : Nat
  rix    : Nat
  base   : Nat
  capl   : Nat
  tail   : Nat
  ring   : List ChEnt
  /-- Entries claimed by link pushes in flight (R296). -/
  claims : Nat
  reg    : List Nat
  eosm   : List Nat
  neos   : Nat
  closed : Bool
  drop   : Bool
  deriving DecidableEq, Repr

/-- The overrun of the current phase and of the phase that completed last, per barrier slot (R282, R283). -/
structure Overrun where
  cur      : Bool
  surplus  : Bool
  bytes    : Nat
  lastSurplus : Bool
  lastBytes   : Nat
  deriving DecidableEq, Repr

/-- A SEM.WGE that waits on a slot (R293). -/
structure SemWait where
  role : Role
  slot : Nat
  thr  : Word
  sub  : Bool
  deriving DecidableEq, Repr

/-- A resolved barrier handle (R285): the task, member and slot it names. -/
structure HCache where
  handle : Nat
  task   : Nat
  teamix : Nat
  slot   : Nat
  /-- The slot's SCOPE when it was resolved (R284). -/
  scope  : Nat
  deriving DecidableEq, Repr

/-! ## Fast weights and sequence engine -/

/-- One token of a speculation log (R325): window, and k, α, β, v of the heads as FP32 codes, heads ascending. -/
structure LogEnt where
  win   : Nat
  arow  : Bool
  k     : List Nat
  a     : List Nat
  b     : List Nat
  v     : List Nat
  deriving DecidableEq, Repr

/-- An entry of the fast-weight queue (R312), or its transfer part: operands and descriptor as issued, and its progress. -/
structure FEnt where
  id      : Nat
  role    : Role
  op      : Instr
  gs      : List Word
  desc    : List Byte
  asid    : Nat
  region  : Nat
  /-- H, d_k, d_v and LOG of the state that the issue checks found (R322). -/
  geo     : List Nat
  started : Bool
  /-- The handles that the start judged, in operand order (R309). -/
  hs      : List Nat
  /-- The next head (R336), or the next element of an image (R330). -/
  head    : Nat
  /-- The result, once it is settled (R313). -/
  out     : Option Word
  /-- A poisoned slab has been read (R323). -/
  bad     : Bool
  /-- Tokens of a SPEC chunk whose heads have been performed (R325). -/
  slog    : List LogEnt
  /-- Frames or slabs that a transfer has reserved, and the elements of an image that have arrived (R330, R335). -/
  hold    : List Nat
  buf     : Mem
  deriving DecidableEq, Repr

/-- An entry of the sequence queue (R342). `locked`: contexts whose LOCK it holds; `recs`: their records when it started.
`sent`: the SEQ of an SQ.SEND whose record has left the core (R369), or the order in which an SQ.RECV reached its queue. -/
structure SEnt where
  id      : Nat
  role    : Role
  op      : Instr
  gs      : List Word
  desc    : List Byte
  asid    : Nat
  region  : Nat
  started : Bool
  locked  : List Nat
  recs    : List Nat
  sent    : Option Nat
  dropped : Nat
  /-- The fault that it has met, while it waits for a record place (R181). -/
  stop    : Option XFault := none
  deriving DecidableEq, Repr

/-- The operation an engine fault record stands for (R181, R415). -/
inductive RecOp where
  | copy (e : CEnt)
  | fill (e : MEnt)
  | fw (e : FEnt)
  | seq (e : SEnt)
  | post (p : Post)
  | store (st : Store)
  deriving DecidableEq, Repr

/-- An engine fault record (R181), or the cancellation record of a copy (R275). -/
structure Rec where
  role    : Role
  op      : RecOp
  fault   : XFault
  cancel  : Bool
  deriving DecidableEq, Repr

/-- What the opaque bytes of a matrix save image stand for (R252): the model keeps the saved fields beside the address. -/
structure MImage where
  /-- The counter that the image's opaque bytes and CHECK were made from. -/
  n     : Nat
  m     : Matrix
  locks : List LockRec
  vq    : List VEnt
  /-- The fill records, by place. -/
  recs  : List (Nat × Rec)
  deriving DecidableEq, Repr

/-- The effective region fields a task runs under (R375, R376), as last read by a dispatch decision. -/
structure View where
  region : Nat
  asid   : Nat
  fdom   : Nat
  wdog   : Nat
  hostm  : Nat
  tvec   : Nat
  mimg   : Nat
  sys    : Bool
  debug  : Bool
  stop   : Bool
  deriving DecidableEq, Repr

/-! ## A core -/

/-- One core: control core, pool, engines and tables. -/
structure Core where
  bndv    : Nat
  bnds    : Nat
  bndc    : Nat
  l1gen   : Nat
  l1      : List L1Line
  /-- An L1GEN wrap clear is in progress (R111). -/
  l1clear : Bool
  teamix  : Nat
  teamsz  : Nat
  ctx     : Option Nat
  /-- TASKID.ID, 0 while no task runs (R102). -/
  taskid  : Nat
  view    : View
  trapc   : Word
  trapa   : Word
  trappc  : Word
  trapw   : Word
  /-- The thread T serves, and whether T has written TRAPPC since the trap (R413). -/
  served  : Option Role
  tpcw    : Bool
  threads : Vector Thread 4
  pool    : Mem
  /-- Poisoned 64-byte lines of the pool (R129). -/
  ppoison : List Nat
  preds   : Vector PredBits 12
  vq      : List VEnt
  mx      : Matrix
  col     : Mem
  filled  : List Nat
  cpoison : List Nat
  locks   : List LockRec
  slots   : Vector Slot 64
  cq      : List CEnt
  chcnt   : Nat
  chans   : Vector Chan 32
  ovr     : Vector Overrun 32
  semq    : List SemWait
  posts   : List Post
  hcache  : List HCache
  fwq     : List FEnt
  /-- Fast-weight handles that the core has resolved, and those it is resolving (R308). -/
  fwcache : List Nat
  fwwant  : List Nat
  sq      : List SEnt
  recs    : Vector (Option Rec) 32
  reqs    : List Req
  /-- Who waits for an entry, in the order they began to wait (R114). -/
  reqwait : List Issuer
  /-- Port TLBs of L, S, T, copy engine, column-store fill, sequence engines (R176). -/
  ptlb    : Vector (List TlbEnt) 6
  ctlb    : List TlbEnt
  walks   : List Walk
  /-- Who waits for an entry of the miss table, in the order they began to wait (R177). -/
  walkwait : List Issuer
  deriving DecidableEq, Repr

/-! ## Dies -/

/-- Where a fast-weight state lies (R311, R331). -/
inductive Place where
  | grotto
  | t1
  | t2
  deriving DecidableEq, Repr

/-- A fast-weight state (R306, R325). Planes hold FP32 codes as bytes, heads ascending, each in row order. -/
structure FwState where
  h      : Nat
  dk     : Nat
  dv     : Nat
  comp   : Bool
  log    : Bool
  w      : Mem
  c      : Mem
  w2     : Mem
  c2     : Mem
  pend   : List LogEnt
  place  : Place
  /-- Slab numbers of W, C, W′, C′ and the log; a number in two states is a shared slab (R310). -/
  sw     : List Nat
  sc     : List Nat
  swork  : List Nat
  /-- Frames the state takes in T1 or T2 (R311). -/
  frames : List Nat
  /-- The region of the task that opened it, which its slabs are charged to (R310). -/
  region : Nat
  deriving DecidableEq, Repr

/-- A fast-weight directory entry that has been used (R308); others have generation 1 and no state. -/
structure FwEnt where
  ix  : Nat
  gen : Nat
  st  : Option FwState
  deriving DecidableEq, Repr

/-- A Grotto slab in use (R310): its number, the region charged, whether poisoned. -/
structure Slab where
  n      : Nat
  region : Nat
  poison : Bool
  deriving DecidableEq, Repr

/-- A barrier-handle directory entry that has been used (R285). -/
structure BhEnt where
  ix   : Nat
  gen  : Nat
  /-- The task and its slot, while live: TASKID, TEAMIX, slot. -/
  live : Option (Nat × Nat × Nat)
  deriving DecidableEq, Repr

/-- A speculation queue (R368): its two ring pages, the head's place, records held, records on their way, and SEQ. -/
structure SpecQ where
  cfg    : Bool
  sender : Nat
  ring   : List Nat
  head   : Nat
  held   : Nat
  flying : Nat
  seq    : Nat
  deriving DecidableEq, Repr

/-- A page the fork walker migrates (R173), or a break it makes (R171). -/
structure Move where
  id    : Nat
  asid  : Nat
  va    : Nat
  /-- A copy-on-write break for the region; else a migration to `frame` in `tier`. -/
  cow   : Bool
  /-- The target tier; of a break, the size code of its page, once it is locked. -/
  tier  : Nat
  /-- The target frame; of a break, the frame taken when its leaf is locked. -/
  frame : Nat
  /-- Of a break: its leaf is locked by BUSY, and the COUNT read then (R171). -/
  locked : Option Nat
  /-- Where the entry of the leaf lies in which it has set BUSY. -/
  pa     : Nat
  region : Nat
  /-- A PG.MIG.W waits for it (R186). -/
  waits : Bool
  /-- Set when the move has ended: the status of R186, or the SIZE of a COWX. -/
  ended : Option Nat
  deriving DecidableEq, Repr

/-- What a dispatcher holds cores for (R20): a saved task, or a record by queue and position. -/
inductive Held where
  | saved (id : Nat)
  | record (queue : Nat) (pos : Nat)
  deriving DecidableEq, Repr

/-- A compute die with its vault die (R8). -/
structure Die where
  fw     : List FwEnt
  slabs  : List Slab
  bh     : List BhEnt
  sq     : Vector SpecQ 16
  wcache : List (Nat × Nat × Nat × Word)
  moves  : List Move
  /-- The tasks and records held here after their 64th bypass, first held first (R20, R383). -/
  held   : List Held
  deriving DecidableEq, Repr

/-- An open sink row (R363 to R367). -/
structure Row where
  /-- The row's bytes in order, as physical pieces: address and length. -/
  segs   : List (Nat × Nat)
  v      : Nat
  ctx    : Nat
  slot   : Option Nat
  /-- The mask slot's bytes as physical pieces, the physical address of RDY, and the grammar's V. -/
  msegs  : List (Nat × Nat)
  rdypa  : Nat
  gv     : Nat
  win    : Nat
  temp   : Nat
  topk   : Nat
  /-- The mask taken when the first block is processed (R372). -/
  mask   : Option (List Byte)
  /-- Lines of the row written whole since the open, by place in the row. -/
  landed : List Nat
  /-- Blocks processed: number, m and s (R73). -/
  blocks : List (Nat × Nat × Nat)
  /-- Tokens with y > −∞ and their y; tokens that the uniform draw counts (R365, R366). -/
  ys     : List (Nat × Nat)
  cand   : List Nat
  nanl   : Bool
  abandoned : Bool
  closed : Bool
  deriving DecidableEq, Repr

/-- A sink row slot: generation and, while open, its row (R363). -/
structure SinkRow where
  ix  : Nat
  gen : Nat
  row : Option Row
  deriving DecidableEq, Repr

/-- A base die: the sink rows that have been used; others have generation 1 and are free. -/
structure BaseDie where
  rows : List SinkRow
  deriving DecidableEq, Repr

/-! ## Tasks and the package -/

/-- Where a live task is in its life. -/
inductive Phase where
  /-- Dispatched; the role threads have not started (R385). -/
  | formed
  | running
  /-- Its team is formed for a resume that has not reloaded (R393). -/
  | resuming
  /-- Saved, on the resume list (R391). -/
  | saved
  /-- A save that paused on a fault; its cores stay taken (R392). -/
  | savef
  deriving DecidableEq, Repr

/-- A TLB.INV that has not completed (R183, R184). -/
structure Inval where
  id    : Nat
  owner : Option (Fin 64 × Role)
  scope : Nat
  die   : Nat
  core  : Nat
  kind  : Nat
  addr  : Nat
  asid  : Nat
  count : Nat
  /-- Complete, and kept until the owner's TLB.SYNC (R184). -/
  done  : Bool
  deriving DecidableEq, Repr

/-- A task between its dispatch and its end (R379 to R393). -/
structure Task where
  id      : Nat
  region  : Nat
  queue   : Nat
  pos     : Nat
  ctx     : Option Nat
  chunk   : Nat
  size    : Nat
  sigm    : Nat
  entries : List Nat
  phase   : Phase
  /-- Cores by TEAMIX, while on cores. -/
  cores   : List (Fin 64)
  /-- 0 none, 1 ordinary, 2 urgent (R389), 3 cancelled (R410). -/
  preempt : Nat
  /-- Dispatch order, and save order. -/
  order   : Nat
  bypass  : Nat
  /-- Pages of its save blocks that have been written (R392). -/
  written : Nat
  /-- It was cancelled while being saved: the cancel applies when the save ends (R418). -/
  cancel  : Bool
  /-- Saved cores by TEAMIX, their save blocks, and barrier events held for the resume (R285, R391). -/
  saved   : List Core
  blocks  : List Nat
  heldEv  : List (Nat × Nat × PostKind)
  /-- Results of transfers that ended while saved: TEAMIX, thread, register, value (R335). -/
  results : List (Nat × Role × Nat × Nat × Word)
  /-- While saved: the invalidations that its T threads have still to wait for, by TEAMIX (R184). -/
  invals  : List (Nat × Inval)
  deriving DecidableEq, Repr

/-- A record or task the dispatchers have examined while eligible, with its bypass count (R20, R383). -/
structure Bypass where
  queue : Nat
  pos   : Nat
  count : Nat
  deriving DecidableEq, Repr

/-- The state of a chiplet (R422). -/
inductive ChipSt where
  | off
  | quarantined
  | admitted
  deriving DecidableEq, Repr

/-- What IOD1's x16 port is, as the driver chose at bring-up (R436). -/
inductive PortMode where
  /-- A second upstream link to the host. -/
  | host
  /-- A CXL.mem port to a T2 memory pool. -/
  | pool
  deriving DecidableEq, Repr

/-- The life cycle of the package (R428). -/
inductive LifeCycle where
  | manufacture
  | provisioned
  | operational
  | rma
  | decommissioned
  deriving DecidableEq, Repr

/-- How far a key rollover has come (R426). -/
inductive Roll where
  | none
  /-- The next key is installed at the receiver, which has not acknowledged. -/
  | started
  /-- The sender has switched; the drain marker is in flight. -/
  | switched
  deriving DecidableEq, Repr

/-- One direction of a UCIe-A or HBM4E link (R425, R426). -/
structure LinkDir where
  keyed  : Bool
  /-- The key in use and the key-phase bit. -/
  key    : Nat
  phase  : Bool
  roll   : Roll
  /-- The sender has stopped at 2^32 flits. -/
  stop   : Bool
  /-- Consecutive tag failures. -/
  fails  : Nat
  deriving DecidableEq, Repr

/-- A die-to-die channel, from a core to a die (R11, R12): sent the other way round the ring, and a switch still draining. -/
structure ChannelSt where
  alt   : Bool
  drain : Bool
  deriving DecidableEq, Repr

/-- A route entry (R435, R437). -/
structure Route where
  h     : Nat
  chip  : Nat
  ports : Nat
  assoc : Nat
  deriving DecidableEq, Repr

/-- A FW.PAGE or FW.MIG transfer part (R312, R335). -/
structure Xfer where
  id     : Nat
  task   : Nat
  teamix : Nat
  core   : Fin 64
  die    : Nat
  e      : FEnt
  /-- The state the transfer works on, by directory entry; the target die of a migration and the entry it reserves there. -/
  ix     : Nat
  target : Nat
  tix    : Option Nat
  /-- The context whose record takes the handle of a migration with handle 0, as its core knew it at the start (R335). -/
  ctx    : Option Nat := none
  /-- Its source or target die has been reset while it ran (R313, R335, R427). -/
  lost   : Bool := false
  deriving DecidableEq, Repr

/-- A host event waiting for the ring (R403, R435). -/
structure HostEvent where
  kind   : Nat
  region : Nat
  fdom   : Nat
  task   : Nat
  cause  : Nat
  thread : Nat
  detail : Nat
  fva    : Nat
  trapa  : Nat
  queue  : Nat
  pos    : Nat
  /-- The core whose T waits to post it (R435). -/
  core   : Option (Fin 64)
  deriving DecidableEq, Repr

/-- The controller's answer to the last mailbox command (R432): status, and data for AGE and ATTEST. -/
structure Reply where
  code   : Nat
  status : Nat
  data   : List Nat
  deriving DecidableEq, Repr

/-- One turn of the schedule: a thread issues, or an event of the opcode table occurs. The agenda of turns is the model's
input (interrupt-free: what the outside world and the clock decide). -/
inductive Turn where
  | issue (core : Fin 64) (role : Role)
  /-- The thread issues, and its pool loads are served later than this (R140). -/
  | late (core : Fin 64) (role : Role)
  | event (e : Instr)
  deriving DecidableEq, Repr

/-- The package. -/
structure State where
  cores   : Vector Core 64
  dies    : Vector Die 4
  bds     : Vector BaseDie 8
  mem     : Mem
  /-- Lines whose poison differs from the tier's own: T1 starts poisoned, the others clean (R129, R429). -/
  pflip   : List Nat
  /-- Lines whose latest write only an L2 holds (R113, R424). -/
  l2own   : List Nat
  sys     : Vector Word 11
  sysset  : Vector Bool 11
  /-- The region control blocks as the last dispatch decision read them (R375). -/
  rcbs    : List (Nat × List Byte)
  featack : Word
  featlock : Bool
  tasks   : List Task
  bypass  : List Bypass
  chips   : Vector ChipSt 18
  lcs     : LifeCycle
  /-- The last attestation of each chiplet: whether it succeeded, what failed, and the number of its transcript (R420, R432). -/
  sessions : Vector (Option (Bool × Nat × Nat)) 18
  /-- Attestations that failed, as the root reports them to the driver: chiplet, and message and error (R420). -/
  reports : List (Nat × Nat)
  /-- Attestation is over and the links are keyed (R438 step 4). -/
  booted  : Bool
  /-- IOD1's port mode, fixed until a package reset (R436). -/
  iod1    : Option PortMode
  /-- Chiplets in a single-die reset that have not been readmitted (R427). -/
  wiped   : Vector Bool 18
  powered : Bool
  links   : Vector LinkDir 40
  /-- The channels by 4 × core + destination die (R11). -/
  chan    : Vector ChannelSt 256
  hostup  : Bool
  ports   : Vector Bool 8
  /-- MACsec associations that are live (R437). -/
  assocs  : List Nat
  routes  : List Route
  lists   : Vector Word 11
  age     : Vector (BitVec 128) 18
  /-- The command ring in BAR0 as software reads it back, and the place of the next command (R432). -/
  bar0    : Mem
  mboxAt  : Nat
  reply   : Option Reply
  msix    : Vector Bool 3
  hostq   : List HostEvent
  invals  : List Inval
  /-- Armed watches of every core (R125). -/
  watches : List Watch
  xfers   : List Xfer
  images  : List MImage
  /-- Snoops and back-invalidates that have arrived and are not applied (R134). -/
  snoops  : List Nat
  /-- Host writes of lines whose snoop is not applied: the package still reads the older copies (R134, R139). -/
  hostw   : List (Nat × List Byte)
  /-- The next TASKID, operation number and free value (the model's own counters). -/
  nextTask : Nat
  nextOp  : Nat
  free    : Nat
  /-- The thread whose word `exec` runs, and the schedule still to come (the model's own). -/
  cur     : Fin 64 × Role
  /-- The turn's pool loads are served later than their issue (the model's own). -/
  late    : Bool
  agenda  : List Turn
  /-- Turns taken with an empty agenda (the model's own): they go round what can happen. -/
  tick    : Nat
  deriving DecidableEq, Repr

/-! ## Reset -/

/-- A thread after reset (R66, R81, R102); g registers read 0 (DESIGN CHOICE, log 1). -/
def Thread.reset : Thread :=
  { g := Vector.replicate 32 0, own := Vector.replicate 32 none, fpcr := 0, rngseed := 0, rngctr := 0, hdr := 0,
    blk := none, reps := 0, wpos := 0, fetch := none, trap := none, status := .idle, why := 0, obj := 0, wcode := 0,
    scnt := 0, issued := 0, ahead := none, sysAcq := false, stage := .none, xwalk := none, stores := [], relUpto := none, relMark := none }

/-- The matrix side after reset: FMTA = FMTB = e4m3, planes empty, tiles +0 (log 1; dispatch sets the same, R237, R238, R245). -/
def Matrix.reset : Matrix :=
  { fmta := 4, fmtb := 4, planes := Vector.replicate 2 { empty := true, cols := [], poison := false },
    tiles := Vector.replicate 16 { data := [], poison := false }, queue := [], frozen := false, parked := false, owed := false }

/-- A view of no region. -/
def View.none : View :=
  { region := 0, asid := 0, fdom := 0, wdog := 0, hostm := 0, tvec := 0, mimg := 0, sys := false, debug := false,
    stop := false }

/-- An unconfigured channel table entry (R294). -/
def Chan.reset : Chan :=
  { link := false, memb := 0, rix := 0, base := 0, capl := 0, tail := 0, ring := [], claims := 0, reg := [], eosm := [],
    neos := 0, closed := false, drop := false }

/-- No overrun. -/
def Overrun.reset : Overrun := { cur := false, surplus := false, bytes := 0, lastSurplus := false, lastBytes := 0 }

/-- A core after reset: no task, empty pool, empty tables (R102, R104, R257, R258, R294, R303, R429). -/
def Core.reset : Core :=
  { bndv := 0, bnds := 0, bndc := 0, l1gen := 0, l1 := [], l1clear := false, teamix := 0, teamsz := 0, ctx := none,
    taskid := 0, view := View.none, trapc := 0, trapa := 0, trappc := 0, trapw := 0, served := none, tpcw := false,
    threads := Vector.replicate 4 Thread.reset, pool := [], ppoison := [], preds := Vector.replicate 12 0, vq := [],
    mx := Matrix.reset, col := [], filled := [], cpoison := [], locks := [],
    slots := Vector.replicate 64 { defw := 0, state := 0 }, cq := [], chcnt := 0,
    chans := Vector.replicate 32 Chan.reset, ovr := Vector.replicate 32 Overrun.reset, semq := [], posts := [],
    hcache := [], fwq := [], fwcache := [], fwwant := [], sq := [], recs := Vector.replicate 32 none, reqs := [], reqwait := [],
    ptlb := Vector.replicate 6 [], ctlb := [], walks := [], walkwait := [] }

/-- A die after reset: empty directories, queues unconfigured (R308, R285, R368). -/
def Die.reset : Die :=
  { fw := [], slabs := [], bh := [],
    sq := Vector.replicate 16 { cfg := false, sender := 0, ring := [], head := 0, held := 0, flying := 0, seq := 0 },
    wcache := [], moves := [], held := [] }

/-- A link direction without a key (R425). -/
def LinkDir.reset : LinkDir :=
  { keyed := false, key := 0, phase := false, roll := .none, stop := false, fails := 0 }

/-- The package right after a package reset (R27, R404, R422, R429, R430): every chiplet quarantined, memory wiped,
system registers 0 and not written, life cycle OPERATIONAL (log 2). No task runs and no program is loaded (log 3). -/
def State.reset : State :=
  { cores := Vector.replicate 64 Core.reset, dies := Vector.replicate 4 Die.reset,
    bds := Vector.replicate 8 { rows := [] }, mem := [], pflip := [], l2own := [], sys := Vector.replicate 11 0,
    sysset := Vector.replicate 11 false, rcbs := [], featack := 1, featlock := false, tasks := [], bypass := [],
    chips := Vector.replicate 18 ChipSt.quarantined, lcs := .operational,
    sessions := Vector.replicate 18 none, reports := [], booted := false, iod1 := none, wiped := Vector.replicate 18 false,
    powered := true, links := Vector.replicate 40 LinkDir.reset,
    chan := Vector.replicate 256 { alt := false, drain := false }, hostup := true, ports := Vector.replicate 8 false,
    assocs := [],
    routes := [], lists := Vector.replicate 11 0, age := Vector.replicate 18 0, bar0 := [], mboxAt := 0, reply := none,
    msix := Vector.replicate 3 false, hostq := [], invals := [], watches := [], xfers := [], images := [], snoops := [], hostw := [],
    nextTask := 1, nextOp := 1, free := 0, cur := (0, .L), late := false, agenda := [], tick := 0 }

end Sys2Proof.Machine
end

