-- ==== Sys2Proof/Machine/Mem.lean ====
section
/-! DEFINITION. Bytes and bit fields: the canonical sparse store, little-endian packing, sign extension, poison sets. -/
namespace Sys2Proof.Machine

/-! ## Bits -/

/-- Bits lo + n − 1 : lo of a number. -/
def bits (x lo n : Nat) : Nat := x / 2 ^ lo % 2 ^ n

/-- The n-bit two's complement reading of a number. -/
def sint (n x : Nat) : Int :=
  let y := x % 2 ^ n
  if y < 2 ^ (n - 1) then (y : Int) else (y : Int) - (2 ^ n : Nat)

/-- The n-bit code of an integer, modulo 2^n. -/
def ofInt (n : Nat) (i : Int) : Nat := (i % (2 ^ n : Nat)).toNat

/-- A 64-bit word from a number. -/
def word (n : Nat) : Word := BitVec.ofNat 64 n

/-- Sign extension of the low n bits to a word. -/
def sextW (n x : Nat) : Word := BitVec.ofInt 64 (sint n x)

/-- `x` with bits lo + n − 1 : lo replaced by `v`. -/
def setBits (x lo n v : Nat) : Nat := x - bits x lo n * 2 ^ lo + (v % 2 ^ n) * 2 ^ lo

/-- Addition of a signed amount to an address, modulo 2^64. -/
def addrAdd (a : Nat) (i : Int) : Nat := ofInt 64 ((a : Int) + i)

/-! ## Byte lists, little-endian (R2) -/

def leNat : List Byte → Nat
  | [] => 0
  | b :: t => b.toNat + 256 * leNat t

def leBytes : Nat → Nat → List Byte
  | 0, _ => []
  | n + 1, x => BitVec.ofNat 8 x :: leBytes n (x / 256)

/-- Little-endian halfwords of a byte list. -/
def leHalves : List Byte → List (BitVec 16)
  | a :: b :: t => BitVec.ofNat 16 (a.toNat + 256 * b.toNat) :: leHalves t
  | _ => []

/-- The 32-bit items of a byte list. -/
def leLanes : List Byte → List Lane
  | a :: b :: c :: d :: t =>
    BitVec.ofNat 32 (a.toNat + 256 * b.toNat + 65536 * c.toNat + 16777216 * d.toNat) :: leLanes t
  | _ => []

/-- n bytes of a list from offset `o`, as a number. -/
def field (bs : List Byte) (o n : Nat) : Nat := leNat ((bs.drop o).take n)

/-! ## The sparse store -/

/-- What an unlisted address reads as. -/
def Mem.dflt : Byte := 0

/-- The byte at an address. -/
def Mem.get : Mem → Nat → Byte
  | [], _ => Mem.dflt
  | (b, v) :: m, a => if b = a then v else Mem.get m a

/-- Addresses strictly rise and no entry holds the default. -/
def Mem.wf : Mem → Bool
  | [] => true
  | [(_, v)] => v != Mem.dflt
  | (a, v) :: (b, w) :: m => decide (a < b) && (v != Mem.dflt) && Mem.wf ((b, w) :: m)

/-- The entries of a run of bytes from address `a`: those that differ from the default. -/
def Mem.run : Nat → List Byte → Mem
  | _, [] => []
  | a, b :: t => if b = Mem.dflt then Mem.run (a + 1) t else (a, b) :: Mem.run (a + 1) t

/-- The store with a run of bytes written at `a`. -/
def Mem.write (m : Mem) (a : Nat) (bs : List Byte) : Mem :=
  m.filter (fun e => decide (e.1 < a)) ++ (Mem.run a bs ++ m.filter (fun e => decide (a + bs.length ≤ e.1)))

/-- One byte written. -/
def Mem.set (m : Mem) (a : Nat) (b : Byte) : Mem := Mem.write m a [b]

/-- The entries that lie in n bytes from `a`. -/
def Mem.window (m : Mem) (a n : Nat) : Mem := m.filter (fun e => decide (a ≤ e.1) && decide (e.1 < a + n))

/-- n bytes from `a`. -/
def Mem.read (m : Mem) (a n : Nat) : List Byte := (List.range n).map fun i => Mem.get (Mem.window m a n) (a + i)

/-- n bytes from `a` as a little-endian number. -/
def Mem.nat (m : Mem) (a n : Nat) : Nat := leNat (Mem.read m a n)

/-- Single bytes written, in list order (the lanes of a vector store). -/
def Mem.writeCells (m : Mem) (l : List (Nat × Byte)) : Mem := l.foldl (fun m e => Mem.set m e.1 e.2) m

/-- The store moved by an offset: entry a of the result is entry o + a of the argument, for a below n. -/
def Mem.slice (m : Mem) (o n : Nat) : Mem := (Mem.window m o n).map fun e => (e.1 - o, e.2)

/-- Writes the first n bytes of another store at `a`. -/
def Mem.blit (m : Mem) (a n : Nat) (src : Mem) : Mem := Mem.write m a (Mem.read src 0 n)

/-- The store with the n bytes at `b` replaced by those at `a`. -/
def Mem.copy (m : Mem) (a b n : Nat) : Mem :=
  m.filter (fun e => decide (e.1 < b)) ++
    ((Mem.window m a n).map (fun e => (e.1 - a + b, e.2)) ++ m.filter (fun e => decide (b + n ≤ e.1)))

/-! ## Sets of line numbers, rising -/

def insertNat (x : Nat) : List Nat → List Nat
  | [] => [x]
  | y :: t => if x < y then x :: y :: t else if x = y then y :: t else y :: insertNat x t

def eraseNat (x : Nat) (l : List Nat) : List Nat := l.filter (· ≠ x)

/-- The 64-byte lines that n bytes from `a` touch. -/
def linesOf (a n : Nat) : List Nat :=
  if n = 0 then [] else (List.range ((a + n - 1) / 64 - a / 64 + 1)).map (a / 64 + ·)

/-- The lines that n bytes from `a` cover whole. -/
def wholeLines (a n : Nat) : List Nat := (linesOf a n).filter fun l => decide (a ≤ 64 * l) && decide (64 * l + 64 ≤ a + n)

/-- Whether two byte ranges share a byte. -/
def overlap (a n b k : Nat) : Bool := decide (a < b + k) && decide (b < a + n)

end Sys2Proof.Machine
end

