-- ==== Sys2Proof/Machine/Flags.lean ====
section
/-! DEFINITION. Number formats and exact arithmetic (R56 to R79): Widen, Round, Grid, Mix, Tree, the FP32 steps and special
functions, with the sticky flags of R65 as a number of five bits. A finite value is m × 2^e with a sign; codes are numbers. -/
namespace Sys2Proof.Machine

/-- An exact value (R61): sign true is negative. A zero has m = 0. -/
inductive Val where
  | nan (neg : Bool)
  | inf (neg : Bool)
  | fin (neg : Bool) (m : Nat) (e : Int)
  deriving DecidableEq, Repr

def Val.neg : Val → Bool
  | .nan s => s
  | .inf s => s
  | .fin s _ _ => s

def Val.isNan : Val → Bool
  | .nan _ => true
  | _ => false

def Val.isZero : Val → Bool
  | .fin _ m _ => m == 0
  | _ => false

/-- The value with its sign turned. -/
def Val.flip : Val → Val
  | .nan s => .nan s
  | .inf s => .inf !s
  | .fin s m e => .fin (!s) m e

/-! ## Flags (R65, R66) -/

def fNV : Nat := 1
def fDZ : Nat := 2
def fOF : Nat := 4
def fUF : Nat := 8
def fNX : Nat := 16

/-- FPCR with flags ORed in (R68). -/
def fpcrOr (f : Word) (flags : Nat) : Word := f ||| word (flags % 32)

/-- A result code with the flags it raised. -/
abbrev FRes := Nat × Nat

/-! ## Formats (R56 to R60) -/

/-- A floating format: mantissa bits, bias, exponent bits. -/
structure FFmt where
  mb   : Nat
  bias : Nat
  eb   : Nat
  /-- E4M3 has no infinity and one NaN code (R56). -/
  ocp  : Bool
  deriving DecidableEq, Repr

def f32 : FFmt := { mb := 23, bias := 127, eb := 8, ocp := false }
def bf16 : FFmt := { mb := 7, bias := 127, eb := 8, ocp := false }
def f16 : FFmt := { mb := 10, bias := 15, eb := 5, ocp := false }
def e4m3 : FFmt := { mb := 3, bias := 7, eb := 4, ocp := true }
def e5m2 : FFmt := { mb := 2, bias := 15, eb := 5, ocp := false }

def FFmt.width (f : FFmt) : Nat := 1 + f.eb + f.mb

/-- The code of the largest finite magnitude (R56). -/
def FFmt.maxCode (f : FFmt) : Nat := if f.ocp then 2 ^ (f.eb + f.mb) - 2 else (2 ^ f.eb - 1) * 2 ^ f.mb - 1

/-- The magnitude code of infinity. -/
def FFmt.infCode (f : FFmt) : Nat := (2 ^ f.eb - 1) * 2 ^ f.mb

/-- The magnitude code of the canonical NaN (R57). -/
def FFmt.nanCode (f : FFmt) : Nat := if f.ocp then 2 ^ (f.eb + f.mb) - 1 else f.infCode + 2 ^ (f.mb - 1)

def FFmt.signed (f : FFmt) (neg : Bool) (mag : Nat) : Nat := (if neg then 2 ^ (f.eb + f.mb) else 0) + mag

/-- CanonNaN (R57). -/
def FFmt.canon (f : FFmt) (neg : Bool) : Nat := f.signed neg f.nanCode

/-- Widen of a floating code (R61). -/
def FFmt.widen (f : FFmt) (x : Nat) (daz : Bool) : Val :=
  let neg := bits x (f.eb + f.mb) 1 == 1
  let e := bits x f.mb f.eb
  let m := bits x 0 f.mb
  if f.ocp && e == 2 ^ f.eb - 1 && m == 2 ^ f.mb - 1 then .nan neg
  else if !f.ocp && e == 2 ^ f.eb - 1 then (if m = 0 then .inf neg else .nan neg)
  else if e = 0 then
    if daz && m != 0 && f.eb + f.mb != 7 then .fin neg 0 0 else .fin neg m (1 - (f.bias : Int) - f.mb)
  else .fin neg (2 ^ f.mb + m) ((e : Int) - f.bias - f.mb)

/-! ## Grid (R63) -/

/-- m × 2^e on the grid 2^q: the integer N or N + 1 that the rounding code chooses (0 RNE, 1 RTZ, 2 RDN, 3 RUP, 4 RNA, 5 SR with `z`), and
whether it is inexact. -/
def grid (neg : Bool) (m : Nat) (e q : Int) (rm z : Nat) : Nat × Bool :=
  if q ≤ e then (m * 2 ^ (e - q).toNat, false)
  else
    let d := 2 ^ (q - e).toNat
    let n := m / d
    let r := m % d
    let up : Bool :=
      match rm with
      | 0 => decide (d < 2 * r) || (decide (2 * r = d) && n % 2 == 1)
      | 1 => false
      | 2 => neg && decide (0 < r)
      | 3 => !neg && decide (0 < r)
      | 4 => decide (d ≤ 2 * r)
      | _ => decide (z * d < r * 2 ^ 32)
    (if up then n + 1 else n, decide (0 < r))

def towardZero (rm : Nat) (neg : Bool) : Bool := rm == 1 || (rm == 2 && !neg) || (rm == 3 && neg)

/-- Floor of the base-2 logarithm of m × 2^e, for m > 0. -/
def expOf (m : Nat) (e : Int) : Int := (Nat.log2 m : Int) + e

/-- Round to a floating format (R62), with its flags. -/
def FFmt.round (f : FFmt) (x : Val) (rm : Nat) (sat : Bool) (z : Nat) : FRes :=
  let ovf (neg : Bool) (fl : Nat) : FRes :=
    if sat || towardZero rm neg then (f.signed neg f.maxCode, fl ||| fOF ||| fNX)
    else if f.ocp then (f.canon neg, fl ||| fOF ||| fNX)
    else (f.signed neg f.infCode, fl ||| fOF ||| fNX)
  match x with
  | .nan s => (f.canon s, 0)
  | .inf s => if f.ocp then ovf s 0 else (f.signed s f.infCode, 0)
  | .fin s m e =>
    if m = 0 then (f.signed s 0, 0)
    else
      let lo : Int := 1 - (f.bias : Int)
      let q := max (expOf m e) lo - f.mb
      let (n, inex) := grid s m e q rm z
      let fl := (if inex then fNX else 0) ||| (if inex && decide (expOf m e < lo) then fUF else 0)
      let code := (q - (lo - f.mb)).toNat * 2 ^ f.mb + n
      if f.maxCode < code then ovf s fl else (f.signed s code, fl)

/-- Round to a two's complement or unsigned integer of `w` bits (R62); the result is its w-bit code. -/
def roundInt (signed : Bool) (w : Nat) (x : Val) (rm z : Nat) : FRes :=
  let hi : Int := if signed then 2 ^ (w - 1) - 1 else 2 ^ w - 1
  let lo : Int := if signed then -(2 ^ (w - 1)) else 0
  match x with
  | .nan _ => (0, fNV)
  | .inf s => if s then (ofInt w lo, fNV) else (ofInt w hi, fNV)
  | .fin s m e =>
    let (n, inex) := grid s m e 0 rm z
    let y : Int := if s then -(n : Int) else n
    if hi < y then (ofInt w hi, fNV) else if y < lo then (ofInt w lo, fNV)
    else (ofInt w y, if inex then fNX else 0)

/-! ## MX blocks (R58, R59, R223, R224) -/

/-- Element width and F of an MX format code: 6 mx8, 7 mx6, 8 mx4. -/
def mxW (fmt : Nat) : Nat := if fmt = 6 then 8 else if fmt = 7 then 6 else 4
def mxF (fmt : Nat) : Nat := if fmt = 6 then 6 else if fmt = 7 then 4 else 2

/-- Widen of an MX element code under its block scale (R58). -/
def mxWiden (fmt code scale : Nat) : Val :=
  if scale = 0xFF then .nan false
  else
    let i := sint (mxW fmt) code
    if i = -(2 ^ (mxW fmt - 1) : Int) ∧ scale = 254 then .inf true
    else .fin (decide (i < 0)) i.natAbs ((scale : Int) - 127 - mxF fmt)

/-- Round to an MX element under scale X (R62): the w-bit code. A NaN is the caller's (R223). -/
def mxRound (fmt scale : Nat) (x : Val) (rm z : Nat) : FRes :=
  let w := mxW fmt
  let top := 2 ^ (w - 1) - 1
  let q : Int := (scale : Int) - 127 - mxF fmt
  let put (s : Bool) (n : Nat) : Nat := ofInt w (if s then -(n : Int) else n)
  match x with
  | .nan _ => (0, 0)
  | .inf s => (put s top, fOF ||| fNX)
  | .fin s m e =>
    let (n, inex) := grid s m e q rm z
    if top < n then (put s top, (if inex then fNX else 0) ||| fOF ||| fNX)
    else (put s n, if inex then fNX else 0)

/-- The scale of a block (R223): the largest finite magnitude decides; 0xFF when any element is NaN. DESIGN CHOICE: X = 0 where every element is
infinite, so that none is finite (log 128). -/
def mxScale (xs : List Val) : Nat :=
  if xs.any Val.isNan then 0xFF
  else
    let es := xs.filterMap fun x =>
      match x with
      | .fin _ m e => if m = 0 then none else some (expOf m e)
      | _ => none
    match es with
    | [] => 0
    | e :: t => (min (max (t.foldl max e + 127) 0) 254).toNat

/-! ## Mix (R64) -/

def mix (seed l ctr : Nat) : Nat :=
  let m32 := 2 ^ 32
  let z0 := (seed + l * 0x9E3779B9 + ctr * 0x85EBCA6B) % m32
  let z1 := (z0 ^^^ (z0 / 2 ^ 16)) * 0x7FEB352D % m32
  let z2 := (z1 ^^^ (z1 / 2 ^ 15)) * 0x846CA68B % m32
  z2 ^^^ (z2 / 2 ^ 16)

/-! ## FP32 steps (R202, R203, R74) -/

/-- The exact sum of two finite values; its sign when it is zero follows R202. -/
def addFin (sn : Bool) (m : Nat) (e : Int) (tn : Bool) (n : Nat) (f : Int) (rm : Nat) : Val :=
  let q := min e f
  let a : Int := (if sn then -1 else 1) * (m * 2 ^ (e - q).toNat : Nat)
  let b : Int := (if tn then -1 else 1) * (n * 2 ^ (f - q).toNat : Nat)
  let r := a + b
  if r = 0 then
    if m = 0 ∧ n = 0 ∧ sn = tn then .fin sn 0 0 else .fin (rm == 2) 0 0
  else .fin (decide (r < 0)) r.natAbs q

/-- The exact sum of two values, a NaN when either is one, `none` for ∞ − ∞. -/
def addVal (x y : Val) (rm : Nat) : Option Val :=
  match x, y with
  | .nan s, _ => some (.nan s)
  | _, .nan t => some (.nan t)
  | .inf s, .inf t => if s = t then some (.inf s) else none
  | .inf s, _ => some (.inf s)
  | _, .inf t => some (.inf t)
  | .fin s m e, .fin t n f => some (addFin s m e t n f rm)

/-- The exact product of two values, a NaN when either is one, `none` for 0 × ∞. -/
def mulVal (x y : Val) : Option Val :=
  match x, y with
  | .fin s m e, .fin t n f => some (.fin (s != t) (m * n) (e + f))
  | .nan s, _ => some (.nan s)
  | _, .nan t => some (.nan t)
  | x, y => if x.isZero || y.isZero then none else some (.inf (x.neg != y.neg))

/-- The sign of the first NaN among operands, if there is one (R57). -/
def firstNan : List Val → Option Bool
  | [] => none
  | .nan s :: _ => some s
  | _ :: t => firstNan t

/-- Flushes a subnormal FP32 result under FTZ (R66, R202). -/
def flush (ftz : Bool) (r : FRes) : FRes :=
  let mag := r.1 % 2 ^ 31
  if ftz && mag != 0 && decide (mag < 2 ^ 23) then (r.1 - mag, r.2 ||| fUF ||| fNX) else r

/-- Rounds an exact FP32 result, or gives the invalid-operation NaN (R202). -/
def finish (ops : List Val) (v : Option Val) (rm : Nat) (ftz : Bool) : FRes :=
  match firstNan ops with
  | some s => (f32.canon s, 0)
  | none =>
    match v with
    | none => (0x7FC00000, fNV)
    | some y => flush ftz (f32.round y rm false 0)

/-- Rounding controls of arithmetic (R66, R67): SR reads as RNE. -/
structure FCtl where
  rm  : Nat
  ftz : Bool
  daz : Bool
  deriving DecidableEq, Repr

def fctl (fpcr : Word) : FCtl :=
  let rm := bits fpcr.toNat 5 3
  { rm := if rm = 5 then 0 else rm, ftz := bits fpcr.toNat 10 1 == 1, daz := bits fpcr.toNat 11 1 == 1 }

/-- RNE without FTZ or DAZ: the controls of the engines and of the procedures (R67, R74). -/
def rne : FCtl := { rm := 0, ftz := false, daz := false }

def fadd (c : FCtl) (a b : Nat) : FRes :=
  let x := f32.widen a c.daz
  let y := f32.widen b c.daz
  finish [x, y] (addVal x y c.rm) c.rm c.ftz

def fsub (c : FCtl) (a b : Nat) : FRes :=
  let x := f32.widen a c.daz
  let y := f32.widen b c.daz
  finish [x, y] (addVal x y.flip c.rm) c.rm c.ftz

def fmul (c : FCtl) (a b : Nat) : FRes :=
  let x := f32.widen a c.daz
  let y := f32.widen b c.daz
  finish [x, y] (mulVal x y) c.rm c.ftz

/-- x × y + z, rounded once (R201). -/
def ffma (c : FCtl) (a b d : Nat) : FRes :=
  let x := f32.widen a c.daz
  let y := f32.widen b c.daz
  let z := f32.widen d c.daz
  finish [x, y, z] ((mulVal x y).bind fun p => addVal p z c.rm) c.rm c.ftz

/-- z − x × y, rounded once (R201). -/
def ffms (c : FCtl) (a b d : Nat) : FRes :=
  let x := f32.widen a c.daz
  let y := f32.widen b c.daz
  let z := f32.widen d c.daz
  finish [x, y, z] ((mulVal x y).bind fun p => addVal z p.flip c.rm) c.rm c.ftz

/-- Order of two values that are not NaN. -/
def Val.lt (x y : Val) : Bool :=
  match x, y with
  | .inf s, .inf t => s && !t
  | .inf s, _ => s
  | _, .inf t => !t
  | .fin s m e, .fin t n f =>
    let q := min e f
    let a : Int := (if s then -1 else 1) * (m * 2 ^ (e - q).toNat : Nat)
    let b : Int := (if t then -1 else 1) * (n * 2 ^ (f - q).toNat : Nat)
    decide (a < b)
  | _, _ => false

/-- Equality of two values that are not NaN; −0 equals +0. -/
def Val.eq (x y : Val) : Bool := !(x.lt y) && !(y.lt x)

/-- The code of an operand as read after DAZ. -/
def dazCode (daz : Bool) (a : Nat) : Nat :=
  let mag := a % 2 ^ 31
  if daz && decide (mag < 2 ^ 23) then a - mag else a

/-- VMIN and VMAX of FP32 (R203); they set no flag. -/
def fminmax (mx : Bool) (daz : Bool) (a b : Nat) : Nat :=
  let x := f32.widen a daz
  let y := f32.widen b daz
  match firstNan [x, y] with
  | some s => f32.canon s
  | none =>
    if x.isZero && y.isZero then
      if mx then (if x.neg && y.neg then 0x80000000 else 0) else (if x.neg || y.neg then 0x80000000 else 0)
    else
      let first := if mx then !(x.lt y) else !(y.lt x)
      if first then dazCode daz a else dazCode daz b

/-! ## Tree (R69) -/

/-- One level of the tree over present and absent items. -/
def treeLevel {α : Type} (op : α → α → α) : List (Option α) → List (Option α)
  | a :: b :: t =>
    (match a, b with
     | some x, some y => some (op x y)
     | some x, none => some x
     | none, y => y) :: treeLevel op t
  | l => l

def treeLevels {α : Type} (op : α → α → α) : Nat → List (Option α) → List (Option α)
  | 0, l => l
  | k + 1, l => treeLevels op k (treeLevel op l)

/-- Tree over items of which some are absent: `none` when all are (R69, R211). The list is padded to 2^k places. -/
def treeOpt {α : Type} (op : α → α → α) (l : List (Option α)) : Option α :=
  let k := Nat.log2 (2 * l.length - 1)
  match treeLevels op k (l ++ List.replicate (2 ^ k - l.length) none) with
  | x :: _ => x
  | [] => none

/-- One step on results that carry flags. -/
def stepF (f : Nat → Nat → FRes) (x y : FRes) : FRes :=
  let r := f x.1 y.1
  (r.1, r.2 ||| x.2 ||| y.2)

/-- Tree(+, …) of FP32 codes under RNE (R69). -/
def treeSum (l : List Nat) : Nat :=
  ((treeOpt (fun a b => (fadd rne a b).1) (l.map some)).getD 0)

/-- Tree(max, …) of FP32 codes. DESIGN CHOICE: of +0 and -0 it takes +0, as VMAX does (R69, R73; log 124). -/
def treeMax (l : List Nat) : Nat := (treeOpt (fminmax true false) (l.map some)).getD 0xFF800000

/-! ## Quotients and roots, rounded once -/

/-- m / n × 2^e as m' × 2^e' with a sticky last bit: it rounds to FP32 as the quotient does. -/
def divSticky (m n : Nat) (e : Int) : Nat × Int :=
  let k := 64 + Nat.log2 n
  let q := m * 2 ^ k / n
  (2 * q + (if m * 2 ^ k % n = 0 then 0 else 1), e - k - 1)

/-- Integer square root by bits from the top: `k` bits. -/
def isqrtFrom : Nat → Nat → Nat → Nat
  | 0, _, r => r
  | k + 1, x, r =>
    let t := r + 2 ^ k
    if t * t ≤ x then isqrtFrom k x t else isqrtFrom k x r

def isqrt (x : Nat) : Nat := isqrtFrom (Nat.log2 x / 2 + 1) x 0

/-- The exact quotient of two FP32 values as a value, for Div and RCP (R74, R78); `none` for 0/0 and ∞/∞. -/
def divVal (x y : Val) : Option Val :=
  match x, y with
  | .nan s, _ => some (.nan s)
  | _, .nan t => some (.nan t)
  | .inf _, .inf _ => none
  | .inf s, .fin t _ _ => some (.inf (s != t))
  | .fin s _ _, .inf t => some (.fin (s != t) 0 0)
  | .fin s m e, .fin t n f =>
    if n = 0 then (if m = 0 then none else some (.inf (s != t)))
    else if m = 0 then some (.fin (s != t) 0 0)
    else let (q, g) := divSticky m n (e - f)
      some (.fin (s != t) q g)

/-- √(m × 2^e) with a sticky last bit. -/
def sqrtSticky (m : Nat) (e : Int) : Nat × Int :=
  let (m, e) := if e % 2 = 0 then (m, e) else (2 * m, e - 1)
  let x := m * 2 ^ 80
  let r := isqrt x
  (2 * r + (if r * r = x then 0 else 1), e / 2 - 41)

/-- 1 / √(m × 2^e) with a sticky last bit. -/
def rsqrtSticky (m : Nat) (e : Int) : Nat × Int :=
  let (m, e) := if e % 2 = 0 then (m, e) else (2 * m, e - 1)
  let k := 80 + Nat.log2 m
  let x := 2 ^ (2 * k) / m
  let r := isqrt x
  (2 * r + (if r * r * m = 2 ^ (2 * k) then 0 else 1), -(e / 2) - k - 1)

/-! ## Special functions (R74 to R79) -/

/-- FMA and friends of the procedures: RNE, subnormals kept. -/
def pF (a b d : Nat) : FRes := ffma rne a b d
def pMul (a b : Nat) : FRes := fmul rne a b
def pAdd (a b : Nat) : FRes := fadd rne a b
def pSub (a b : Nat) : FRes := fsub rne a b

def pDiv (a b : Nat) : FRes :=
  let x := f32.widen a false
  let y := f32.widen b false
  finish [x, y] (divVal x y) 0 false

/-- NX alone of earlier steps counts; OF and UF come from the last step (R74). -/
def nxOf (fl : Nat) : Nat := fl &&& fNX

def cL2E : Nat := 0x3FB8AA3B
def cLN2 : Nat := 0x3F317218
def cLN2HI : Nat := 0x3F317200
def cLN2LO : Nat := 0x35BFBE8E
def cSQ2 : Nat := 0x3FB504F3

/-- The FP32 code nearest num / den (R75). -/
def constF (neg : Bool) (num den : Nat) : Nat :=
  let (q, e) := divSticky num den 0
  (f32.round (.fin neg q e) 0 false 0).1

def ecs : List Nat :=
  [constF false 833333333 100000000000, constF false 416666667 10000000000, constF false 166666667 1000000000,
   0x3F000000, 0x3F800000, 0x3F800000]

def ec6 : Nat := constF false 138888889 100000000000

/-- A Horner chain q ← FMA(q, g, c) over the constants, with its NX. -/
def horner (q0 g : Nat) (cs : List Nat) : FRes :=
  cs.foldl (fun (q : FRes) c =>
    let r := pF q.1 g c
    (r.1, q.2 ||| nxOf r.2)) (q0, 0)

/-- PE(g) (R75). -/
def pPE (g : Nat) : FRes := horner ec6 g ecs

/-- The integer nearest a finite value, ties to even. -/
def nearInt (v : Val) : Int :=
  match v with
  | .fin s m e => let n := (grid s m e 0 0 0).1
    if s then -(n : Int) else n
  | _ => 0

/-- The FP32 code of an integer, rounded RNE. -/
def ofIntF (i : Int) : Nat := (f32.round (.fin (decide (i < 0)) i.natAbs 0) 0 false 0).1

/-- ScaleB(p, n) (R74). -/
def scaleB (p : Nat) (n : Int) : FRes :=
  match f32.widen p false with
  | .fin s m e => f32.round (.fin s m (e + n)) 0 false 0
  | v => f32.round v 0 false 0

def fp32 (x : Nat) : Val := f32.widen x false

def gtF (x y : Nat) : Bool := (fp32 y).lt (fp32 x)

/-- EXP (R76). -/
def fexp (x : Nat) : FRes :=
  match fp32 x with
  | .nan s => (f32.canon s, 0)
  | .inf s => if s then (0, 0) else (0x7F800000, 0)
  | .fin _ _ _ =>
    if gtF x 0x42B20000 then (0x7F800000, fOF ||| fNX)
    else if gtF 0xC2D00000 x then (0, fUF ||| fNX)
    else
      let t := pMul x cL2E
      let n := nearInt (fp32 t.1)
      let mn := ofIntF (-n)
      let g1 := pF mn cLN2HI x
      let g2 := pF mn cLN2LO g1.1
      let p := pPE g2.1
      let r := scaleB p.1 n
      (r.1, r.2 ||| nxOf t.2 ||| nxOf g1.2 ||| nxOf g2.2 ||| p.2)

/-- EXP2 (R76). -/
def fexp2 (x : Nat) : FRes :=
  match fp32 x with
  | .nan s => (f32.canon s, 0)
  | .inf s => if s then (0, 0) else (0x7F800000, 0)
  | .fin _ _ _ =>
    if !(gtF 0x43010000 x) then (0x7F800000, fOF ||| fNX)
    else if gtF 0xC3170000 x then (0, fUF ||| fNX)
    else
      let n := nearInt (fp32 x)
      let f := pSub x (ofIntF n)
      let g := pMul f.1 cLN2
      let p := pPE g.1
      let r := scaleB p.1 n
      (r.1, r.2 ||| nxOf g.2 ||| p.2)

def lcs : List Nat :=
  [constF false 412198583 1000000000, constF false 577078016 1000000000, constF false 961796694 1000000000,
   constF false 288539008 100000000]

def lc9 : Nat := constF false 320598898 1000000000

/-- LOG2 (R77). -/
def flog2 (x : Nat) : FRes :=
  match fp32 x with
  | .nan s => (f32.canon s, 0)
  | .inf s => if s then (0x7FC00000, fNV) else (0x7F800000, 0)
  | .fin s m e =>
    if m = 0 then (0xFF800000, fDZ)
    else if s then (0x7FC00000, fNV)
    else
      let k := Nat.log2 m
      let sig := (f32.round (.fin false m (-(k : Int))) 0 false 0).1
      let ex := (k : Int) + e
      let big := gtF sig cSQ2
      let sig := if big then (scaleB sig (-1)).1 else sig
      let ex := if big then ex + 1 else ex
      let t := pSub sig 0x3F800000
      let d := pAdd sig 0x3F800000
      let q0 := pDiv t.1 d.1
      let w := pMul q0.1 q0.1
      let q := horner lc9 w.1 lcs
      let r := pF q0.1 q.1 (ofIntF ex)
      (r.1, r.2 ||| nxOf d.2 ||| nxOf q0.2 ||| nxOf w.2 ||| q.2)

/-- RCP (R78). -/
def frcp (x : Nat) : FRes :=
  match fp32 x with
  | .nan s => (f32.canon s, 0)
  | .inf s => (f32.signed s 0, 0)
  | .fin s m e =>
    if m = 0 then (f32.signed s f32.infCode, fDZ)
    else let (q, g) := divSticky 1 m (-e)
      f32.round (.fin s q g) 0 false 0

/-- SQRT (R78). -/
def fsqrt (x : Nat) : FRes :=
  match fp32 x with
  | .nan s => (f32.canon s, 0)
  | .inf s => if s then (0x7FC00000, fNV) else (0x7F800000, 0)
  | .fin s m e =>
    if m = 0 then (f32.signed s 0, 0)
    else if s then (0x7FC00000, fNV)
    else let (q, g) := sqrtSticky m e
      f32.round (.fin false q g) 0 false 0

/-- RSQRT (R78). -/
def frsqrt (x : Nat) : FRes :=
  match fp32 x with
  | .nan s => (f32.canon s, 0)
  | .inf s => if s then (0x7FC00000, fNV) else (0, 0)
  | .fin s m e =>
    if m = 0 then (f32.signed s f32.infCode, fDZ)
    else if s then (0x7FC00000, fNV)
    else let (q, g) := rsqrtSticky m e
      f32.round (.fin false q g) 0 false 0

def tcs : List Nat :=
  [constF true 886323552 100000000000, constF false 218694885 10000000000, constF true 539682540 10000000000,
   constF false 133333333 1000000000, constF true 333333333 1000000000]

def tc13 : Nat := constF false 359212803 100000000000

/-- TANH (R79). -/
def ftanh (x : Nat) : FRes :=
  let sign (r : FRes) : FRes := (r.1 % 2 ^ 31 + x / 2 ^ 31 * 2 ^ 31, r.2)
  match fp32 x with
  | .nan s => (f32.canon s, 0)
  | .inf _ => sign (0x3F800000, 0)
  | .fin _ _ _ =>
    let a := x % 2 ^ 31
    if !(gtF 0x41200000 a) then sign (0x3F800000, fNX)
    else if gtF 0x3E800000 a then
      let w := pMul a a
      let q := horner tc13 w.1 tcs
      let v := pMul a w.1
      let y := pF v.1 q.1 a
      sign (y.1, y.2 ||| nxOf w.2 ||| q.2 ||| nxOf v.2)
    else
      let e := fexp (pMul 0xC0000000 a).1
      let n := pSub 0x3F800000 e.1
      let d := pAdd 0x3F800000 e.1
      let y := pDiv n.1 d.1
      sign (y.1, y.2 ||| nxOf e.2 ||| nxOf n.2 ||| nxOf d.2)

end Sys2Proof.Machine
end

