-- ==== Sys2Proof/Machine/Phys.lean ====
section
/-! DEFINITION. The named parts of a state, and device memory as the home slices and base dies see it: tiers, homes, routes,
poison, the effect of a performed write on watches and open sink rows. -/
namespace Sys2Proof.Machine

/-! ## Parts of a state -/

/-- The place of a thread in a core's list, which is also its WSR field and frame number (R303). -/
def rix : Role → Fin 4
  | .L => 0
  | .C => 1
  | .S => 2
  | .T => 3

def roleOf : Fin 4 → Role
  | 0 => .L
  | 1 => .C
  | 2 => .S
  | 3 => .T

def Core.thr (k : Core) (r : Role) : Thread := k.threads[rix r]

def Core.setThr (k : Core) (r : Role) (t : Thread) : Core := { k with threads := k.threads.set (rix r) t }

def State.core (s : State) (c : Fin 64) : Core := s.cores[c]

def State.setCore (s : State) (c : Fin 64) (k : Core) : State := { s with cores := s.cores.set c k }

def State.upCore (s : State) (c : Fin 64) (f : Core → Core) : State := s.setCore c (f (s.core c))

def State.thr (s : State) (c : Fin 64) (r : Role) : Thread := (s.core c).thr r

def State.setThr (s : State) (c : Fin 64) (r : Role) (t : Thread) : State := s.setCore c ((s.core c).setThr r t)

def State.upThr (s : State) (c : Fin 64) (r : Role) (f : Thread → Thread) : State := s.setThr c r (f (s.thr c r))

def State.die (s : State) (d : Fin 4) : Die := s.dies[d]

def State.setDie (s : State) (d : Fin 4) (x : Die) : State := { s with dies := s.dies.set d x }

def State.bd (s : State) (b : Fin 8) : BaseDie := s.bds[b]

def State.setBd (s : State) (b : Fin 8) (x : BaseDie) : State := { s with bds := s.bds.set b x }

/-- The die a core lies on (R102 CORELOC). -/
def dieOf (c : Fin 64) : Fin 4 := Fin.ofNat 4 (c.val / 16)

/-- A fresh operation number. -/
def State.fresh (s : State) : Nat × State := (s.nextOp, { s with nextOp := s.nextOp + 1 })

/-- A fresh free value: the spec leaves the value open (guide: a free value). -/
def State.freeVal (s : State) : Word × State := (Config.freeWord s.free, { s with free := s.free + 1 })

/-- The TASKID's task, if it is live. -/
def State.task (s : State) (id : Nat) : Option Task := s.tasks.find? (·.id == id)

def State.upTask (s : State) (id : Nat) (f : Task → Task) : State :=
  { s with tasks := s.tasks.map fun t => if t.id = id then f t else t }

/-! ## Tiers, homes, routes (R10, R12, R16, R17, R162) -/

def t1Base : Nat := 0x10000000000
def t2Base : Nat := 0x80000000000

/-- The tier code of a physical address, 3 where no tier lies (R162). -/
def tierOf (pa : Nat) : Nat :=
  if pa < 0x8000000000 then 0
  else if t1Base ≤ pa ∧ pa < 0x14000000000 then 1
  else if t2Base ≤ pa ∧ pa < 0x100000000000 then 2
  else 3

/-- The HBM4E stack of a T0 address (R162). -/
def stackOf (pa : Nat) : Fin 8 := Fin.ofNat 8 (pa / 0x1000000000)

def State.chipUp (s : State) (i : Fin 18) : Bool := s.chips[i] == .admitted

/-- A compute die with its vault die is admitted (R421). -/
def State.cdUp (s : State) (d : Fin 4) : Bool :=
  s.chipUp (Fin.ofNat 18 d.val) && s.chipUp (Fin.ofNat 18 (4 + d.val))

def State.bdUp (s : State) (b : Fin 8) : Bool := s.chipUp (Fin.ofNat 18 (10 + b.val))

/-- Whether a route of R10 or R12 joins two compute dies. -/
def State.routeUp (s : State) (a b : Fin 4) : Bool :=
  if b = a + 2 then s.cdUp (a + 1) || s.cdUp (a + 3) else true

/-- The die whose L2 homes a line (R17, R423). -/
def State.homeDie (s : State) (pa : Nat) : Fin 4 :=
  if tierOf pa = 0 then Fin.ofNat 4 ((stackOf pa).val / 2)
  else
    let d : Fin 4 := Fin.ofNat 4 (Config.homeSlice (pa / 64) % 768 / 192)
    if s.cdUp d then d else d + 1

/-- Whether a line in T2 is a host line that is out of reach because the host link is down (R437). -/
def State.hostCut (s : State) (pa : Nat) : Bool := (tierOf pa == 2) && Config.hostLine (pa / 64) && !s.hostup

/-- An LPDDR6 or T2 line that IOD1 carries, IOD0 the others: T1 by channel; T2 by the mode of IOD1's port, a pool's lines when it is the pool
port, host lines by hash when it is a second upstream link (R8, R436; log 121). -/
def State.onIod1 (s : State) (pa : Nat) : Bool :=
  if tierOf pa = 1 then Config.onIod1 (pa / 64)
  else if tierOf pa = 2 then
    match s.iod1 with
    | some .pool => !(Config.hostLine (pa / 64))
    | some .host => Config.hostLine (pa / 64) && Config.hostHash (pa / 64)
    | none => false
  else false

/-- The DIEX detail of an access from die `a`, if its home die, base die, I/O die or route is lost (R127, R423, R437). -/
def State.lost (s : State) (a : Fin 4) (pa : Nat) : Option Nat :=
  if s.hostCut pa then some 0x50
  else if !(s.cdUp (s.homeDie pa)) || !(s.routeUp a (s.homeDie pa)) then some 0
  else if (tierOf pa == 0) && !(s.bdUp (stackOf pa)) then some 0
  else if s.onIod1 pa && !(s.chipUp 9) then some 0
  else none

/-! ## Link directions (R9 to R12, R426) -/

/-- The link direction from a die to the next one of the ring, and to the one before: links 0 to 3 join CDn and CDn+1. -/
def ringDir (a : Fin 4) (up : Bool) : Fin 40 := Fin.ofNat 40 (if up then 2 * a.val else 2 * (a + 3).val + 1)

/-- The link directions from die a to die b, the usual way round or the other (R10, R12). -/
def ringPath (a b : Fin 4) (alt : Bool) : List (Fin 40) :=
  if b = a then []
  else if b = a + 1 then [ringDir a true]
  else if b = a + 3 then [ringDir a false]
  else if alt then [ringDir a false, ringDir (a + 3) false]
  else [ringDir a true, ringDir (a + 1) true]

/-- The channel from core c to die b (R11). -/
def State.channel (s : State) (c : Fin 64) (b : Fin 4) : ChannelSt := s.chan[Fin.ofNat 256 (4 * c.val + b.val)]

/-- The channel from core c to die b holds its traffic back: a switch of its route drains, or a sender has stopped (R12, R15,
R426). -/
def State.pathHeld (s : State) (c : Fin 64) (b : Fin 4) : Bool :=
  (s.channel c b).drain || (ringPath (dieOf c) b (s.channel c b).alt).any fun l => s.links[l].stop

/-- A link direction that die b's answers to core c take has stopped. They take their own side of the ring, the other way round only while
the usual way is closed (R10, R12). -/
def State.backHeld (s : State) (c : Fin 64) (b : Fin 4) : Bool :=
  (ringPath b (dieOf c) (dieOf c == b + 2 && !(s.cdUp (b + 1)))).any fun l => s.links[l].stop

/-- The link between a home die and the memory behind it: 4 to 11 join CDn and an I/O die, 12 to 19 a CD and a base die. -/
def State.memLink (s : State) (pa : Nat) : Nat :=
  if tierOf pa = 0 then 12 + (stackOf pa).val else 4 + 2 * (s.homeDie pa).val + (if s.onIod1 pa then 1 else 0)

/-- A link between a home die and the memory behind it has a stopped direction (R426). -/
def State.memHeld (s : State) (pa : Nat) : Bool :=
  let l := 2 * s.memLink pa
  s.links[Fin.ofNat 40 l].stop || s.links[Fin.ofNat 40 (l + 1)].stop

/-- An access from core c to device memory is held back on its way, or its answer is. -/
def State.tripHeld (s : State) (c : Fin 64) (pa : Nat) : Bool :=
  s.pathHeld c (s.homeDie pa) || s.backHeld c (s.homeDie pa) || s.memHeld pa

/-! ## Poison (R129, R429) -/

/-- T1 lines are poisoned until written after a reset; others start clean (R429). -/
def poisonDefault (l : Nat) : Bool := tierOf (64 * l) == 1

def State.poisoned (s : State) (l : Nat) : Bool := poisonDefault l != s.pflip.contains l

def State.setPoison (s : State) (l : Nat) (b : Bool) : State :=
  { s with pflip := if b = poisonDefault l then eraseNat l s.pflip else insertNat l s.pflip }

def State.anyPoison (s : State) (pa n : Nat) : Bool := (linesOf pa n).any s.poisoned

def Core.anyPoison (k : Core) (o n : Nat) : Bool := (linesOf o n).any k.ppoison.contains

/-- Poison of pool lines after a write of n bytes: a line covered whole is clean, or poisoned when the data is (R129, R250). -/
def Core.markPool (k : Core) (o n : Nat) (bad : Bool) : Core :=
  if bad then { k with ppoison := (linesOf o n).foldl (fun l x => insertNat x l) k.ppoison }
  else { k with ppoison := k.ppoison.filter fun x => !((wholeLines o n).contains x) }

/-! ## Performed reads and writes at the home -/

def State.phys (s : State) (pa n : Nat) : List Byte := s.mem.read pa n

def State.physNat (s : State) (pa n : Nat) : Nat := leNat (s.phys pa n)

/-- A write wakes the watches of its lines (R22, R126). -/
def State.fire (s : State) (pa n : Nat) : State :=
  { s with watches := s.watches.map fun w =>
      if (w.fired == none) && (linesOf pa n).contains w.line then { w with fired := some 0 } else w }

/-- The place in a row of the physical address `pa`, if a piece holds it. -/
def segPlace (pa : Nat) : List (Nat × Nat) → Nat → Option Nat
  | [], _ => none
  | (b, n) :: t, o => if b ≤ pa ∧ pa < b + n then some (o + pa - b) else segPlace pa t (o + n)

/-- The lines of an open row, among `lines`, that a write of the bytes `has` covers, all their row bytes at once (R363). -/
def Row.land (r : Row) (lines : List Nat) (has : Nat → Bool) : Row :=
  let new := lines.filterMap fun l =>
    match segPlace (64 * l) r.segs 0 with
    | none => none
    | some o => if (List.range (min 64 (4 * r.v - o))).all fun j => has (64 * l + j) then some (o / 64) else none
  { r with landed := new.foldl (fun acc l => insertNat l acc) r.landed }

/-- One write, of the bytes `has` in some lines, lands in the open rows of the stack of `pa` (R363). -/
def State.landWrite (s : State) (pa : Nat) (lines : List Nat) (has : Nat → Bool) : State :=
  if tierOf pa = 0 then
    s.setBd (stackOf pa)
      { rows := (s.bd (stackOf pa)).rows.map fun x => { x with row := x.row.map fun r => r.land lines has } }
  else s

/-- A write of n bytes at `pa` lands in the open rows of its stack (R363). -/
def State.landRows (s : State) (pa n : Nat) : State :=
  s.landWrite pa (linesOf pa n) fun a => decide (pa ≤ a) && decide (a < pa + n)

/-- Poison of memory lines after a write: a line covered whole is clean, or poisoned when the data is (R129). -/
def State.markMem (s : State) (pa n : Nat) (bad : Bool) : State :=
  if bad then (linesOf pa n).foldl (fun s l => s.setPoison l true) s
  else (wholeLines pa n).foldl (fun s l => s.setPoison l false) s

/-- L2 ownership after a cached write; a base-die write leaves none (R113, R424). -/
def State.ownLines (s : State) (pa n : Nat) (ms : Bool) : State :=
  { s with l2own :=
      if ms then s.l2own.filter fun l => !((linesOf pa n).contains l)
      else (linesOf pa n).foldl (fun acc l => insertNat l acc) s.l2own }

/-- The base die serves a memory-side request of n bytes: the home slice writes back and drops its copy first (R113). -/
def State.msServe (s : State) (pa n : Nat) (ms : Bool) : State := if ms then s.ownLines pa n true else s

/-- A write performed at its home slice or base die (R132, R137). `ms`: through a memory-side or sink page. -/
def State.physWrite (s : State) (pa : Nat) (bs : List Byte) (ms : Bool) : State :=
  ((({ s with mem := s.mem.write pa bs }.markMem pa bs.length false).ownLines pa bs.length ms).fire pa
    bs.length).landRows pa bs.length

/-- A write of single bytes at rising or scattered places within a line. -/
def State.physCells (s : State) (l : List (Nat × Byte)) (ms : Bool) : State :=
  match l with
  | [] => s
  | (a, _) :: _ =>
    let ln := a / 64
    let whole := (List.range 64).all fun i => l.any fun e => e.1 == 64 * ln + i
    let s := { s with mem := s.mem.writeCells l }
    let s := if whole then s.setPoison ln false else s
    let s := s.ownLines a 1 ms
    let s := s.fire a 1
    s.landWrite a [ln] fun b => l.any fun e => e.1 == b

/-- A base-die or home-slice atomic change of n bytes by the hardware itself (R21, R169, R338, R378). -/
def State.hwWrite (s : State) (pa n v : Nat) : State := s.physWrite pa (leBytes n v) true

end Sys2Proof.Machine
end

