-- ==== Sys2Proof/Machine/Walk.lean ====
section
/-! DEFINITION. The five-level walk, its checks in the order of R166, the permission checks of an access, TLBs, and reads and
writes that the hardware makes itself through an address space. -/
namespace Sys2Proof.Machine

/-- Cause codes (R398). -/
def cILL : Nat := 0x01
def cPRIV : Nat := 0x02
def cALIGN : Nat := 0x03
def cPAGE : Nat := 0x04
def cTIER : Nat := 0x05
def cCOWX : Nat := 0x06
def cTYPE : Nat := 0x07
def cSCHED : Nat := 0x08
def cCHAN : Nat := 0x09
def cBTGT : Nat := 0x0A
def cPOISON : Nat := 0x0B
def cDIEX : Nat := 0x0C
def cWATCH : Nat := 0x0D
def cBRK : Nat := 0x0E
def cSYS : Nat := 0x0F
def cSAFE : Nat := 0x10
def cENG : Nat := 0x11
def cFWH : Nat := 0x12
def cGRAM : Nat := 0x13
def cOVRN : Nat := 0x14

/-- An address of the pool-window range (R106). -/
def inWindow (va : Nat) : Bool := decide (0x00F0000000000000 ≤ va) && decide (va < 0x0100000000000000)

/-! ## Leaf fields (R164) -/

def leafP (e : Nat) : Bool := bits e 0 1 == 1
def leafLeaf (e : Nat) : Bool := bits e 1 1 == 1
def leafRd (e : Nat) : Bool := bits e 2 1 == 1
def leafWr (e : Nat) : Bool := bits e 3 1 == 1
def leafEx (e : Nat) : Bool := bits e 4 1 == 1
def leafTier (e : Nat) : Nat := bits e 5 2
def leafMs (e : Nat) : Bool := bits e 7 1 == 1
def leafCow (e : Nat) : Bool := bits e 8 1 == 1
def leafSk (e : Nat) : Bool := bits e 9 1 == 1
def leafFmt (e : Nat) : Nat := bits e 10 4
def leafSize (e : Nat) : Nat := bits e 14 4
def leafBusy (e : Nat) : Bool := bits e 18 1 == 1
def leafPin (e : Nat) : Bool := bits e 19 1 == 1
def leafFrame (e : Nat) : Nat := bits e 20 40

/-- 4 KiB frames of a page by size code (R165). -/
def sizeFrames : Nat → Nat
  | 0 => 1
  | 1 => 4
  | 2 => 16
  | 3 => 64
  | 4 => 256
  | 5 => 512
  | 6 => 1024
  | 7 => 4096
  | 8 => 16384
  | 9 => 65536
  | 10 => 262144
  | _ => 1048576

/-- The level whose entries hold a size code (R165). -/
def sizeLevel (z : Nat) : Nat := if z ≤ 4 then 0 else if z ≤ 9 then 1 else 2

/-- The index of an address at a level (R160). -/
def walkIndex (l va : Nat) : Nat := bits va (12 + 9 * l) (if l = 4 then 8 else 9)

/-- A node frame lies in T0 or T1 (R162). -/
def nodeTierOk (pa : Nat) : Bool := tierOf pa ≤ 1

/-- The check of a leaf's size, frame, format, tier and attributes (R166 order 4). -/
def leafCheck (l e : Nat) : Option Nat :=
  if 12 ≤ leafSize e ∨ sizeLevel (leafSize e) ≠ l ∨ 3 ≤ l then some 0x07
  else if leafFrame e % sizeFrames (leafSize e) ≠ 0 ∧ leafTier e ≠ 3 then some 0x07
  else if 11 ≤ leafFmt e then some 0x06
  else if leafTier e ≠ 3 ∧ (tierOf (leafFrame e * 4096) ≠ leafTier e) then some 0x08
  else if (leafMs e ∨ leafSk e) ∧ leafTier e ≠ 0 then some 0x09
  else if leafMs e ∧ (leafSk e ∨ leafCow e) then some 0x09
  else if leafCow e ∧ 2 < leafSize e then some 0x0A
  else none

/-- The place of a walk-cache entry: the level and the address bits that reach it. -/
def walkKey (l va : Nat) : Nat := va / 2 ^ (12 + 9 * l)

/-- A table entry that the die's walk cache holds (R176). -/
def State.cached (s : State) (die : Fin 4) (asid l va : Nat) : Option Nat :=
  ((s.die die).wcache.find? fun x => x.1 == asid && x.2.1 == l && x.2.2.1 == walkKey l va).map (·.2.2.2.toNat)

/-- Reads one 8-byte entry at its home slice (R178): DIEX or POISON of the node, else the entry. -/
def State.node (s : State) (die : Fin 4) (pa : Nat) : Except (Nat × Nat) Nat :=
  match s.lost die pa with
  | some d => .error (cDIEX, d)
  | none => if s.poisoned (pa / 64) then .error (cPOISON, 0) else .ok (s.physNat pa 8)

/-- The walk from the node at `frame`, one level after another; an entry's node is checked with the entry (R160, R163, R166). -/
def State.walkFrom (s : State) (die : Fin 4) (asid va : Nat) : Nat → List Nat → WalkRes
  | _, [] => .stop 0 cPAGE 0x07
  | frame, l :: ls =>
    let pa := frame * 4096 + 8 * walkIndex l va
    match (match s.cached die asid l va with
      | some e => Except.ok e
      | none => s.node die pa) with
    | .error (c, d) => .stop l c d
    | .ok e =>
      if !(leafP e) then .stop l cPAGE 0x01
      else if bits e 60 4 ≠ 0 then .stop l cPAGE 0x05
      else if leafLeaf e then
        if 3 ≤ l then .stop l cPAGE 0x07
        else match leafCheck l e with
          | some d => .stop l cPAGE d
          | none => .leaf pa e
      else if bits e 2 18 ≠ 0 then .stop l cPAGE 0x05
      else if l = 0 then .stop l cPAGE 0x07
      else if !(nodeTierOk (bits e 20 40 * 4096)) then .stop l cPAGE 0x08
      else s.walkFrom die asid va (bits e 20 40) ls

/-- The walk of `va` in address space `asid` (R160, R161). Level 7 names the address space table (R185); DESIGN CHOICE: PAGE 0x08 of the tier of
the root node, or of the table itself, has it too (log 141). -/
def State.walk (s : State) (die : Fin 4) (asid va : Nat) : WalkRes :=
  if va / 2 ^ 56 ≠ 0 then .stop 7 cPAGE 0x0B
  else
    let pa := bits s.sys[0].toNat 12 40 * 4096 + 8 * asid
    if !(nodeTierOk pa) then .stop 7 cPAGE 0x08
    else match s.node die pa with
      | .error (c, d) => .stop 7 c d
      | .ok e =>
        if bits e 0 1 = 0 then .stop 7 cPAGE 0x0C
        else if bits e 60 4 ≠ 0 ∨ bits e 1 19 ≠ 0 then .stop 7 cPAGE 0x05
        else if !(nodeTierOk (bits e 20 40 * 4096)) then .stop 7 cPAGE 0x08
        else s.walkFrom die asid va (bits e 20 40) [4, 3, 2, 1, 0]

/-- The addresses of the nodes' entries that a walk reads past the walk cache, from the node at `frame` (R178). -/
def State.walkReads (s : State) (die : Fin 4) (asid va : Nat) : Nat → List Nat → List Nat
  | _, [] => []
  | frame, l :: ls =>
    match s.cached die asid l va with
    | some e => s.walkReads die asid va (bits e 20 40) ls
    | none =>
      let pa := frame * 4096 + 8 * walkIndex l va
      let e := s.physNat pa 8
      pa :: (if leafP e && !(leafLeaf e) then s.walkReads die asid va (bits e 20 40) ls else [])

/-- A walk from core c is held back by a stopped link direction or a draining channel on its way (R12, R426). -/
def State.walkHeld (s : State) (c : Fin 64) (asid va : Nat) : Bool :=
  let pa := bits s.sys[0].toNat 12 40 * 4096 + 8 * asid
  (pa :: s.walkReads (dieOf c) asid va (bits (s.physNat pa 8) 20 40) [4, 3, 2, 1, 0]).any (s.tripHeld c)

/-- The table entries of levels 4 to 1 on the way to a leaf at level `last`, as the walk cache keeps them (R176, R178). -/
def State.walkPath (s : State) (die : Fin 4) (asid va last : Nat) : Nat → List Nat → List (Nat × Nat × Nat × Word)
  | _, [] => []
  | frame, l :: ls =>
    if l ≤ last then []
    else
      match (match s.cached die asid l va with
        | some e => Except.ok e
        | none => s.node die (frame * 4096 + 8 * walkIndex l va)) with
      | .error _ => []
      | .ok e => (asid, l, walkKey l va, word e) :: s.walkPath die asid va last (bits e 20 40) ls

/-- The die's walk cache of 2,048 entries after a walk that reached a leaf (R176). -/
def State.fillWalk (s : State) (die : Fin 4) (asid va e : Nat) : State :=
  let root := s.physNat (bits s.sys[0].toNat 12 40 * 4096 + 8 * asid) 8
  let new := (s.walkPath die asid va (sizeLevel (leafSize e)) (bits root 20 40) [4, 3, 2, 1]).filter fun x =>
    (s.cached die asid x.2.1 va).isNone
  s.setDie die { s.die die with wcache := (new ++ (s.die die).wcache).take 2048 }

/-- The physical address of `va` under a leaf (R165). -/
def leafAddr (e va : Nat) : Nat := leafFrame e * 4096 + va % (sizeFrames (leafSize e) * 4096)

/-! ## Accesses -/

/-- What an access does (R167) and the KIND its frame shows (R395). -/
inductive Acc where
  | read
  /-- A WAITA's arming read, which never uses the L1 and meets no poison unless it compares (R110, R129). -/
  | watch
  | write
  | atomic
  | fetch
  deriving DecidableEq, Repr

def Acc.kind : Acc → Nat
  | .read => 1
  | .watch => 1
  | .write => 2
  | .atomic => 3
  | .fetch => 4

def Acc.writes : Acc → Bool
  | .write => true
  | .atomic => true
  | _ => false

/-- Permission, tier and typed-page checks of an access under a leaf (R166 orders 5 to 7). `typed`: the path may reach a
typed page (R168). -/
def leafAccess (a : Acc) (typed : Bool) (e : Nat) : Option (Nat × Nat) :=
  if (a = .fetch) ∧ !(leafEx e) then some (cPAGE, 0x04)
  else if (a = .read ∨ a = .watch ∨ a = .atomic) ∧ !(leafRd e) then some (cPAGE, 0x02)
  else if (a = .write ∨ a = .atomic) ∧ !(leafWr e) then some (cPAGE, 0x03)
  else if leafTier e = 3 then some (cTIER, 0)
  else if !typed ∧ leafFmt e ≠ 0 then some (cTYPE, leafFmt e)
  else none

/-- A TLB entry of a leaf (R176): the page it maps. -/
def tlbEnt (asid va e : Nat) : TlbEnt :=
  let n := sizeFrames (leafSize e)
  { asid := asid, vpage := va / 4096 / n * n, pages := n, leaf := word e }

def TlbEnt.hits (t : TlbEnt) (asid va : Nat) : Bool :=
  t.asid == asid && decide (t.vpage ≤ va / 4096) && decide (va / 4096 < t.vpage + t.pages)

/-- The leaf a core's TLBs hold for an address: port TLB first, then the core TLB (R176, R179). -/
def Core.tlb (k : Core) (port : Fin 6) (asid va : Nat) : Option Nat :=
  match k.ptlb[port].find? (·.hits asid va) with
  | some t => some t.leaf.toNat
  | none => (k.ctlb.find? (·.hits asid va)).map (·.leaf.toNat)

/-- The core TLB's set of an entry, of 512 sets of 8 ways (R176). -/
def TlbEnt.set (t : TlbEnt) : Nat := Config.tlbSet t.asid t.vpage % 512

/-- A walk's leaf enters the core TLB, whose set keeps its 8 newest entries (R176); a cold page never does (R178). -/
def Core.fillTlb (k : Core) (asid va e : Nat) : Core :=
  let t := tlbEnt asid va e
  if leafTier e = 3 then k
  else { k with ctlb := t :: (k.ctlb.filter (·.set == t.set)).take 7 ++ k.ctlb.filter (·.set != t.set) }

/-- A leaf that a port used enters its TLB of 64 entries (R176). -/
def Core.fillPort (k : Core) (port : Fin 6) (asid va e : Nat) : Core :=
  if leafTier e = 3 ∨ k.ptlb[port].any (·.hits asid va) then k
  else { k with ptlb := k.ptlb.set port ((tlbEnt asid va e :: k.ptlb[port]).take 64) }

/-- Whether TLB.INV of a kind drops an entry (R183). -/
def invDrops (kind addr asid count : Nat) (t : TlbEnt) : Bool :=
  match kind with
  | 0 => t.hits asid addr
  | 1 => t.asid == asid && decide (0 < count) && overlap (t.vpage * 4096) (t.pages * 4096) addr (4096 * count)
  | 2 => t.asid == asid
  | _ => true

/-- A walk's result that a thread has not used yet goes with the entries that TLB.INV drops: the word walks again. -/
def Thread.dropWalk (t : Thread) (own kind addr asid count : Nat) : Thread :=
  match t.xwalk with
  | none => t
  | some (p, r, _) =>
    let n := match r with
      | .leaf _ e => tlbEnt own (4096 * p) e
      | .stop _ _ _ => { asid := own, vpage := p, pages := 1, leaf := 0 }
    if invDrops kind addr asid count n then { t with xwalk := none } else t

/-- The drop of one core's TLBs, and of what its threads have walked and not used. -/
def Core.dropTlb (k : Core) (kind addr asid count : Nat) : Core :=
  { k with ptlb := k.ptlb.map fun l => l.filter fun t => !(invDrops kind addr asid count t),
           ctlb := k.ctlb.filter fun t => !(invDrops kind addr asid count t),
           threads := k.threads.map fun t => t.dropWalk k.view.asid kind addr asid count }

/-- The walk-cache entries that a TLB.INV drops (R183). -/
def Die.dropWalk (d : Die) (kind addr asid count : Nat) : Die :=
  { d with wcache := d.wcache.filter fun x =>
      let span := 2 ^ (12 + 9 * x.2.1)
      !(match kind with
        | 0 => x.1 == asid && x.2.2.1 == addr / span
        | 1 => x.1 == asid && decide (0 < count) && overlap (x.2.2.1 * span) span addr (4096 * count)
        | 2 => x.1 == asid
        | _ => true) }

/-! ## Leaves as the hardware changes them -/

/-- The entries of a page's run (R165). -/
def runLen (z : Nat) : Nat := sizeFrames z / 512 ^ sizeLevel z

/-- Writes a leaf value to every entry of its run; `pa` is the entry that the walk read. -/
def State.writeLeaf (s : State) (pa old new : Nat) : State :=
  let n := runLen (leafSize old)
  let first := pa / 8 / n * n * 8
  (List.range n).foldl (fun s i => s.hwWrite (first + 8 * i) 8 new) s

def leafSetBusy (e : Nat) (b : Bool) : Nat := setBits e 18 1 (if b then 1 else 0)

/-- BUSY of the leaf whose entry lies at `pa` clears, whatever a walk to it finds now (R171, R175). -/
def State.unbusy (s : State) (pa : Nat) : State :=
  let e := s.physNat pa 8
  if leafP e && leafLeaf e && leafBusy e then s.writeLeaf pa e (leafSetBusy e false) else s

/-- Entry i of the node in frame f. -/
def State.nodeEnt (s : State) (f i : Nat) : Nat := s.physNat (4096 * f + 8 * i) 8

/-- The entry names a table node below level l. -/
def isTable (l e : Nat) : Bool := leafP e && !(leafLeaf e) && l != 0

/-- The frames of the nodes of a subtree whose root lies in frame f at level l, the root first. -/
def State.treeNodes (s : State) : Nat → Nat → List Nat
  | 0, f => [f]
  | l + 1, f => f :: (List.range 512).flatMap fun i =>
      let e := s.nodeEnt f i
      if isTable (l + 1) e then s.treeNodes l (leafFrame e) else []

/-- The leaves of a node, one for each page: the entry's index and value. -/
def State.nodeLeaves (s : State) (f : Nat) : List (Nat × Nat) :=
  (List.range 512).filterMap fun i =>
    let e := s.nodeEnt f i
    if leafP e && leafLeaf e && i % runLen (leafSize e) == 0 then some (i, e) else none

/-- The leaves of a subtree, each with the address of its entry. -/
def State.treeLeaves (s : State) (level f : Nat) : List (Nat × Nat) :=
  (s.treeNodes level f).flatMap fun f => (s.nodeLeaves f).map fun x => (4096 * f + 8 * x.1, x.2)

/-- BUSY of every leaf of a subtree, as the fork walker sets and clears it (R172). -/
def State.treeBusy (s : State) (level f : Nat) (b : Bool) : State :=
  ((s.treeLeaves level f).filter fun x => leafBusy x.2 != b).foldl
    (fun (s : State) x => s.writeLeaf x.1 x.2 (leafSetBusy x.2 b)) s

/-- A leaf of one of these frames leaves the TLBs of an address space, and the walks of threads that have not used it. -/
def Core.dropFrames (k : Core) (asid : Nat) (l : List Nat) : Core :=
  let keep := fun (t : TlbEnt) => !(t.asid == asid && l.contains (leafFrame t.leaf.toNat))
  { k with ptlb := k.ptlb.map fun p => p.filter keep, ctlb := k.ctlb.filter keep,
           threads := k.threads.map fun t => match t.xwalk with
             | some (_, .leaf _ e, _) =>
               if k.view.asid = asid ∧ l.contains (leafFrame e) = true then { t with xwalk := none } else t
             | _ => t }

/-- The hardware's own invalidation of a leaf at .pk (R171, R173, R180). -/
def State.dropLeaf (s : State) (asid va : Nat) : State :=
  { s with cores := s.cores.map fun k => k.dropTlb 0 va asid 0 }

/-! ## Accesses by the hardware and the engines -/

/-- The page of `va` is in walk: a miss joins that walk (R177). -/
def Core.inWalk (k : Core) (asid va : Nat) : Bool := k.walks.any fun w => w.asid == asid && w.vpage == va / 4096

/-- A miss of issuer i finds no entry of the miss table: its page is in no walk, and the table is full or another issuer has waited longer
(R177). An engine's or a fetch's own walk begins and ends in one event (log 119). -/
def Core.missFull (k : Core) (i : Issuer) (asid va : Nat) : Bool :=
  !(k.inWalk asid va) && (decide (128 ≤ k.walks.length) || !(k.walkwait.isEmpty || k.walkwait.head? == some i))

/-- Issuer i joins those that wait for an entry of the miss table. -/
def Core.awaitWalk (k : Core) (i : Issuer) : Core :=
  { k with walkwait := if k.walkwait.contains i then k.walkwait else k.walkwait ++ [i] }

/-- Issuer i waits for no entry of the miss table any more. -/
def Core.unwaitWalk (k : Core) (i : Issuer) : Core := { k with walkwait := k.walkwait.filter (· ≠ i) }

/-- The engine that walks for a port: T's own, the copy engine's, the column-store fills', the sequence engines' (R176). -/
def portIssuer (port : Fin 6) : Issuer :=
  if port = 3 then .copy else if port = 4 then .fill else if port = 5 then .seq else .thr .T

/-- The leaf for an engine's access: what its TLB holds, else a walk (R176, R178, R180). -/
def State.engLeaf (s : State) (c : Fin 64) (port : Fin 6) (asid va : Nat) : Except (Nat × Nat) Nat :=
  match (s.core c).tlb port asid va with
  | some e => .ok e
  | none =>
    match s.walk (dieOf c) asid va with
    | .leaf _ e => .ok e
    | .stop _ ca d => .error (ca, d)

/-- Translation of one hardware access that lies within a page (R160, R166); from die `die`, without a TLB. A BUSY leaf still names the bytes
that the access would find after its wait; a write to a shared page finds no frame, for no region's list is the hardware's (R171; log 107). -/
def State.hwAddr (s : State) (die : Fin 4) (asid va : Nat) (a : Acc) (typed : Bool) : Except (Nat × Nat) Nat :=
  if inWindow va then .error (cPAGE, 0x40)
  else match s.walk die asid va with
  | .stop _ c d => .error (c, d)
  | .leaf _ e =>
    match leafAccess a typed e with
    | some x => .error x
    | none =>
      if a.writes && leafCow e then .error (cCOWX, leafSize e)
      else match s.lost die (leafAddr e va) with
      | some d => .error (cDIEX, d)
      | none => .ok (leafAddr e va)

/-- The pieces of n bytes at `va` that lie in one 4 KiB page each: address and length. -/
def pagePieces : Nat → Nat → Nat → List (Nat × Nat)
  | 0, _, _ => []
  | f + 1, va, n =>
    if n = 0 then [] else
      let k := min n (4096 - va % 4096)
      (va, k) :: pagePieces f (va + k) (n - k)

/-- Reads n bytes at a virtual address as the hardware does for itself: fault, or the bytes (R404, R385). -/
def State.hwRead (s : State) (die : Fin 4) (asid va n : Nat) : Except (Nat × Nat) (List Byte) :=
  (pagePieces (n / 4096 + 2) va n).foldl (fun acc p =>
    match acc with
    | .error e => .error e
    | .ok bs =>
      match s.hwAddr die asid p.1 .read false with
      | .error e => .error e
      | .ok pa => if s.anyPoison pa p.2 then .error (cPOISON, 0) else .ok (bs ++ s.phys pa p.2)) (.ok [])

/-- Writes bytes at a virtual address as the hardware does for itself; nothing is written when a page faults. -/
def State.hwStore (s : State) (die : Fin 4) (asid va : Nat) (bs : List Byte) : Except (Nat × Nat) State :=
  let ps := pagePieces (bs.length / 4096 + 2) va bs.length
  match ps.foldl (fun (acc : Except (Nat × Nat) (List (Nat × Nat))) p =>
      match acc with
      | .error e => .error e
      | .ok l =>
        match s.hwAddr die asid p.1 .write false with
        | .error e => .error e
        | .ok pa => .ok (l ++ [(pa, p.2)])) (.ok []) with
  | .error e => .error e
  | .ok l =>
    .ok (l.foldl (fun (acc : State × List Byte) p => (acc.1.physWrite p.1 (acc.2.take p.2) true, acc.2.drop p.2))
      (s, bs)).1

end Sys2Proof.Machine
end

