-- ==== Sys2Proof/Machine/Region.lean ====
section
/-! DEFINITION. Regions as the hardware reads them: control blocks, effective fields, validity, use counters (R375 to R377),
frame lists (R170, R433), and the queue control records' places (R378). -/
namespace Sys2Proof.Machine

/-- The base field, bits 51:12, of a system register (R404). -/
def State.sysBase (s : State) (i : Fin 11) : Nat := bits s.sys[i].toNat 12 40 * 4096

/-- The virtual address, in ASID 0, of region n's control block (R375). -/
def State.rcb (s : State) (n : Nat) : Nat := s.sysBase 4 + 256 * n

/-- A region control block's 256 bytes as they stand in memory. -/
def State.rcbLive (s : State) (die : Fin 4) (n : Nat) : Except (Nat × Nat) (List Byte) := s.hwRead die 0 (s.rcb n) 256

/-- A region control block: the driver's fields as the last dispatch decision read them, and the hardware's counters as they stand (R375).
A block that no decision has read is read now. -/
def State.rcbBytes (s : State) (die : Fin 4) (n : Nat) : Except (Nat × Nat) (List Byte) :=
  match s.rcbs.find? (·.1 == n), s.rcbLive die n with
  | some x, .ok b => .ok (x.2.take 128 ++ b.drop 128)
  | some x, .error _ => .ok x.2
  | none, r => r

/-- A dispatch decision reads every block again that can be read (R375). -/
def State.refreshRcbs (s : State) (die : Fin 4) : State :=
  { s with rcbs := (List.range 4096).filterMap fun n => match s.rcbLive die n with
      | .ok b => some (n, b)
      | .error _ => none }

/-- The regions from n to its root, at most `fuel` links (R376). -/
def State.regionChain (s : State) (die : Fin 4) : Nat → Nat → Option (List (Nat × List Byte))
  | 0, _ => none
  | f + 1, n =>
    match s.rcbBytes die n with
    | .error _ => none
    | .ok b =>
      if field b 0 2 = 0xFFFF then some [(n, b)]
      else if 4096 ≤ field b 0 2 then none
      else (s.regionChain die f (field b 0 2)).map ((n, b) :: ·)

/-- A control block's own validity: VALID set, reserved bytes clear (R376). -/
def rcbOk (b : List Byte) : Bool :=
  (bits (field b 3 1) 0 1 == 1) && ((b.drop 72).take 56).all (· == 0) && (field b 140 4 == 0) && (b.drop 152).all (· == 0)

/-- The chain of a valid region (R376): at most 16 links, every block valid. -/
def State.validChain (s : State) (die : Fin 4) (n : Nat) : Option (List (Nat × List Byte)) :=
  if 4096 ≤ n then none
  else match s.regionChain die 17 n with
    | none => none
    | some l => if l.all fun x => rcbOk x.2 then some l else none

/-- The effective value of the field at byte o of k bytes with INH bit b (R376). -/
def effective (b o k : Nat) : List (Nat × List Byte) → Nat
  | [] => 0
  | [(_, x)] => field x o k
  | (_, x) :: y :: t => if bits (field x 4 2) b 1 = 0 then field x o k else effective b o k (y :: t)

/-- The distinct regions above and with n, as far as their blocks can be read, of a chain that reaches no root. -/
def State.cutChain (s : State) (die : Fin 4) : Nat → List Nat → Nat → List (Nat × List Byte)
  | 0, _, _ => []
  | f + 1, seen, n =>
    if 4096 ≤ n ∨ seen.contains n then []
    else match s.rcbBytes die n with
      | .error _ => []
      | .ok b => (n, b) :: s.cutChain die f (n :: seen) (field b 0 2)

/-- Region n and its ancestors (R376, R377). -/
def State.kin (s : State) (die : Fin 4) (n : Nat) : List (Nat × List Byte) :=
  match s.regionChain die 17 n with
  | some l => l
  | none => s.cutChain die 4097 [] n

/-- The chain that effective values of region n follow (R376), valid or not. One that reaches no root ends in a block of free
bytes, so that only a value whose inheritance has no end is free (log 34). -/
def State.lineage (s : State) (die : Fin 4) (n : Nat) : List (Nat × List Byte) :=
  match s.regionChain die 17 n with
  | some l => l
  | none => s.cutChain die 4097 [] n ++ [(4096, (List.range 256).map (Config.regionByte n))]

/-- What a task runs under (R375, R376, R399, R400, R402, R403). -/
def viewOf (n : Nat) (l : List (Nat × List Byte)) : View :=
  let own := match l with
    | [] => 0
    | (_, b) :: _ => field b 3 1
  { region := n, asid := effective 1 6 2 l % 4096, fdom := effective 2 8 2 l, wdog := effective 7 24 4 l,
    hostm := effective 8 28 4 l, tvec := effective 9 32 8 l, mimg := effective 10 40 8 l,
    sys := bits own 1 1 == 1, debug := bits own 2 1 == 1, stop := bits own 3 1 == 1 }

/-- Whether region a is b or a descendant of b (R407, R410). -/
def State.under (s : State) (die : Fin 4) (a b : Nat) : Bool :=
  a == b || (s.kin die a).any fun x => x.1 == b

/-- Adds to a 4-byte use counter of the region and every ancestor (R377); a block that cannot be written is left. -/
def State.charge (s : State) (die : Fin 4) (n o : Nat) (d : Int) : State :=
  if d = 0 then s
  else (s.kin die n).foldl (fun s x =>
    match s.hwRead die 0 (s.rcb x.1 + o) 4 with
    | .error _ => s
    | .ok b =>
      match s.hwStore die 0 (s.rcb x.1 + o) (leBytes 4 (ofInt 32 (max 0 ((leNat b : Int) + d)))) with
      | .error _ => s
      | .ok s => s) s

/-- A Grotto slab becomes free, and the region it was charged to has one less (R310). -/
def State.freeSlab (s : State) (d : Fin 4) (n : Nat) : State :=
  match (s.die d).slabs.find? (·.n == n) with
  | none => s
  | some x => (s.setDie d { s.die d with slabs := (s.die d).slabs.filter (·.n ≠ n) }).charge d x.region 132 (-1)

/-- Whether `n` more units fit the effective limit of the region and of each ancestor (R377): the counter lies at byte `o`,
the limit field at byte `f` with INH bit `i`. -/
def fits (i f o n : Nat) : List (Nat × List Byte) → Bool
  | [] => true
  | (r, b) :: t =>
    let lim := effective i f 4 ((r, b) :: t)
    (r == 4096 || lim == 0xFFFFFFFF || decide (field b o 4 + n ≤ lim)) && fits i f o n t

/-- Takes one entry from a frame list at `va` in ASID 0: decrement-if-positive of the count, then the entry it named (R170,
R433). DESIGN CHOICE: the pool lists of a region lie in ASID 0 too, as the other lists do (log 143). -/
def State.takeFrame (s : State) (die : Fin 4) (va : Nat) : Option (Nat × State) :=
  match s.hwRead die 0 va 8 with
  | .error _ => none
  | .ok b =>
    let n := leNat b
    if n = 0 then none
    else match s.hwRead die 0 (va + 64 + 8 * (n - 1)) 8 with
      | .error _ => none
      | .ok f =>
        match s.hwStore die 0 va (leBytes 8 (n - 1)) with
        | .error _ => none
        | .ok s => some (leNat f, s)

/-- Returns a frame to a list (R171). A list that holds as many as its CAP has no place for it; a CAP of 0 is a list without one (R170,
R433; log 32). -/
def State.giveFrame (s : State) (die : Fin 4) (va frame : Nat) : State :=
  match s.hwRead die 0 va 16 with
  | .error _ => s
  | .ok x =>
    let b := x.take 8
    if field x 8 8 ≠ 0 ∧ field x 8 8 ≤ leNat b then s
    else match s.hwStore die 0 (va + 64 + 8 * leNat b) (leBytes 8 frame) with
    | .error _ => s
    | .ok s1 =>
      match s1.hwStore die 0 va (leBytes 8 (leNat b + 1)) with
      | .error _ => s
      | .ok s2 => s2

/-- The virtual address of queue q's control record (R378). -/
def State.qcr (s : State) (q : Nat) : Nat := s.sysBase 5 + 64 * q

/-- Writes a field of a queue control record, if the record can be reached. -/
def State.qcrSet (s : State) (die : Fin 4) (q o n v : Nat) : State :=
  match s.hwStore die 0 (s.qcr q + o) (leBytes n v) with
  | .error _ => s
  | .ok s => s

/-- Whether the driver has written every register that dispatch needs (R404). -/
def State.dispatchReady (s : State) : Bool :=
  s.sysset[0] && s.sysset[1] && s.sysset[2] && s.sysset[3] && s.sysset[4] && s.sysset[5] && s.sysset[6] && s.sysset[7]

end Sys2Proof.Machine
end

