-- ==== Sys2Proof/Machine/Ops.lean ====
section
/-! DEFINITION. The named operations of the control core: registers, the position in a block, retiring and blocking, taking a
trap and returning from it, host events, the end of a task, and the issue checks that need the state (R47 orders 8 to 13). -/
namespace Sys2Proof.Machine

/-- The outcome of an instruction. -/
abbrev Out := Host.Outcome State Fault Refusal

/-! ## The current thread -/

def State.cc (s : State) : Fin 64 := s.cur.1

def State.cr (s : State) : Role := s.cur.2

def State.me (s : State) : Thread := s.thr s.cc s.cr

def State.myCore (s : State) : Core := s.core s.cc

def State.setMe (s : State) (t : Thread) : State := s.setThr s.cc s.cr t

def State.upMe (s : State) (f : Thread → Thread) : State := s.setMe (f s.me)

def State.upMyCore (s : State) (f : Core → Core) : State := s.upCore s.cc f

/-- The address space the thread acts in: its task's, and T the served task's (R161, R182). -/
def State.asid (s : State) : Nat := s.myCore.view.asid

/-! ## General registers (R80) -/

/-- g0 reads zero. -/
def Thread.get (t : Thread) (i : Fin 32) : Word := if i = 0 then 0 else t.g[i]

/-- A write to g0 is discarded; a write takes the register over from any operation that owed it. -/
def Thread.put (t : Thread) (i : Fin 32) (v : Word) : Thread :=
  if i = 0 then t else { t with g := t.g.set i v, own := t.own.set i none }

/-- The register now waits for operation `id` (R82). -/
def Thread.owe (t : Thread) (i : Fin 32) (id : Nat) : Thread :=
  if i = 0 then t else { t with own := t.own.set i (some id) }

/-- Operation `id` delivers its result: written only while the register still waits for it. -/
def Thread.deliver (t : Thread) (i : Fin 32) (id : Nat) (v : Word) : Thread :=
  if t.own[i] = some id then t.put i v else t

/-- A register holds the result of every earlier word (R82). -/
def Thread.ready (t : Thread) (i : Fin 32) : Bool := i == 0 || t.own[i] == none

/-- No result is outstanding (R84). -/
def Thread.settled (t : Thread) : Bool := (List.finRange 32).all t.ready

/-- Whether a request is a load, vector load, atomic, acquire or arming read of the thread. -/
def Req.isRead (q : Req) : Bool :=
  match q.kind with
  | .prefetch _ => false
  | _ => true

/-- The arming read of a WAITA (R125). -/
def Req.arms (q : Req) : Bool :=
  match q.kind with
  | .arm _ _ _ _ => true
  | _ => false

/-- A buffered store of core c that no route can deliver (R130). -/
def State.undeliverable (s : State) (c : Fin 64) (st : Store) : Bool := st.pool == none && (s.lost (dieOf c) st.addr).isSome

/-- The reads of thread r have returned. -/
def State.readsBack (s : State) (c : Fin 64) (r : Role) : Bool := (s.core c).reqs.all fun q => q.role != r || !q.isRead

/-- The operation of an engine fault record that owes a thread's register its result (R181). -/
def RecOp.owes : RecOp → Option Nat
  | .copy e => some e.id
  | .fill e => some e.id
  | .fw e => some e.id
  | .seq e => some e.id
  | .post _ => none
  | .store _ => none

/-- Operation `id` stands in a record of the core: no result of it is on its way until a handler moves it (R345, R415). -/
def Core.recOwes (k : Core) (id : Nat) : Bool :=
  (List.finRange 32).any fun i => match k.recs[i] with
    | some x => x.op.owes == some id
    | none => false

/-- The g registers of thread r are written, but for those that an operation in a record owes. -/
def State.regsBack (s : State) (c : Fin 64) (r : Role) : Bool :=
  (List.finRange 32).all fun i => (s.thr c r).ready i || ((s.thr c r).own[i]).any (s.core c).recOwes

/-- The moves between tiles and registers start and complete with the matrix queue (R240). -/
def isMove : Instr → Bool
  | .maMovTv _ _ _ _ => true
  | .maMovVt _ _ _ _ => true
  | _ => false

/-- The vector work of thread r is complete, but for moves that the matrix engine holds and what stands behind them: behind a halted
MA.MM, or while the engine is frozen or parked (R196, R250, R253, R262). -/
def Core.vectorBack (k : Core) (r : Role) : Bool :=
  let held := fun (v : VEnt) => isMove v.op && v.out.isNone &&
    (k.mx.frozen || k.mx.parked || k.mx.queue.any fun e => e.halted.isSome && decide (e.id < v.id))
  (k.vq.takeWhile fun v => !(held v)).all fun v => v.role != r

/-- The state that the words of thread r before its trap wrote is complete (R49, R84): results and reads are back, vector work is
done, stores are performed, but for what only a handler or a route can move. -/
def State.quiescent (s : State) (c : Fin 64) (r : Role) : Bool :=
  s.regsBack c r && s.readsBack c r && (s.core c).vectorBack r && (s.thr c r).stores.all (s.undeliverable c)

/-! ## Position in a block (R39 to R44) -/

/-- The address of the next word: R30 places body halfword w after the 4-byte header. -/
def Thread.pc (t : Thread) : Nat := t.hdr + 4 + 2 * t.wpos

/-- The header that follows the current block, at the header + 2 × LEN (R37, R41). -/
def Thread.nextHdr (t : Thread) : Nat := t.hdr + 2 * bits (match t.blk with | some b => b.head.toNat | none => 0) 7 10

/-- The position after a word of n halfwords: the next word, the next iteration, or the fall-through fetch (R39). -/
def Thread.advance (t : Thread) (n : Nat) : Thread :=
  let len := match t.blk with
    | some b => b.body.length
    | none => 0
  if t.wpos + n < len then { t with wpos := t.wpos + n }
  else if 0 < t.reps then { t with wpos := 0, reps := t.reps - 1 }
  else { t with wpos := t.wpos + n, fetch := some { target := t.nextHdr, src := t.hdr, kind := .fall } }

/-- What ends a word's stay at issue. -/
def Thread.clearWait (t : Thread) : Thread := { t with why := 0, obj := 0, stage := .none, xwalk := none }

/-- A word of n halfwords has retired (R388). -/
def Thread.retire (t : Thread) (n : Nat) : Thread := { (t.advance n).clearWait with scnt := t.scnt + 1, issued := t.issued + 1 }

/-- A taken transfer ends the block and abandons its repeats (R41). A branch to the block in the loop buffer restarts it
without a fetch; its repeat count is read again then (R41), which the fetch step does. -/
def Thread.transfer (t : Thread) (target src : Nat) (k : FetchKind) : Thread :=
  { t.clearWait with scnt := t.scnt + 1, issued := t.issued + 1, ahead := none, fetch := some { target := target, src := src, kind := k } }

/-- The current word retires; T's words count for nothing (R388). -/
def State.done (s : State) (n : Nat) : Out := .next (s.upMe fun t => t.retire n)

/-- The current thread blocks and its word issues again later: nothing else changes (R14, R303). -/
def State.block (s : State) (why obj : Nat) : Out := .next (s.upMe fun t => { t with why := why, obj := obj })

/-- The word waits for a register (R82): it is not blocked in the sense of R303. -/
def State.hold (s : State) : Out := .next s

/-! ## The management mailbox (R432) -/

/-- The controller answers the command at its place in the ring in BAR0: code and status in the record, with MSI-X vector 0; what a
command returns goes with it. The next command's place follows, of 256. A record's operands are the driver's, which the command's event
carries (log 99). -/
def State.reply' (s : State) (code status : Nat) (data : List Nat) : State :=
  { s with reply := some { code := code, status := status, data := data }, msix := s.msix.set 0 true,
           bar0 := s.bar0.write (64 * s.mboxAt) (leBytes 2 code ++ leBytes 2 status), mboxAt := (s.mboxAt + 1) % 256 }

/-! ## Host events and the end of a task -/

def State.postHost (s : State) (e : HostEvent) : State := { s with hostq := s.hostq ++ [e] }

/-- A host event of a task (R403). -/
def taskEvent (kind : Nat) (v : View) (t : Task) (cause thread detail fva trapa : Nat) : HostEvent :=
  { kind := kind, region := v.region, fdom := v.fdom, task := t.id, cause := cause, thread := thread, detail := detail,
    fva := fva, trapa := trapa, queue := t.queue, pos := t.pos, core := none }

/-- A thread whose task has left its core: its registers stay, L's, C's and S's until the next task start zeroes them (R81), T's
for its next handler (R399); all else of the thread goes. -/
def Thread.rest (t : Thread) : Thread :=
  { Thread.reset with g := t.g, fpcr := t.fpcr, rngseed := t.rngseed, rngctr := t.rngctr }

/-- A core whose task has left it: stores, tables and TLBs stay as they are until the next dispatch clears them (R385). -/
def Core.vacate (k : Core) : Core :=
  { k with teamix := 0, teamsz := 0, ctx := none, taskid := 0, view := View.none, served := none, tpcw := false,
           threads := k.threads.map Thread.rest, vq := [], mx := { k.mx with queue := [], frozen := false, parked := false, owed := false },
           locks := [], cq := [], chcnt := 0, semq := [], posts := [], hcache := [], fwq := [], fwcache := [],
           fwwant := [], sq := [],
           recs := Vector.replicate 32 none, reqs := [], reqwait := [], walks := [], walkwait := [] }

/-- The generation after an advance: 1 to `top`, skipping 0 (R285, R308, R363). -/
def nextGen (top g : Nat) : Nat := if top ≤ g then 1 else g + 1

/-- The handles of a task go stale (R285). -/
def Die.staleTask (d : Die) (id : Nat) : Die :=
  { d with bh := d.bh.map fun e =>
      match e.live with
      | some (t, _, _) => if t = id then { e with gen := nextGen 127 e.gen, live := none } else e
      | none => e }

/-- Every LIVE queue of the regions with fault domain `fd` enters FAULT (R403). -/
def State.faultDomain (s : State) (die : Fin 4) (fd : Nat) : State :=
  (List.range 16384).foldl (fun s q =>
    match s.hwRead die 0 (s.qcr q) 4 with
    | .error _ => s
    | .ok b =>
      if field b 2 1 = 1 then
        if effective 2 8 2 (s.lineage die (field b 0 2)) = fd then s.qcrSet die q 2 1 3 else s
      else s) s

/-- Slabs that a stopped image import of a core has reserved, with their die (R330). -/
def Core.heldSlabs (k : Core) : List (Fin 4 × Nat) :=
  k.recs.toList.flatMap fun x => match x with
    | some { op := .fw e, .. } => e.hold.map fun n => (Fin.ofNat 4 (bits (e.hs.headD 0) 13 2), n)
    | _ => []

/-- LOCK of context i clears (R340). -/
def State.clearLock (s : State) (die : Fin 4) (i : Nat) : State :=
  match s.hwRead die 0 (s.sysBase 2 + 256 * i) 8 with
  | .error _ => s
  | .ok b => match s.hwStore die 0 (s.sysBase 2 + 256 * i) (leBytes 8 (setBits (leNat b) 7 1 0)) with
    | .ok s1 => s1
    | .error _ => s

/-- The fork walker lets go of the parent's leaves: a CX.FORK whose marking has begun does not complete (R164, R172). The parent is the
first context it names, and its lock the one of the lower index first. -/
def State.forkUnmark (s : State) (e : SEnt) : State :=
  match e.op, e.sent with
  | .cxFork _ _ _, some _ =>
    let a := bits (e.gs.getD 0 0).toNat 0 18
    let b := bits (e.gs.getD 1 0).toNat 0 18
    let r := e.recs.getD (if a ≤ b then 0 else 1) 0
    s.treeBusy (bits r 192 2) (bits r 212 40) false
  | _, _ => s

/-- The sequence forms of a core that ends its task let go of their LOCKs (R340), and a record on its way is lost (log 91). -/
def State.dropSeq (s : State) (c : Fin 64) : State :=
  (s.core c).sq.foldl (fun (s : State) e =>
    let s1 := e.locked.foldl (fun (s : State) i => s.clearLock (dieOf c) i) (s.forkUnmark e)
    match e.op, e.sent with
    | .sqSend _ _ _, some _ =>
      let g := (e.gs.getD 1 0).toNat
      let d : Fin 4 := Fin.ofNat 4 (bits g 8 2)
      let q : Fin 16 := Fin.ofNat 16 (bits g 0 4)
      let x := (s1.die d).sq[q]
      s1.setDie d { s1.die d with sq := (s1.die d).sq.set q { x with flying := x.flying - 1 } }
    | _, _ => s1) s

/-- A PG.PIN of T that its task's end cuts short lets go of its leaf (R164, R187). -/
def State.unpin (s : State) (c : Fin 64) : State :=
  match (s.thr c .T).stage with
  | .pin pa e => s.writeLeaf pa e e
  | _ => s

/-- A task leaves its cores and the machine: use counters drop, handles go stale, watches end (R285, R377, R408). -/
def State.removeTask (s : State) (t : Task) : State :=
  let die : Fin 4 := match t.cores with
    | c :: _ => dieOf c
    | [] => 0
  let s := if t.cores.isEmpty then s else s.charge die t.region 128 (-(t.size : Int))
  let s := t.cores.foldl State.unpin (t.cores.foldl State.dropSeq s)
  let held := (t.cores.map s.core ++ t.saved).flatMap Core.heldSlabs
  let s := held.foldl (fun (s : State) x => s.freeSlab x.1 x.2) s
  let s := t.cores.foldl (fun s c => s.upCore c Core.vacate) s
  { s with tasks := s.tasks.filter (·.id ≠ t.id), dies := s.dies.map fun d => d.staleTask t.id,
           cores := s.cores.map fun k => { k with hcache := k.hcache.filter (·.task ≠ t.id) },
           watches := s.watches.filter fun w => !(t.cores.contains w.core),
           hostq := s.hostq.map fun e => if t.cores.any fun c => e.core == some c then { e with core := none } else e }

/-- The region fields a task runs under, on its cores or off them. -/
def State.viewFor (s : State) (t : Task) : View :=
  match t.cores with
  | c :: _ => (s.core c).view
  | [] => viewOf t.region (s.lineage 0 t.region)

/-- A task ends FAULTED with its event posted, or without one; with STOP, its fault domain stops too (R403). -/
def State.faultEnd (s : State) (t : Task) : State :=
  let die : Fin 4 := match t.cores with
    | c :: _ => dieOf c
    | [] => 0
  let v := s.viewFor t
  let s := s.removeTask t
  if v.stop then s.faultDomain die v.fdom else s

/-- A task ends FAULTED (R385, R399, R403). -/
def State.endFaulted (s : State) (id kind cause thread detail fva trapa : Nat) : State :=
  match s.task id with
  | none => s
  | some t => (s.postHost (taskEvent kind (s.viewFor t) t cause thread detail fva trapa)).faultEnd t

/-! ## Taking a trap (R49, R84, R394 to R400) -/

/-- The own-pool window address of an offset (R106). -/
def ownWin (o : Nat) : Nat := 0x00FF000000000000 + o

/-- The offset of a role thread's trap frame (R394). -/
def frameAt (r : Role) : Nat := 0x781000 + 64 * (rix r).val

/-- The 64 bytes of a trap frame (R395). -/
def frameBytes (thread nrec : Nat) (p : PTrap) : List Byte :=
  leBytes 8 (p.cause + 256 * thread) ++ leBytes 8 p.trapa ++ leBytes 8 p.trappc ++ leBytes 8 p.detail ++
    leBytes 8 p.fva ++ leBytes 8 p.hdr ++ leBytes 8 p.reps ++ leBytes 2 p.wpos ++ leBytes 1 nrec ++ leBytes 1 p.kind ++
    leBytes 4 0

/-- Engine fault records pending on a core (R395 NREC). -/
def Core.nrec (k : Core) : Nat := ((List.finRange 32).filter fun i => k.recs[i].isSome).length

/-- Whether the host serves this trap (R399). -/
def toHost (v : View) (cause : Nat) : Bool :=
  (bits v.hostm cause 1 == 1) || v.tvec == 0 || cause == cTIER || cause == cCOWX

/-- A role thread's trap goes to the host: an event, and the thread waits for the answer with WHY 12 (R399). -/
def State.trapToHost (s : State) (c : Fin 64) (r : Role) (p : PTrap) : State :=
  let k := s.core c
  let s := match s.task k.taskid with
    | some t => s.postHost { taskEvent 1 k.view t p.cause (rix r).val p.detail p.fva p.trapa with core := some c }
    | none => s
  s.upThr c r fun t => { t with status := .host, why := 12, obj := 0 }

/-- T takes the trap (R397, R399): frame, CSRs, g1, g2, and the fetch of TVEC; T uses the served thread's loop buffer (R80). -/
def Core.takeTrap (k : Core) (c : Fin 64) (r : Role) (p : PTrap) : Core :=
  let served := { k.thr r with why := 12, obj := 0, blk := none }
  let t0 := k.thr .T
  let t1 := (t0.put 1 (word (ownWin (frameAt r)))).put 2 (word (k.view.mimg + 0x200000 * c.val))
  let t2 := { t1 with status := .running, blk := none, ahead := none, fetch := some { target := k.view.tvec, src := k.view.tvec, kind := .entry },
                      reps := 0, wpos := 0, hdr := k.view.tvec, why := 0, obj := 0, trap := none, stage := .none }
  let k := { k with served := some r, tpcw := false, trapc := word (p.cause + 256 * (rix r).val),
                    trapa := word p.trapa, trappc := word p.trappc, trapw := word p.detail,
                    pool := k.pool.write (frameAt r) (frameBytes (rix r).val k.nrec p) }
  (k.setThr r served).setThr .T t2

/-- A trap of T itself does not nest (R400): DEBUG halts T, otherwise the task ends FAULTED. -/
def State.trapInT (s : State) (c : Fin 64) (p : PTrap) : State :=
  let k := s.core c
  if k.view.debug then
    let s := match s.task k.taskid with
      | some t => s.postHost { taskEvent 4 k.view t p.cause 3 p.detail p.fva p.trapa with core := some c }
      | none => s
    s.upThr c .T fun t => { t with status := .host, trap := some p }
  else s.endFaulted k.taskid 6 p.cause 3 p.detail p.fva p.trapa

/-- T of a core waits for room in the host event ring (R435). -/
def State.posting (s : State) (c : Fin 64) : Bool := s.hostq.any fun e => e.core == some c

/-- Whether a raised trap can be taken now: the thread's earlier work is complete (R49, R84, R196), and T is free to serve it and
to post for it (R399, R435), unless the trap is T's own (R400). -/
def State.canTake (s : State) (c : Fin 64) (r : Role) : Bool :=
  s.quiescent c r && (s.thr c r).trap.isSome && (s.thr c r).status == .running &&
    (r == .T || ((s.core c).served == none && !(s.posting c)))

/-- Delivers the raised trap of a thread, if it can be taken (R399, R400). -/
def State.deliverTrap (s : State) (c : Fin 64) (r : Role) : State :=
  if s.canTake c r then
    match (s.thr c r).trap with
    | none => s
    | some p =>
      if r = .T then s.trapInT c p
      else if toHost (s.core c).view p.cause then s.trapToHost c r p
      else s.upCore c fun k => k.takeTrap c r p
  else s

/-- Thread r waits for no entry of the request table or the miss table any more (R114, R177). -/
def Core.waitsNot (k : Core) (r : Role) : Core :=
  { k with reqwait := k.reqwait.filter (· ≠ .thr r), walkwait := k.walkwait.filter fun i => decide (i ≠ .thr r) && decide (i ≠ .fetch r) }

/-- Raises a trap in a thread: it changes no program-visible state, and is delivered as soon as it can be (R49, R84). -/
def State.trapAt (s : State) (c : Fin 64) (r : Role) (p : PTrap) : State :=
  ((s.upCore c fun k => k.waitsNot r).upThr c r fun t => { t with trap := some p, why := 0, obj := 0 }).deliverTrap c r

/-- The word that stands at `w`, the last that thread has issued, is taken back: the thread stands at it again, and its requests and the
registers that waited for them are as before it (R49). -/
def Core.takeBack (k : Core) (r : Role) (w : At) : Core :=
  let t := k.thr r
  let ids := (k.reqs.filter fun q => q.role == r && q.nth == t.issued).map (·.id)
  { k.setThr r { t with own := t.own.map fun x => if x.any ids.contains then none else x,
                        blk := if t.hdr = w.hdr then t.blk else none, hdr := w.hdr, reps := w.reps, wpos := w.wpos, fetch := none,
                        ahead := none, status := .running, trap := none, why := 0, obj := 0, stage := .none, xwalk := none,
                        scnt := t.scnt - 1, issued := t.issued - 1 } with
    reqs := k.reqs.filter fun q => !(ids.contains q.id) }

/-- The thread's last word was word number n of its own: no later one has issued or begun (R49). -/
def Thread.lastIs (t : Thread) (n : Nat) : Bool :=
  t.issued == n && (t.stage == .none || t.stage == .safe) && (match t.status with
    | .running => true
    | .stopped _ _ => true
    | _ => false)

/-- The trap of the current word: execution resumes at that word (R44). -/
def Thread.faultHere (t : Thread) (cause detail fva kind : Nat) : PTrap :=
  { cause := cause, detail := detail, trapa := t.pc, trappc := t.pc, fva := fva, kind := kind, hdr := t.hdr, reps := t.reps,
    wpos := t.wpos }

/-- Traps the current word (R49). -/
def State.trap (s : State) (cause detail : Nat) : Out := .next (s.trapAt s.cc s.cr (s.me.faultHere cause detail 0 0))

/-- Traps the current word with a data address and kind (R395). -/
def State.trapX (s : State) (x : XFault) : Out :=
  .next ((s.upMe fun t => { t with xwalk := none }).trapAt s.cc s.cr (s.me.faultHere x.cause x.detail x.va x.kind))

/-- Raises SYS, BRK or OVRN: execution resumes after the word of n halfwords; TRAPPC names the word that would have issued next,
after a last word the first of the block that follows, and TRAPA the trapping word (R44, R283). -/
def State.trapAfter (s : State) (n cause detail : Nat) : Out :=
  let t := s.me
  let t1 := t.retire n
  let pc1 := match t1.fetch with
    | some f => f.target + 4
    | none => t1.pc
  .next ((s.setMe t1).trapAt s.cc s.cr
    { cause := cause, detail := detail, trapa := t.pc, trappc := pc1, fva := 0, kind := 0, hdr := t.hdr, reps := t.reps,
      wpos := t.wpos })

/-- Sends a served thread on (R44, R413): at the point its trap left, with its block fetched again; or, when T has written
TRAPPC, at the header that TRAPPC names. -/
def Thread.resume (t : Thread) (tpcw : Bool) (trappc : Nat) : Thread :=
  let t := if tpcw then { t with stage := .none, xwalk := none, ahead := none } else { t with ahead := none }
  let f := if tpcw then some { target := trappc, src := trappc, kind := FetchKind.jump }
    else match t.fetch with
      | some f => some f
      | none => some { target := t.hdr, src := t.hdr, kind := FetchKind.resume t.reps t.wpos }
  { t with trap := none, fetch := f, blk := none, why := 0, obj := 0, scnt := 0, status := .running }

/-- Returns from the trap that T serves (R413): T stops, the served thread goes on. -/
def Core.leaveTrap (k : Core) : Core :=
  match k.served with
  | none => k
  | some r =>
    let k := k.setThr r ((k.thr r).resume k.tpcw k.trappc.toNat)
    { k.setThr .T { (k.thr .T) with status := .idle, fetch := none, blk := none, scnt := 0, why := 0, obj := 0 } with
      served := none, tpcw := false }

/-! ## Issue checks that need the state (R47 orders 8 to 13) -/

/-- The feature bit that governs a word (R431); `sub` marks MX conversions of MAJ 29 and the remote copy of MAJ 36. -/
def featureOf (maj : Nat) (sub : Bool) : Nat :=
  if maj ≤ 16 then 0 else if maj ≤ 19 then 1 else if maj ≤ 27 then 2
  else if maj ≤ 31 then (if sub then 4 else 3)
  else if maj ≤ 35 then 5 else if maj ≤ 38 then (if sub then 7 else 6) else if maj ≤ 41 then 8 else if maj ≤ 45 then 9
  else if maj = 46 then 10 else if maj = 47 then 11 else if maj = 48 then 12 else if maj = 49 then 10
  else if maj = 50 then 13 else if maj ≤ 52 then 0 else 14

/-- Whether a thread issues words of a MAJ (R13). -/
def classOk (r : Role) (maj : Nat) : Bool :=
  match r with
  | .T => true
  | .C => !((decide (10 ≤ maj) && decide (maj ≤ 14)) || (decide (17 ≤ maj) && decide (maj ≤ 19)) ||
      (decide (36 ≤ maj) && decide (maj ≤ 38)))
  | _ => !((decide (20 ≤ maj) && decide (maj ≤ 35)) || (decide (42 ≤ maj) && decide (maj ≤ 50)))

/-- What a word needs of the state before it executes. -/
structure Need where
  maj   : Nat
  sub   : Bool := false
  /-- The highest vector register named, plus one. -/
  vregs : Nat := 0
  priv  : Bool := false
  /-- Channels named by specs, A, B, D. -/
  chans : List Nat := []
  /-- SAFEPT and TK.YIELD, which a full safe-point count does not stop (R388). -/
  safe  : Bool := false

/-- The first of checks 8, 9, 10, 12, 13 of R47 that fails: cause and detail. DESIGN CHOICE: of several channels past the table CHAN reports
the first in the order A, B, D (log 123). -/
def State.gateFault (s : State) (n : Need) : Option (Nat × Nat) :=
  if s.myCore.bndv * 16 < n.vregs then some (cILL, 0x0C)
  else if s.featlock && bits s.featack.toNat (featureOf n.maj n.sub) 1 == 0 then some (cILL, 0x07)
  else if !(classOk s.cr n.maj) then some (cILL, 0x08)
  else if n.priv && s.cr != .T then some (cPRIV, 0)
  else match n.chans.find? fun i => decide (s.myCore.chcnt ≤ i) with
    | some i => some (cCHAN, i)
    | none => none

/-- The next retirement would be the 16,385th without a reset (R388). -/
def Thread.safeDue (t : Thread) (r : Role) : Bool := r != .T && decide (16384 ≤ t.scnt)

/-- Runs a word's effect once its checks pass, the g registers it reads are ready and the safe-point count allows it (R47, R82,
R388). The word that would be the 16,385th waits for its SAFE, which SAFE_COUNT_EXPIRY raises. -/
def State.gate (s : State) (n : Need) (reads : List (Fin 32)) (go : Unit → Out) : Out :=
  match s.gateFault n with
  | some (c, d) => s.trap c d
  | none =>
    if !(reads.all s.me.ready) then s.hold
    else if s.me.safeDue s.cr && !n.safe then .next (s.upMe fun t => { t with stage := .safe })
    else go ()

/-! ## Releases and acquires that are open (R133, R134) -/

/-- Where the thread's word stands (R44). -/
def Thread.here (t : Thread) : At := { hdr := t.hdr, reps := t.reps, wpos := t.wpos }

/-- The thread has an outstanding access numbered below `id` (R133): a read, or a store that is not performed. -/
def State.outstanding (s : State) (c : Fin 64) (r : Role) (id : Nat) : Bool :=
  ((s.core c).reqs.any fun q => q.role == r && q.isRead && decide (q.id < id)) ||
    ((s.thr c r).stores.any fun st => decide (st.id < id))

/-- An earlier release is not complete, so stores, atomics, asynchronous words and arrivals wait (R133). -/
def State.relOpen (s : State) (c : Fin 64) (r : Role) : Bool :=
  match (s.thr c r).relUpto with
  | some n => s.outstanding c r n
  | none => false

/-- An atomic's acquire is not complete, so every later access and block fetch waits (R122, R134). -/
def State.acqOpen (s : State) (c : Fin 64) (r : Role) : Bool :=
  (s.core c).reqs.any fun q => q.role == r && (match q.kind with
    | .atomic _ _ _ _ _ acq => acq
    | .acquire _ => true
    | _ => false)

/-- A release at scope `sc` of the current word opens (R133). `own`: the word is a REL, which can execute again (R148); a release that goes with
another form's own effect cannot. No store stands between it and one that is still open, so the wider scope
speaks for both (R148). -/
def State.openRel (s : State) (sc : Nat) (own : Bool) : State :=
  let was := match s.me.relMark with
    | some m => if s.relOpen s.cc s.cr then m.scope else 0
    | none => 0
  s.upMe fun t => { t with relUpto := some s.nextOp, relMark := some { scope := max was sc, word := t.here, nth := if own then t.issued + 1 else 0 } }

/-! ## Stops for a pre-emption (R389) -/

/-- Every g register live. -/
def allLive : Nat := 2 ^ 32 - 2

/-- What the task on a core has been asked: 0 nothing, 1 ordinary, 2 urgent, 3 cancelled. -/
def State.preemptOf (s : State) (c : Fin 64) : Nat :=
  match s.task (s.core c).taskid with
  | some t => t.preempt
  | none => 0

/-- A role thread stops with a STOP code and a live mask (R396). -/
def Thread.stop (t : Thread) (code live : Nat) : Thread := { t with status := .stopped code live }

/-- A safe point with this live mask: the count restarts, and a pending pre-emption stops the thread (R388, R389). -/
def Thread.safePoint (t : Thread) (preempt live : Nat) : Thread :=
  let t := { t with scnt := 0 }
  if preempt = 0 then t else t.stop 0 live

end Sys2Proof.Machine
end

