-- ==== Sys2Proof/Machine/Operands.lean ====
section
/-! DEFINITION. Operand specs (R34, R35): g registers and channels as sources and destinations, with the ring rules of R296
and R297, guards, and the frame of a scalar instruction. -/
namespace Sys2Proof.Machine

/-- The g registers a source spec reads. -/
def srcRegs : Src → List (Fin 32)
  | .g i => [i]
  | _ => []

/-- The channel a source spec names. -/
def srcChan : Src → List Nat
  | .g _ => []
  | .peek i => [i.val]
  | .pop i => [i.val]

def dstChan : Dst → List Nat
  | .g _ => []
  | .ch i => [i.val]

/-- The core that holds TEAMIX j of the task on core c (R19, R108). -/
def State.member (s : State) (c : Fin 64) (j : Nat) : Option (Fin 64) :=
  match s.task (s.core c).taskid with
  | none => none
  | some t => t.cores[j]?

/-- A producer's number (R297). -/
def pidOf (k : Core) (r : Role) : Nat := 4 * k.teamix + (rix r).val

/-- Whether R297 refuses a push by `pid`. -/
def Chan.refuses (h : Chan) (pid : Nat) : Bool :=
  h.closed || (!h.reg.isEmpty && (!(h.reg.contains pid) || h.eosm.contains pid))

/-- No free entry that an earlier push has not claimed (R296). -/
def Chan.full (h : Chan) : Bool := decide (2 ^ h.capl ≤ h.ring.length + h.claims)

/-- The ring with one entry at its tail; its value's pool offset is `base + 8 × tail`. -/
def Chan.enqueue (h : Chan) (eos pend : Option Nat) : Chan :=
  { h with ring := h.ring ++ [{ pos := h.tail, eos := eos, pend := pend }], tail := (h.tail + 1) % 2 ^ h.capl }

/-- An entry flagged EOS joins the ring, and the ring closes when every registered producer's has landed (R297). -/
def Chan.takeEos (h : Chan) (pid : Nat) : Chan :=
  let h := { h.enqueue (some pid) none with eosm := insertNat pid h.eosm, neos := h.neos + 1 }
  { h with closed := h.reg.isEmpty || h.reg.all h.eosm.contains }

def Core.setChan (k : Core) (i : Fin 32) (h : Chan) : Core := { k with chans := k.chans.set i h }

/-- What reading the sources, or finding room for the result, gives. -/
inductive SrcRes where
  | vals (vs : List Word) (s : State)
  /-- The word blocks: WHY and OBJ (R303). -/
  | wait (why obj : Nat)
  /-- CHAN with this detail (R298). -/
  | chan (detail : Nat)

/-- Reads the head of ring i, past an open acquire (R134); `pop` removes it (R35, R296, R297). -/
def State.chanRead (s : State) (i : Fin 32) (pop : Bool) : SrcRes :=
  let k := s.myCore
  let h := k.chans[i]
  if s.acqOpen s.cc s.cr then .wait 10 0
  else if h.link then .chan (0x100 + i.val)
  else match h.ring with
    | [] => if h.closed then .chan (0x300 + i.val) else .wait 2 i.val
    | e :: t =>
      match e.eos, e.pend with
      | some _, _ => .chan (0x200 + i.val)
      | none, some _ => .wait 2 i.val
      | none, none =>
        let v := word (k.pool.nat (h.base + 8 * e.pos) 8)
        .vals [v] (if pop then s.upMyCore fun k => k.setChan i { h with ring := t } else s)

/-- Reads one source spec. -/
def State.src (s : State) : Src → SrcRes
  | .g i => .vals [s.me.get i] s
  | .peek i => s.chanRead i false
  | .pop i => s.chanRead i true

/-- Reads sources in order (R35). -/
def State.srcs (s : State) : List Src → SrcRes
  | [] => .vals [] s
  | x :: xs =>
    match s.src x with
    | .vals [v] s1 =>
      match s1.srcs xs with
      | .vals vs s2 => .vals (v :: vs) s2
      | r => r
    | .vals _ s1 => .vals [] s1
    | r => r

/-- Pushes on channel i for the current thread (R296, R297): the value, or the operation that owes it. A push counts as a write, so it
waits for an open release (R133, R296). -/
def State.push (s : State) (i : Fin 32) (v : Word) (pend : Option Nat) : SrcRes :=
  let k := s.myCore
  let h := k.chans[i]
  let pid := pidOf k s.cr
  if s.relOpen s.cc s.cr then .wait 10 0
  else if h.link then
    let post : Bool → State → State := fun claim s =>
      let (id, s) := s.fresh
      let p : Post := { id := id, role := s.cr, target := .member h.memb 0, kind := .push h.rix i.val pid v pend, claim := claim }
      s.upMyCore fun k => { k with posts := k.posts ++ [p] }
    match s.member s.cc h.memb with
    | none => .vals [] (post false s)
    | some m =>
      let j : Fin 32 := Fin.ofNat 32 h.rix
      let hh := (s.core m).chans[j]
      if hh.link ∨ (s.core m).chcnt ≤ h.rix then .vals [] (post false s)
      else if hh.full then .wait 1 i.val
      else .vals [] (post true (s.upCore m fun k => k.setChan j { hh with claims := hh.claims + 1 }))
  else if h.refuses pid then .chan (0x400 + i.val)
  else if h.full then .wait 1 i.val
  else
    .vals [] (s.upMyCore fun k =>
      { k.setChan i (h.enqueue none pend) with pool := k.pool.write (h.base + 8 * h.tail) (leBytes 8 v.toNat) })

/-- Writes a result to a destination spec. -/
def State.dst (s : State) (d : Dst) (v : Word) : SrcRes :=
  match d with
  | .g i => .vals [] (s.upMe fun t => t.put i v)
  | .ch i => s.push i v none

/-- Ends a word whose destination gave `r`: it retires, or it blocks or traps with nothing changed (R35, R298). -/
def State.settle (s : State) (len : Nat) (r : SrcRes) : Out :=
  match r with
  | .vals _ s1 => s1.done len
  | .wait w o => s.block w o
  | .chan d => s.trap cCHAN d

/-- A scalar instruction (R92): sources in order, one result, one destination, in one step. -/
def State.scalar (s : State) (maj len : Nat) (srcs : List Src) (d : Dst) (f : List Word → Word) : Out :=
  s.gate { maj := maj, chans := srcs.flatMap srcChan ++ dstChan d } (srcs.flatMap srcRegs) fun _ =>
    match s.srcs srcs with
    | .vals vs s1 =>
      match s1.dst d (f vs) with
      | .vals _ s2 => s2.done len
      | .wait w o => s.block w o
      | .chan x => s.trap cCHAN x
    | .wait w o => s.block w o
    | .chan x => s.trap cCHAN x

/-- The first and second value of a list of operands. -/
def op1 (f : Word → Word) : List Word → Word
  | a :: _ => f a
  | [] => 0

def op2 (f : Word → Word → Word) : List Word → Word
  | a :: b :: _ => f a b
  | _ => 0

/-- Whether a guard makes lane L active (R192). -/
def guardOn (preds : Vector PredBits 12) : Guard → Nat → Bool
  | .all, _ => true
  | .p i, l => preds[i].getLsbD l

/-- The vector registers below BNDV that a field names, for check 8. -/
def vtop (l : List Nat) : Nat := l.foldl (fun m x => max m (x + 1)) 0

end Sys2Proof.Machine
end

