-- ==== Sys2Proof/Machine/Scalar.lean ====
section
/-! DEFINITION. Integer arithmetic: MAJ 5, 6, 7, 8 and 9 and their H16 forms (R33, R92 to R98). Each is `State.scalar` with its
own operation on 64-bit words. -/
namespace Sys2Proof.Machine

/-! ## Operations -/

/-- The smaller or larger of two words (R93). -/
def minS (a b : Word) : Word := if a.slt b then a else b
def maxS (a b : Word) : Word := if a.slt b then b else a
def minU (a b : Word) : Word := if a.ult b then a else b
def maxU (a b : Word) : Word := if a.ult b then b else a

/-- The 64-bit immediate of a signed field of n bits. -/
def imm (n x : Nat) : Word := sextW n x

/-- Counts of R95; 64 for a word of zeros. -/
def clzW (a : Word) : Word := word ((List.range 64).takeWhile fun i => !a.getLsbD (63 - i)).length
def ctzW (a : Word) : Word := word ((List.range 64).takeWhile fun i => !a.getLsbD i).length
def popcW (a : Word) : Word := word ((List.range 64).filter fun i => a.getLsbD i).length

/-- A truth value as a word. -/
def flagW (b : Bool) : Word := if b then 1 else 0

/-- Extensions of the low n bits (R95). -/
def extS (n : Nat) (a : Word) : Word := sextW n a.toNat
def extU (n : Nat) (a : Word) : Word := word (a.toNat % 2 ^ n)

/-- The high halves of a product (R97). -/
def mulhS (a b : Word) : Word := BitVec.ofInt 64 (a.toInt * b.toInt / 2 ^ 64)
def mulhU (a b : Word) : Word := word (a.toNat * b.toNat / 2 ^ 64)

/-- Quotients and remainders, toward zero, with the results of R97 for a zero divisor and the signed overflow. -/
def divS (a b : Word) : Word := if b = 0 then BitVec.ofInt 64 (-1) else BitVec.ofInt 64 (a.toInt.tdiv b.toInt)
def remS (a b : Word) : Word := if b = 0 then a else BitVec.ofInt 64 (a.toInt - b.toInt * a.toInt.tdiv b.toInt)
def divU (a b : Word) : Word := if b = 0 then word (2 ^ 64 - 1) else word (a.toNat / b.toNat)
def remU (a b : Word) : Word := if b = 0 then a else word (a.toNat % b.toNat)

/-! ## MAJ 5 (R93) -/

/-- ADD (R93). -/
def execAdd (d : Dst) (a b : Src) (s : State) : Out := s.scalar 5 2 [a, b] d (op2 fun a b => a + b)

/-- SUB (R93). -/
def execSub (d : Dst) (a b : Src) (s : State) : Out := s.scalar 5 2 [a, b] d (op2 fun a b => a - b)

/-- AND (R93). -/
def execAnd (d : Dst) (a b : Src) (s : State) : Out := s.scalar 5 2 [a, b] d (op2 fun a b => a &&& b)

/-- OR (R93). -/
def execOr (d : Dst) (a b : Src) (s : State) : Out := s.scalar 5 2 [a, b] d (op2 fun a b => a ||| b)

/-- XOR (R93). -/
def execXor (d : Dst) (a b : Src) (s : State) : Out := s.scalar 5 2 [a, b] d (op2 fun a b => a ^^^ b)

/-- ANDN (R93). -/
def execAndn (d : Dst) (a b : Src) (s : State) : Out := s.scalar 5 2 [a, b] d (op2 fun a b => a &&& ~~~b)

/-- MIN (R93). -/
def execMin (d : Dst) (a b : Src) (s : State) : Out := s.scalar 5 2 [a, b] d (op2 fun a b => minS a b)

/-- MAX (R93). -/
def execMax (d : Dst) (a b : Src) (s : State) : Out := s.scalar 5 2 [a, b] d (op2 fun a b => maxS a b)

/-- MINN (R93). -/
def execMinn (d : Dst) (a b : Src) (s : State) : Out := s.scalar 5 2 [a, b] d (op2 fun a b => minU a b)

/-- MAXN (R93). -/
def execMaxn (d : Dst) (a b : Src) (s : State) : Out := s.scalar 5 2 [a, b] d (op2 fun a b => maxU a b)

/-- SH1ADD (R93). -/
def execSh1add (d : Dst) (a b : Src) (s : State) : Out := s.scalar 5 2 [a, b] d (op2 fun a b => a + b <<< 1)

/-- SH2ADD (R93). -/
def execSh2add (d : Dst) (a b : Src) (s : State) : Out := s.scalar 5 2 [a, b] d (op2 fun a b => a + b <<< 2)

/-- SH3ADD (R93). -/
def execSh3add (d : Dst) (a b : Src) (s : State) : Out := s.scalar 5 2 [a, b] d (op2 fun a b => a + b <<< 3)

/-- SH4ADD (R93). -/
def execSh4add (d : Dst) (a b : Src) (s : State) : Out := s.scalar 5 2 [a, b] d (op2 fun a b => a + b <<< 4)

/-! ## MAJ 6 and 7 (R94, R98) -/

/-- ADDI (R94). -/
def execAddi (d : Dst) (a : Src) (i : Fin 1024) (s : State) : Out := s.scalar 6 2 [a] d (op1 fun x => x + imm 10 i.val)

/-- ANDI (R94). -/
def execAndi (d : Dst) (a : Src) (i : Fin 1024) (s : State) : Out := s.scalar 6 2 [a] d (op1 fun x => x &&& imm 10 i.val)

/-- ORI (R94). -/
def execOri (d : Dst) (a : Src) (i : Fin 1024) (s : State) : Out := s.scalar 6 2 [a] d (op1 fun x => x ||| imm 10 i.val)

/-- SLLI (R94). -/
def execSlli (d : Dst) (a : Src) (n : Fin 64) (s : State) : Out := s.scalar 6 2 [a] d (op1 fun x => x <<< n.val)

/-- SRLI (R94). -/
def execSrli (d : Dst) (a : Src) (n : Fin 64) (s : State) : Out := s.scalar 6 2 [a] d (op1 fun x => x >>> n.val)

/-- SRAI (R94). -/
def execSrai (d : Dst) (a : Src) (n : Fin 64) (s : State) : Out := s.scalar 6 2 [a] d (op1 fun x => x.sshiftRight n.val)

/-- RORI (R94). -/
def execRori (d : Dst) (a : Src) (n : Fin 64) (s : State) : Out := s.scalar 6 2 [a] d (op1 fun x => x.rotateRight n.val)

/-- LIH (R98). -/
def execLih (d : Fin 32) (i : Fin 1048576) (s : State) : Out := s.scalar 7 2 [] (.g d) fun _ => imm 20 i.val <<< 10

/-! ## MAJ 8 (R95, R96) -/

/-- SLL (R95). -/
def execSll (d : Dst) (a b : Src) (s : State) : Out := s.scalar 8 2 [a, b] d (op2 fun a b => a <<< (b.toNat % 64))

/-- SRL (R95). -/
def execSrl (d : Dst) (a b : Src) (s : State) : Out := s.scalar 8 2 [a, b] d (op2 fun a b => a >>> (b.toNat % 64))

/-- SRA (R95). -/
def execSra (d : Dst) (a b : Src) (s : State) : Out := s.scalar 8 2 [a, b] d (op2 fun a b => a.sshiftRight (b.toNat % 64))

/-- ROR (R95). -/
def execRor (d : Dst) (a b : Src) (s : State) : Out := s.scalar 8 2 [a, b] d (op2 fun a b => a.rotateRight (b.toNat % 64))

/-- SEQ (R95). -/
def execSeq (d : Dst) (a b : Src) (s : State) : Out := s.scalar 8 2 [a, b] d (op2 fun a b => flagW (a == b))

/-- SNE (R95). -/
def execSne (d : Dst) (a b : Src) (s : State) : Out := s.scalar 8 2 [a, b] d (op2 fun a b => flagW (a != b))

/-- SLT (R95). -/
def execSlt (d : Dst) (a b : Src) (s : State) : Out := s.scalar 8 2 [a, b] d (op2 fun a b => flagW (a.slt b))

/-- SGE (R95). -/
def execSge (d : Dst) (a b : Src) (s : State) : Out := s.scalar 8 2 [a, b] d (op2 fun a b => flagW !(a.slt b))

/-- SLTN (R95). -/
def execSltn (d : Dst) (a b : Src) (s : State) : Out := s.scalar 8 2 [a, b] d (op2 fun a b => flagW (a.ult b))

/-- SGEN (R95). -/
def execSgen (d : Dst) (a b : Src) (s : State) : Out := s.scalar 8 2 [a, b] d (op2 fun a b => flagW !(a.ult b))

/-- CLZ (R95). -/
def execClz (d : Dst) (a : Src) (s : State) : Out := s.scalar 8 2 [a] d (op1 clzW)

/-- CTZ (R95). -/
def execCtz (d : Dst) (a : Src) (s : State) : Out := s.scalar 8 2 [a] d (op1 ctzW)

/-- POPC (R95). -/
def execPopc (d : Dst) (a : Src) (s : State) : Out := s.scalar 8 2 [a] d (op1 popcW)

/-- EXT_I8 (R95). -/
def execExtI8 (d : Dst) (a : Src) (s : State) : Out := s.scalar 8 2 [a] d (op1 (extS 8))

/-- EXT_I16 (R95). -/
def execExtI16 (d : Dst) (a : Src) (s : State) : Out := s.scalar 8 2 [a] d (op1 (extS 16))

/-- EXT_I32 (R95). -/
def execExtI32 (d : Dst) (a : Src) (s : State) : Out := s.scalar 8 2 [a] d (op1 (extS 32))

/-- EXT_N8 (R95). -/
def execExtN8 (d : Dst) (a : Src) (s : State) : Out := s.scalar 8 2 [a] d (op1 (extU 8))

/-- EXT_N16 (R95). -/
def execExtN16 (d : Dst) (a : Src) (s : State) : Out := s.scalar 8 2 [a] d (op1 (extU 16))

/-- EXT_N32 (R95). -/
def execExtN32 (d : Dst) (a : Src) (s : State) : Out := s.scalar 8 2 [a] d (op1 (extU 32))

/-- SEL (R96): the condition is gD as it was; both sources are read on either outcome. -/
def execSel (d : Fin 32) (a b : Src) (s : State) : Out :=
  s.gate { maj := 8, chans := [a, b].flatMap srcChan } (d :: [a, b].flatMap srcRegs) fun _ =>
    match s.srcs [a, b] with
    | .vals vs s1 => (s1.upMe fun t => t.put d (op2 (fun x y => if s.me.get d ≠ 0 then x else y) vs)).done 2
    | .wait w o => s.block w o
    | .chan x => s.trap cCHAN x

/-! ## MAJ 9 (R97) -/

/-- MUL (R97). -/
def execMul (d : Dst) (a b : Src) (s : State) : Out := s.scalar 9 2 [a, b] d (op2 fun a b => a * b)

/-- MULH (R97). -/
def execMulh (d : Dst) (a b : Src) (s : State) : Out := s.scalar 9 2 [a, b] d (op2 fun a b => mulhS a b)

/-- MULHN (R97). -/
def execMulhn (d : Dst) (a b : Src) (s : State) : Out := s.scalar 9 2 [a, b] d (op2 fun a b => mulhU a b)

/-- DIV (R97). -/
def execDiv (d : Dst) (a b : Src) (s : State) : Out := s.scalar 9 2 [a, b] d (op2 fun a b => divS a b)

/-- DIVN (R97). -/
def execDivn (d : Dst) (a b : Src) (s : State) : Out := s.scalar 9 2 [a, b] d (op2 fun a b => divU a b)

/-- REM (R97). -/
def execRem (d : Dst) (a b : Src) (s : State) : Out := s.scalar 9 2 [a, b] d (op2 fun a b => remS a b)

/-- REMN (R97). -/
def execRemn (d : Dst) (a b : Src) (s : State) : Out := s.scalar 9 2 [a, b] d (op2 fun a b => remU a b)

/-! ## H16 forms (R33) -/

/-- MOV_H16 (R33). -/
def execMovH16 (g b : Fin 32) (s : State) : Out := s.scalar 5 1 [.g b] (.g g) (op1 fun y => y)

/-- ADD_H16 (R33). -/
def execAddH16 (g b : Fin 32) (s : State) : Out := s.scalar 5 1 [.g g, .g b] (.g g) (op2 fun x y => x + y)

/-- SUB_H16 (R33). -/
def execSubH16 (g b : Fin 32) (s : State) : Out := s.scalar 5 1 [.g g, .g b] (.g g) (op2 fun x y => x - y)

/-- AND_H16 (R33). -/
def execAndH16 (g b : Fin 32) (s : State) : Out := s.scalar 5 1 [.g g, .g b] (.g g) (op2 fun x y => x &&& y)

/-- OR_H16 (R33). -/
def execOrH16 (g b : Fin 32) (s : State) : Out := s.scalar 5 1 [.g g, .g b] (.g g) (op2 fun x y => x ||| y)

/-- XOR_H16 (R33). -/
def execXorH16 (g b : Fin 32) (s : State) : Out := s.scalar 5 1 [.g g, .g b] (.g g) (op2 fun x y => x ^^^ y)

/-- MUL_H16 (R33). -/
def execMulH16 (g b : Fin 32) (s : State) : Out := s.scalar 5 1 [.g g, .g b] (.g g) (op2 fun x y => x * y)

/-- LI_H16 (R33). -/
def execLiH16 (g : Fin 32) (i : Fin 64) (s : State) : Out := s.scalar 5 1 [] (.g g) fun _ => imm 6 i.val

/-- ADDI_H16 (R33). -/
def execAddiH16 (g : Fin 32) (i : Fin 64) (s : State) : Out := s.scalar 5 1 [.g g] (.g g) (op1 fun x => x + imm 6 i.val)

/-- SLLI_H16 (R33). -/
def execSlliH16 (g : Fin 32) (i : Fin 64) (s : State) : Out := s.scalar 5 1 [.g g] (.g g) (op1 fun x => x <<< i.val)

/-- SRLI_H16 (R33). -/
def execSrliH16 (g : Fin 32) (i : Fin 64) (s : State) : Out := s.scalar 5 1 [.g g] (.g g) (op1 fun x => x >>> i.val)

/-- SRAI_H16 (R33). -/
def execSraiH16 (g : Fin 32) (i : Fin 64) (s : State) : Out := s.scalar 5 1 [.g g] (.g g) (op1 fun x => x.sshiftRight i.val)

end Sys2Proof.Machine
end

