-- ==== Sys2Proof/Machine/Control.lean ====
section
/-! DEFINITION. Control transfers, NOP, BRK, control and status registers, and block fetch: MAJ 1 to 4 (R37 to R44, R85 to R103). -/
namespace Sys2Proof.Machine

/-! ## Transfers (R85 to R89) -/

/-- The target of a relative transfer: the word's address plus 2 × the signed offset of n bits (R32). -/
def Thread.target (t : Thread) (n off : Nat) : Nat := addrAdd t.pc (2 * sint n off)

/-- JMP (R85). -/
def execJmp (o : Fin 33554432) (s : State) : Out :=
  s.gate { maj := 1 } [] fun _ => .next (s.upMe fun t => t.transfer (t.target 25 o.val) t.pc .jump)

/-- CALL (R85, R41): g31 takes the header after the calling block. -/
def execCall (o : Fin 33554432) (s : State) : Out :=
  s.gate { maj := 2 } [] fun _ =>
    .next (s.upMe fun t => (t.put 31 (word t.nextHdr)).transfer (t.target 25 o.val) t.pc .call)

/-- The condition of a branch (R32). -/
def condHolds (c : Nat) (a b : Word) : Bool :=
  match c with
  | 0 => a == b
  | 1 => a != b
  | 2 => a.slt b
  | 3 => !(a.slt b)
  | 4 => a.ult b
  | _ => !(a.ult b)

/-- The conditional branch (R86). -/
def execConditionalBranch (c : Fin 8) (a b : Fin 32) (o : Fin 4096) (s : State) : Out :=
  s.gate { maj := 3 } [a, b] fun _ =>
    if condHolds c.val (s.me.get a) (s.me.get b) then
      .next (s.upMe fun t => t.transfer (t.target 12 o.val) t.pc .jump)
    else s.done 2

/-- NOP, both encodings (R48, R90). -/
def execNop (s : State) : Out := s.gate { maj := 4 } [] fun _ => s.done 2

def execNopH16 (s : State) : Out := s.gate { maj := 5 } [] fun _ => s.done 1

/-- An indirect transfer: an odd target raises BTGT 0x03 at issue with no effect; TRAPPC holds the target (R42, R89, R397). -/
def State.indirect (s : State) (target : Word) (k : FetchKind) (link : Bool) : Out :=
  if target.toNat % 2 = 1 then .next (s.trapAt s.cc s.cr { s.me.faultHere cBTGT 0x03 0 0 with trappc := target.toNat })
  else .next (s.upMe fun t => (if link then t.put 31 (word t.nextHdr) else t).transfer target.toNat t.pc k)

/-- RET (R88). -/
def execRet (s : State) : Out := s.gate { maj := 4 } [31] fun _ => s.indirect (s.me.get 31) .jump false

/-- JR (R88). -/
def execJr (a : Fin 32) (s : State) : Out := s.gate { maj := 4 } [a] fun _ => s.indirect (s.me.get a) .jump false

/-- CALLR (R88): the target is read before g31 is written. -/
def execCallr (a : Fin 32) (s : State) : Out := s.gate { maj := 4 } [a] fun _ => s.indirect (s.me.get a) .call true

/-- BRK (R91). -/
def execBrk (c : Fin 16384) (s : State) : Out := s.gate { maj := 4 } [] fun _ => s.trapAfter 2 cBRK c.val

/-! ## Control and status registers (R99 to R103) -/

/-- The 16-bit field of a thread in WSR (R303). -/
def Thread.wsr (t : Thread) : Nat := t.why % 16 * 4096 + t.wcode % 4 * 1024 + t.obj % 64

/-- WSR of a core. -/
def Core.wsr (k : Core) : Nat :=
  (k.thr .L).wsr + 65536 * (k.thr .C).wsr + 65536 ^ 2 * (k.thr .S).wsr + 65536 ^ 3 * (k.thr .T).wsr

/-- The value of CSR n for a thread of core c (R66, R100, R102, R104, R303, R397, R430). -/
def State.csr (s : State) (c : Fin 64) (r : Role) (n : Nat) : Word :=
  let k := s.core c
  let t := s.thr c r
  match n with
  | 0x00 => t.fpcr
  | 0x01 => t.rngseed.setWidth 64
  | 0x02 => t.rngctr.setWidth 64
  | 0x08 => word (k.bndv * 65536)
  | 0x09 => word (k.bnds * 65536)
  | 0x0A => word (k.bndc * 65536)
  | 0x0B => word k.l1gen
  | 0x10 => word k.teamix
  | 0x11 => word k.teamsz
  | 0x12 => word c.val
  | 0x13 => match k.ctx with
    | some i => word i
    | none => word (2 ^ 63)
  | 0x14 => word k.taskid
  | 0x18 => word k.wsr
  | 0x20 => k.trapc
  | 0x21 => k.trapa
  | 0x22 => k.trappc
  | 0x23 => k.trapw
  | 0x30 => 0x7FFF
  | 0x34 => s.featack
  | 0x38 => flagW s.featlock
  | _ => 0

/-- Outside T a read, or a write, of this CSR raises PRIV (R100, R101). -/
def csrPrivR (n : Nat) : Bool := n == 0x12 || (decide (0x20 ≤ n) && decide (n ≤ 0x23))

def csrPrivW (n : Nat) : Bool := csrPrivR n || (decide (0x34 ≤ n) && decide (n ≤ 0x38))

/-- FPCR after a write (R66): reserved bits stay clear and RM keeps its value for a written 6 or 7. -/
def fpcrWrite (old v : Word) : Word :=
  if 6 ≤ bits v.toNat 5 3 then (v &&& 0x1C1F) ||| (old &&& 0xE0) else v &&& 0x1CFF

/-- The state after thread r of core c writes v to CSR n; a field that is not writable there keeps its value. -/
def State.csrSet (s : State) (c : Fin 64) (r : Role) (n : Nat) (v : Word) : State :=
  match n with
  | 0x00 => s.upThr c r fun t => { t with fpcr := fpcrWrite t.fpcr v }
  | 0x01 => s.upThr c r fun t => { t with rngseed := v.setWidth 32 }
  | 0x02 => s.upThr c r fun t => { t with rngctr := v.setWidth 32 }
  | 0x20 => s.upCore c fun k => { k with trapc := v &&& 0x3FF }
  | 0x21 => s.upCore c fun k => { k with trapa := v }
  | 0x22 => s.upCore c fun k => { k with trappc := v, tpcw := true }
  | 0x23 => s.upCore c fun k => { k with trapw := v &&& 0xFFFFFFFF }
  | 0x34 => if s.featlock then s else { s with featack := (v &&& 0x7FFE) ||| 1 }
  | 0x38 => if v.getLsbD 0 then { s with featlock := true } else s
  | _ => s

/-- A queued vector instruction that may still raise flags in FPCR (R68): all but the integer and bit forms. -/
def floatOp : Instr → Bool
  | .vaddF32 .. | .vsubF32 .. | .vmulF32 .. | .vfmaF32 .. | .vfmsF32 .. | .vminF32 .. | .vmaxF32 .. | .vcmpF32 ..
  | .vrsumF32 .. | .vcsumF32 .. | .vrmaxF32 .. | .vcmaxF32 .. | .vrminF32 .. | .vcminF32 ..
  | .vcvtBf16F32 .. | .vcvtF16F32 .. | .vcvtE4m3F32 .. | .vcvtE5m2F32 .. | .vcvtF32Bf16 .. | .vcvtF32F16 ..
  | .vcvtF32E4m3 .. | .vcvtF32E5m2 .. | .vcvtI32F32 .. | .vcvtN32F32 .. | .vcvtF32I32 .. | .vcvtF32N32 .. | .vrintF32 ..
  | .vcmpr .. | .vcvtMxF32 .. | .vcvtF32Mx .. | .vexpF32 .. | .vexp2F32 .. | .vlog2F32 .. | .vrcpF32 .. | .vrsqrtF32 .. | .vsqrtF32 ..
  | .vtanhF32 .. | .vtopkF32 .. | .vscanF32 .. | .vrandF32 .. => true
  | _ => false

/-- CSRR (R99 to R103): a read of FPCR waits for the thread's floating operations (R68). -/
def execCsrr (d : Fin 32) (n : Fin 128) (s : State) : Out :=
  s.gate { maj := 4, priv := csrPrivR n.val } [] fun _ =>
    if n.val = 0 ∧ s.myCore.vq.any (fun e => e.role == s.cr && floatOp e.op) then s.hold
    else (s.upMe fun t => t.put d (s.csr s.cc s.cr n.val)).done 2

/-- CSRW (R99 to R103). -/
def execCsrw (a : Fin 32) (n : Fin 128) (s : State) : Out :=
  s.gate { maj := 4, priv := csrPrivW n.val } [a] fun _ => (s.csrSet s.cc s.cr n.val (s.me.get a)).done 2

/-! ## Block fetch (R38 to R43, R89, R106) -/

/-- What a fetch of bytes gives. -/
inductive FetchRes where
  | ok (bs : List Byte)
  /-- The leaf is BUSY (R164). -/
  | busy
  /-- A link direction on the way has stopped, or the page is in walk (R177, R426). -/
  | held
  /-- The miss table has no entry for it (R177). -/
  | miss
  | bad (cause detail va : Nat)

/-- Fetches bytes of thread r that lie within one page, through the L2 and never the L1 (R38); the core's TLB or a walk translates. -/
def State.fetchPiece (s : State) (c : Fin 64) (r : Role) (va n : Nat) : FetchRes :=
  let asid := (s.core c).view.asid
  let miss := (s.core c).ctlb.all fun t => !(t.hits asid va)
  if inWindow va then .bad cPAGE 0x40 va
  else if miss && (s.core c).missFull (.fetch r) asid va then .miss
  else if miss && ((s.core c).inWalk asid va || s.walkHeld c asid va) then .held
  else
    let leaf := match (s.core c).ctlb.find? (·.hits asid va) with
      | some t => Except.ok t.leaf.toNat
      | none => match s.walk (dieOf c) asid va with
        | .leaf _ e => .ok e
        | .stop _ ca d => .error (ca, d)
    match leaf with
    | .error (ca, d) => .bad ca d va
    | .ok e =>
      if leafBusy e then .busy
      else match leafAccess .fetch false e with
      | some (ca, d) => .bad ca d va
      | none =>
        let pa := leafAddr e va
        match s.lost (dieOf c) pa with
        | some d => .bad cDIEX d va
        | none =>
          if s.tripHeld c pa then .held
          else if s.anyPoison pa n then .bad cPOISON 0 va else .ok (s.phys pa n)

/-- Fetches n bytes, page by page. -/
def State.fetchBytes (s : State) (c : Fin 64) (r : Role) (va n : Nat) : FetchRes :=
  (pagePieces (n / 4096 + 2) va n).foldl (fun acc p =>
    match acc with
    | .ok bs =>
      match s.fetchPiece c r p.1 p.2 with
      | .ok t => .ok (bs ++ t)
      | r => r
    | r => r) (.ok [])

/-- The header checks (R37, R42, R47): cause and detail of the first that fails. DESIGN CHOICE: of a transfer to a header that fails a header
check and is no entry header either, ILL 0x09 comes before BTGT 0x02 (log 138). -/
def headerFault (h : Nat) (k : FetchKind) : Option (Nat × Nat) :=
  if bits h 0 7 ≠ 1 then some (cBTGT, if k = .fall then 0x04 else 0x01)
  else if bits h 7 10 < 4 ∨ 2 ≤ bits h 30 2 ∨ (bits h 17 1 = 1 ∧ bits h 23 7 ≠ 0) then some (cILL, 0x09)
  else if (k = .call ∨ k = .entry) ∧ bits h 30 2 ≠ 1 then some (cBTGT, 0x02)
  else none

/-- What a block fetch finds. -/
inductive BlockRes where
  | ok (b : Blk)
  | busy
  | held
  | miss
  | bad (cause detail va kind : Nat)

/-- The block that thread r has for a fetch: the one in its loop buffer, for a transfer to its header (R41); or, to fall through, the one that
it has read since its last iteration began (R45). -/
def Thread.holds (t : Thread) (f : Fetch) : Option Blk :=
  if f.kind = .jump ∨ f.kind = .call then t.blk.filter fun b => b.hdr == f.target
  else if f.kind = .fall then t.ahead.filter fun b => b.hdr == f.target
  else none

/-- The block that a fetch of thread r names: one that the thread has, or the one in memory (R38, R41). DESIGN CHOICE: the header checks come
before PAGE for a later page of the block (log 139). -/
def State.findBlock (s : State) (c : Fin 64) (r : Role) (t : Thread) (f : Fetch) : BlockRes :=
  let held := t.holds f
  match held with
  | some b =>
    match headerFault b.head.toNat f.kind with
    | some (ca, d) => .bad ca d 0 0
    | none => .ok b
  | none =>
    if f.target % 2 = 1 then .bad cBTGT 0x03 0 0
    else match s.fetchBytes c r f.target 4 with
    | .busy => .busy
    | .held => .held
    | .miss => .miss
    | .bad ca d va => .bad ca d va 4
    | .ok hb =>
      match headerFault (leNat hb) f.kind with
      | some (ca, d) => .bad ca d 0 0
      | none =>
        match s.fetchBytes c r (f.target + 4) (2 * bits (leNat hb) 7 10 - 4) with
        | .busy => .busy
        | .held => .held
        | .miss => .miss
        | .bad ca d va => .bad ca d va 4
        | .ok bs => .ok { hdr := f.target, head := BitVec.ofNat 32 (leNat hb), body := leHalves bs }

/-- The extra iterations that a header asks for (R39). -/
def Thread.count (t : Thread) (head : Nat) : Nat :=
  if bits head 17 1 = 1 then (t.get (Fin.ofNat 32 (bits head 18 5))).toNat else bits head 18 12

/-- Enters a block: the count is read once, a resume goes on where it stopped, an entry header is a safe point (R39, R43, R44). -/
def Thread.enter (t : Thread) (b : Blk) (k : FetchKind) (role : Role) (preempt : Nat) : Thread :=
  let t := { t with hdr := b.hdr, blk := some b, fetch := none, ahead := none, why := 0, obj := 0 }
  match k with
  | .resume reps wpos => { t with reps := reps, wpos := wpos }
  | _ =>
    let t := { t with reps := t.count b.head.toNat, wpos := 0 }
    if bits b.head.toNat 30 2 = 1 ∧ role ≠ .T then t.safePoint preempt allLive else t

/-- In its last iteration thread t starts the fetch of the block that it would fall through to (R45). -/
def Thread.looksAhead (t : Thread) : Option Fetch :=
  if t.fetch.isNone && t.blk.isSome && t.reps == 0 && t.ahead.isNone then some { target := t.nextHdr, src := t.hdr, kind := .fall }
  else none

/-- The fetch that begins with the last iteration; what stops it is met when the thread falls through. -/
def State.fetchAhead (s : State) (c : Fin 64) (r : Role) : State :=
  match (s.thr c r).looksAhead with
  | none => s
  | some f => match s.findBlock c r (s.thr c r) f with
    | .ok b => s.upThr c r fun t => { t with ahead := some b }
    | _ => s

/-- BLOCK_FETCH for thread r of core c (R38). -/
def State.blockFetch (s : State) (c : Fin 64) (r : Role) : State :=
  let t := s.thr c r
  if t.status ≠ .running ∨ t.trap.isSome ∨ s.acqOpen c r then s
  else match t.fetch with
  | none => s.fetchAhead c r
  | some f =>
    match s.findBlock c r t f with
    | .held => s
    | .miss => s.upCore c fun k => k.awaitWalk (.fetch r)
    | .busy => s.upThr c r fun t => { t with why := 13, obj := 0 }
    | .bad ca d va kind =>
      s.trapAt c r
        { cause := ca, detail := d, trapa := f.src, trappc := f.target, fva := va,
          kind := kind, hdr := t.hdr, reps := t.reps, wpos := t.wpos }
    | .ok b =>
      let waits : Bool := match f.kind with
        | .resume _ _ => false
        | _ => bits b.head.toNat 17 1 == 1 && !(t.ready (Fin.ofNat 32 (bits b.head.toNat 18 5)))
      if waits then s
      else (s.upCore c fun k => k.unwaitWalk (.fetch r)).upThr c r fun t => t.enter b f.kind r (s.preemptOf c)

/-- BLOCK_FETCH (R38). -/
def execBlockFetch (c : Fin 64) (r : Role) (s : State) : Out := .next (s.blockFetch c r)

end Sys2Proof.Machine
end

