-- ==== Sys2Proof/Machine/Access.lean ====
section
/-! DEFINITION. What the memory instructions share: pool windows, the checks of R127 in their order, translation by TLB and walk,
copy-on-write breaks, the store buffer, L1 lookup, the request table, releases and acquires (R106 to R114, R127, R131 to R137). -/
namespace Sys2Proof.Machine

/-! ## Windows (R106 to R108) -/

/-- Where an access lands: the own pool, a member's scratchpad, or device memory with its leaf. -/
inductive Site where
  | own (o : Nat)
  | peer (m : Fin 64) (o : Nat)
  | dev (pa : Nat) (e : Nat)
  deriving DecidableEq, Repr

/-- Service-area offsets that T's stores do not change (R394). -/
def reservedService (o : Nat) : Bool :=
  (decide (0x7810C0 ≤ o) && decide (o < 0x781400)) || (decide (0x781C00 ≤ o) && decide (o < 0x782000)) ||
    (decide (0x782800 ≤ o) && decide (o < 0x784000))

/-- The window rules for an address: `none` outside the window range; else the PAGE detail or the site. -/
def State.window (s : State) (c : Fin 64) (r : Role) (va : Nat) (a : Acc) : Option (Except Nat Site) :=
  let k := s.core c
  if !(inWindow va) then none
  else if 0x00FF000000000000 ≤ va ∧ va < 0x00FF000000800000 then
    let o := va - 0x00FF000000000000
    some (
      if a = .atomic then .error 0x44
      else if o < k.bndv * 65536 then .error 0x41
      else if o < k.bnds * 65536 then .ok (.own o)
      else if o < 0x780000 then .error 0x42
      else if a = .write ∧ r ≠ .T ∧ (o < 0x780800 ∨ 0x781000 ≤ o) then .error 0x43
      else .ok (.own o))
  else if va < 0x00F0000010000000 then
    let j := (va - 0x00F0000000000000) / 2 ^ 24
    let o := va % 2 ^ 24
    some (
      if a = .atomic then .error 0x44
      else if j < k.teamsz ∧ k.bndv * 65536 ≤ o ∧ o < k.bnds * 65536 then
        match s.member c j with
        | some m => .ok (.peer m o)
        | none => .error 0x45
      else .error 0x45)
  else some (.error 0x40)

/-! ## Lines and ownership of a thread's accesses -/

/-- The port TLB of a thread (R176). -/
def portOf : Role → Fin 6
  | .L => 0
  | .S => 1
  | _ => 2

/-- The L1 may hold lines of this leaf (R110). -/
def leafL1 (e : Nat) : Bool := !(leafMs e) && !(leafSk e) && leafFmt e == 0

/-- Served at the base die (R113, R364). -/
def leafBd (e : Nat) : Bool := leafMs e || leafSk e

/-- The L1's capacity in lines (R105). -/
def Core.l1cap (k : Core) : Nat := (k.bndc - k.bnds) * 1024

/-- A line that the L1 hits: present with the current generation (R111). -/
def Core.l1hit (k : Core) (ln : Nat) : Option L1Line := k.l1.find? fun x => x.line == ln && x.tag == k.l1gen

def Core.l1drop (k : Core) (ln : Nat) : Core := { k with l1 := k.l1.filter (·.line ≠ ln) }

/-- Allocates a line. One whose generation has passed would never hit; an older copy of it goes, so that its thread's later reads
find nothing coherence-earlier (R132). -/
def Core.l1fill (k : Core) (ln tag : Nat) (bs : List Byte) : Core :=
  if tag ≠ k.l1gen ∨ k.l1clear then k.l1drop ln
  else { k with l1 := ({ line := ln, tag := tag, bytes := bs, bad := false } :: k.l1.filter (·.line ≠ ln)).take k.l1cap }

/-- A store of the core in its L1: a hit takes the bytes, clean if they are the whole line; an older line goes (R110, R112, R129). -/
def Core.l1store (k : Core) (cells : List (Nat × Byte)) : Core :=
  { k with l1 := k.l1.filterMap fun x =>
      if cells.any (fun e => e.1 / 64 == x.line) then
        if x.tag = k.l1gen then
          some { x with bytes := cells.foldl (fun bs e => if e.1 / 64 = x.line then bs.set (e.1 % 64) e.2 else bs) x.bytes,
                        bad := x.bad && !((List.range 64).all fun i => cells.any fun e => e.1 == 64 * x.line + i) }
        else none
      else some x }

/-- A store of the core that its L1 has taken and that is not performed lies in a line of device memory: requests of the core to the line
follow it (R11, R132). -/
def Core.seenLine (k : Core) (ln : Nat) : Bool :=
  k.threads.toList.any fun t => t.stores.any fun st => st.seen.isSome && st.bytes.any fun e => e.1 / 64 == ln

/-- Another store of the core to a byte of store `st` comes before it: one that the L1 took earlier, or took when `st` is not there yet. -/
def Core.seenBefore (k : Core) (st : Store) : Bool :=
  k.threads.toList.any fun t => t.stores.any fun x => x.id != st.id && x.pool == st.pool && x.ms == st.ms &&
    (match x.seen, st.seen with
      | some n, some m => decide (n < m)
      | some _, none => true
      | none, _ => false) && x.bytes.any fun e => st.bytes.any fun f => e.1 == f.1

/-- A read of the thread is outstanding (R134). -/
def State.reading (s : State) (c : Fin 64) (r : Role) : Bool := (s.core c).reqs.any fun q => q.role == r && q.isRead

/-- The thread has an outstanding cached read of a line. -/
def State.readingLine (s : State) (c : Fin 64) (r : Role) (ln : Nat) : Bool :=
  (s.core c).reqs.any fun q => q.role == r && q.isRead && q.pool == none && !q.ms && q.addr / 64 == ln

/-- The bytes of the thread's own stores, numbered below `id`, that are not performed show through its reads (R117, R132); not
between a cached and a memory-side mapping, which `ms` tells apart (R138). -/
def Thread.overlayByte (t : Thread) (pool : Option (Fin 64)) (ms : Bool) (id a : Nat) (b : Byte) : Byte :=
  t.stores.foldl (fun v st =>
    if st.pool = pool ∧ st.ms = ms ∧ st.id < id then st.bytes.foldl (fun v e => if e.1 = a then e.2 else v) v else v) b

def Thread.overlay (t : Thread) (pool : Option (Fin 64)) (ms : Bool) (id a : Nat) : List Byte → List Byte
  | [] => []
  | b :: bs => t.overlayByte pool ms id a b :: t.overlay pool ms id (a + 1) bs

/-- A store of the thread below `id` that is not yet performed covers the line whole: later reads find it clean (R129, R132). -/
def Thread.cleans (t : Thread) (pool : Option (Fin 64)) (ms : Bool) (id l : Nat) : Bool :=
  t.stores.any fun st => st.pool == pool && st.ms == ms && decide (st.id < id) && (List.range 64).all fun i => st.bytes.any fun e => e.1 == 64 * l + i

/-- Read `id` of thread t through a cached or memory-side mapping meets poison in memory (R129). -/
def State.readsPoison (s : State) (t : Thread) (ms : Bool) (id pa n : Nat) : Bool :=
  s.anyPoison pa n && (linesOf pa n).any fun l => s.poisoned l && !(t.cleans none ms id l)

/-- Read `id` of thread t meets poison in the pool of core m (R129). -/
def State.poolPoison (s : State) (t : Thread) (m : Fin 64) (id o n : Nat) : Bool :=
  (s.core m).anyPoison o n && (linesOf o n).any fun l => (s.core m).ppoison.contains l && !(t.cleans (some m) false id l)

/-- A store through which a record of R130 is pending for this thread. -/
def State.storeRecord (s : State) (c : Fin 64) (r : Role) : Bool :=
  (List.finRange 32).any fun i => match (s.core c).recs[i] with
    | some x => x.role == r && (match x.op with
      | .store _ => true
      | _ => false)
    | none => false

/-- A store of the thread numbered below `id` has become a record (R130). -/
def Core.storeRecBelow (k : Core) (r : Role) (id : Nat) : Bool :=
  (List.finRange 32).any fun i => match k.recs[i] with
    | some x => x.role == r && (match x.op with
      | .store st => decide (st.id < id)
      | _ => false)
    | none => false

/-- A buffered store of the thread whose target cannot be reached: it will be delivered or become a record (R130, R149). -/
def State.storeLost (s : State) (c : Fin 64) (r : Role) : Bool :=
  (s.thr c r).stores.any fun st => st.pool == none && (s.lost (dieOf c) st.addr).isSome

/-! ## Locks (R242, R243) -/

/-- A write of thread r to n bytes meets a live lock of the core; a parked lock does not hold T. -/
def Core.lockHit (k : Core) (r : Role) (space : Option Nat) (a n : Nat) : Bool :=
  k.locks.any fun l => l.space == space && overlap l.base l.len a n && !(l.parked && r == .T)

/-- The virtual address of a cell of a store. -/
def Store.vaOf (st : Store) (pa : Nat) : Nat := st.va + pa - st.addr

/-- A write of thread r of core c to n bytes of device memory meets a lock of the core's fills: at its virtual address, or at the
same place through another mapping (R242). -/
def State.fillLocked (s : State) (c : Fin 64) (r : Role) (va pa n : Nat) : Bool :=
  let k := s.core c
  k.lockHit r (some k.view.asid) va n ||
    k.locks.any fun l => !(l.parked && r == .T) && (match l.space with
      | none => false
      | some asid => (pagePieces (l.len / 4096 + 2) l.base l.len).any fun p => match s.walk (dieOf c) asid p.1 with
        | .leaf _ e => overlap (leafAddr e p.1) p.2 pa n
        | .stop _ _ _ => false)

/-- Bytes of a buffered store of core c meet a lock: of the addressed pool, or of the core's own fills (R242). A store of any core's T
passes a parked lock, through a peer window too (R243; log 130). -/
def State.cellsLocked (s : State) (c : Fin 64) (r : Role) (st : Store) : Bool :=
  match st.pool with
  | some m => st.bytes.any fun e => (s.core m).lockHit r none e.1 1
  | none => !((s.core c).locks.isEmpty) && st.bytes.any fun e => s.fillLocked c r (st.vaOf e.1) e.1 1

/-- A lock holds a buffered store: the write that it is a part of meets one, and is held whole (R242). -/
def State.storeLocked (s : State) (c : Fin 64) (r : Role) (st : Store) : Bool :=
  (s.thr c r).stores.any fun x => x.whole == st.whole && s.cellsLocked c r x

/-! ## Translation of a thread's access (R127 order 3 to 8) -/

/-- What checking one access gives: its site and the state with its TLBs, or why it does not go on. -/
inductive SiteRes where
  | ok (x : Site) (s : State)
  | fault (x : XFault)
  /-- The word blocks with this WHY (R303). -/
  | stall (why : Nat) (s : State)
  /-- The word waits for a walk. -/
  | hold (s : State)

/-- A walk of the page that holds `va` in address space `asid`. -/
def Walk.of (w : Walk) (asid va : Nat) : Bool := w.asid == asid && w.vpage == va / 4096

/-- Entries of core c's request table in use (R114): requests, stores to device memory that are not performed, armed watches
(R125), and the requests that wait for a walk (R177). -/
def State.entries (s : State) (c : Fin 64) : Nat :=
  let k := s.core c
  (k.reqs.filter fun q => q.pool == none).length +
    ((List.finRange 4).map fun i => (k.threads[i].stores.filter fun st => st.pool == none).length).sum +
    (s.watches.filter fun w => w.core == c).length + (k.walks.map fun w => w.roles.length).sum +
    (k.walkwait.filter fun i => match i with
      | .thr _ => true
      | _ => false).length

/-- Issuer i of core c may take n entries now: there is room, and no other issuer waits ahead of it (R114). -/
def State.roomFor (s : State) (c : Fin 64) (i : Issuer) (n : Nat) : Bool :=
  decide (n = 0) || decide (s.entries c + n ≤ 8192) && ((s.core c).reqwait.isEmpty || (s.core c).reqwait.head? == some i)

/-- The current thread may take n entries now. -/
def State.room (s : State) (n : Nat) : Bool := s.roomFor s.cc (.thr s.cr) n

/-- Issuer i waits for an entry. -/
def Core.await (k : Core) (i : Issuer) : Core :=
  { k with reqwait := if k.reqwait.contains i then k.reqwait else k.reqwait ++ [i] }

/-- Issuer i waits no more. -/
def Core.unwait (k : Core) (i : Issuer) : Core := { k with reqwait := k.reqwait.filter (· ≠ i) }

/-- Issuer i waits for nothing any more, in the request table or the miss table. -/
def Core.leave (k : Core) (i : Issuer) : Core := (k.unwait i).unwaitWalk i

/-- A miss takes its request's entry, and joins its page's walk, starts one, or waits for an entry of the miss table in order
(R114, R177). -/
def State.startWalk (s : State) (va : Nat) : SiteRes :=
  let k := s.myCore
  let i := Issuer.thr s.cr
  if k.walks.any fun w => w.of s.asid va && w.roles.contains s.cr then .hold s
  else if !(k.walkwait.contains i) ∧ !(s.room 1) then .stall 8 (s.upMyCore fun k => k.await (.thr s.cr))
  else if k.walks.any fun w => w.of s.asid va then
    .hold (s.upMyCore fun k =>
      { k.leave i with
        walks := k.walks.map fun w => if w.of s.asid va then { w with roles := w.roles ++ [s.cr] } else w })
  else if !(k.missFull i s.asid va) then
    let (id, s) := s.fresh
    .hold (s.upMyCore fun k =>
      { k.leave i with
        walks := k.walks ++ [{ id := id, asid := s.asid, vpage := va / 4096, roles := [s.cr] }] })
  else .stall 8 (s.upMyCore fun k => (k.unwait i).awaitWalk i)

/-- A thread that joined the walk of page p before this one has not gone on yet (R177). -/
def Core.walkBehind (k : Core) (p : Nat) (ahead : List Role) : Bool :=
  ahead.any fun r => (k.thr r).status == .running && (k.thr r).trap == none && (match (k.thr r).xwalk with
    | some (q, _, _) => q == p
    | none => false)

/-- What asking the fork walker for a break gives (R171): the access waits, or no frame was found and there is still none. -/
inductive CowRes where
  | wait (s : State)
  | empty (size : Nat)

/-- A write to a copy-on-write leaf in address space `asid`, from die d for a region: the die's fork walker breaks the sharing, and the
access waits. A break that found no frame is tried again once its list has one. -/
def State.askCowFor (s : State) (d : Fin 4) (region asid va e : Nat) : CowRes :=
  let n := 4096 * sizeFrames (leafSize e)
  let page := va / n * n
  match (s.die d).moves.find? fun m => m.cow && m.asid == asid && m.va == page with
  | none =>
    let (id, s) := s.fresh
    let m : Move := { id := id, asid := asid, va := page, cow := true, tier := 0, frame := 0, locked := none, pa := 0,
                      region := region, waits := false, ended := none }
    .wait (s.setDie d { s.die d with moves := (s.die d).moves ++ [m] })
  | some m =>
    match m.ended with
    | none => .wait s
    | some z =>
      match s.hwRead d 0 (effective 11 (48 + 8 * z) 8 (s.lineage d region)) 8 with
      | .error _ => .empty z
      | .ok b =>
        if leNat b = 0 then .empty z
        else .wait (s.setDie d { s.die d with
          moves := (s.die d).moves.map fun x => if x.id = m.id then { x with ended := none } else x })

/-- A write of core c to such a leaf, for the region of its task. -/
def State.askCow (s : State) (c : Fin 64) (asid va e : Nat) : CowRes :=
  s.askCowFor (dieOf c) (s.core c).view.region asid va e

/-- The current thread's write waits for such a break, or traps (R171, R303). -/
def State.breakCow (s : State) (va e : Nat) (kind : Nat) : SiteRes :=
  match s.askCow s.cc s.asid va e with
  | .wait s1 => .stall 13 s1
  | .empty z => .fault { cause := cCOWX, detail := z, va := va, kind := kind }

/-- The checks of R127, orders 3 to 8, under a leaf. `ms`: the form of an atomic. `wr`: whether an access at this physical
address writes, which a CAS decides by its compare. DESIGN CHOICE: a load that hits a copy in the L1 of a line poisoned since in memory raises
no POISON (R129; log 125). -/
def State.underLeaf (s : State) (va n : Nat) (a : Acc) (ms : Option Bool) (wr : Nat → Bool) (e : Nat) : SiteRes :=
  let pa := leafAddr e va
  let bad := fun c d => SiteRes.fault { cause := c, detail := d, va := va, kind := a.kind }
  match leafAccess a false e with
  | some (c, d) => bad c d
  | none =>
    if ms = some false ∧ leafMs e then bad cPAGE 0x46
    else if ms = some true ∧ !(leafMs e) then bad cPAGE 0x47
    else if a.writes && leafCow e && leafWr e && wr pa then s.breakCow va e a.kind
    else match s.lost (dieOf s.cc) pa with
      | some d => bad cDIEX d
      | none =>
        let hit := a == .read && leafL1 e && (s.myCore.l1hit (pa / 64)).isSome && !(s.readingLine s.cc s.cr (pa / 64))
        let rotten := hit && (s.myCore.l1hit (pa / 64)).any fun x => x.bad && !(s.me.cleans none false s.nextOp (pa / 64))
        if rotten then bad cPOISON 0
        else if a ≠ .write ∧ a ≠ .watch ∧ !hit ∧ s.readsPoison s.me (leafBd e) s.nextOp pa n then bad cPOISON 0
        else .ok (.dev pa e) (s.upMyCore fun k => k.fillPort (portOf s.cr) s.asid va e)

/-- The checks of R127 for one access of n bytes at `va` with alignment `al`. -/
def State.site (s : State) (va n : Nat) (a : Acc) (al : Nat) (ms : Option Bool) (wr : Nat → Bool) : SiteRes :=
  let bad := fun c d => SiteRes.fault { cause := c, detail := d, va := va, kind := a.kind }
  match s.window s.cc s.cr va a with
  | some (.error d) => bad cPAGE d
  | some (.ok x) =>
    if va % al ≠ 0 then bad cALIGN al
    else
      let poison := a = .read ∧ (match x with
        | .own o => s.poolPoison s.me s.cc s.nextOp o n
        | .peer m o => s.poolPoison s.me m s.nextOp o n
        | .dev _ _ => false) = true
      if poison then bad cPOISON 0 else .ok x s
  | none =>
    if va % al ≠ 0 then bad cALIGN al
    else if s.me.xwalk.any fun x => x.1 == va / 4096 && s.myCore.walkBehind x.1 x.2.2 then .hold s
    else match s.myCore.tlb (portOf s.cr) s.asid va with
    | some e => (s.upMyCore fun k => k.unwaitWalk (.thr s.cr)).underLeaf va n a ms wr e
    | none =>
      match s.me.xwalk with
      | none => s.startWalk va
      | some (p, res, _) =>
        if p ≠ va / 4096 then s.startWalk va
        else match res with
        | .stop _ c d => bad c d
        | .leaf _ e =>
          if leafBusy e then .stall 13 (s.upMe fun t => { t with xwalk := none })
          else s.underLeaf va n a ms wr e

/-- The break that ended without a frame at this page is over once its fault is raised (R171). -/
def State.cowOver (s : State) (c : Fin 64) (asid : Nat) (x : XFault) : State :=
  let d := dieOf c
  if x.cause = cCOWX then
    s.setDie d { s.die d with moves := (s.die d).moves.filter fun m =>
      !(m.cow && m.ended.isSome && m.asid == asid && decide (m.va ≤ x.va) && decide (x.va < m.va + 65536)) }
  else s

/-- Ends a word that its access checks stopped. -/
def State.siteStop (s : State) (r : SiteRes) : Out :=
  match r with
  | .ok _ s1 => .next s1
  | .fault x => (s.cowOver s.cc s.asid x).trapX x
  | .stall w s1 => s1.block w 0
  | .hold s1 => s1.hold

/-! ## The request table (R114) -/

/-- The word blocks for the request table (R114, R303). -/
def State.waitRoom (s : State) : Out := (s.upMyCore fun k => k.await (.thr s.cr)).block 8 0

/-- Adds a request of the current thread; `plain` where its word has changed nothing yet (R49). -/
def State.addReq (s : State) (pa va : Nat) (e : Nat) (plain : Bool) (kind : ReqKind) : Nat × State :=
  let (id, s) := s.fresh
  let q : Req := { id := id, role := s.cr, addr := pa, pool := none, va := va, pages := sizeFrames (leafSize e), word := s.me.here,
                   nth := s.me.issued + 1, plain := plain, gen := s.myCore.l1gen, l1ok := leafL1 e, ms := leafBd e, kind := kind }
  (id, s.upMyCore fun k => { k.unwait (.thr s.cr) with reqs := k.reqs ++ [q] })

/-- A load from the pool of core m that is served later; it takes no entry of the request table (R109, R140). -/
def State.addPoolReq (s : State) (m : Fin 64) (off va : Nat) (plain : Bool) (kind : ReqKind) : Nat × State :=
  let (id, s) := s.fresh
  let q : Req := { id := id, role := s.cr, addr := off, pool := some m, va := va, pages := 1, word := s.me.here,
                   nth := s.me.issued + 1, plain := plain, gen := s.myCore.l1gen, l1ok := false, ms := false, kind := kind }
  (id, s.upMyCore fun k => { k with reqs := k.reqs ++ [q] })

/-! ## Acquires (R111, R134) -/

/-- L1GEN advances; at the wrap the L1 is cleared and its lookups stall until L1_WRAP_CLEAR_DONE (R111). -/
def Core.bumpL1 (k : Core) : Core :=
  if k.l1gen = 255 then { k with l1gen := 0, l1 := [], l1clear := true } else { k with l1gen := k.l1gen + 1 }

/-- An acquire of thread r of core c at scope `sc` completes (R134). Whether it was one at .sy decides what the thread may read of a line
that the host has written and a snoop still holds (R139). -/
def State.acquired (s : State) (c : Fin 64) (r : Role) (sc : Nat) : State :=
  let s := if sc = 0 then s else s.upThr c r fun t => { t with sysAcq := sc == 5 }
  if 2 ≤ sc then s.upCore c Core.bumpL1 else s

/-- What a release at scope `sc` makes the current thread do first (R133, R148): trap ENG 0x01, wait, or go on. -/
inductive RelRes where
  | go
  | wait
  | eng

/-- A release that must be complete before the word goes on: an atomic's, a FEN's, an arrival's. -/
def State.release (s : State) (sc : Nat) : RelRes :=
  if sc = 0 then .go
  else if 3 ≤ sc ∧ s.storeRecord s.cc s.cr then .eng
  else if s.outstanding s.cc s.cr s.nextOp ∨ (sc = 5 ∧ !s.hostup) then .wait
  else .go

/-- An asynchronous word issues only past earlier releases and acquires (R133, R134). -/
def State.asyncOpen (s : State) : Bool := s.relOpen s.cc s.cr || s.acqOpen s.cc s.cr

/-! ## Results that come later -/

/-- Writes a channel entry's value and makes it ready (R83, R296). -/
def Core.fulfilRing (k : Core) (id : Nat) (v : Word) : Core :=
  (List.finRange 32).foldl (fun k i =>
    let h := k.chans[i]
    match h.ring.find? (·.pend == some id) with
    | none => k
    | some e =>
      { k.setChan i { h with ring := h.ring.map fun x => if x.pend = some id then { x with pend := none } else x } with
        pool := k.pool.write (h.base + 8 * e.pos) (leBytes 8 v.toNat) }) k

/-- A link push in flight takes the value it waited for. -/
def Core.fulfilPosts (k : Core) (id : Nat) (v : Word) : Core :=
  { k with posts := k.posts.map fun p => match p.kind with
      | .push rix link pid _ pend => if pend = some id then { p with kind := .push rix link pid v none } else p
      | _ => p }

/-- Every ring entry of the package that operation `id` owes takes its value. -/
def State.fulfil (s : State) (c : Fin 64) (id : Nat) (v : Word) : State :=
  { (s.upCore c fun k => k.fulfilPosts id v) with
    cores := (s.upCore c fun k => k.fulfilPosts id v).cores.map fun k => k.fulfilRing id v }

/-- Operation `id` delivers its result to the thread's destination (R82, R83). -/
def State.deliverTo (s : State) (c : Fin 64) (r : Role) (d : Dest) (id : Nat) (v : Word) : State :=
  match d with
  | .g i => s.upThr c r fun t => t.deliver i id v
  | .ch _ => s.fulfil c id v

end Sys2Proof.Machine
end

