-- ==== Sys2Proof/Machine/Memory.lean ====
section
/-! DEFINITION. Memory instructions and the events of the memory side: scalar and vector loads and stores, atomics, prefetch and
WAITA (R109 to R130). -/
namespace Sys2Proof.Machine

/-! ## Scalar loads and stores (R116, R117) -/

/-- The value of a load from its bytes. -/
def loadValue (n : Nat) (signed : Bool) (bs : List Byte) : Word :=
  if signed then sextW (8 * n) (leNat bs) else word (leNat bs)

/-- The bytes a thread sees at a pool site now: the SRAM under its own stores. -/
def State.poolBytes (s : State) (m : Fin 64) (off n : Nat) : List Byte :=
  s.me.overlay (some m) false s.nextOp off ((s.core m).pool.read off n)

/-- The bytes of a line that the L1 gives this thread, if it hits and no earlier read of the line is under way (R111, R132). -/
def State.l1Bytes (s : State) (pa n e : Nat) : Option (List Byte) :=
  if leafL1 e && !(s.readingLine s.cc s.cr (pa / 64)) then
    (s.myCore.l1hit (pa / 64)).map fun x => s.me.overlay none false s.nextOp pa ((x.bytes.drop (pa % 64)).take n)
  else none

/-- Gives a load's destination to operation `id`: the register, or a channel entry (R82, R83). -/
def State.claim (s : State) (d : Dst) (id : Nat) : SrcRes :=
  match d with
  | .g i => .vals [] (s.upMe fun t => t.owe i id)
  | .ch i => s.push i 0 (some id)

def destOf : Dst → Dest
  | .g i => .g i
  | .ch i => .ch i

/-- The bytes that a request reads: address and length (R109, R122). -/
def Req.spans (q : Req) : List (Nat × Nat) :=
  match q.kind with
  | .load _ n _ => [(q.addr, n)]
  | .vload _ lanes _ => lanes.map fun x => (x.2, 4)
  | .atomic op _ _ _ _ _ => [(q.addr, if op = 19 then 16 else if op = 18 then 8 else if op % 2 = 0 then 4 else 8)]
  | .arm cmp _ _ _ => if cmp then [(q.addr, 8)] else []
  | .prefetch _ => []
  | .acquire _ => []

/-- A request reads one of n bytes at `a`, in a pool or through a cached or memory-side mapping of memory (R132, R138). -/
def Req.touches (q : Req) (pool : Option (Fin 64)) (ms : Bool) (a n : Nat) : Bool :=
  q.pool == pool && q.ms == ms && q.spans.any fun x => overlap x.1 x.2 a n

/-- Two requests read a common byte through one kind of mapping. -/
def Req.meets (q x : Req) : Bool := q.spans.any fun y => x.touches q.pool q.ms y.1 y.2

/-- A pool load of n bytes is served later than its issue: the turn says so, or an earlier one of the thread to its bytes still is
to be served (R132, R140). -/
def State.poolLater (s : State) (m : Fin 64) (off n : Nat) : Bool :=
  s.late || (s.myCore.reqs.any fun q => q.role == s.cr && q.touches (some m) false off n)

/-- A load names g registers alone, and no earlier word still owes its destination: it can be taken back (R49). -/
def Thread.plainLoad (t : Thread) (a : Src) : Dst → Bool
  | .g i => (srcChan a).isEmpty && t.ready i
  | .ch _ => false

/-- A load whose checks have passed at site `x`, with its source already read in `s`; `plain` where it names no channel. -/
def State.loadAt (s0 s : State) (x : Site) (va n : Nat) (signed plain : Bool) (d : Dst) : Out :=
  let finish := fun (r : SrcRes) => match r with
    | .vals _ s1 => s1.done 2
    | .wait w ob => s0.block w ob
    | .chan c => s0.trap cCHAN c
  let fromPool := fun (m : Fin 64) (off : Nat) =>
    if s.poolLater m off n then
      let (id, s1) := s.addPoolReq m off va plain (.load (destOf d) n signed)
      finish (s1.claim d id)
    else finish (s.dst d (loadValue n signed (s.poolBytes m off n)))
  match x with
  | .own off => fromPool s.cc off
  | .peer m off => fromPool m off
  | .dev pa e =>
    if leafL1 e ∧ s.myCore.l1clear then s0.hold
    else match s.l1Bytes pa n e with
    | some bs => finish (s.dst d (loadValue n signed bs))
    | none =>
      if !(s.room 1) then s0.waitRoom
      else
        let (id, s1) := s.addReq pa va e plain (.load (destOf d) n signed)
        finish (s1.claim d id)

/-- A scalar load of n bytes (R116). It issues only when its channels have the entry and the room (R35). -/
def State.loadWord (s : State) (n : Nat) (signed : Bool) (d : Dst) (a : Src) (off : Nat) : Out :=
  s.gate { maj := 10, chans := srcChan a ++ dstChan d } (srcRegs a) fun _ =>
    if s.acqOpen s.cc s.cr then s.block 10 0
    else match s.srcs [a] with
    | .vals vs s0 =>
      let va := addrAdd (vs.headD 0).toNat (sint 9 off * n)
      match s0.dst d 0 with
      | .wait w ob => s.block w ob
      | .chan c => s.trap cCHAN c
      | .vals _ _ =>
      match s.site va n .read n none (fun _ => false) with
      | .ok x s1 =>
        match s1.srcs [a] with
        | .vals _ s2 => s1.loadAt s2 x va n signed (s.me.plainLoad a d) d
        | _ => s1.hold
      | r => s.siteStop r
    | .wait w ob => s.block w ob
    | .chan c => s.trap cCHAN c

def Site.pool (c : Fin 64) : Site → Option (Fin 64)
  | .own _ => some c
  | .peer m _ => some m
  | .dev _ _ => none

def Site.addr : Site → Nat
  | .own off => off
  | .peer _ off => off
  | .dev pa _ => pa

def Site.ms : Site → Bool
  | .dev _ e => leafBd e
  | _ => false

def Site.isDev : Site → Bool
  | .dev _ _ => true
  | _ => false

/-- The 4 KiB frames of the page that the access was translated by. -/
def Site.pages : Site → Nat
  | .dev _ e => sizeFrames (leafSize e)
  | _ => 1

/-- A store joins the thread's buffer and retires (R117). -/
def State.bufferStore (s : State) (x : Site) (va : Nat) (whole : Nat) (cells : List (Nat × Byte)) : State :=
  let (id, s) := s.fresh
  let st : Store := { id := id, addr := x.addr, pool := x.pool s.cc, bytes := cells, ms := x.ms, va := va, pages := x.pages, whole := whole }
  s.upMe fun t => { t with stores := t.stores ++ [st] }

/-- The stores of a thread that meet a live lock wait on it (R242). DESIGN CHOICE: a parked lock lets a store of any core's T pass, through a
peer window too (R243; log 130). -/
def State.siteLocked (s : State) (x : Site) (va n : Nat) : Bool :=
  match x with
  | .own off => s.myCore.lockHit s.cr none off n
  | .peer m off => (s.core m).lockHit s.cr none off n
  | .dev pa _ => s.fillLocked s.cc s.cr va pa n

/-- T's stores to reserved service-area offsets change nothing (R394). -/
def Site.dead : Site → Bool
  | .own off => reservedService off
  | _ => false

/-- A scalar store of n bytes (R117). -/
def State.storeWord (s : State) (n : Nat) (d : Fin 32) (a : Src) (off : Nat) : Out :=
  s.gate { maj := 11, chans := srcChan a } (d :: srcRegs a) fun _ =>
    if s.asyncOpen then s.block 10 0
    else match s.srcs [a] with
    | .vals vs _ =>
      let va := addrAdd (vs.headD 0).toNat (sint 10 off * n)
      match s.site va n .write n none (fun _ => true) with
      | .ok x s1 =>
        if s1.siteLocked x va n then s1.block 6 0
        else if x.isDev ∧ !(s1.room 1) then s1.waitRoom
        else match s1.srcs [a] with
        | .vals _ s2 =>
          let cells := (List.range n).zip (leBytes n (s.me.get d).toNat) |>.map fun e => (x.addr + e.1, e.2)
          let s3 := s2.upMyCore fun k => if x.isDev then k.unwait (.thr s.cr) else k
          if x.dead then s2.done 2 else (s3.bufferStore x va s3.nextOp cells).done 2
        | _ => s1.hold
      | r => s.siteStop r
    | .wait w ob => s.block w ob
    | .chan c => s.trap cCHAN c

/-- LD_N8 (R116). -/
def execLdN8 (d : Dst) (a : Src) (off : Fin 512) (s : State) : Out :=
  s.loadWord 1 false d a off.val

/-- LD_I8 (R116). -/
def execLdI8 (d : Dst) (a : Src) (off : Fin 512) (s : State) : Out :=
  s.loadWord 1 true d a off.val

/-- LD_N16 (R116). -/
def execLdN16 (d : Dst) (a : Src) (off : Fin 512) (s : State) : Out :=
  s.loadWord 2 false d a off.val

/-- LD_I16 (R116). -/
def execLdI16 (d : Dst) (a : Src) (off : Fin 512) (s : State) : Out :=
  s.loadWord 2 true d a off.val

/-- LD_N32 (R116). -/
def execLdN32 (d : Dst) (a : Src) (off : Fin 512) (s : State) : Out :=
  s.loadWord 4 false d a off.val

/-- LD_I32 (R116). -/
def execLdI32 (d : Dst) (a : Src) (off : Fin 512) (s : State) : Out :=
  s.loadWord 4 true d a off.val

/-- LD_64 (R116). -/
def execLd64 (d : Dst) (a : Src) (off : Fin 512) (s : State) : Out :=
  s.loadWord 8 false d a off.val

/-- ST_8 (R117). -/
def execSt8 (d : Fin 32) (a : Src) (off : Fin 1024) (s : State) : Out :=
  s.storeWord 1 d a off.val

/-- ST_16 (R117). -/
def execSt16 (d : Fin 32) (a : Src) (off : Fin 1024) (s : State) : Out :=
  s.storeWord 2 d a off.val

/-- ST_32 (R117). -/
def execSt32 (d : Fin 32) (a : Src) (off : Fin 1024) (s : State) : Out :=
  s.storeWord 4 d a off.val

/-- ST_64 (R117). -/
def execSt64 (d : Fin 32) (a : Src) (off : Fin 1024) (s : State) : Out :=
  s.storeWord 8 d a off.val

/-! ## Vector loads and stores (R118, R119) -/

/-- The pool offset of lane l of a vector register (R109). -/
def laneOff (v l : Nat) : Nat := 4096 * v + 4 * l

/-- A lane of a vector register. -/
def Core.lane (k : Core) (v l : Nat) : Nat := k.pool.nat (laneOff v l) 4

/-- The lanes that a guard makes active, rising. -/
def activeLanes (preds : Vector PredBits 12) (g : Guard) : List Nat := (List.range 1024).filter (guardOn preds g)

/-- The first failing lane decides, else the site of every lane (R119). -/
inductive LanesRes where
  | ok (l : List (Nat × Nat × Site)) (s : State)
  | stop (r : SiteRes)

/-- Checks the lanes in rising order. -/
def State.laneSites (s : State) (a : Acc) : List (Nat × Nat) → LanesRes
  | [] => .ok [] s
  | (l, va) :: t =>
    match s.site va 4 a 4 none (fun _ => a.writes) with
    | .ok x s1 =>
      match s1.laneSites a t with
      | .ok xs s2 => .ok ((l, va, x) :: xs) s2
      | r => r
    | r => .stop r

/-- Groups lanes by a key, keeping their order. -/
def groupBy {α κ : Type} [DecidableEq κ] (key : α → κ) (l : List α) : List (κ × List α) :=
  (l.map key).eraseDups.map fun k => (k, l.filter fun x => key x = k)

/-- The thread has a vector load of this register under way; its later vector accesses of the register wait for it. -/
def State.vloading (s : State) (v : Nat) : Bool :=
  s.myCore.reqs.any fun q => q.role == s.cr && (match q.kind with
    | .vload d _ _ => d == v
    | _ => false)

/-- Writes lanes of a vector register. -/
def Core.putSome (k : Core) (v : Nat) (l : List (Nat × List Byte)) : Core :=
  { k with pool := l.foldl (fun p (e : Nat × List Byte) => p.write (laneOff v e.1) e.2) k.pool }

/-- The lines of a vector register that these lanes cover. -/
def coveredLines (ls : List Nat) : List Nat := (List.range 64).filter fun ln => (List.range 16).all fun j => ls.contains (16 * ln + j)

/-- The lines of a vector register whose lanes are all among `ls` lose their poison (R129). -/
def Core.cleanLanes (k : Core) (v : Nat) (ls : List Nat) : Core :=
  { k with ppoison := k.ppoison.filter fun x => !((coveredLines ls).any fun ln => x == 64 * v + ln) }

/-- Writes lanes of a vector register; whole lines that are written lose their poison (R129). -/
def Core.putLanes (k : Core) (v : Nat) (l : List (Nat × List Byte)) : Core := (k.putSome v l).cleanLanes v (l.map (·.1))

/-- Lanes of a vector load, whose word covers the register lines `whole`, are written; a line of which no lane is still owed is clean. -/
def Core.putLoaded (k : Core) (v : Nat) (l : List (Nat × List Byte)) (whole owed : List Nat) : Core :=
  let lines := whole.filter fun ln => (l.any fun x => x.1 / 16 == ln) && !(owed.any fun x => x / 16 == ln)
  { k.putSome v l with ppoison := k.ppoison.filter fun x => !(lines.any fun ln => x == 64 * v + ln) }

/-- The value of a lane that is at hand: pool sites that are served now, and lines that the L1 hits. -/
def State.laneNow (s : State) (x : Site) : Option (List Byte) :=
  match x with
  | .own off => if s.poolLater s.cc off 4 then none else some (s.poolBytes s.cc off 4)
  | .peer m off => if s.poolLater m off 4 then none else some (s.poolBytes m off 4)
  | .dev pa e => s.l1Bytes pa 4 e

/-- A vector load whose lanes have passed their checks: values at hand are written; each other line of memory is served by itself,
with a request, and so is each other line of a pool (R109, R114, R198). -/
def State.vloadAt (s : State) (vd : Nat) (xs : List (Nat × Nat × Site)) : Out :=
  let now := xs.filterMap fun x => (s.laneNow x.2.2).map fun b => (x.1, b)
  let rest := xs.filter fun x => (s.laneNow x.2.2).isNone
  let later := groupBy (fun (x : Nat × Nat × Site) => (x.2.2.pool s.cc, x.2.2.addr / 64, if x.2.2.isDev then x.2.1 / 64 else 0)) rest
  let dev := (later.filter fun g => g.1.1 == none).length
  let whole := coveredLines (xs.map (·.1))
  if s.myCore.l1clear ∧ xs.any (fun x => match x.2.2 with | .dev _ e => leafL1 e | _ => false) then s.hold
  else if 0 < dev ∧ !(s.room dev) then s.waitRoom
  else
    let s := s.upMyCore fun k => k.putLoaded vd now whole (rest.map (·.1))
    (later.foldl (fun s g =>
      match g.2 with
      | [] => s
      | (_, va, x) :: _ =>
        let kind := ReqKind.vload vd (g.2.map fun y => (y.1, y.2.2.addr)) whole
        match x with
        | .dev pa e => (s.addReq pa va e now.isEmpty kind).2
        | .own off => (s.addPoolReq s.cc off va now.isEmpty kind).2
        | .peer m off => (s.addPoolReq m off va now.isEmpty kind).2) s).done 2

/-- A vector load: the lanes of `vd` from their addresses (R119). -/
def State.vload (s : State) (n : Need) (reads : List (Fin 32)) (g : Guard) (vd : Nat) (idx : List Nat) (addr : Nat → Nat) :
    Out :=
  s.gate n reads fun _ =>
    if s.acqOpen s.cc s.cr then s.block 10 0
    else if s.vloading vd ∨ idx.any s.vloading then s.hold
    else match s.laneSites .read ((activeLanes s.myCore.preds g).map fun l => (l, addr l)) with
    | .ok xs s1 => s1.vloadAt vd xs
    | .stop r => s.siteStop r

/-- A vector store: nothing is written until every active lane has passed its checks; each line is one buffered store, in which
the higher lane comes last (R119). -/
def State.vstore (s : State) (n : Need) (reads : List (Fin 32)) (g : Guard) (vs : Nat) (idx : List Nat) (addr : Nat → Nat) :
    Out :=
  s.gate n reads fun _ =>
    if s.asyncOpen then s.block 10 0
    else if s.vloading vs ∨ idx.any s.vloading then s.hold
    else match s.laneSites .write ((activeLanes s.myCore.preds g).map fun l => (l, addr l)) with
    | .stop r => s.siteStop r
    | .ok xs s1 =>
      let xs := xs.filter fun x => !(x.2.2.dead)
      let gs := groupBy (fun (x : Nat × Nat × Site) => (x.2.2.pool s.cc, x.2.2.addr / 64)) xs
      let dev := (gs.filter fun x => x.1.1 == none).length
      if xs.any fun x => s1.siteLocked x.2.2 x.2.1 4 then s1.block 6 0
      else if 0 < dev ∧ !(s1.room dev) then s1.waitRoom
      else
        (gs.foldl (fun s2 x =>
          match x.2 with
          | [] => s2
          | (_, va, y) :: _ =>
            s2.bufferStore y va s1.nextOp (x.2.flatMap fun z =>
              ((List.range 4).zip (leBytes 4 (s1.myCore.lane vs z.1))).map fun (b : Nat × Byte) => (z.2.2.addr + b.1, b.2)))
          (s1.upMyCore fun k => if 0 < dev then k.unwait (.thr s.cr) else k)).done 2

/-- Lane addresses (R118): rows of 64 lanes. -/
def unitAddr (base l : Nat) : Nat := (base + 4 * l) % 2 ^ 64

def strideAddr (base stride l : Nat) : Nat := (base + l / 64 * stride + 4 * (l % 64)) % 2 ^ 64

def indexAddr (k : Core) (base vi l : Nat) : Nat := addrAdd base (sint 32 (k.lane vi l))

def rowAddr (base l : Nat) : Nat := (base + 4 * (l % 64)) % 2 ^ 64

/-- VLD (R118). -/
def execVld (g : Guard) (d : Fin 64) (b : Fin 32) (s : State) : Out :=
  s.vload { maj := 12, vregs := vtop [d.val] } [b] g d.val [] (unitAddr (s.me.get b).toNat)

/-- VST (R118). -/
def execVst (g : Guard) (d : Fin 64) (b : Fin 32) (s : State) : Out :=
  s.vstore { maj := 12, vregs := vtop [d.val] } [b] g d.val [] (unitAddr (s.me.get b).toNat)

/-- VLD.S (R118). -/
def execVldS (g : Guard) (d : Fin 64) (st b : Fin 32) (s : State) : Out :=
  s.vload { maj := 12, vregs := vtop [d.val] } [b, st] g d.val [] (strideAddr (s.me.get b).toNat (s.me.get st).toNat)

/-- VST.S (R118). -/
def execVstS (g : Guard) (d : Fin 64) (st b : Fin 32) (s : State) : Out :=
  s.vstore { maj := 12, vregs := vtop [d.val] } [b, st] g d.val [] (strideAddr (s.me.get b).toNat (s.me.get st).toNat)

/-- VLD.G (R118). -/
def execVldG (g : Guard) (d vi : Fin 64) (b : Fin 32) (s : State) : Out :=
  s.vload { maj := 12, vregs := vtop [d.val, vi.val] } [b] g d.val [vi.val] (indexAddr s.myCore (s.me.get b).toNat vi.val)

/-- VST.X (R118). -/
def execVstX (g : Guard) (d vi : Fin 64) (b : Fin 32) (s : State) : Out :=
  s.vstore { maj := 12, vregs := vtop [d.val, vi.val] } [b] g d.val [vi.val] (indexAddr s.myCore (s.me.get b).toNat vi.val)

/-- VLD.B (R118). -/
def execVldB (g : Guard) (d : Fin 64) (b : Fin 32) (s : State) : Out :=
  s.vload { maj := 12, vregs := vtop [d.val] } [b] g d.val [] (rowAddr (s.me.get b).toNat)

/-! ## Atomics (R120 to R123) -/

/-- The width of an operation number (R121). -/
def atomicWidth (op : Nat) : Nat := if op = 19 then 16 else if op = 18 then 8 else if op % 2 = 0 then 4 else 8

/-- The new value, for operations that always write (R121). -/
def atomicNew (op x b : Nat) : Nat :=
  let n := 8 * atomicWidth op
  let b := b % 2 ^ n
  let lt := decide (sint n x < sint n b)
  match op / 2 with
  | 0 => (x + b) % 2 ^ n
  | 1 => x &&& b
  | 2 => x ||| b
  | 3 => x ^^^ b
  | 4 => if lt then x else b
  | 5 => min x b
  | 6 => if lt then b else x
  | 7 => max x b
  | _ => b

/-- Whether the operation writes, given the old value and e (R122). -/
def atomicWrites (op x e : Nat) : Bool := if op < 18 then true else x == e

/-- The extension of the old value into gD (R121). -/
def atomicExt (op x : Nat) : Word := if op = 8 ∨ op = 12 then sextW 32 x else word x

/-- The indivisible step at the home slice or base die (R122): the old value and the state after it. -/
def State.rmw (s : State) (pa op b e : Nat) (ms : Bool) : Nat × State :=
  let n := atomicWidth op
  let x := s.physNat pa n
  (x, if atomicWrites op x e then
      s.physWrite pa (leBytes n (if op < 18 then atomicNew op x b else b)) ms
    else s.msServe pa n ms)

/-- Delivers an atomic's old value: gD, and gD + 1 for CAS.128. -/
def State.atomicResult (s : State) (c : Fin 64) (r : Role) (op gd id x : Nat) : State :=
  if op = 19 then
    s.upThr c r fun t => (t.deliver (Fin.ofNat 32 gd) id (word x)).deliver (Fin.ofNat 32 (gd + 1)) id (word (x / 2 ^ 64))
  else s.upThr c r fun t => t.deliver (Fin.ofNat 32 gd) id (atomicExt op x)

/-- An atomic instruction (R122): its checks, its release, and its request. -/
def State.atomic (s : State) (maj op : Nat) (a b d : Fin 32) (ord sc : Nat) : Out :=
  let hi := fun (i : Fin 32) => (s.me.get (i + 1)).toNat * 2 ^ 64
  let pair := op = 19
  s.gate { maj := maj } ([a, b, d] ++ (if pair then [b + 1, d + 1] else [])) fun _ =>
    let va := (s.me.get a).toNat
    let bv := (s.me.get b).toNat + (if pair then hi b else 0)
    let ev := (s.me.get d).toNat + (if pair then hi d else 0)
    let n := atomicWidth op
    let rel := 2 ≤ ord
    if s.asyncOpen then s.block 10 0
    else match s.window s.cc s.cr va .atomic with
    | some (.error dt) => s.trapX { cause := cPAGE, detail := dt, va := va, kind := 3 }
    | some (.ok _) => s.hold
    | none =>
      if va % n ≠ 0 then s.trapX { cause := cALIGN, detail := n, va := va, kind := 3 }
      else match (if rel then s.release sc else .go) with
      | .eng => s.trap cENG 0x01
      | .wait => s.block 10 0
      | .go =>
        match s.site va n .atomic n (some (maj == 14)) (fun pa => atomicWrites op (s.physNat pa n) ev) with
        | .ok (.dev pa e) s1 =>
          if !(s1.room 1) then s1.waitRoom
          else
            let (id, s2) := s1.addReq pa va e true (.atomic op bv ev d.val sc (ord % 2 == 1))
            let s3 := s2.upMe fun t => (if pair then (t.owe d id).owe (d + 1) id else t.owe d id)
            if leafCow e && leafWr e then
              -- a CAS on a shared page whose compare fails takes no frame and is done at once (R122)
              let x := s.physNat pa n
              let s4 := s3.atomicResult s.cc s.cr op d.val id x
              let after := fun (q : Req) =>
                if q.id ≠ id then some q else if ord % 2 = 1 then some { q with kind := .acquire sc } else none
              (s4.upMyCore fun k => { k with reqs := k.reqs.filterMap after }).done 2
            else s3.done 2
        | .ok _ s1 => s1.hold
        | r => s.siteStop r

/-- AADD (R121). -/
def execAadd (n : Fin 2) (a b d : Fin 32) (ord : Fin 4) (sc : Fin 8) (s : State) : Out :=
  s.atomic 13 (0 + n.val) a b d ord.val sc.val

/-- AAND (R121). -/
def execAand (n : Fin 2) (a b d : Fin 32) (ord : Fin 4) (sc : Fin 8) (s : State) : Out :=
  s.atomic 13 (2 + n.val) a b d ord.val sc.val

/-- AOR (R121). -/
def execAor (n : Fin 2) (a b d : Fin 32) (ord : Fin 4) (sc : Fin 8) (s : State) : Out :=
  s.atomic 13 (4 + n.val) a b d ord.val sc.val

/-- AXOR (R121). -/
def execAxor (n : Fin 2) (a b d : Fin 32) (ord : Fin 4) (sc : Fin 8) (s : State) : Out :=
  s.atomic 13 (6 + n.val) a b d ord.val sc.val

/-- AMIN_I (R121). -/
def execAminI (n : Fin 2) (a b d : Fin 32) (ord : Fin 4) (sc : Fin 8) (s : State) : Out :=
  s.atomic 13 (8 + n.val) a b d ord.val sc.val

/-- AMIN_N (R121). -/
def execAminN (n : Fin 2) (a b d : Fin 32) (ord : Fin 4) (sc : Fin 8) (s : State) : Out :=
  s.atomic 13 (10 + n.val) a b d ord.val sc.val

/-- AMAX_I (R121). -/
def execAmaxI (n : Fin 2) (a b d : Fin 32) (ord : Fin 4) (sc : Fin 8) (s : State) : Out :=
  s.atomic 13 (12 + n.val) a b d ord.val sc.val

/-- AMAX_N (R121). -/
def execAmaxN (n : Fin 2) (a b d : Fin 32) (ord : Fin 4) (sc : Fin 8) (s : State) : Out :=
  s.atomic 13 (14 + n.val) a b d ord.val sc.val

/-- SWAP (R121). -/
def execSwap (n : Fin 2) (a b d : Fin 32) (ord : Fin 4) (sc : Fin 8) (s : State) : Out :=
  s.atomic 13 (16 + n.val) a b d ord.val sc.val

/-- CAS_64 (R122). -/
def execCas64 (a b d : Fin 32) (ord : Fin 4) (sc : Fin 8) (s : State) : Out :=
  s.atomic 13 18 a b d ord.val sc.val

/-- CAS_128 (R122): gB and gD are the even registers that the fields name. -/
def execCas128 (a : Fin 32) (b d : Fin 16) (ord : Fin 4) (sc : Fin 8) (s : State) : Out :=
  s.atomic 13 19 a (Fin.ofNat 32 (2 * b.val)) (Fin.ofNat 32 (2 * d.val)) ord.val sc.val

/-- AADD_MS (R121). -/
def execAaddMs (n : Fin 2) (a b d : Fin 32) (ord : Fin 4) (sc : Fin 8) (s : State) : Out :=
  s.atomic 14 (0 + n.val) a b d ord.val sc.val

/-- AAND_MS (R121). -/
def execAandMs (n : Fin 2) (a b d : Fin 32) (ord : Fin 4) (sc : Fin 8) (s : State) : Out :=
  s.atomic 14 (2 + n.val) a b d ord.val sc.val

/-- AOR_MS (R121). -/
def execAorMs (n : Fin 2) (a b d : Fin 32) (ord : Fin 4) (sc : Fin 8) (s : State) : Out :=
  s.atomic 14 (4 + n.val) a b d ord.val sc.val

/-- AXOR_MS (R121). -/
def execAxorMs (n : Fin 2) (a b d : Fin 32) (ord : Fin 4) (sc : Fin 8) (s : State) : Out :=
  s.atomic 14 (6 + n.val) a b d ord.val sc.val

/-- AMIN_I_MS (R121). -/
def execAminIMs (n : Fin 2) (a b d : Fin 32) (ord : Fin 4) (sc : Fin 8) (s : State) : Out :=
  s.atomic 14 (8 + n.val) a b d ord.val sc.val

/-- AMIN_N_MS (R121). -/
def execAminNMs (n : Fin 2) (a b d : Fin 32) (ord : Fin 4) (sc : Fin 8) (s : State) : Out :=
  s.atomic 14 (10 + n.val) a b d ord.val sc.val

/-- AMAX_I_MS (R121). -/
def execAmaxIMs (n : Fin 2) (a b d : Fin 32) (ord : Fin 4) (sc : Fin 8) (s : State) : Out :=
  s.atomic 14 (12 + n.val) a b d ord.val sc.val

/-- AMAX_N_MS (R121). -/
def execAmaxNMs (n : Fin 2) (a b d : Fin 32) (ord : Fin 4) (sc : Fin 8) (s : State) : Out :=
  s.atomic 14 (14 + n.val) a b d ord.val sc.val

/-- SWAP_MS (R121). -/
def execSwapMs (n : Fin 2) (a b d : Fin 32) (ord : Fin 4) (sc : Fin 8) (s : State) : Out :=
  s.atomic 14 (16 + n.val) a b d ord.val sc.val

/-- CAS_64_MS (R122). -/
def execCas64Ms (a b d : Fin 32) (ord : Fin 4) (sc : Fin 8) (s : State) : Out :=
  s.atomic 14 18 a b d ord.val sc.val

/-- CAS_128_MS (R122): gB and gD are the even registers that the fields name. -/
def execCas128Ms (a : Fin 32) (b d : Fin 16) (ord : Fin 4) (sc : Fin 8) (s : State) : Out :=
  s.atomic 14 19 a (Fin.ofNat 32 (2 * b.val)) (Fin.ofNat 32 (2 * d.val)) ord.val sc.val

/-! ## Prefetch and WAITA (R124 to R126) -/

/-- One line of a prefetch: it takes a request, or it is dropped (R124). -/
def State.prefetchLine (s : State) (l1 : Bool) (va : Nat) : State :=
  if inWindow va ∨ !(s.room 1) ∨ s.myCore.missFull (.thr s.cr) s.asid va then s
  else match s.engLeaf s.cc (portOf s.cr) s.asid va with
  | .error _ => s
  | .ok e =>
    let pa := leafAddr e va
    if (leafAccess .read true e).isSome ∨ leafBusy e ∨ (s.lost (dieOf s.cc) pa).isSome ∨ s.poisoned (pa / 64) then s
    else (s.addReq pa va e true (.prefetch l1)).2

/-- PF (R124): it never traps beyond the decode checks, never blocks and changes no value. -/
def execPf (a b : Fin 32) (l : Fin 2) (s : State) : Out :=
  s.gate { maj := 14 } [a, b] fun _ =>
    let va := (s.me.get a).toNat
    let len := (s.me.get b).toNat
    let n := if len = 0 then 0 else min ((va % 64 + len + 63) / 64) 1024
    ((List.range n).foldl (fun s i => s.prefetchLine (l.val == 1) ((va / 64 * 64 + 64 * i) % 2 ^ 64)) s).done 2

/-- The thread's WAITA ends with this cause (R125, R126). -/
def State.waitaEnd (s : State) (d : Fin 32) (cause : Nat) : Out :=
  (s.upMe fun t => { t.put d (word cause) with wcode := cause }).done 2

/-- WAITA (R125): the checks, the arming read, the wait, the wake cause in gD. -/
def execWaita (a b d : Fin 32) (c : Fin 2) (s : State) : Out :=
  s.gate { maj := 14 } [a, b, d] fun _ =>
    match s.me.stage with
    | .result v => s.waitaEnd d v
    | .watch _ => s.block 7 0
    | _ =>
      let va := (s.me.get a).toNat
      let cmp := c.val == 1
      let al := if cmp then 8 else 1
      if s.acqOpen s.cc s.cr then s.block 10 0
      else if inWindow va then
        s.trapX { cause := cPAGE, detail := match s.window s.cc s.cr va .atomic with
          | some (.error x) => x
          | _ => 0x44, va := va, kind := 1 }
      else if va % al ≠ 0 then s.trapX { cause := cALIGN, detail := 8, va := va, kind := 1 }
      else match s.site va (if cmp then 8 else 1) .watch al none (fun _ => false) with
      | .ok (.dev pa e) s1 =>
        if cmp ∧ s1.readsPoison s1.me (leafBd e) s1.nextOp pa 8 then s1.trapX { cause := cPOISON, detail := 0, va := va, kind := 1 }
        else if !(s1.room 1) then s1.waitRoom
        else
          let (id, s2) := s1.addReq pa va e true (.arm cmp (s.me.get b != 0) (s.me.get d).toNat s1.nextOp)
          (s2.upMe fun t => { t with stage := .watch id }).block 7 0
      | .ok _ s1 => s1.hold
      | r => s.siteStop r

/-- WAITA_WAKE (R126): an armed watch that has fired completes its WAITA with the cause. -/
def State.waitaWake (s : State) (c : Fin 64) (r : Role) : State :=
  match (s.thr c r).stage with
  | .watch id =>
    match s.watches.find? fun w => w.id == id && w.core == c && w.role == r with
    | some w =>
      match w.fired with
      | some cause =>
        { (s.upThr c r fun t => { t with stage := .result cause, why := 0, obj := 0 }) with
          watches := s.watches.filter fun x => x.id ≠ id }
      | none => s
    | none => s
  | _ => s

def execWaitaWake (c : Fin 64) (r : Role) (s : State) : Out := .next (s.waitaWake c r)

/-- WAITA_TIMEOUT (R126): a timed watch that has not fired ends with code 1. -/
def execWaitaTimeout (c : Fin 64) (r : Role) (s : State) : Out :=
  .next ({ s with watches := s.watches.map fun (w : Watch) =>
      if w.core = c ∧ w.role = r ∧ w.timed ∧ w.fired = none then { w with fired := some 1 } else w }.waitaWake c r)

/-! ## Events of the memory side -/

/-- The bytes that a returning read of n bytes gives its thread: the pool's or the home's, under the thread's earlier stores through
the same kind of mapping (R132, R138). -/
def State.returned (s : State) (c : Fin 64) (q : Req) (a n : Nat) : List Byte :=
  (s.thr c q.role).overlay q.pool q.ms q.id a (match q.pool with
    | some m => (s.core m).pool.read a n
    | none => s.phys a n)

/-- Whether request q may return now: reads of a thread return in order for each byte, through one kind of mapping (R132). -/
def Core.mayReturn (k : Core) (q : Req) : Bool :=
  match q.kind with
  | .prefetch _ => true
  | .acquire _ => k.reqs.all fun x => !(x.role == q.role && x.isRead && decide (x.id < q.id))
  | .atomic _ _ _ _ _ _ => false
  | _ => k.reqs.all fun x => !(x.role == q.role && x.isRead && decide (x.id < q.id) && q.meets x)

/-- Why a read cannot return its bytes: its target has become unreachable (R130), or its data is poisoned (R129). -/
def State.readFault (s : State) (c : Fin 64) (q : Req) : Option (Nat × Nat) :=
  match q.pool with
  | some m => if q.spans.any fun x => s.poolPoison (s.thr c q.role) m q.id x.1 x.2 then some (cPOISON, 0) else none
  | none =>
    match s.lost (dieOf c) q.addr with
    | some d => some (cDIEX, d)
    | none =>
      if q.spans.any fun x => s.readsPoison (s.thr c q.role) q.ms q.id x.1 x.2 then some (cPOISON, 0) else none

/-- The KIND that a request's fault shows (R395). -/
def Req.faultKind (q : Req) : Nat :=
  match q.kind with
  | .atomic _ _ _ _ _ _ => 3
  | _ => 1

/-- Read q of core c can still fail precisely: its word is the last that its thread has issued, and has changed nothing (R49). -/
def State.failable (s : State) (c : Fin 64) (q : Req) : Bool :=
  match q.kind with
  | .arm _ _ _ _ => true
  | _ => q.plain && (s.thr c q.role).lastIs q.nth

/-- Read q of core c fails: its thread stands at its word again and traps there (R49, R129, R130). -/
def State.failRead (s : State) (c : Fin 64) (q : Req) (cause detail : Nat) : State :=
  let out := match q.kind with
    | .arm _ _ _ _ =>
      (s.upCore c fun k => { k with reqs := k.reqs.filter (·.id ≠ q.id) }).upThr c q.role fun t => { t with stage := .none }
    | _ => s.upCore c fun k => k.takeBack q.role q.word
  if (s.thr c q.role).status = .running ∨ (out.thr c q.role).status = .running then
    out.trapAt c q.role ((out.thr c q.role).faultHere cause detail q.va q.faultKind)
  else out

/-- Requests of core c to a line wait while a store that the core's L1 has taken is not performed there (R11, R132); and the reads of a
thread whose latest acquire was at .sy, while a host write of the line waits for its snoop (R134, R139). -/
def State.readHeld (s : State) (c : Fin 64) (q : Req) : Bool :=
  q.pool == none && ((s.core c).seenLine (q.addr / 64) ||
    ((s.thr c q.role).sysAcq && s.hostw.any fun w => (linesOf w.1 w.2.length).contains (q.addr / 64)))

/-- A thread's acquire at scope `sc` on core c waits for a snoop that is not applied (R134). -/
def State.snoopWaits (s : State) (sc : Nat) : Bool := sc == 5 && !s.snoops.isEmpty

/-- Lanes that the other requests of the word of q still owe. -/
def Core.owedLanes (k : Core) (q : Req) : List Nat :=
  k.reqs.flatMap fun x => if x.role == q.role && x.nth == q.nth && x.id != q.id then (match x.kind with
    | .vload _ lanes _ => lanes.map (·.1)
    | _ => []) else []

/-- The word of q has changed its register: it cannot be taken back (R49). -/
def Core.spoil (k : Core) (q : Req) : Core :=
  { k with reqs := k.reqs.map fun x => if x.role = q.role ∧ x.nth = q.nth then { x with plain := false } else x }

/-- The lanes of request i come, all of them, or lane part − 1 alone: each decides alone (R198). -/
def State.serveLanes (s : State) (c : Fin 64) (i : Nat) (q : Req) (part vd : Nat) (lanes : List (Nat × Nat)) (whole : List Nat) : State :=
  let now := lanes.filter fun x => decide (part = 0) || x.1 + 1 == part
  let rest := lanes.filter fun x => !(now.contains x)
  s.upCore c fun k =>
    let k1 := k.putLoaded vd (now.map fun x => (x.1, s.returned c q x.2 4)) whole (rest.map (·.1) ++ k.owedLanes q)
    if rest.isEmpty then { k1 with reqs := k1.reqs.eraseIdx i }.spoil q
    else if now.isEmpty then k
    else { k1 with reqs := k1.reqs.set i { q with kind := .vload vd rest whole } }.spoil q

/-- A read returns with its bytes (R114, R116, R119, R125): it leaves the table, may fill the L1, and gives its result. A read that the
L1 does not serve leaves no older copy of its line there (R132). -/
def State.serveRead (s : State) (c : Fin 64) (i : Nat) (q : Req) (part : Nat) : State :=
  let s := s.msServe q.addr 1 q.ms
  let out := s.upCore c fun k => { k with reqs := k.reqs.eraseIdx i }
  let ln := q.addr / 64
  let fill : State → State := fun s =>
    if q.l1ok then s.upCore c fun k => k.l1fill ln q.gen (s.phys (64 * ln) 64) else s
  match q.kind with
  | .load d n signed => (fill out).deliverTo c q.role d q.id (loadValue n signed (s.returned c q q.addr n))
  | .vload vd lanes whole => (fill s).serveLanes c i q part vd lanes whole
  | .prefetch l1 => if l1 && !(s.poisoned ln) then fill out else out
  | .arm cmp timed e w =>
    let fired := if cmp ∧ leNat (s.returned c q q.addr 8) ≠ e then some 2 else none
    let watch : Watch := { id := w, core := c, role := q.role, line := ln, va := q.va, timed := timed, fired := fired }
    { (out.upCore c fun k => k.l1drop ln) with watches := s.watches ++ [watch] }.waitaWake c q.role
  | .acquire sc => out.acquired c q.role sc
  | .atomic _ _ _ _ _ _ => out

/-- LINE_REQUEST_RETURN (R114): entry im mod 65,536 of the core's request table returns, or a load from a pool is served; of a vector
load perhaps one lane alone. -/
def State.lineReturn (s : State) (c : Fin 64) (im : Nat) : State :=
  let k := s.core c
  let i := im % 65536
  match k.reqs[i]? with
  | none => s
  | some q =>
    if !(k.mayReturn q) || s.readHeld c q then s
    else match q.kind with
    | .acquire sc => if s.snoopWaits sc then s else s.serveRead c i q 0
    | .prefetch _ =>
      if (s.lost (dieOf c) q.addr).isSome then s.upCore c fun k => { k with reqs := k.reqs.eraseIdx i }
      else if s.tripHeld c q.addr then s
      else s.serveRead c i q 0
    | _ =>
      match s.readFault c q with
      | some (ca, d) => if s.failable c q then s.failRead c q ca d else s.serveRead c i q 0
      | none => if q.pool == none && s.tripHeld c q.addr then s else s.serveRead c i q (im / 65536)

def execLineRequestReturn (c : Fin 64) (im : Nat) (s : State) : Out := .next (s.lineReturn c im)

/-- An earlier read or store of the thread to a byte of an atomic, through the same kind of mapping, is still under way: their order
is kept (R132, R138). -/
def State.atomicBehind (s : State) (c : Fin 64) (q : Req) : Bool :=
  ((s.core c).reqs.any fun x => x.role == q.role && x.isRead && decide (x.id < q.id) && q.meets x) ||
    ((s.thr c q.role).stores.any fun st => decide (st.id < q.id) && st.ms == q.ms &&
      st.bytes.any fun e => q.touches st.pool st.ms e.1 1)

/-- Atomic request i performs at its home; its acquire is complete when every earlier read is back and, at .sy, every snoop is applied
(R122, R134). -/
def State.atomicAct (s : State) (c : Fin 64) (i : Nat) (q : Req) : State :=
  match q.kind with
  | .atomic op b e gd sc acq =>
    let (x, s1) := s.rmw q.addr op b e q.ms
    let s2 := (s1.upCore c fun k => k.l1drop (q.addr / 64)).atomicResult c q.role op gd q.id x
    let s3 := s2.upCore c fun k => { k with reqs := k.reqs.eraseIdx i }
    if !acq then s3
    else if s.snoopWaits sc || (s3.core c).reqs.any fun x => x.role == q.role && x.isRead && decide (x.id < q.id) then
      s2.upCore c fun k => { k with reqs := k.reqs.set i { q with kind := .acquire sc } }
    else s3.acquired c q.role sc
  | _ => s

/-- ATOMIC_AT_HOME (R122). -/
def State.atomicHome (s : State) (c : Fin 64) (i : Nat) : State :=
  match (s.core c).reqs[i]? with
  | none => s
  | some q =>
    match q.kind with
    | .atomic _ _ _ _ _ _ =>
      if s.atomicBehind c q || s.readHeld c q then s
      else match s.readFault c q with
      | some (ca, d) => if s.failable c q then s.failRead c q ca d else s.atomicAct c i q
      | none => if s.tripHeld c q.addr then s else s.atomicAct c i q
    | _ => s

def execAtomicAtHome (c : Fin 64) (im : Nat) (s : State) : Out := .next (s.atomicHome c im)

/-- REQUEST_TABLE_GRANT (R114): the issuer that has waited longest may take the freed entry. -/
def execRequestTableGrant (c : Fin 64) (s : State) : Out :=
  match (s.core c).reqwait with
  | .thr r :: _ => if s.entries c < 8192 then .next (s.upThr c r fun t => { t with why := 0, obj := 0 }) else .next s
  | _ => .next s

/-- MISS_TABLE_GRANT (R177): the issuer that has waited longest may take the freed entry. -/
def execMissTableGrant (c : Fin 64) (s : State) : Out :=
  match (s.core c).walkwait with
  | .thr r :: _ =>
    if (s.core c).walks.length < 128 then .next (s.upThr c r fun t => { t with why := 0, obj := 0 }) else .next s
  | _ => .next s

/-- Walks of core c's die that began before walk `id`: the 512 oldest have a walker (R176). -/
def State.walksBefore (s : State) (c : Fin 64) (id : Nat) : Nat :=
  ((List.finRange 64).map fun k =>
    if dieOf k = dieOf c then ((s.core k).walks.filter fun w => decide (w.id < id)).length else 0).sum

/-- PAGE_WALK_COMPLETE (R177): entry i of the miss table ends; a leaf that may be cached fills the TLBs, and the requests that
joined the walk go on with the result in their order. -/
def State.walkDone (s : State) (c : Fin 64) (i : Nat) : State :=
  match (s.core c).walks[i]? with
  | none => s
  | some w =>
    let va := w.vpage * 4096
    if 512 ≤ s.walksBefore c w.id ∨ s.walkHeld c w.asid va then s
    else
      let res := s.walk (dieOf c) w.asid va
      let s := s.upCore c fun k => { k with walks := k.walks.eraseIdx i }
      let s := match res with
        | .leaf _ e =>
          if leafBusy e then s else (s.upCore c fun k => k.fillTlb w.asid va e).fillWalk (dieOf c) w.asid va e
        | .stop _ _ _ => s
      w.roles.foldl (fun s r => s.upThr c r fun t =>
        if t.status = .running ∧ t.fetch = none then
          { t with xwalk := some (w.vpage, res, w.roles.takeWhile (· ≠ r)) }
        else t) s

def execPageWalkComplete (c : Fin 64) (im : Nat) (s : State) : Out := .next (s.walkDone c im)

/-- L1_WRAP_CLEAR_DONE (R111). -/
def execL1WrapClearDone (c : Fin 64) (s : State) : Out := .next (s.upCore c fun k => { k with l1clear := false })

/-- L1_LINE_DROP (R110). -/
def execL1LineDrop (c : Fin 64) (line : Nat) (s : State) : Out := .next (s.upCore c fun k => k.l1drop line)

/-- L2_LINE_EVICTION (R115): the line is written back, so that no L2 alone holds its latest write. -/
def execL2LineEviction (pa : Nat) (s : State) : Out := .next { s with l2own := eraseNat (pa / 64) s.l2own }

/-- The pool of core m takes the cells of a store: T's go past parked locks. DESIGN CHOICE: a store of T to a barrier slot word keeps the
bytes it writes to the word's RSV bits too, which BAR.STAT and loads then return (R3, R280, R281; log 122). -/
def State.poolCells (s : State) (m : Fin 64) (cells : List (Nat × Byte)) : State :=
  match cells with
  | [] => s
  | (a, _) :: _ =>
    let whole := (List.range 64).all fun j => cells.any fun e => e.1 == a / 64 * 64 + j
    s.upCore m fun k =>
      let k := { k with pool := k.pool.writeCells cells }
      if whole then { k with ppoison := eraseNat (a / 64) k.ppoison } else k

/-- A free place for an engine fault record (R181, R394). -/
def Core.freeRec (k : Core) : Option (Fin 32) := (List.finRange 32).find? fun i => k.recs[i].isNone

/-- Leaves an engine fault record in the lowest free place, with its 64 bytes in the service area (R181, R394). -/
def State.leaveRec (s : State) (c : Fin 64) (i : Fin 32) (x : Rec) : State :=
  let bs := (List.range 64).map (Config.recordByte s.free)
  { (s.upCore c fun k => { k with recs := k.recs.set i (some x), pool := k.pool.write (0x782000 + 64 * i.val) bs }) with
    free := s.free + 1 }

/-- A store of core c, which has left its buffer in `out`, is taken by its home, base die or pool. -/
def State.storeTake (out : State) (c : Fin 64) (st : Store) : State :=
  match st.pool with
  | some m => out.poolCells m st.bytes
  | none => (out.physCells st.bytes st.ms).upCore c fun k => if st.ms || st.seen.isSome then k else k.l1store st.bytes

/-- The L1 takes a cached store that hits it in every line before its home does: the core's other threads may see it early (R110, R140). -/
def State.storeSeen (s : State) (c : Fin 64) (r : Role) (st : Store) : State :=
  if st.pool.isSome || st.ms || st.seen.isSome || !(st.bytes.all fun e => ((s.core c).l1hit (e.1 / 64)).isSome) then s
  else
    let (n, s1) := s.fresh
    (s1.upCore c fun k => k.l1store st.bytes).upThr c r fun t =>
      { t with stores := t.stores.map fun x => if x.id = st.id then { x with seen := some n } else x }

/-- STORE_PERFORMED (R133): store im mod 65,536 of the thread's buffer is taken by its home, base die or pool; with 65,536 added, by the
core's L1 alone (R140). It waits behind the thread's earlier reads and stores of the same bytes through its kind of mapping and behind live
locks; one that no route can deliver becomes a record (R130). -/
def State.storePerform (s : State) (c : Fin 64) (r : Role) (im : Nat) : State :=
  let i := im % 65536
  match (s.thr c r).stores[i]? with
  | none => s
  | some st =>
    let earlier := ((s.thr c r).stores.take i).any fun x =>
      x.pool == st.pool && x.ms == st.ms && x.bytes.any fun e => st.bytes.any fun f => e.1 == f.1
    let reading := (s.core c).reqs.any fun q =>
      q.role == r && q.isRead && decide (q.id < st.id) && st.bytes.any fun e => q.touches st.pool st.ms e.1 1
    if earlier || reading || s.storeLocked c r st || (s.core c).seenBefore st || (st.pool == none && s.tripHeld c st.addr) then s
    else if im / 65536 = 1 then s.storeSeen c r st
    else
      let out := s.upThr c r fun t => { t with stores := t.stores.eraseIdx i }
      match (if st.pool.isSome then none else s.lost (dieOf c) st.addr) with
      | some d =>
        match (s.core c).freeRec with
        | some j =>
          out.leaveRec c j { role := r, op := .store st, fault := { cause := cDIEX, detail := d, va := st.va, kind := 2 },
                             cancel := false }
        | none => s
      | none => out.storeTake c st

def execStorePerformed (c : Fin 64) (r : Role) (im : Nat) (s : State) : Out := .next (s.storePerform c r im)

end Sys2Proof.Machine
end

