-- ==== Sys2Proof/Machine/Lanes.lean ====
section
/-! DEFINITION. What each vector instruction computes: its sources, its destinations and, from the source lanes at its start, the
lanes, predicate lanes, g value and flags it writes at completion (R190 to R231, MAJ 20 to 31). -/
namespace Sys2Proof.Machine

/-- What a started instruction sees (R193, R194): the core, and the g values and controls captured at issue. -/
structure VIn where
  k    : Core
  gs   : List Word
  fpcr : Word
  seed : BitVec 32
  ctr  : BitVec 32

/-- Lane l of vector register v. -/
def VIn.lane (x : VIn) (v l : Nat) : Nat := x.k.lane v l

def VIn.act (x : VIn) (g : Guard) (l : Nat) : Bool := guardOn x.k.preds g l

/-- The i-th captured g value. -/
def VIn.gv (x : VIn) (i : Nat) : Nat := (x.gs.getD i 0).toNat

def VIn.ctl (x : VIn) : FCtl := fctl x.fpcr

/-- Nothing written. -/
def VOut.none : VOut := { lanes := [], preds := [], g := .none, flags := 0 }

/-- The OR of flag sets. -/
def orFlags (l : List Nat) : Nat := l.foldl (fun a b => a ||| b) 0

/-- The active lanes, rising (R192). -/
def VIn.lanes (x : VIn) (g : Guard) : List Nat := activeLanes x.k.preds g

/-- Register d takes a code in each of these lanes; the flags of the lanes are ORed (R192, R194). -/
def vwrite (d : Nat) (l : List (Nat × FRes)) : VOut :=
  { VOut.none with lanes := [(d, l.map fun e => (e.1, BitVec.ofNat 32 e.2.1))], flags := orFlags (l.map fun e => e.2.2) }

/-- One result per active lane (R192). -/
def VIn.map (x : VIn) (g : Guard) (d : Nat) (f : Nat → FRes) : VOut := vwrite d ((x.lanes g).map fun l => (l, f l))

/-- The same for a result without flags. -/
def VIn.mapI (x : VIn) (g : Guard) (d : Nat) (f : Nat → Nat) : VOut := x.map g d fun l => (f l, 0)

/-- The 1,024 bits of a lane predicate. -/
def predOf (f : Nat → Bool) : PredBits :=
  BitVec.ofNat 1024 ((List.range 1024).foldr (fun l n => (if f l then 1 else 0) + 2 * n) 0)

/-- A predicate takes bits in its active lanes. -/
def VIn.pmap (x : VIn) (g : Guard) (ds : List (Nat × (Nat → Bool))) : VOut :=
  let m := predOf (x.act g)
  { VOut.none with preds := ds.map fun e => (e.1, m, predOf e.2) }

/-! ## Integer lanes (R200, R204, R208) -/

def clampS (i : Int) : Nat := ofInt 32 (max (-(2 ^ 31)) (min (2 ^ 31 - 1) i))

def mulhI (a b : Nat) : Nat := ofInt 32 (sint 32 a * sint 32 b / 2 ^ 32)

def vsra (a n : Nat) : Nat := ofInt 32 (sint 32 a / 2 ^ min n 31)

def vminS (a b : Nat) : Nat := if sint 32 a < sint 32 b then a else b
def vmaxS (a b : Nat) : Nat := if sint 32 a < sint 32 b then b else a

/-- The integer conditions of VCMP (R205). -/
def condI (c a b : Nat) : Bool :=
  match c with
  | 0 => a == b
  | 1 => a != b
  | 2 => decide (sint 32 a < sint 32 b)
  | 3 => !(decide (sint 32 a < sint 32 b))
  | 4 => decide (a < b)
  | _ => !(decide (a < b))

/-- The FP32 conditions of VCMP (R205, R206). -/
def condF (daz : Bool) (c a b : Nat) : Bool :=
  let x := f32.widen a daz
  let y := f32.widen b daz
  if x.isNan || y.isNan then c == 1 || c == 6
  else match c with
    | 0 => x.eq y
    | 1 => !(x.eq y)
    | 2 => x.lt y
    | 3 => !(y.lt x)
    | 4 => y.lt x
    | 5 => !(x.lt y)
    | 6 => false
    | _ => true

/-! ## Axes (R190, R209 to R211, R230) -/

/-- The lanes of line i along an axis: row i, or column i. -/
def axisLanes (col : Bool) (i : Nat) : List Nat :=
  if col then (List.range 16).map fun r => 64 * r + i else (List.range 64).map fun c => 64 * i + c

def axisCount (col : Bool) : Nat := if col then 64 else 16

/-- A reduction along an axis (R211): the tree over the active lanes of each line, written to those lanes. -/
def VIn.reduce (x : VIn) (g : Guard) (d a : Nat) (col ftz : Bool) (f : Nat → Nat → FRes) : VOut :=
  vwrite d ((List.range (axisCount col)).flatMap fun i =>
    let ls := axisLanes col i
    match treeOpt (stepF f) (ls.map fun l => if x.act g l then some (x.lane a l, 0) else none) with
    | none => []
    | some t => ((ls.filter (x.act g)).zipIdx).map fun e =>
        let r := flush ftz t
        (e.1, (r.1, r.2)))

/-- One step of a scan along a line (R230). DESIGN CHOICE: the first active value is copied as it is, a NaN that is not canonical too (R57;
log 129). -/
def scanStep (ftz ex : Bool) (f : Nat → Nat → FRes) (st : Option Nat × List (Nat × FRes)) (l v : Nat) :
    Option Nat × List (Nat × FRes) :=
  let n : FRes := match st.1 with
    | none => (v, 0)
    | some s => f s v
  let out : FRes := flush ftz (if ex then (st.1.getD 0, 0) else (n.1, 0))
  (some n.1, st.2 ++ [(l, (out.1, out.2 ||| n.2))])

/-- VSCAN (R230). -/
def VIn.scan (x : VIn) (g : Guard) (d a : Nat) (col ex ftz : Bool) (f : Nat → Nat → FRes) : VOut :=
  vwrite d ((List.range (axisCount col)).flatMap fun i =>
    (((axisLanes col i).filter (x.act g)).foldl (fun st l => scanStep ftz ex f st l (x.lane a l)) (none, [])).2)

/-! ## Selection (R228, R229) -/

/-- Inserts a candidate after every one that ranks no lower: the lower column wins a tie. -/
def insertRank (key : Nat → Int) (e : Nat × Nat) : List (Nat × Nat) → List (Nat × Nat)
  | [] => [e]
  | y :: t => if key y.2 < key e.2 then e :: y :: t else y :: insertRank key e t

/-- The k best candidates (column, code) of a group in rank order. -/
def best (key : Nat → Int) (k : Nat) (l : List (Nat × Nat)) : List (Nat × Nat) :=
  (l.foldl (fun acc e => insertRank key e acc) []).take k

def isNanF (a : Nat) : Bool := (f32.widen a false).isNan

/-- The magnitude key and the value key, every NaN on top. -/
def magKey (a : Nat) : Int := if isNanF a then 2 ^ 32 else ((a % 2 ^ 31 : Nat) : Int)
def valKey (a : Nat) : Int :=
  if isNanF a then 2 ^ 32 else if 2 ^ 31 ≤ a then -((a % 2 ^ 31 : Nat) : Int) else (a : Int)

/-- A selected FP32 code as written: a NaN turns canonical with its sign. -/
def keepF (a : Nat) : Nat := if isNanF a then f32.canon (decide (2 ^ 31 ≤ a)) else a

/-- The candidates of a group of gs columns from column c of row r: the active lanes. -/
def VIn.cands (x : VIn) (g : Guard) (a r c gs : Nat) : List (Nat × Nat) :=
  ((List.range gs).map (c + ·)).filterMap fun j =>
    if x.act g (64 * r + j) then some (j, x.lane a (64 * r + j)) else none

/-- The groups of a register: row and first column. -/
def groupsOf (gs : Nat) : List (Nat × Nat) :=
  (List.range 16).flatMap fun r => (List.range (64 / gs)).map fun i => (r, gs * i)

/-- VCMPR (R229): every lane is written. -/
def VIn.compress (x : VIn) (g : Guard) (d a k gs : Nat) : VOut :=
  vwrite d ((groupsOf gs).flatMap fun rc =>
    let b := best magKey k (x.cands g a rc.1 rc.2 gs)
    (List.range gs).map fun j =>
      (64 * rc.1 + rc.2 + j, ((match b.find? fun e => e.1 == rc.2 + j with
        | some e => keepF e.2
        | none => 0), 0)))

/-- VTOPK (R229): values in d and columns in d + 1, with fillers. -/
def VIn.topk (x : VIn) (g : Guard) (d a k gs : Nat) (fl : Bool) : VOut :=
  let places := (groupsOf gs).flatMap fun rc =>
    let b := best (if fl then valKey else sint 32) k (x.cands g a rc.1 rc.2 gs)
    (List.range gs).map fun i => (64 * rc.1 + rc.2 + i, b[i]?)
  let val := fun (e : Option (Nat × Nat)) => match e with
    | some e => if fl then keepF e.2 else e.2
    | none => if fl then 0xFF800000 else 0x80000000
  let col := fun (e : Option (Nat × Nat)) => match e with
    | some e => e.1
    | none => 0xFFFFFFFF
  { VOut.none with
    lanes := [(d, places.map fun p => (p.1, BitVec.ofNat 32 (val p.2))),
              (d + 1, places.map fun p => (p.1, BitVec.ofNat 32 (col p.2)))] }

/-! ## Conversions (R214 to R224) -/

/-- The rounding code and saturation of a conversion (R215). -/
def convRm (r : Nat) (fpcr : Word) : Nat := if r = 7 then bits fpcr.toNat 5 3 else r
def convSat (r sat : Nat) (fpcr : Word) : Bool := if r = 7 then bits fpcr.toNat 12 1 == 1 else sat == 1

/-- The mixer value of part j of lane l (R217). -/
def VIn.z (x : VIn) (j l : Nat) : Nat := mix x.seed.toNat (1024 * j + l) x.ctr.toNat

/-- Parts of a packed lane (R214). -/
def partsOf (p : Nat) : Nat := if p = 0 then 1 else if p = 1 then 2 else 4

/-- Narrowing (R219). -/
def VIn.narrow (x : VIn) (f : FFmt) (g : Guard) (d a p sat r : Nat) : VOut :=
  x.map g d fun l =>
    (List.range (partsOf p)).foldl (fun (acc : FRes) j =>
      let v := f.round (f32.widen (x.lane (a + j) l) false) (convRm r x.fpcr) (convSat r sat x.fpcr) (x.z j l)
      (acc.1 + v.1 * 2 ^ (f.width * j), acc.2 ||| v.2)) (0, 0)

/-- Widening (R219): exact. -/
def VIn.widen (x : VIn) (f : FFmt) (g : Guard) (d a p : Nat) : VOut :=
  { VOut.none with
    lanes := (List.range (partsOf p)).map fun j =>
      (d + j, (x.lanes g).map fun l =>
        (l, BitVec.ofNat 32 (f32.round (f.widen (bits (x.lane a l) (f.width * j) f.width) false) 0 false 0).1)) }

/-- FP32 to an integer (R221). -/
def VIn.toInt (x : VIn) (signed : Bool) (g : Guard) (d a r : Nat) : VOut :=
  x.map g d fun l => roundInt signed 32 (f32.widen (x.lane a l) false) (convRm r x.fpcr) (x.z 0 l)

/-- An integer to FP32 (R221). -/
def VIn.ofInt (x : VIn) (signed : Bool) (g : Guard) (d a r : Nat) : VOut :=
  x.map g d fun l =>
    let i : Int := if signed then sint 32 (x.lane a l) else (x.lane a l : Int)
    f32.round (.fin (decide (i < 0)) i.natAbs 0) (convRm r x.fpcr) false (x.z 0 l)

/-- VRINT of one lane (R222). -/
def rint (a rm z : Nat) : FRes :=
  match f32.widen a false with
  | .nan s => (f32.canon s, 0)
  | .inf s => (f32.signed s f32.infCode, 0)
  | .fin s m e =>
    if m = 0 then (a, 0)
    else
      let (n, inex) := grid s m e 0 rm z
      ((f32.round (.fin s n 0) 0 false 0).1, if inex then fNX else 0)

/-- MX encoding (R223): codes in d, scales in d + 1. -/
def VIn.mxEncode (x : VIn) (fmt d a r : Nat) : VOut :=
  let blocks := (List.range 32).map fun b =>
    let ls := (List.range 32).map (32 * b + ·)
    let vs := ls.map fun l => f32.widen (x.lane a l) false
    let sc := mxScale vs
    let codes := (ls.zip vs).map fun e =>
      (e.1, if sc = 0xFF then ((0, 0) : FRes) else mxRound fmt sc e.2 (convRm r x.fpcr) (x.z 0 e.1))
    (ls, sc, codes)
  let c := vwrite d (blocks.flatMap fun b => b.2.2)
  let sc := vwrite (d + 1) (blocks.flatMap fun b => b.1.map fun l => (l, (b.2.1, 0)))
  { c with lanes := c.lanes ++ sc.lanes }

/-- MX decoding (R224). -/
def VIn.mxDecode (x : VIn) (fmt : Nat) (g : Guard) (d a : Nat) : VOut :=
  x.mapI g d fun l =>
    (f32.round (mxWiden fmt (x.lane a l) (x.lane (a + 1) (32 * (l / 32)) % 256)) 0 false 0).1

/-- A special function (R226): DAZ on its operand, FTZ on its result. -/
def VIn.special (x : VIn) (f : Nat → FRes) (g : Guard) (d a : Nat) : VOut :=
  x.map g d fun l => flush x.ctl.ftz (f (dazCode x.ctl.daz (x.lane a l)))

/-- Whether an execution takes and advances RNGCTR (R216). -/
def stochastic (r : Nat) (fpcr : Word) : Bool := convRm r fpcr == 5

/-! ## The instructions -/

/-- A vector instruction: the registers and predicates it reads and writes, the g registers it reads at issue and the one it
writes, its rounding override if it is a conversion, and its result. -/
structure VSpec where
  rv  : List Nat := []
  wv  : List Nat := []
  rp  : List Nat := []
  wp  : List Nat := []
  gs  : List (Fin 32) := []
  wg  : Option (Fin 32) := none
  rmo : Option Nat := none
  run : VIn → VOut

/-- The predicate a guard reads. -/
def guardPred : Guard → List Nat
  | .p i => [i.val]
  | .all => []

/-- A form by the registers and predicates it reads and writes. -/
def vform (rv wv rp wp : List Nat) (run : VIn → VOut) : VSpec := { rv := rv, wv := wv, rp := rp, wp := wp, run := run }

/-- A register form with two sources, one, or none, under a guard. -/
def vs2 (g : Guard) (d a b : Nat) (run : VIn → VOut) : VSpec := { rv := [a, b], wv := [d], rp := guardPred g, run := run }
def vs1 (g : Guard) (d a : Nat) (run : VIn → VOut) : VSpec := { rv := [a], wv := [d], rp := guardPred g, run := run }
def vs0 (g : Guard) (d : Nat) (gs : List (Fin 32)) (run : VIn → VOut) : VSpec :=
  { wv := [d], rp := guardPred g, gs := gs, run := run }

/-- An integer lane operation. -/
def vi2 (g : Guard) (d a b : Fin 64) (f : Nat → Nat → Nat) : VSpec :=
  vs2 g d.val a.val b.val fun x => x.mapI g d.val fun l => f (x.lane a.val l) (x.lane b.val l)

/-- An FP32 lane operation with the controls. -/
def vf2 (g : Guard) (d a b : Fin 64) (f : FCtl → Nat → Nat → FRes) : VSpec :=
  vs2 g d.val a.val b.val fun x => x.map g d.val fun l => f x.ctl (x.lane a.val l) (x.lane b.val l)

/-- An FP32 lane operation with a third source in VD. -/
def vf3 (g : Guard) (d a b : Fin 64) (f : FCtl → Nat → Nat → Nat → FRes) : VSpec :=
  { rv := [a.val, b.val, d.val], wv := [d.val], rp := guardPred g,
    run := fun x => x.map g d.val fun l => f x.ctl (x.lane a.val l) (x.lane b.val l) (x.lane d.val l) }

/-- A logic operation on VD and VA. -/
def vlog (g : Guard) (d a : Fin 64) (f : Nat → Nat → Nat) : VSpec :=
  vs2 g d.val d.val a.val fun x => x.mapI g d.val fun l => f (x.lane d.val l) (x.lane a.val l)

/-- A one-source integer form. -/
def vi1 (g : Guard) (d a : Fin 64) (f : Nat → Nat) : VSpec :=
  vs1 g d.val a.val fun x => x.mapI g d.val fun l => f (x.lane a.val l)

/-- A rotate or broadcast (R209): the source lane of row r and column c for an amount n. -/
def vmove (g : Guard) (d a : Fin 64) (gs : List (Fin 32)) (n : VIn → Nat) (f : Nat → Nat → Nat → Nat) : VSpec :=
  { rv := [a.val], wv := [d.val], rp := guardPred g, gs := gs,
    run := fun x => x.mapI g d.val fun l => x.lane a.val (f (n x) (l / 64) (l % 64)) }

def rotR (n r c : Nat) : Nat := 64 * r + (c + 64 - n % 64) % 64
def rotC (n r c : Nat) : Nat := 64 * ((r + 16 - n % 16) % 16) + c
def bcR (n r _c : Nat) : Nat := 64 * r + n % 64
def bcC (n _r c : Nat) : Nat := 64 * (n % 16) + c

/-- A reduction. -/
def vred (g : Guard) (d a : Fin 64) (col fl : Bool) (f : FCtl → Nat → Nat → FRes) : VSpec :=
  vs1 g d.val a.val fun x => x.reduce g d.val a.val col (fl && x.ctl.ftz) (f x.ctl)

/-- A predicate operation. -/
def vp2 (g : Guard) (d a b : Fin 12) (f : Bool → Bool → Bool) : VSpec :=
  { rp := guardPred g ++ [a.val, b.val], wp := [d.val],
    run := fun x => x.pmap g [(d.val, fun l => f (x.k.preds[a].getLsbD l) (x.k.preds[b].getLsbD l))] }

/-- A compare into a predicate pair (R205). -/
def vcmp (g : Guard) (k : Fin 8) (a b : Fin 64) (f : VIn → Nat → Nat → Bool) : VSpec :=
  { rv := [a.val, b.val], rp := guardPred g, wp := [2 * k.val, 2 * k.val + 1],
    run := fun x =>
      let c := fun l => f x (x.lane a.val l) (x.lane b.val l)
      x.pmap g [(2 * k.val, c), (2 * k.val + 1, fun l => !(c l))] }

/-- A form whose result is a g register. -/
def vgout (d : Fin 32) (rv rp : List Nat) (gs : List (Fin 32)) (f : VIn → Word) : VSpec :=
  { rv := rv, rp := rp, gs := gs, wg := some d, run := fun x => { VOut.none with g := some (d.val, f x) } }

/-- Lane index of a g source (R213). -/
def laneIx (g : Nat) : Nat := g % 1024

/-- The lowest set lane of a predicate. -/
def lowest (p : PredBits) : Option Nat := (List.range 1024).find? fun l => p.getLsbD l

/-- A narrowing and a widening (R219). -/
def vnarrow (f : FFmt) (g : Guard) (d a : Fin 64) (p : Fin 4) (sat : Fin 2) (r : Fin 8) : VSpec :=
  { rv := (List.range (partsOf p.val)).map (a.val + ·), wv := [d.val], rp := guardPred g, rmo := some r.val,
    run := fun x => x.narrow f g d.val a.val p.val sat.val r.val }

def vwiden (f : FFmt) (g : Guard) (d a : Fin 64) (p : Fin 4) : VSpec :=
  { rv := [a.val], wv := (List.range (partsOf p.val)).map (d.val + ·), rp := guardPred g,
    run := fun x => x.widen f g d.val a.val p.val }

/-- A conversion of one register to one register with a rounding override. -/
def vconv (g : Guard) (d a : Fin 64) (r : Fin 8) (run : VIn → VOut) : VSpec :=
  { rv := [a.val], wv := [d.val], rp := guardPred g, rmo := some r.val, run := run }

/-- MX encoding of one register to a pair (R223). -/
def vmxEnc (d : Fin 32) (a : Fin 64) (m : Fin 4) (r : Fin 8) : VSpec :=
  { rv := [a.val], wv := [2 * d.val, 2 * d.val + 1], rmo := some r.val,
    run := fun x => x.mxEncode (6 + m.val) (2 * d.val) a.val r.val }

/-- The group size of a selection (R227). -/
def groupSize (s : Nat) : Nat := 8 * 2 ^ s

/-- Every queued vector instruction, and the two matrix moves that take an entry of the vector queue (R240). -/
def vspec : Instr → VSpec
  | .vaddI32 g d a b => vi2 g d a b fun x y => (x + y) % 2 ^ 32
  | .vsubI32 g d a b => vi2 g d a b fun x y => (x + 2 ^ 32 - y) % 2 ^ 32
  | .vmulI32 g d a b => vi2 g d a b fun x y => x * y % 2 ^ 32
  | .vmulhI32 g d a b => vi2 g d a b mulhI
  | .vaddsI32 g d a b => vi2 g d a b fun x y => clampS (sint 32 x + sint 32 y)
  | .vsubsI32 g d a b => vi2 g d a b fun x y => clampS (sint 32 x - sint 32 y)
  | .vaddsN32 g d a b => vi2 g d a b fun x y => min (x + y) (2 ^ 32 - 1)
  | .vsubsN32 g d a b => vi2 g d a b fun x y => x - y
  | .vaddF32 g d a b => vf2 g d a b fadd
  | .vsubF32 g d a b => vf2 g d a b fsub
  | .vmulF32 g d a b => vf2 g d a b fmul
  | .vfmaF32 g d a b => vf3 g d a b ffma
  | .vfmsF32 g d a b => vf3 g d a b ffms
  | .vminF32 g d a b => vf2 g d a b fun c x y => (fminmax false c.daz x y, 0)
  | .vmaxF32 g d a b => vf2 g d a b fun c x y => (fminmax true c.daz x y, 0)
  | .vand g d a => vlog g d a fun x y => x &&& y
  | .vor g d a => vlog g d a fun x y => x ||| y
  | .vxor g d a => vlog g d a fun x y => x ^^^ y
  | .vandn g d a => vlog g d a fun x y => x &&& (y ^^^ 0xFFFFFFFF)
  | .vsll g d a i => vi1 g d a fun x => x * 2 ^ i.val % 2 ^ 32
  | .vsrl g d a i => vi1 g d a fun x => x / 2 ^ i.val
  | .vsra g d a i => vi1 g d a fun x => vsra x i.val
  | .vmov g d a => vi1 g d a fun x => x
  | .vcmpI32 g k c a b => vcmp g k a b fun _ => condI c.val
  | .vcmpF32 g k c a b => vcmp g k a b fun x => condF x.ctl.daz c.val
  | .vsel g d a b => vs2 g d.val a.val b.val fun x =>
      x.mapI .all d.val fun l => if x.act g l then x.lane a.val l else x.lane b.val l
  | .vminI32 g d a b => vi2 g d a b vminS
  | .vmaxI32 g d a b => vi2 g d a b vmaxS
  | .vminN32 g d a b => vi2 g d a b fun x y => min x y
  | .vmaxN32 g d a b => vi2 g d a b fun x y => max x y
  | .vrotrImm g d a i => vmove g d a [] (fun _ => i.val) rotR
  | .vrotrReg g d a s => vmove g d a [s] (fun x => x.gv 0) rotR
  | .vrotcImm g d a i => vmove g d a [] (fun _ => i.val) rotC
  | .vrotcReg g d a s => vmove g d a [s] (fun x => x.gv 0) rotC
  | .vbcrImm g d a i => vmove g d a [] (fun _ => i.val) bcR
  | .vbcrReg g d a s => vmove g d a [s] (fun x => x.gv 0) bcR
  | .vbccImm g d a i => vmove g d a [] (fun _ => i.val) bcC
  | .vbccReg g d a s => vmove g d a [s] (fun x => x.gv 0) bcC
  | .vrsumF32 g d a => vred g d a false true fadd
  | .vcsumF32 g d a => vred g d a true true fadd
  | .vrmaxF32 g d a => vred g d a false true fun c x y => (fminmax true c.daz x y, 0)
  | .vcmaxF32 g d a => vred g d a true true fun c x y => (fminmax true c.daz x y, 0)
  | .vrminF32 g d a => vred g d a false true fun c x y => (fminmax false c.daz x y, 0)
  | .vcminF32 g d a => vred g d a true true fun c x y => (fminmax false c.daz x y, 0)
  | .vrsumI32 g d a => vred g d a false false fun _ x y => ((x + y) % 2 ^ 32, 0)
  | .vcsumI32 g d a => vred g d a true false fun _ x y => ((x + y) % 2 ^ 32, 0)
  | .pand g d a b => vp2 g d a b fun x y => x && y
  | .por g d a b => vp2 g d a b fun x y => x || y
  | .pxor g d a b => vp2 g d a b fun x y => x != y
  | .pandn g d a b => vp2 g d a b fun x y => x && !y
  | .pnez g d a => vform [a.val] [] (guardPred g) [d.val] fun x =>
      x.pmap g [(d.val, fun l => x.lane a.val l != 0)]
  | .vmovp g d a => vform [] [d.val] (guardPred g ++ [a.val]) [] fun x =>
      x.mapI g d.val fun l => if x.k.preds[a].getLsbD l then 0xFFFFFFFF else 0
  | .pset g d i => vform [] [] (guardPred g) [d.val] fun x => x.pmap g [(d.val, fun _ => i.val == 1)]
  | .pfirst g d a => vform [] [] (guardPred g ++ [a.val]) [d.val] fun x =>
      x.pmap g [(d.val, fun l => lowest x.k.preds[a] == some l)]
  | .vlidx g d s => vs0 g d.val [] fun x =>
      x.mapI g d.val fun l => if s.val = 0 then l else if s.val = 1 then l / 64 else l % 64
  | .vextN32 d a s => vgout d [a.val] [] [s] fun x => word (x.lane a.val (laneIx (x.gv 0)))
  | .vextI32 d a s => vgout d [a.val] [] [s] fun x => sextW 32 (x.lane a.val (laneIx (x.gv 0)))
  | .vins g d a s => vs0 g d.val [a, s] fun x =>
      let l := laneIx (x.gv 1)
      vwrite d.val (if x.act g l then [(l, (x.gv 0 % 2 ^ 32, 0))] else [])
  | .vbcg g d a => vs0 g d.val [a] fun x => x.mapI g d.val fun _ => x.gv 0 % 2 ^ 32
  | .vmovi g d i => vs0 g d.val [] fun x => x.mapI g d.val fun _ => ofInt 32 (sint 6 i.val)
  | .pcnt d a => vgout d [] [a.val] [] fun x => word ((List.range 1024).filter fun l => x.k.preds[a].getLsbD l).length
  | .pfind d a => vgout d [] [a.val] [] fun x => word ((lowest x.k.preds[a]).getD 1024)
  | .vcvtBf16F32 g d a p s r => vnarrow bf16 g d a p s r
  | .vcvtF16F32 g d a p s r => vnarrow f16 g d a p s r
  | .vcvtE4m3F32 g d a p s r => vnarrow e4m3 g d a p s r
  | .vcvtE5m2F32 g d a p s r => vnarrow e5m2 g d a p s r
  | .vcvtF32Bf16 g d a p => vwiden bf16 g d a p
  | .vcvtF32F16 g d a p => vwiden f16 g d a p
  | .vcvtF32E4m3 g d a p => vwiden e4m3 g d a p
  | .vcvtF32E5m2 g d a p => vwiden e5m2 g d a p
  | .vcvtI32F32 g d a r => vconv g d a r fun x => x.toInt true g d.val a.val r.val
  | .vcvtN32F32 g d a r => vconv g d a r fun x => x.toInt false g d.val a.val r.val
  | .vcvtF32I32 g d a r => vconv g d a r fun x => x.ofInt true g d.val a.val r.val
  | .vcvtF32N32 g d a r => vconv g d a r fun x => x.ofInt false g d.val a.val r.val
  | .vrintF32 g d a r => vconv g d a r fun x =>
      x.map g d.val fun l => rint (x.lane a.val l) (convRm r.val x.fpcr) (x.z 0 l)
  | .vcvtMxF32 d a m r => vmxEnc d a m r
  | .vcvtF32Mx g d a m => vform [2 * a.val, 2 * a.val + 1] [d.val] (guardPred g) [] fun x =>
      x.mxDecode (6 + m.val) g d.val (2 * a.val)
  | .vexpF32 g d a => vs1 g d.val a.val fun x => x.special fexp g d.val a.val
  | .vexp2F32 g d a => vs1 g d.val a.val fun x => x.special fexp2 g d.val a.val
  | .vlog2F32 g d a => vs1 g d.val a.val fun x => x.special flog2 g d.val a.val
  | .vrcpF32 g d a => vs1 g d.val a.val fun x => x.special frcp g d.val a.val
  | .vrsqrtF32 g d a => vs1 g d.val a.val fun x => x.special frsqrt g d.val a.val
  | .vsqrtF32 g d a => vs1 g d.val a.val fun x => x.special fsqrt g d.val a.val
  | .vtanhF32 g d a => vs1 g d.val a.val fun x => x.special ftanh g d.val a.val
  | .vcmpr g d a k s => vs1 g d.val a.val fun x => x.compress g d.val a.val (k.val + 1) (groupSize s.val)
  | .vtopkF32 g d a k s => vform [a.val] [2 * d.val, 2 * d.val + 1] (guardPred g) [] fun x =>
      x.topk g (2 * d.val) a.val (k.val + 1) (groupSize s.val) true
  | .vscanF32 g d a e c => vs1 g d.val a.val fun x =>
      x.scan g d.val a.val (c.val == 1) (e.val == 1) x.ctl.ftz (fadd x.ctl)
  | .vscanI32 g d a e c => vs1 g d.val a.val fun x =>
      x.scan g d.val a.val (c.val == 1) (e.val == 1) false fun p q => ((p + q) % 2 ^ 32, 0)
  | .vrandN32 g d s => vs0 g d.val [s] fun x =>
      x.mapI g d.val fun l => mix x.seed.toNat l (x.gv 0 % 2 ^ 32)
  | .vrandF32 g d s => vs0 g d.val [s] fun x =>
      x.mapI g d.val fun l => (f32.round (.fin false (mix x.seed.toNat l (x.gv 0 % 2 ^ 32) / 256) (-24)) 0 false 0).1
  | .vtopkI32 g d a k s => vform [a.val] [2 * d.val, 2 * d.val + 1] (guardPred g) [] fun x =>
      x.topk g (2 * d.val) a.val (k.val + 1) (groupSize s.val) false
  | .maMovTv _ _ _ v => { wv := [v.val], run := fun _ => VOut.none }
  | .maMovVt _ _ _ v => { rv := [v.val], run := fun _ => VOut.none }
  | _ => { run := fun _ => VOut.none }

end Sys2Proof.Machine
end

