-- ==== Sys2Proof/Machine/Vector.lean ====
section
/-! DEFINITION. The vector queue (R193 to R198) and the instructions of MAJ 20 to 27 (R199 to R213): issue, start and completion.
What each computes is its entry of `vspec`. -/
namespace Sys2Proof.Machine

/-! ## Issue (R193, R194) -/

/-- The vector queue is full: 16 instructions wait in it to start (R194, R196). -/
def Core.vqFull (k : Core) : Bool := decide (16 ≤ (k.vq.filter fun e => e.out.isNone).length)

/-- A vector instruction enters the queue with its g values, controls and mixer state as they are at issue (R68, R193, R216). -/
def State.vissue (s : State) (maj : Nat) (sub : Bool) (op : Instr) : Out :=
  let sp := vspec op
  s.gate { maj := maj, sub := sub, vregs := vtop (sp.rv ++ sp.wv) } sp.gs fun _ =>
    if s.asyncOpen then s.block 10 0
    else if s.myCore.vqFull then s.block 9 0
    else
      let (id, s1) := s.fresh
      let t := s.me
      let e : VEnt := { id := id, role := s.cr, op := op, gs := sp.gs.map t.get, fpcr := t.fpcr, seed := t.rngseed,
                        ctr := t.rngctr, out := none }
      let adv : Bool := match sp.rmo with
        | some r => stochastic r t.fpcr
        | none => false
      let s2 := s1.upMyCore fun k => { k with vq := k.vq ++ [e] }
      (s2.upMe fun t =>
        let t := if adv then { t with rngctr := t.rngctr + 1 } else t
        match sp.wg with
        | some d => t.owe d id
        | none => t).done 2

/-! ## Start and completion (R194) -/

def shares (a b : List Nat) : Bool := a.any b.contains

/-- Whether entry e may start behind the entries `before` it, all started: none still owes a source of e; and the issuer's own
earlier stores and vector loads are done (R143, R194). -/
def State.vready (s : State) (c : Fin 64) (before : List VEnt) (e : VEnt) : Bool :=
  let k := s.core c
  let sp := vspec e.op
  (before.all fun p => p.out.isSome && !(shares (vspec p.op).wv sp.rv) && !(shares (vspec p.op).wp sp.rp)) &&
    ((k.thr e.role).stores.all fun st => decide (e.id < st.id)) &&
    (k.reqs.all fun q => match q.kind with
      | .vload d _ _ => q.role != e.role || decide (e.id < q.id) || !((sp.rv ++ sp.wv).contains d)
      | _ => true)

/-- What a starting entry sees. -/
def VEnt.input (e : VEnt) (k : Core) : VIn := { k := k, gs := e.gs, fpcr := e.fpcr, seed := e.seed, ctr := e.ctr }

/-- A move whose matrix half has been parked (R240, R253). -/
def Core.parkedMove (k : Core) (e : VEnt) : Bool := isMove e.op && !(k.mx.queue.any fun x => x.id == e.id)

/-- The vector queue as its entries start and complete. An urgent pre-emption takes out the moves that have not started (R196).
Behind a parked move C's words wait for its restore, and T's own work goes on (R240, R255; log 118). -/
def Core.vline (k : Core) (urgent : Bool) : List VEnt :=
  if urgent then k.vq.filter fun e => !(isMove e.op && e.out.isNone)
  else
    let ahead := k.vq.takeWhile fun e => !(k.parkedMove e)
    ahead ++ (k.vq.drop ahead.length).filter fun e => !(k.parkedMove e) && (e.role == .T || e.out.isSome)

/-- The vector queue of core c as its entries start and complete. -/
def State.vline (s : State) (c : Fin 64) : List VEnt := (s.core c).vline (decide (2 ≤ s.preemptOf c))

/-- The first entry that has not started, with the started ones before it. -/
def vnext (l : List VEnt) : Option (List VEnt × VEnt) :=
  (l.find? fun e => e.out.isNone).map fun e => (l.takeWhile fun e => e.out.isSome, e)

/-- Entry `id` of the vector queue starts, with its result. -/
def Core.vstart (k : Core) (id : Nat) (o : VOut) : Core :=
  { k with vq := k.vq.map fun e => if e.id = id then { e with out := some o } else e }

/-- VECTOR_START: the first entry that has not started reads its sources (R194). -/
def State.vectorStart (s : State) (c : Fin 64) : State :=
  match vnext (s.vline c) with
  | none => s
  | some (before, e) =>
    if isMove e.op || !(s.vready c before e) then s
    else s.upCore c fun k => k.vstart e.id ((vspec e.op).run (e.input k))

/-- VECTOR_START (R194). -/
def execVectorStart (c : Fin 64) (s : State) : Out := .next (s.vectorStart c)

/-- A predicate with the lanes of a mask replaced. -/
def mergePred (p m v : PredBits) : PredBits := (p &&& ~~~m) ||| (v &&& m)

/-- A core with the lanes and predicates of a result written (R192); lanes that are there already are written no more (R198). -/
def Core.putOut (k : Core) (o : VOut) : Core :=
  let k := o.lanes.foldl (fun (k : Core) (e : Nat × List (Nat × Lane)) =>
    (k.putSome e.1 ((e.2.filter fun x => !(o.landed.contains (e.1, x.1))).map fun x => (x.1, leBytes 4 x.2.toNat))).cleanLanes e.1
      (e.2.map (·.1))) k
  { k with preds := o.preds.foldl (fun (ps : Vector PredBits 12) (e : Nat × PredBits × PredBits) =>
      ps.set (Fin.ofNat 12 e.1) (mergePred ps[Fin.ofNat 12 e.1] e.2.1 e.2.2)) k.preds }

/-- The issuer's g register and sticky flags (R194, R213). -/
def Thread.takeOut (t : Thread) (id : Nat) (o : VOut) : Thread :=
  let t := { t with fpcr := fpcrOr t.fpcr o.flags }
  match o.g with
  | some (d, v) => t.deliver (Fin.ofNat 32 d) id v
  | none => t

/-- Whether an earlier entry still writes a destination of entry e (R194). -/
def State.vblocked (s : State) (c : Fin 64) (e : VEnt) : Bool :=
  ((s.vline c).takeWhile fun p => p.id != e.id).any fun p =>
    shares (vspec p.op).wv (vspec e.op).wv || shares (vspec p.op).wp (vspec e.op).wp

/-- Lane l of the registers that a running instruction writes is there already for whoever meets it (R198). -/
def Core.landLane (k : Core) (e : VEnt) (o : VOut) (l : Nat) : Core :=
  let now := (o.lanes.map fun x => (x.1, x.2.filter fun y => y.1 == l && !(o.landed.contains (x.1, l)))).filter fun x => !(x.2.isEmpty)
  let k := now.foldl (fun (k : Core) x => k.putSome x.1 (x.2.map fun y => (y.1, leBytes 4 y.2.toNat))) k
  k.vstart e.id { o with landed := o.landed ++ now.map fun x => (x.1, l) }

/-- VECTOR_COMPLETE: entry im mod 65,536 writes its results (R194); or, for a lane number above that, that lane alone is written, which
decides alone when other agents meet it (R198). -/
def State.vectorComplete (s : State) (c : Fin 64) (im : Nat) : State :=
  let k := s.core c
  let i := im % 65536
  match k.vq[i]? with
  | none => s
  | some e =>
    match e.out with
    | none => s
    | some o =>
      if isMove e.op || s.vblocked c e then s
      else if im / 65536 ≠ 0 then s.upCore c fun k => k.landLane e o (im / 65536 - 1)
      else (s.upCore c fun k => { k.putOut o with vq := k.vq.eraseIdx i }).upThr c e.role fun t => t.takeOut e.id o

/-- VECTOR_COMPLETE (R194). -/
def execVectorComplete (c : Fin 64) (im : Nat) (s : State) : Out := .next (s.vectorComplete c im)

/-! ## MAJ 20 to 27 -/

/-- VADD_I32 (R200): Lane add mod 2^32. -/
def execVaddI32 (g : Guard) (d : Fin 64) (a : Fin 64) (b : Fin 64) (s : State) : Out :=
  s.vissue 20 false (.vaddI32 g d a b)

/-- VSUB_I32 (R200): Lane subtract mod 2^32. -/
def execVsubI32 (g : Guard) (d : Fin 64) (a : Fin 64) (b : Fin 64) (s : State) : Out :=
  s.vissue 20 false (.vsubI32 g d a b)

/-- VMUL_I32 (R200): Low 32 bits of lane product. -/
def execVmulI32 (g : Guard) (d : Fin 64) (a : Fin 64) (b : Fin 64) (s : State) : Out :=
  s.vissue 20 false (.vmulI32 g d a b)

/-- VMULH_I32 (R200): High 32 bits of signed lane product. -/
def execVmulhI32 (g : Guard) (d : Fin 64) (a : Fin 64) (b : Fin 64) (s : State) : Out :=
  s.vissue 20 false (.vmulhI32 g d a b)

/-- VADDS_I32 (R200): Saturating signed lane add. -/
def execVaddsI32 (g : Guard) (d : Fin 64) (a : Fin 64) (b : Fin 64) (s : State) : Out :=
  s.vissue 20 false (.vaddsI32 g d a b)

/-- VSUBS_I32 (R200): Saturating signed lane subtract. -/
def execVsubsI32 (g : Guard) (d : Fin 64) (a : Fin 64) (b : Fin 64) (s : State) : Out :=
  s.vissue 20 false (.vsubsI32 g d a b)

/-- VADDS_N32 (R200): Saturating unsigned lane add. -/
def execVaddsN32 (g : Guard) (d : Fin 64) (a : Fin 64) (b : Fin 64) (s : State) : Out :=
  s.vissue 20 false (.vaddsN32 g d a b)

/-- VSUBS_N32 (R200): Saturating unsigned lane subtract. -/
def execVsubsN32 (g : Guard) (d : Fin 64) (a : Fin 64) (b : Fin 64) (s : State) : Out :=
  s.vissue 20 false (.vsubsN32 g d a b)

/-- VADD_F32 (R202): FP32 lane add. -/
def execVaddF32 (g : Guard) (d : Fin 64) (a : Fin 64) (b : Fin 64) (s : State) : Out :=
  s.vissue 21 false (.vaddF32 g d a b)

/-- VSUB_F32 (R202): FP32 lane subtract. -/
def execVsubF32 (g : Guard) (d : Fin 64) (a : Fin 64) (b : Fin 64) (s : State) : Out :=
  s.vissue 21 false (.vsubF32 g d a b)

/-- VMUL_F32 (R202): FP32 lane multiply. -/
def execVmulF32 (g : Guard) (d : Fin 64) (a : Fin 64) (b : Fin 64) (s : State) : Out :=
  s.vissue 21 false (.vmulF32 g d a b)

/-- VFMA_F32 (R202): FP32 fused multiply-add. -/
def execVfmaF32 (g : Guard) (d : Fin 64) (a : Fin 64) (b : Fin 64) (s : State) : Out :=
  s.vissue 21 false (.vfmaF32 g d a b)

/-- VFMS_F32 (R202): FP32 fused z − x × y. -/
def execVfmsF32 (g : Guard) (d : Fin 64) (a : Fin 64) (b : Fin 64) (s : State) : Out :=
  s.vissue 21 false (.vfmsF32 g d a b)

/-- VMIN_F32 (R203): FP32 lane minimum. -/
def execVminF32 (g : Guard) (d : Fin 64) (a : Fin 64) (b : Fin 64) (s : State) : Out :=
  s.vissue 21 false (.vminF32 g d a b)

/-- VMAX_F32 (R203): FP32 lane maximum. -/
def execVmaxF32 (g : Guard) (d : Fin 64) (a : Fin 64) (b : Fin 64) (s : State) : Out :=
  s.vissue 21 false (.vmaxF32 g d a b)

/-- VAND (R204): Lane and into vd. -/
def execVand (g : Guard) (d : Fin 64) (a : Fin 64) (s : State) : Out :=
  s.vissue 22 false (.vand g d a)

/-- VOR (R204): Lane or into vd. -/
def execVor (g : Guard) (d : Fin 64) (a : Fin 64) (s : State) : Out :=
  s.vissue 22 false (.vor g d a)

/-- VXOR (R204): Lane xor into vd. -/
def execVxor (g : Guard) (d : Fin 64) (a : Fin 64) (s : State) : Out :=
  s.vissue 22 false (.vxor g d a)

/-- VANDN (R204): Lane and-not into vd. -/
def execVandn (g : Guard) (d : Fin 64) (a : Fin 64) (s : State) : Out :=
  s.vissue 22 false (.vandn g d a)

/-- VSLL (R204): Lane shift left by an immediate. -/
def execVsll (g : Guard) (d : Fin 64) (a : Fin 64) (im : Fin 64) (s : State) : Out :=
  s.vissue 22 false (.vsll g d a im)

/-- VSRL (R204): Lane logical shift right by an immediate. -/
def execVsrl (g : Guard) (d : Fin 64) (a : Fin 64) (im : Fin 64) (s : State) : Out :=
  s.vissue 22 false (.vsrl g d a im)

/-- VSRA (R204): Lane arithmetic shift right by an immediate. -/
def execVsra (g : Guard) (d : Fin 64) (a : Fin 64) (im : Fin 64) (s : State) : Out :=
  s.vissue 22 false (.vsra g d a im)

/-- VMOV (R204): Lane move. -/
def execVmov (g : Guard) (d : Fin 64) (a : Fin 64) (s : State) : Out :=
  s.vissue 22 false (.vmov g d a)

/-- VCMP_I32 (R205): Integer lane compare into a predicate pair. -/
def execVcmpI32 (g : Guard) (k : Fin 8) (c : Fin 8) (a : Fin 64) (b : Fin 64) (s : State) : Out :=
  s.vissue 23 false (.vcmpI32 g k c a b)

/-- VCMP_F32 (R206): FP32 lane compare into a predicate pair. -/
def execVcmpF32 (g : Guard) (k : Fin 8) (c : Fin 8) (a : Fin 64) (b : Fin 64) (s : State) : Out :=
  s.vissue 23 false (.vcmpF32 g k c a b)

/-- VSEL (R207): Selects lanes of va or vb by a predicate. -/
def execVsel (g : Guard) (d : Fin 64) (a : Fin 64) (b : Fin 64) (s : State) : Out :=
  s.vissue 23 false (.vsel g d a b)

/-- VMIN_I32 (R208): Signed lane minimum. -/
def execVminI32 (g : Guard) (d : Fin 64) (a : Fin 64) (b : Fin 64) (s : State) : Out :=
  s.vissue 23 false (.vminI32 g d a b)

/-- VMAX_I32 (R208): Signed lane maximum. -/
def execVmaxI32 (g : Guard) (d : Fin 64) (a : Fin 64) (b : Fin 64) (s : State) : Out :=
  s.vissue 23 false (.vmaxI32 g d a b)

/-- VMIN_N32 (R208): Unsigned lane minimum. -/
def execVminN32 (g : Guard) (d : Fin 64) (a : Fin 64) (b : Fin 64) (s : State) : Out :=
  s.vissue 23 false (.vminN32 g d a b)

/-- VMAX_N32 (R208): Unsigned lane maximum. -/
def execVmaxN32 (g : Guard) (d : Fin 64) (a : Fin 64) (b : Fin 64) (s : State) : Out :=
  s.vissue 23 false (.vmaxN32 g d a b)

/-- VROTR_IMM (R209): Row-axis rotate by an immediate. -/
def execVrotrImm (g : Guard) (d : Fin 64) (a : Fin 64) (im : Fin 64) (s : State) : Out :=
  s.vissue 24 false (.vrotrImm g d a im)

/-- VROTR_REG (R209): Row-axis rotate by a g register. -/
def execVrotrReg (g : Guard) (d : Fin 64) (a : Fin 64) (sc : Fin 32) (s : State) : Out :=
  s.vissue 24 false (.vrotrReg g d a sc)

/-- VROTC_IMM (R209): Column-axis rotate by an immediate. -/
def execVrotcImm (g : Guard) (d : Fin 64) (a : Fin 64) (im : Fin 16) (s : State) : Out :=
  s.vissue 24 false (.vrotcImm g d a im)

/-- VROTC_REG (R209): Column-axis rotate by a g register. -/
def execVrotcReg (g : Guard) (d : Fin 64) (a : Fin 64) (sc : Fin 32) (s : State) : Out :=
  s.vissue 24 false (.vrotcReg g d a sc)

/-- VBCR_IMM (R209): Row-axis broadcast of a column by an immediate. -/
def execVbcrImm (g : Guard) (d : Fin 64) (a : Fin 64) (im : Fin 64) (s : State) : Out :=
  s.vissue 24 false (.vbcrImm g d a im)

/-- VBCR_REG (R209): Row-axis broadcast of a column by a g register. -/
def execVbcrReg (g : Guard) (d : Fin 64) (a : Fin 64) (sc : Fin 32) (s : State) : Out :=
  s.vissue 24 false (.vbcrReg g d a sc)

/-- VBCC_IMM (R209): Column-axis broadcast of a row by an immediate. -/
def execVbccImm (g : Guard) (d : Fin 64) (a : Fin 64) (im : Fin 16) (s : State) : Out :=
  s.vissue 24 false (.vbccImm g d a im)

/-- VBCC_REG (R209): Column-axis broadcast of a row by a g register. -/
def execVbccReg (g : Guard) (d : Fin 64) (a : Fin 64) (sc : Fin 32) (s : State) : Out :=
  s.vissue 24 false (.vbccReg g d a sc)

/-- VRSUM_F32 (R211): Tree sum of each row. -/
def execVrsumF32 (g : Guard) (d : Fin 64) (a : Fin 64) (s : State) : Out :=
  s.vissue 25 false (.vrsumF32 g d a)

/-- VCSUM_F32 (R211): Tree sum of each column. -/
def execVcsumF32 (g : Guard) (d : Fin 64) (a : Fin 64) (s : State) : Out :=
  s.vissue 25 false (.vcsumF32 g d a)

/-- VRMAX_F32 (R211): Maximum of each row. -/
def execVrmaxF32 (g : Guard) (d : Fin 64) (a : Fin 64) (s : State) : Out :=
  s.vissue 25 false (.vrmaxF32 g d a)

/-- VCMAX_F32 (R211): Maximum of each column. -/
def execVcmaxF32 (g : Guard) (d : Fin 64) (a : Fin 64) (s : State) : Out :=
  s.vissue 25 false (.vcmaxF32 g d a)

/-- VRMIN_F32 (R211): Minimum of each row. -/
def execVrminF32 (g : Guard) (d : Fin 64) (a : Fin 64) (s : State) : Out :=
  s.vissue 25 false (.vrminF32 g d a)

/-- VCMIN_F32 (R211): Minimum of each column. -/
def execVcminF32 (g : Guard) (d : Fin 64) (a : Fin 64) (s : State) : Out :=
  s.vissue 25 false (.vcminF32 g d a)

/-- VRSUM_I32 (R211): Integer sum of each row. -/
def execVrsumI32 (g : Guard) (d : Fin 64) (a : Fin 64) (s : State) : Out :=
  s.vissue 25 false (.vrsumI32 g d a)

/-- VCSUM_I32 (R211): Integer sum of each column. -/
def execVcsumI32 (g : Guard) (d : Fin 64) (a : Fin 64) (s : State) : Out :=
  s.vissue 25 false (.vcsumI32 g d a)

/-- PAND (R212): Predicate and. -/
def execPand (g : Guard) (d : Fin 12) (a : Fin 12) (b : Fin 12) (s : State) : Out :=
  s.vissue 26 false (.pand g d a b)

/-- POR (R212): Predicate or. -/
def execPor (g : Guard) (d : Fin 12) (a : Fin 12) (b : Fin 12) (s : State) : Out :=
  s.vissue 26 false (.por g d a b)

/-- PXOR (R212): Predicate xor. -/
def execPxor (g : Guard) (d : Fin 12) (a : Fin 12) (b : Fin 12) (s : State) : Out :=
  s.vissue 26 false (.pxor g d a b)

/-- PANDN (R212): Predicate and-not. -/
def execPandn (g : Guard) (d : Fin 12) (a : Fin 12) (b : Fin 12) (s : State) : Out :=
  s.vissue 26 false (.pandn g d a b)

/-- PNEZ (R212): Sets a predicate where a vector lane is nonzero. -/
def execPnez (g : Guard) (d : Fin 12) (a : Fin 64) (s : State) : Out :=
  s.vissue 26 false (.pnez g d a)

/-- VMOVP (R212): Expands a predicate into lane masks. -/
def execVmovp (g : Guard) (d : Fin 64) (a : Fin 12) (s : State) : Out :=
  s.vissue 26 false (.vmovp g d a)

/-- PSET (R212): Sets predicate lanes to 0 or 1. -/
def execPset (g : Guard) (d : Fin 12) (im : Fin 2) (s : State) : Out :=
  s.vissue 26 false (.pset g d im)

/-- PFIRST (R212): Keeps only the lowest set lane. -/
def execPfirst (g : Guard) (d : Fin 12) (a : Fin 12) (s : State) : Out :=
  s.vissue 26 false (.pfirst g d a)

/-- VLIDX (R213): Writes lane, row or column indices. -/
def execVlidx (g : Guard) (d : Fin 64) (sc : Fin 4) (s : State) : Out :=
  s.vissue 27 false (.vlidx g d sc)

/-- VEXT_N32 (R213): Extracts a lane zero-extended to a g register. -/
def execVextN32 (d : Fin 32) (a : Fin 64) (sc : Fin 32) (s : State) : Out :=
  s.vissue 27 false (.vextN32 d a sc)

/-- VEXT_I32 (R213): Extracts a lane sign-extended to a g register. -/
def execVextI32 (d : Fin 32) (a : Fin 64) (sc : Fin 32) (s : State) : Out :=
  s.vissue 27 false (.vextI32 d a sc)

/-- VINS (R213): Inserts a g register into one lane. -/
def execVins (g : Guard) (d : Fin 64) (a : Fin 32) (sc : Fin 32) (s : State) : Out :=
  s.vissue 27 false (.vins g d a sc)

/-- VBCG (R213): Broadcasts a g register to every lane. -/
def execVbcg (g : Guard) (d : Fin 64) (a : Fin 32) (s : State) : Out :=
  s.vissue 27 false (.vbcg g d a)

/-- VMOVI (R213): Broadcasts a signed 6-bit immediate. -/
def execVmovi (g : Guard) (d : Fin 64) (im : Fin 64) (s : State) : Out :=
  s.vissue 27 false (.vmovi g d im)

/-- PCNT (R213): Counts set lanes of a predicate. -/
def execPcnt (d : Fin 32) (a : Fin 12) (s : State) : Out :=
  s.vissue 27 false (.pcnt d a)

/-- PFIND (R213): Finds the lowest set lane of a predicate. -/
def execPfind (d : Fin 32) (a : Fin 12) (s : State) : Out :=
  s.vissue 27 false (.pfind d a)

end Sys2Proof.Machine
end

