-- ==== Sys2Proof/Machine/Convert.lean ====
section
/-! DEFINITION. Conversions, special functions, selection, scans and random draws: MAJ 28 to 31 (R214 to R232). -/
namespace Sys2Proof.Machine

/-- VCVT_BF16_F32 (R219): Narrows FP32 to BF16. -/
def execVcvtBf16F32 (g : Guard) (d : Fin 64) (a : Fin 64) (p : Fin 4) (sc : Fin 2) (r : Fin 8) (s : State) : Out :=
  s.vissue 28 false (.vcvtBf16F32 g d a p sc r)

/-- VCVT_F16_F32 (R219): Narrows FP32 to FP16. -/
def execVcvtF16F32 (g : Guard) (d : Fin 64) (a : Fin 64) (p : Fin 4) (sc : Fin 2) (r : Fin 8) (s : State) : Out :=
  s.vissue 28 false (.vcvtF16F32 g d a p sc r)

/-- VCVT_E4M3_F32 (R219): Narrows FP32 to E4M3. -/
def execVcvtE4m3F32 (g : Guard) (d : Fin 64) (a : Fin 64) (p : Fin 4) (sc : Fin 2) (r : Fin 8) (s : State) : Out :=
  s.vissue 28 false (.vcvtE4m3F32 g d a p sc r)

/-- VCVT_E5M2_F32 (R219): Narrows FP32 to E5M2. -/
def execVcvtE5m2F32 (g : Guard) (d : Fin 64) (a : Fin 64) (p : Fin 4) (sc : Fin 2) (r : Fin 8) (s : State) : Out :=
  s.vissue 28 false (.vcvtE5m2F32 g d a p sc r)

/-- VCVT_F32_BF16 (R219): Widens BF16 to FP32. -/
def execVcvtF32Bf16 (g : Guard) (d : Fin 64) (a : Fin 64) (p : Fin 4) (s : State) : Out :=
  s.vissue 28 false (.vcvtF32Bf16 g d a p)

/-- VCVT_F32_F16 (R219): Widens FP16 to FP32. -/
def execVcvtF32F16 (g : Guard) (d : Fin 64) (a : Fin 64) (p : Fin 4) (s : State) : Out :=
  s.vissue 28 false (.vcvtF32F16 g d a p)

/-- VCVT_F32_E4M3 (R219): Widens E4M3 to FP32. -/
def execVcvtF32E4m3 (g : Guard) (d : Fin 64) (a : Fin 64) (p : Fin 4) (s : State) : Out :=
  s.vissue 28 false (.vcvtF32E4m3 g d a p)

/-- VCVT_F32_E5M2 (R219): Widens E5M2 to FP32. -/
def execVcvtF32E5m2 (g : Guard) (d : Fin 64) (a : Fin 64) (p : Fin 4) (s : State) : Out :=
  s.vissue 28 false (.vcvtF32E5m2 g d a p)

/-- VCVT_I32_F32 (R221): Converts FP32 to signed integer. -/
def execVcvtI32F32 (g : Guard) (d : Fin 64) (a : Fin 64) (r : Fin 8) (s : State) : Out :=
  s.vissue 29 false (.vcvtI32F32 g d a r)

/-- VCVT_N32_F32 (R221): Converts FP32 to unsigned integer. -/
def execVcvtN32F32 (g : Guard) (d : Fin 64) (a : Fin 64) (r : Fin 8) (s : State) : Out :=
  s.vissue 29 false (.vcvtN32F32 g d a r)

/-- VCVT_F32_I32 (R221): Converts signed integer to FP32. -/
def execVcvtF32I32 (g : Guard) (d : Fin 64) (a : Fin 64) (r : Fin 8) (s : State) : Out :=
  s.vissue 29 false (.vcvtF32I32 g d a r)

/-- VCVT_F32_N32 (R221): Converts unsigned integer to FP32. -/
def execVcvtF32N32 (g : Guard) (d : Fin 64) (a : Fin 64) (r : Fin 8) (s : State) : Out :=
  s.vissue 29 false (.vcvtF32N32 g d a r)

/-- VRINT_F32 (R222): Rounds FP32 to an integral value. -/
def execVrintF32 (g : Guard) (d : Fin 64) (a : Fin 64) (r : Fin 8) (s : State) : Out :=
  s.vissue 29 false (.vrintF32 g d a r)

/-- VCVT_MX_F32 (R223): Encodes FP32 lanes as MX codes and scales. -/
def execVcvtMxF32 (d : Fin 32) (a : Fin 64) (m : Fin 4) (r : Fin 8) (s : State) : Out :=
  s.vissue 29 true (.vcvtMxF32 d a m r)

/-- VCVT_F32_MX (R224): Decodes MX codes and scales to FP32. -/
def execVcvtF32Mx (g : Guard) (d : Fin 64) (a : Fin 32) (m : Fin 4) (s : State) : Out :=
  s.vissue 29 true (.vcvtF32Mx g d a m)

/-- VEXP_F32 (R76): EXP of each lane. -/
def execVexpF32 (g : Guard) (d : Fin 64) (a : Fin 64) (s : State) : Out :=
  s.vissue 30 false (.vexpF32 g d a)

/-- VEXP2_F32 (R76): EXP2 of each lane. -/
def execVexp2F32 (g : Guard) (d : Fin 64) (a : Fin 64) (s : State) : Out :=
  s.vissue 30 false (.vexp2F32 g d a)

/-- VLOG2_F32 (R77): LOG2 of each lane. -/
def execVlog2F32 (g : Guard) (d : Fin 64) (a : Fin 64) (s : State) : Out :=
  s.vissue 30 false (.vlog2F32 g d a)

/-- VRCP_F32 (R78): Correctly rounded reciprocal. -/
def execVrcpF32 (g : Guard) (d : Fin 64) (a : Fin 64) (s : State) : Out :=
  s.vissue 30 false (.vrcpF32 g d a)

/-- VRSQRT_F32 (R78): Correctly rounded reciprocal square root. -/
def execVrsqrtF32 (g : Guard) (d : Fin 64) (a : Fin 64) (s : State) : Out :=
  s.vissue 30 false (.vrsqrtF32 g d a)

/-- VSQRT_F32 (R78): Correctly rounded square root. -/
def execVsqrtF32 (g : Guard) (d : Fin 64) (a : Fin 64) (s : State) : Out :=
  s.vissue 30 false (.vsqrtF32 g d a)

/-- VTANH_F32 (R79): TANH of each lane. -/
def execVtanhF32 (g : Guard) (d : Fin 64) (a : Fin 64) (s : State) : Out :=
  s.vissue 30 false (.vtanhF32 g d a)

/-- VCMPR (R229): Keeps the k largest-magnitude candidates of each group and zeroes the rest. -/
def execVcmpr (g : Guard) (d : Fin 64) (a : Fin 64) (k : Fin 16) (sc : Fin 4) (s : State) : Out :=
  s.vissue 31 false (.vcmpr g d a k sc)

/-- VTOPK_F32 (R229): Writes the top-k FP32 values and columns of each group. -/
def execVtopkF32 (g : Guard) (d : Fin 32) (a : Fin 64) (k : Fin 16) (sc : Fin 4) (s : State) : Out :=
  s.vissue 31 false (.vtopkF32 g d a k sc)

/-- VSCAN_F32 (R230): FP32 prefix sum along rows or columns. -/
def execVscanF32 (g : Guard) (d : Fin 64) (a : Fin 64) (e : Fin 2) (c : Fin 2) (s : State) : Out :=
  s.vissue 31 false (.vscanF32 g d a e c)

/-- VSCAN_I32 (R230): Integer prefix sum along rows or columns. -/
def execVscanI32 (g : Guard) (d : Fin 64) (a : Fin 64) (e : Fin 2) (c : Fin 2) (s : State) : Out :=
  s.vissue 31 false (.vscanI32 g d a e c)

/-- VRAND_N32 (R231): Writes Mix values per lane. -/
def execVrandN32 (g : Guard) (d : Fin 64) (sc : Fin 32) (s : State) : Out :=
  s.vissue 31 false (.vrandN32 g d sc)

/-- VRAND_F32 (R231): Writes uniform FP32 draws per lane. -/
def execVrandF32 (g : Guard) (d : Fin 64) (sc : Fin 32) (s : State) : Out :=
  s.vissue 31 false (.vrandF32 g d sc)

/-- VTOPK_I32 (R229): Writes the top-k signed values and columns of each group. -/
def execVtopkI32 (g : Guard) (d : Fin 32) (a : Fin 64) (k : Fin 16) (sc : Fin 4) (s : State) : Out :=
  s.vissue 31 false (.vtopkI32 g d a k sc)

end Sys2Proof.Machine
end

