-- ==== Sys2Proof/Machine/Translation.lean ====
section
/-! DEFINITION. Translation and tier instructions: TLB.INV and TLB.SYNC, probes, migration, pins, frame counts, and the fork
walker's copy-on-write breaks and migrations (R169 to R175, R182 to R189). -/
namespace Sys2Proof.Machine

/-! ## Leaves and frames as the hardware changes them -/

def leafClearCow (e : Nat) : Nat := setBits e 8 1 0
def leafSetFrame (e frame tier : Nat) : Nat := setBits (setBits e 20 40 frame) 5 2 tier

/-- The place of a frame's record (R169). -/
def State.frameRec (s : State) (frame : Nat) : Nat := s.sysBase 1 + 4 * frame

/-- COUNT of a frame. DESIGN CHOICE: a break of a shared page in T2, which has no record, reads and writes the four bytes where R169's rule
places one for its frame number (R171; log 127). -/
def State.frameCount (s : State) (frame : Nat) : Nat := bits (s.physNat (s.frameRec frame) 4) 0 28

def State.setFrameCount (s : State) (frame n : Nat) : State := s.hwWrite (s.frameRec frame) 4 (n % 2 ^ 28)

/-- A frame that has a record: T0 or T1 (R169). -/
def hasRec (frame : Nat) : Bool := tierOf (frame * 4096) ≤ 1

/-- Copies a page between frames, with the poison of its lines. -/
def State.copyPage (s : State) (src dst frames : Nat) : State :=
  let n := 4096 * frames
  let bad := (List.range (64 * frames)).filter fun i => s.poisoned (64 * src + i)
  let s1 := { s with mem := s.mem.copy (4096 * src) (4096 * dst) n }
  let s2 := (List.range (64 * frames)).foldl (fun s i => s.setPoison (64 * dst + i) (bad.contains i)) s1
  (s2.fire (4096 * dst) n).landRows (4096 * dst) n

/-! ## The fork walker's breaks and migrations -/

/-- An access of any core to n bytes of device memory from `pa` is under way (R173, R184). -/
def State.accessing (s : State) (pa n : Nat) : Bool :=
  s.cores.toList.any fun k =>
    (k.reqs.any fun q => q.pool == none && overlap q.addr 64 pa n) ||
      (k.threads.toList.any fun t => t.stores.any fun st => st.pool == none && overlap st.addr 64 pa n)

/-- The page that a leaf maps is being accessed. -/
def State.leafInUse (s : State) (e : Nat) : Bool := s.accessing (4096 * leafFrame e) (4096 * sizeFrames (leafSize e))

/-- The hardware's own invalidation of a leaf at .pk is complete (R171, R180): as TLB.SYNC does, L1GEN advances on every core (R184). -/
def State.leafSynced (s : State) : State := { s with cores := s.cores.map Core.bumpL1 }

/-- Move `id` of die d is over. -/
def State.endMove (s : State) (d : Fin 4) (id : Nat) : State :=
  s.setDie d { s.die d with moves := (s.die d).moves.filter (·.id ≠ id) }

/-- The free list that a break for a region takes a page of size code z from (R170, R375). -/
def State.cowList (s : State) (d : Fin 4) (region z : Nat) : Nat := effective 11 (48 + 8 * z) 8 (s.lineage d region)

/-- A break's first part (R171): the leaf is locked by BUSY and leaves the TLBs; COUNT is read, and unless it is 1 a frame is taken. With no
frame BUSY is clear again, and the break has ended. -/
def State.cowLock (s : State) (d : Fin 4) (m : Move) (pa e : Nat) : State :=
  let c := s.frameCount (leafFrame e)
  let mark := fun (s : State) (f : Nat) =>
    let s1 := (s.writeLeaf pa e (leafSetBusy e true)).dropLeaf m.asid m.va
    s1.setDie d { s1.die d with moves := (s1.die d).moves.map fun x =>
      if x.id = m.id then { x with locked := some c, frame := f, tier := leafSize e, pa := pa } else x }
  if c = 1 then mark s 0
  else match s.takeFrame d (s.cowList d m.region (leafSize e)) with
    | some (f, s1) => mark s1 f
    | none =>
      s.setDie d { s.die d with moves := (s.die d).moves.map fun x =>
        if x.id = m.id then { x with ended := some (leafSize e) } else x }

/-- A break's second part (R171), once no access uses the old translation: with COUNT read as 1 the page is the writer's own; else it is
copied and COUNT taken down if above 1; a writer that finds the others gone gives its frame back. -/
def State.cowFinish (s : State) (d : Fin 4) (m : Move) (c pa e : Nat) : State :=
  let f0 := leafFrame e
  let clear := leafClearCow (leafSetBusy e false)
  let out := fun (s : State) (new : Nat) => ((s.writeLeaf pa e new).dropLeaf m.asid m.va).leafSynced.endMove d m.id
  if c = 1 then out s clear
  else
    let s1 := s.copyPage f0 m.frame (sizeFrames (leafSize e))
    let old := s1.frameCount f0
    if 1 < old then
      out ((s1.setFrameCount f0 (old - 1)).setFrameCount m.frame 1) (leafSetFrame clear m.frame (tierOf (4096 * m.frame)))
    else out (s1.giveFrame d (s1.cowList d m.region (leafSize e)) m.frame) clear

/-- A break ends early: its leaf cannot be walked to, or a frame of it is out of reach. BUSY clears, and a frame that it has taken goes back
to its list (R171; log 114). -/
def State.cowDrop (s : State) (d : Fin 4) (m : Move) : State :=
  let s1 := match m.locked with
    | some c => (if c = 1 then s else s.giveFrame d (s.cowList d m.region m.tier) m.frame).unbusy m.pa
    | none => s
  (s1.dropLeaf m.asid m.va).endMove d m.id

/-- A page of a break that has to copy lies in a lost stack. -/
def State.cowLost (s : State) (d : Fin 4) (m : Move) (e : Nat) : Bool :=
  m.locked != some 1 && ((s.lost d (4096 * leafFrame e)).isSome || (s.lost d (4096 * m.frame)).isSome)

/-- COW_BREAK (R171): move i of the die locks its leaf, or finishes once it is locked. -/
def State.cowBreak (s : State) (d : Fin 4) (i : Nat) : State :=
  match (s.die d).moves[i]? with
  | none => s
  | some m =>
    if !m.cow ∨ m.ended.isSome then s
    else match s.walk d m.asid m.va with
      | .stop _ _ _ => s.cowDrop d m
      | .leaf pa e =>
        match m.locked with
        | some c => if s.cowLost d m e then s.cowDrop d m else if s.leafInUse e then s else s.cowFinish d m c pa e
        | none => if !(leafCow e) then s.endMove d m.id else if leafBusy e then s else s.cowLock d m pa e

def execCowBreak (die : Fin 4) (im : Nat) (s : State) : Out := .next (s.cowBreak die im)

/-- Puts an old frame on the reclaim ring (R433); `none` while the ring has no room, or its release at .sy cannot be complete because the
host link is down (R437). -/
def State.reclaim (s : State) (d : Fin 4) (frame : Nat) : Option State :=
  let base := s.lists[10].toNat
  if !s.hostup then none
  else match s.hwRead d 0 base 24 with
  | .error _ => none
  | .ok h =>
    let head := field h 0 8
    let tail := field h 8 8
    let cap := field h 16 8
    if cap ≤ tail - head then none
    else
      match s.hwStore d 0 (base + 64 + 8 * (tail % cap)) (leBytes 8 frame) with
      | .error _ => none
      | .ok s1 =>
        match s1.hwStore d 0 (base + 8) (leBytes 8 (tail + 1)) with
        | .error _ => none
        | .ok s2 => some s2

/-- The frames that a page of n frames takes in T0 when it moves there from another tier (R173, R375). -/
def framesIn (n old new : Nat) : Int := if new = 0 ∧ old ≠ 0 then (n : Int) else 0

/-- PAGE_MIGRATION_COMPLETE (R173, R175): move i of the die ends once no access uses the old frame. DESIGN CHOICE: the COUNT of a page that
comes from T2, where it has no record, is 1 (log 140). -/
def State.migrateDone (s : State) (d : Fin 4) (i : Nat) : State :=
  match (s.die d).moves[i]? with
  | none => s
  | some m =>
    if m.cow ∨ m.ended.isSome then s
    else
      let finish : State → Nat → State := fun s st =>
        s.setDie d { s.die d with moves := (s.die d).moves.filterMap fun x =>
                       if x.id ≠ m.id then some x else if m.waits then some { x with ended := some st } else none }
      match s.walk d m.asid m.va with
      | .stop _ _ _ =>
        let e := s.physNat m.pa 8
        let s1 := s.charge d m.region 136 (-(framesIn (sizeFrames (leafSize e)) (leafTier e) m.tier))
        finish ((s1.unbusy m.pa).dropLeaf m.asid m.va).leafSynced 8
      | .leaf pa e =>
        let n := sizeFrames (leafSize e)
        let old := leafFrame e
        let gone := fun f => (s.lost d (f * 4096)).isSome = true
        if gone old ∨ gone m.frame then
          let s1 := s.charge d m.region 136 (-(framesIn n (leafTier e) m.tier))
          finish ((s1.writeLeaf pa e (leafSetBusy e false)).dropLeaf m.asid m.va).leafSynced 8
        else if s.accessing (4096 * old) (4096 * n) then s
        else match s.reclaim d old with
        | none => s
        | some s1 =>
          let c := if hasRec old then s.frameCount old else 1
          let s2 := (s1.copyPage old m.frame n).fire (4096 * old) (4096 * n)
          let s3 := if hasRec old then s2.setFrameCount old 0 else s2
          let s4 := if hasRec m.frame then s3.setFrameCount m.frame c else s3
          let s5 := s4.charge d m.region 136 (-(framesIn n m.tier (leafTier e)))
          finish ((s5.writeLeaf pa e (leafSetFrame (leafSetBusy e false) m.frame m.tier)).dropLeaf m.asid m.va).leafSynced 0

def execPageMigrationComplete (die : Fin 4) (im : Nat) (s : State) : Out := .next (s.migrateDone die im)

/-! ## TLB.INV and TLB.SYNC (R183, R184) -/

/-- Whether core c is in the scope of an invalidation. -/
def Inval.covers (v : Inval) (c : Fin 64) : Bool :=
  if v.scope = 1 then c.val == v.core else if v.scope = 3 then (dieOf c).val == v.die else true

def Inval.coversDie (v : Inval) (d : Fin 4) : Bool := if v.scope = 4 then true else d.val == v.die

/-- TLB.INV (R183): it issues once the thread's earlier stores are performed, and retires; the drop follows. -/
def execTlbInv (a b : Fin 32) (k : Fin 4) (sc : Fin 8) (s : State) : Out :=
  s.gate { maj := 17, priv := true } [a, b] fun _ =>
    if !(s.me.stores.isEmpty) then s.block 10 0
    else
      let (id, s1) := s.fresh
      let v : Inval :=
        { id := id, owner := some (s.cc, s.cr), scope := sc.val, die := (dieOf s.cc).val, core := s.cc.val, kind := k.val,
          addr := (s.me.get a).toNat, asid := bits (s.me.get b).toNat 0 12, count := bits (s.me.get b).toNat 16 32,
          done := false }
      { s1 with invals := s1.invals ++ [v] }.done 2

/-- The effect of an invalidation on every TLB and walk cache in its scope. -/
def State.dropScope (s : State) (v : Inval) : State :=
  { s with
    cores := Vector.ofFn fun c => if v.covers c then (s.core c).dropTlb v.kind v.addr v.asid v.count else s.core c,
    dies := Vector.ofFn fun d => if v.coversDie d then (s.die d).dropWalk v.kind v.addr v.asid v.count else s.die d }

/-- An access that used an entry of this kind, of the page that it was translated by, is under way on a core in scope (R184). -/
def State.using (s : State) (v : Inval) : Bool :=
  (List.finRange 64).any fun c =>
    let k := s.core c
    let hits := fun (va n : Nat) =>
      invDrops v.kind v.addr v.asid v.count { asid := k.view.asid, vpage := va / 4096 / n * n, pages := n, leaf := 0 }
    v.covers c && ((k.reqs.any fun q => q.pool == none && hits q.va q.pages) ||
      (k.threads.toList.any fun t => t.stores.any fun st => st.pool == none && hits st.va st.pages))

/-- L1GEN advances on every core in an invalidation's scope, as an acquire would (R184). -/
def State.bumpScope (s : State) (p : Fin 64 → Bool) : State :=
  { s with cores := Vector.ofFn fun c => if p c then (s.core c).bumpL1 else s.core c }

/-- TLB_INV_COMPLETE (R184): the entries are dropped, and the invalidation is complete once no access uses them. One of the
mailbox ends with its TLB.SYNC, and its command is answered (R432). -/
def State.invDone (s : State) (i : Nat) : State :=
  match s.invals[i]? with
  | none => s
  | some v =>
    let s := s.dropScope v
    if s.using v then s
    else if v.owner.isSome then { s with invals := s.invals.set i { v with done := true } }
    else
      { s.bumpScope (fun _ => true) with invals := s.invals.eraseIdx i }.reply' 2 0 []

def execTlbInvComplete (im : Nat) (s : State) : Out := .next (s.invDone im)

/-- TLB.SYNC (R184): waits for every earlier TLB.INV of the thread. -/
def execTlbSync (s : State) : Out :=
  s.gate { maj := 17, priv := true } [] fun _ =>
    let mine := s.invals.filter fun v => v.owner == some s.cur
    if mine.any fun v => !v.done then s.hold
    else
      ({ s with invals := s.invals.filter fun v => v.owner ≠ some s.cur }.bumpScope fun c => mine.any (·.covers c)).done 2

/-! ## PG.PROBE, PG.PIN, PG.MIG (R185 to R187) -/

/-- PG.PROBE (R185). The level bits of an address with bits 63:56 set are not stated: they are a free value. -/
def execPgProbe (a d : Fin 32) (s : State) : Out :=
  s.gate { maj := 18 } [a] fun _ =>
    let va := (s.me.get a).toNat
    let put := fun (s : State) (v : Nat) => (s.upMe fun t => t.put d (word v)).done 2
    if s.acqOpen s.cc s.cr then s.block 10 0
    else if inWindow va then put s (2 ^ 63 + 0x4000)
    else match s.walk (dieOf s.cc) s.asid va with
    | .leaf _ e =>
      let s1 := if leafBusy e then s else s.upMyCore fun k => k.fillTlb s.asid va e
      put s1 (if s.cr = .T then e else setBits e 20 40 0)
    | .stop l c dt =>
      if c ≠ cPAGE then s.trapX { cause := c, detail := dt, va := va, kind := 1 }
      else if dt = 0x0B then
        let (v, s1) := s.freeVal
        put s1 (2 ^ 63 + 256 * dt + 16 * bits v.toNat 0 3)
      else put s (2 ^ 63 + 256 * dt + 16 * l)

/-- PG.PIN ends (R187): PIN written, BUSY clear, its own invalidation complete, the old PIN in gD. -/
def State.pinDone (s : State) (d : Fin 32) (clr : Bool) (va pa e : Nat) : Out :=
  let s1 := ((s.writeLeaf pa e (leafSetBusy (setBits e 19 1 (if clr then 0 else 1)) false)).dropLeaf s.asid va).leafSynced
  (s1.upMe fun t => t.put d (flagW (leafPin e))).done 2

/-- PG.PIN (R187): it waits for a migration in flight; BUSY is seen set while accesses through the leaf are under way. -/
def execPgPin (a d : Fin 32) (c : Fin 2) (s : State) : Out :=
  s.gate { maj := 18, priv := true } [a] fun _ =>
    let va := (s.me.get a).toNat
    let bad := fun ca dt => s.trapX { cause := ca, detail := dt, va := va, kind := 1 }
    match s.me.stage with
    | .pin pa e => if s.leafInUse e then s.block 13 0 else s.pinDone d (c.val == 1) va pa e
    | _ =>
      if s.acqOpen s.cc s.cr then s.block 10 0
      else if inWindow va then bad cPAGE 0x40
      else match s.walk (dieOf s.cc) s.asid va with
      | .stop _ ca dt => bad ca dt
      | .leaf pa e =>
        if leafTier e = 3 then bad cTIER 0
        else if leafBusy e then s.block 13 0
        else if s.leafInUse e then
          (((s.writeLeaf pa e (leafSetBusy e true)).dropLeaf s.asid va).upMe fun t => { t with stage := .pin pa e }).block 13 0
        else s.pinDone d (c.val == 1) va pa e

/-- The list that a migration takes its target frame from: eight T0 lists by stack, then T1 and T2 (R433). -/
def State.listBase (s : State) (ix : Nat) : Nat := (s.lists[Fin.ofNat 11 ix]).toNat

/-- Takes a target frame: a named stack's list, or either stack of the die (R186). -/
def State.targetFrame (s : State) (d : Fin 4) (tier stack : Nat) : Option (Nat × State) :=
  if tier = 1 then s.takeFrame d (s.listBase 8)
  else if tier = 2 then s.takeFrame d (s.listBase 9)
  else if stack < 8 then s.takeFrame d (s.listBase stack)
  else match s.takeFrame d (s.listBase (2 * d.val)) with
    | some x => some x
    | none => s.takeFrame d (s.listBase (2 * d.val + 1))

/-- Whether a page lies where the request wants it. -/
def migThere (d : Fin 4) (tier stack e : Nat) : Bool :=
  let st := (stackOf (leafFrame e * 4096)).val
  leafTier e == tier && (tier != 0 || (if stack < 8 then st == stack else st / 2 == d.val))

/-- The status that PG.MIG finds at issue (R186), for a page with this leaf. DESIGN CHOICE: a copy-on-write page in T2, which has no COUNT, never
gives status 7 (log 142). -/
def State.migStatus (s : State) (d : Fin 4) (tier stack e : Nat) : Nat :=
  if leafTier e = 3 then 4
  else if leafBusy e then 6
  else if tier ≠ 0 ∧ (leafMs e ∨ leafSk e) then 9
  else if migThere d tier stack e then 1
  else if leafPin e then 2
  else if leafCow e ∧ (hasRec (leafFrame e)) ∧ 1 < s.frameCount (leafFrame e) then 7
  else 0

/-- PG.MIG (R186): the status of the checks made at issue, or with .w the status when the migration ends. -/
def execPgMig (a b d : Fin 32) (w : Fin 2) (s : State) : Out :=
  s.gate { maj := 18 } [a, b] fun _ =>
    let put := fun (s : State) (v : Nat) => (s.upMe fun t => t.put d (word v)).done 2
    let die := dieOf s.cc
    match s.me.stage with
    | .mig id =>
      match (List.finRange 4).findSome? fun d => ((s.die d).moves.find? (·.id == id)).map fun m => (d, m) with
      | some (d, m) =>
        match m.ended with
        | some st => put (s.setDie d { s.die d with moves := (s.die d).moves.filter (·.id ≠ id) }) st
        | none => s.block 10 0
      | none => put s 8
    | _ =>
      let va := (s.me.get a).toNat
      let tier := bits (s.me.get b).toNat 0 2
      let stack := bits (s.me.get b).toNat 2 4
      if s.acqOpen s.cc s.cr then s.block 10 0
      else if tier = 3 then put s 5
      else if (8 ≤ stack ∧ stack ≠ 15) ∨ (tier ≠ 0 ∧ stack ≠ 15) then put s 10
      else if inWindow va then put s 4
      else match s.walk die s.asid va with
      | .stop _ _ _ => put s 4
      | .leaf pa e =>
        let st := s.migStatus die tier stack e
        if st ≠ 0 then put s st
        else
          let n := sizeFrames (leafSize e)
          let chain := s.lineage die s.myCore.view.region
          if tier = 0 ∧ leafTier e ≠ 0 ∧ !(fits 6 20 136 n chain) then put s 3
          else match s.targetFrame die tier stack with
          | none => put s 3
          | some (f, s1) =>
            let page := va / (4096 * n) * (4096 * n)
            let (id, s2) := s1.fresh
            let m : Move := { id := id, asid := s.asid, va := page, cow := false, tier := tier, frame := f, locked := none, pa := pa,
                              region := s.myCore.view.region, waits := w.val == 1, ended := none }
            let s2 := s2.charge die s.myCore.view.region 136 (framesIn n (leafTier e) tier)
            let s3 := ((s2.writeLeaf pa e (leafSetBusy e true)).dropLeaf s.asid page)
            let s4 := s3.setDie die { s3.die die with moves := (s3.die die).moves ++ [m] }
            if w.val = 1 then (s4.upMe fun t => { t with stage := .mig id }).block 10 0 else put s4 0

/-! ## Frame counts (R188) -/

/-- The first frame of the page that a virtual address maps, walked as a read: a stop, or the frame. -/
def State.countedFrame (s : State) (va : Nat) : Except (Nat × Nat) (Option Nat) :=
  if inWindow va then .error (cPAGE, 0x40)
  else match s.walk (dieOf s.cc) s.asid va with
  | .stop _ c d => .error (c, d)
  | .leaf _ e =>
    if leafBusy e then .ok none
    else match leafAccess .read false e with
    | some x => .error x
    | none =>
      if leafTier e = 2 then .error (cPAGE, 0x08)
      else match s.lost (dieOf s.cc) (s.frameRec (leafFrame e)) with
        | some x => .error (cDIEX, x)
        | none => .ok (some (leafFrame e))

/-- A frame-count form: `f` gives the new count of the old one, or fails. DESIGN CHOICE: a form that fails leaves bit 62 clear, FC.DEC that
meets COUNT 0 too (R188; log 126). -/
def State.frameForm (s : State) (a d : Fin 32) (regs : List (Fin 32)) (f : Nat → Option Nat) (zero : Bool) : Out :=
  s.gate { maj := 19, priv := true } regs fun _ =>
    let va := (s.me.get a).toNat
    if s.asyncOpen then s.block 10 0
    else match s.countedFrame va with
    | .error (c, x) => s.trapX { cause := c, detail := x, va := va, kind := 1 }
    | .ok none => s.block 13 0
    | .ok (some fr) =>
      let old := s.frameCount fr
      match f old with
      | none => (s.upMe fun t => t.put d (word (old + 2 ^ 63))).done 2
      | some n =>
        ((if n = old then s else s.setFrameCount fr n).upMe fun t =>
          t.put d (word (old + if zero ∧ n = 0 then 2 ^ 62 else 0))).done 2

/-- FC.INC (R188). -/
def execFcInc (a b d : Fin 32) (s : State) : Out :=
  s.frameForm a d [a, b] (fun old =>
    if 0x0FFFFFFF < old + (s.me.get b).toNat then none else some (old + (s.me.get b).toNat)) false

/-- FC.DEC (R188). -/
def execFcDec (a b d : Fin 32) (s : State) : Out :=
  s.frameForm a d [a, b] (fun old => if old < (s.me.get b).toNat then none else some (old - (s.me.get b).toNat)) true

/-- FC.READ (R188). -/
def execFcRead (a d : Fin 32) (s : State) : Out := s.frameForm a d [a] (fun old => some old) false

end Sys2Proof.Machine
end

