-- ==== Sys2Proof/Machine/Engine.lean ====
section
/-! DEFINITION. What the engines share: their accesses to device memory, the places of typed elements and of operand images
(R168, R234), engine fault records (R181) and tile slots (R257 to R262). -/
namespace Sys2Proof.Machine

/-! ## Formats by page code (R56, R58, R60) -/

/-- Bits per element; raw bytes have 8. -/
def fmtBits (f : Nat) : Nat :=
  match f with
  | 1 => 32
  | 2 => 16
  | 3 => 16
  | 7 => 6
  | 8 => 4
  | 10 => 32
  | _ => 8

def isMx (f : Nat) : Bool := decide (6 ≤ f) && decide (f ≤ 8)

/-- The floating format of a page code. -/
def fmtFloat (f : Nat) : FFmt :=
  match f with
  | 1 => f32
  | 2 => bf16
  | 3 => f16
  | 4 => e4m3
  | _ => e5m2

/-- Widen of a code by page code (R61), MX codes under a scale. -/
def widenFmt (f code scale : Nat) : Val :=
  if isMx f then mxWiden f code scale
  else if f = 9 ∨ f = 10 then
    let i := sint (fmtBits f) code
    .fin (decide (i < 0)) i.natAbs 0
  else (fmtFloat f).widen code false

/-- Round to a page code that is not MX (R62). -/
def roundFmt (f : Nat) (x : Val) (rm : Nat) (sat : Bool) (z : Nat) : Nat :=
  if f = 9 ∨ f = 10 then (roundInt true (fmtBits f) x rm z).1 else ((fmtFloat f).round x rm sat z).1

/-- Blocks per MX granule and the start of its element bytes (R168). -/
def mxBlocks (f : Nat) : Nat := if f = 6 then 124 else if f = 7 then 160 else 240
def mxStart (f : Nat) : Nat := if f = 6 then 128 else 256

/-- Where the 32 elements from `e`, a multiple of 32, lie on a typed page of base B: address, bytes, and the scale's (R168). -/
def blockPlace (f b e : Nat) : Nat × Nat × Option Nat :=
  if isMx f then
    let gr := b + 4096 * (e / (32 * mxBlocks f))
    let j := e % (32 * mxBlocks f)
    ((gr + mxStart f + mxW f * j / 8) % 2 ^ 64, 4 * mxW f, some ((gr + j / 32) % 2 ^ 64))
  else ((b + e * (fmtBits f / 8)) % 2 ^ 64, 4 * fmtBits f, none)

/-- The scale offset SO of an operand image (R234). -/
def imageSO (f : Nat) : Nat := if f = 6 then 128 else if f = 7 then 144 else 256

/-! ## Engine accesses to device memory (R166, R180, R181) -/

/-- Why an engine's access does not complete. -/
inductive Stall where
  /-- It waits: the leaf is BUSY, its page is in walk, or the way is held back (R164, R177, R268, R426). -/
  | wait
  /-- It waits for an entry of the miss table (R177). -/
  | miss
  /-- It waits for the fork walker to break the sharing of its page (R171). -/
  | cow (asid va leaf : Nat)
  /-- It waits for entries of the request table (R114). -/
  | room (i : Issuer)
  /-- A fork's marking waits for the accesses under way through the leaves of a subtree, which BUSY locks meanwhile (R172). -/
  | mark (level frame : Nat) (asid : Nat)
  | fault (x : XFault)

/-- What an engine's access finds. -/
inductive EngRes where
  | ok (pa : Nat) (e : Nat) (s : State)
  | stop (w : Stall)

/-- Asks the fork walker for the break that engine i of core c waits for, or for its turn at the request table or the miss table; the engine's
step has no other effect. -/
def State.ask (s : State) (c : Fin 64) (i : Issuer) (w : Stall) : State :=
  let out := s.upCore c fun k => k.unwaitWalk i
  match w with
  | .miss => s.upCore c fun k => k.awaitWalk i
  | .cow asid va e => match out.askCow c asid va e with
    | .wait s1 => s1
    | .empty _ => out
  | .room i => out.upCore c fun k => k.await i
  | .wait => out
  | .mark _ _ _ => out
  | .fault _ => out

/-- The checks of one access of an engine, under a leaf. -/
def State.engUnder (s : State) (c : Fin 64) (port : Fin 6) (asid va : Nat) (a : Acc) (typed : Bool) (e : Nat) : EngRes :=
  let bad := fun ca d => EngRes.stop (.fault { cause := ca, detail := d, va := va, kind := a.kind })
  if leafBusy e then .stop .wait
  else match leafAccess a typed e with
  | some (ca, d) => bad ca d
  | none => match s.lost (dieOf c) (leafAddr e va) with
    | some d => bad cDIEX d
    | none =>
      if s.tripHeld c (leafAddr e va) then .stop .wait
      else .ok (leafAddr e va) e (s.upCore c fun k => (k.unwaitWalk (portIssuer port)).fillPort port asid va e)

/-- One access of an engine of core c, within a page; a write to a shared page waits for the fork walker's break (R171). -/
def State.engAt (s : State) (c : Fin 64) (port : Fin 6) (asid va : Nat) (a : Acc) (typed : Bool) : EngRes :=
  let bad := fun ca d => EngRes.stop (.fault { cause := ca, detail := d, va := va, kind := a.kind })
  if inWindow va then bad cPAGE 0x40
  else if ((s.core c).tlb port asid va).isNone && (s.core c).missFull (portIssuer port) asid va then .stop .miss
  else if ((s.core c).tlb port asid va).isNone && ((s.core c).inWalk asid va || s.walkHeld c asid va) then .stop .wait
  else match s.engLeaf c port asid va with
  | .error (ca, d) => bad ca d
  | .ok e =>
    if leafBusy e then .stop .wait
    else match leafAccess a typed e with
    | some (ca, d) => bad ca d
    | none =>
      if a.writes && leafCow e then
        match s.askCow c asid va e with
        | .wait _ => .stop (.cow asid va e)
        | .empty z => bad cCOWX z
      else s.engUnder c port asid va a typed e

/-- The earlier stores of a thread that an asynchronous operation numbered `id` reads behind (R143). -/
def State.storesDone (s : State) (c : Fin 64) (r : Role) (id : Nat) : Bool :=
  (s.thr c r).stores.all fun st => decide (id < st.id)

/-! ## Engine fault records (R181, R246, R275) -/

/-- The EFEN class of a record: 0 copy, 1 matrix, 3 fast weights, 4 sequence; a store or a posted event has none (R151). -/
def RecOp.cls : RecOp → Option Nat
  | .copy _ => some 0
  | .fill _ => some 1
  | .fw _ => some 3
  | .seq _ => some 4
  | .post _ => none
  | .store _ => none

/-- A fault record of this class and thread is pending; a cancellation record raises nothing (R275). -/
def Core.recPending (k : Core) (r : Role) (cls : Nat) : Bool :=
  (List.finRange 32).any fun i => match k.recs[i] with
    | some x => x.role == r && x.op.cls == some cls && !x.cancel
    | none => false

/-- Leaves a record if a place is free (R181). -/
def State.tryRec (s : State) (c : Fin 64) (x : Rec) : Option State :=
  match (s.core c).freeRec with
  | none => none
  | some i => some ((s.cowOver c (s.core c).view.asid x.fault).leaveRec c i x)

/-! ## Tile slots (R257 to R262) -/

def slotFmt (d : Word) : Nat := bits d.toNat 60 4
def slotRows (d : Word) : Nat := bits d.toNat 48 12
def slotRB (d : Word) : Nat := bits d.toNat 38 10
def slotBase (d : Word) : Nat := bits d.toNat 6 17 * 64

/-- Bytes of a slot's rectangle. -/
def slotLen (d : Word) : Nat := 64 * slotRB d * slotRows d

def Slot.tag (x : Slot) : Nat := bits x.state.toNat 48 16
def Slot.exp (x : Slot) : Nat := bits x.state.toNat 32 16
def Slot.full (x : Slot) : Bool := bits x.state.toNat 31 1 == 1
def Slot.halt (x : Slot) : Bool := bits x.state.toNat 28 1 == 1

/-- A STATE word without PEND and LOCK, which follow from the queues and locks. -/
def slotWord (tag exp : Nat) (full halt : Bool) : Word :=
  word (tag % 65536 * 2 ^ 48 + exp % 65536 * 2 ^ 32 + (if full then 2 ^ 31 else 0) + (if halt then 2 ^ 28 else 0))

/-- The slot and core that a copy fills: DST of a .ts form names the slot and the member (R263). -/
def CEnt.slot (e : CEnt) : Option (Nat × Nat) :=
  let ts : Bool := match e.op with
    | .cpCopyTs _ _ => true
    | .cpGath _ _ _ t => t.val == 1
    | .cpFill _ _ _ t => t.val == 1
    | _ => false
  if ts then some (bits e.d.dst 8 4, bits e.d.dst 0 6) else none

/-- The producers of a core that are queued, running, faulted or cancelled (R258, R260). -/
def Core.producers (k : Core) : List CEnt :=
  k.cq ++ (List.finRange 32).filterMap fun i => match k.recs[i] with
    | some { op := .copy e, .. } => some e
    | _ => none

/-- A copy into slot i of core c is queued or running (R258). -/
def State.pend (s : State) (c : Fin 64) (i : Nat) : Bool :=
  (List.finRange 64).any fun p => (s.core p).producers.any fun e =>
    match e.slot with
    | some (m, j) => j == i && s.member p m == some c
    | none => false

/-- A live or parked lock covers the slot's rectangle (R258). -/
def Core.slotLock (k : Core) (i : Fin 64) : Bool :=
  let d := k.slots[i].defw
  k.locks.any fun l => l.space == none && overlap l.base l.len (slotBase d) (slotLen d)

/-- The whole STATE word. -/
def State.slotState (s : State) (c : Fin 64) (i : Fin 64) : Word :=
  (s.core c).slots[i].state ||| word ((if s.pend c i.val then 2 ^ 30 else 0) + (if (s.core c).slotLock i then 2 ^ 29 else 0))

def Core.setSlot (k : Core) (i : Fin 64) (x : Slot) : Core := { k with slots := k.slots.set i x }

/-- A release: FULL clears and EXP advances (R261). -/
def Slot.release (x : Slot) : Slot := { x with state := slotWord x.tag (x.exp + 1) false x.halt }

/-- HALT set or cleared. -/
def Slot.setHalt (x : Slot) (b : Bool) : Slot := { x with state := slotWord x.tag x.exp x.full b }

/-- A producer's completion: its tag, and FULL (R260). -/
def Slot.fill (x : Slot) (tag : Nat) : Slot := { x with state := slotWord tag x.exp true x.halt }

/-- What a consumer finds (R261). -/
inductive Consume where
  | wait
  | go
  | mismatch (tag : Nat)

def Slot.consume (x : Slot) : Consume := if !x.full then .wait else if x.tag = x.exp then .go else .mismatch x.tag

/-- The TRAPW detail of SCHED (R262). -/
def schedDetail (i tag : Nat) : Nat := tag * 65536 + i

end Sys2Proof.Machine
end

