-- ==== Sys2Proof/Machine/Matrix.lean ====
section
/-! DEFINITION. The matrix engine: operand images, the column store, planes, tiles, the matrix queue and its locks, and the
instructions of MAJ 32 to 35 (R233 to R256). -/
namespace Sys2Proof.Machine

/-! ## Formats and images (R233, R234) -/

/-- Groups per pass. -/
def gmax (f : Nat) : Nat := if f = 4 ∨ f = 5 ∨ f = 8 then 16 else if f = 7 then 6 else 4

/-- Image bytes per column. -/
def imagePB (f : Nat) : Nat := if f = 4 ∨ f = 5 then 512 else if f = 8 then 320 else if f = 2 then 256 else 192

/-- Bytes used by kg groups. -/
def imageUsed (f kg : Nat) : Nat := if isMx f then imageSO f + kg else 4 * fmtBits f * kg

/-- The values of group g of an image. -/
def imageGroup (f : Nat) (img : List Byte) (g : Nat) : List Val :=
  let x := leNat img
  let sc := if isMx f then field img (imageSO f + g) 1 else 0
  (List.range 32).map fun j => widenFmt f (bits x (fmtBits f * (32 * g + j)) (fmtBits f)) sc

/-- The image of an empty plane: +0 in every element, scale 127 in every group (R237). -/
def emptyImage (f : Nat) : List Byte :=
  if isMx f then List.replicate (imageSO f) 0 ++ List.replicate (imagePB f - imageSO f) 127
  else List.replicate (imagePB f) 0

/-! ## Accumulation (R70 to R72, R249) -/

/-- The signed product on a grid 2^q. -/
def onGrid (q : Int) : Val → Int
  | .fin s m e => (if s then -1 else 1) * (m * 2 ^ (e - q).toNat : Nat)
  | _ => 0

/-- A product truncated toward zero to a multiple of 2^q (R71). -/
def truncTo (q : Int) : Val → Val
  | .fin s m e => if e < q then .fin s (m / 2 ^ (q - e).toNat) q else .fin s m e
  | v => v

/-- The lowest exponent among finite values. -/
def minExp : List Val → Int
  | [] => 0
  | [.fin _ _ e] => e
  | .fin _ _ e :: t => min e (minExp t)
  | _ :: t => minExp t

/-- The group of products: `none` when every product is zero, else the group's value (R70 to R72). -/
def groupSum (bf : Bool) (a b : List Val) : Option Val :=
  let ps := (a.zip b).map fun e => mulVal e.1 e.2
  let vs := ps.filterMap id
  let pinf := vs.any fun v => v == .inf false
  let ninf := vs.any fun v => v == .inf true
  if ps.any Option.isNone || vs.any Val.isNan || (pinf && ninf) then some (.nan false)
  else if pinf || ninf then some (.inf ninf)
  else if vs.all Val.isZero then none
  else
    let tops := vs.filterMap fun v => match v with
      | .fin _ m e => if m = 0 then none else some (expOf m e)
      | _ => none
    let vs := if bf then
        match tops with
        | [] => vs
        | t :: ts => vs.map (truncTo (ts.foldl max t - 50))
      else vs
    let q := minExp vs
    let r : Int := (vs.map (onGrid q)).foldl (fun a b => a + b) 0
    some (.fin (decide (r < 0)) r.natAbs q)

/-- One step of the accumulator (R70, R72). DESIGN CHOICE: an accumulator that only all-zero groups meet stays as it is, a NaN of another payload
too (R70, R249; log 144). -/
def joinAcc (t : Nat) : Option Val → Nat
  | none => t
  | some g =>
    match addVal (f32.widen t false) g 0 with
    | none => 0x7FC00000
    | some (.nan _) => 0x7FC00000
    | some v => (f32.round v 0 false 0).1

/-- One accumulator element over kg groups. -/
def mmElement (fa fb kg t : Nat) (a b : List Byte) : Nat :=
  (List.range kg).foldl (fun t g => joinAcc t (groupSum (fa == 2) (imageGroup fa a g) (imageGroup fb b g))) t

/-! ## Tiles (R238) -/

def tileOff (i n : Nat) : Nat := 4 * (192 * i + n)

def Tile.get (x : Tile) (i n : Nat) : Nat := x.data.nat (tileOff i n) 4

/-- Row i of a tile becomes these codes. -/
def Tile.setRow (x : Tile) (i : Nat) (l : List Nat) : Tile :=
  { x with data := x.data.write (tileOff i 0) (l.flatMap (leBytes 4)) }

/-- Rows `lo` to `hi − 1` of an MA.MM enter the tile. -/
def Tile.mmRows (x : Tile) (fa fb kg : Nat) (z : Bool) (rows plane : List (List Byte)) (lo hi : Nat) : Tile :=
  (List.range (hi - lo)).foldl (fun x k =>
    let i := lo + k
    let a := rows.getD i []
    x.setRow i ((List.range 192).map fun n => mmElement fa fb kg (if z then 0 else x.get i n) a (plane.getD n []))) x

def Matrix.setTile (m : Matrix) (i : Fin 16) (x : Tile) : Matrix := { m with tiles := m.tiles.set i x }

/-- The window element of lane l (R250). -/
def winElem (rb cb l : Nat) : Nat × Nat := (16 * rb + l / 64, 64 * cb + l % 64)

/-- A step of MA.MOV.SUM's tree: VADD under RNE with the NaN rule of R72 (R250). -/
def sumStep (a b : Nat) : Nat :=
  let r := (fadd rne a b).1
  if (f32.widen r false).isNan then 0x7FC00000 else r

/-! ## The matrix queue (R239, R240) -/

def Core.upMx (k : Core) (f : Matrix → Matrix) : Core := { k with mx := f k.mx }

def MEnt.gv (e : MEnt) (i : Nat) : Nat := (e.gs.getD i 0).toNat

/-- Tiles an instruction reads or writes, and those it writes. -/
def tilesOf : Instr → List Nat
  | .maMm a _ _ _ _ _ => [a.val]
  | .maZero a => [a.val]
  | .maMovTv a _ _ _ => [a.val]
  | .maMovVt a _ _ _ => [a.val]
  | .maMovTp a _ => [a.val]
  | .maMovSum d s n => d.val :: (List.range (n.val + 1)).map (s.val + ·)
  | _ => []

def tilesWritten : Instr → List Nat
  | .maMm a _ _ _ _ _ => [a.val]
  | .maZero a => [a.val]
  | .maMovVt a _ _ _ => [a.val]
  | .maMovSum d _ _ => [d.val]
  | _ => []

def isMM : Instr → Bool
  | .maMm _ _ _ _ _ _ => true
  | _ => false

def isFill : Instr → Bool
  | .maLdw _ _ _ => true
  | _ => false

def isMover : Instr → Bool
  | .maZero _ => true
  | .maMovTv _ _ _ _ => true
  | .maMovVt _ _ _ _ => true
  | .maMovTp _ _ => true
  | .maMovSum _ _ _ => true
  | _ => false

/-- The plane an instruction reads or loads. -/
def planeOf : Instr → Option (Fin 2)
  | .maMm _ _ p _ _ _ => some p
  | .maLdb p _ _ => some p
  | _ => none

/-- The units of an image at CO (R235). -/
def unitsOf (f co : Nat) : List Nat := (List.range (imagePB f / 64)).map fun i => (co + i) % 2048

/-- The units that a plane load reads or a fill writes: MA.LDB captures its first unit and FMTB, MA.LDW its operands and FMTB. -/
def MEnt.units (e : MEnt) : List Nat :=
  match e.op with
  | .maLdb _ _ _ => unitsOf (e.gv 1) (e.gv 0)
  | .maLdw _ _ _ => unitsOf (e.gv 3) (bits (e.gv 1) 0 11)
  | _ => []

/-- What stands in the way of a matrix instruction of this thread at issue (R246, R255, R262): a trap, or a wait. -/
def State.matrixStop (s : State) (save : Bool) : Option Out :=
  let k := s.myCore
  if s.cr = .T then (if k.mx.parked = save then some (s.trap cILL 0x0E) else none)
  else if k.mx.frozen || k.mx.parked then some (s.block 11 0)
  else none

/-- The halted MA.MM of a thread whose SCHED has not been raised: its slot and tag. -/
def Core.haltedOf (k : Core) (r : Role) : Option (Nat × Nat × Nat) :=
  k.mx.queue.findSome? fun e =>
    match e.op, e.halted with
    | .maMm _ t _ _ _ _, some tag => if e.role = r ∧ !e.told then some (e.id, t.val, tag) else none
    | _, _ => none

/-- Marks a halted MA.MM as told (R262). -/
def Core.tell (k : Core) (id : Nat) : Core :=
  k.upMx fun m => { m with queue := m.queue.map fun e => if e.id = id then { e with told := true } else e }

/-- The pending ENG or SCHED of the issuing thread at a matrix instruction (R246, R262). -/
def State.matrixTrap (s : State) : Option Out :=
  if s.myCore.recPending s.cr 1 then some (s.trap cENG 0x03)
  else match s.myCore.haltedOf s.cr with
    | some (id, i, tag) => some ((s.upMyCore fun k => k.tell id).trap cSCHED (schedDetail i tag))
    | none => none

/-- After TRET, or a host's RETRY, the thread's halted instructions apply R261 again (R262). -/
def Core.unhalt (k : Core) (r : Role) : Core :=
  k.mx.queue.foldl (fun k e =>
    match e.op, e.halted with
    | .maMm _ t _ _ _ _, some _ =>
      if e.role = r ∧ e.told then
        (k.setSlot t (k.slots[t].setHalt false)).upMx fun m =>
          { m with queue := m.queue.map fun x => if x.id = e.id then { x with halted := none, told := false } else x }
      else k
    | _, _ => k) k

/-- The checks every matrix instruction makes at issue, after those of R47. DESIGN CHOICE: a fill record that appears while the word already
waits raises ENG 0x03 at that word (R246; log 147). -/
def State.matrixGate (s : State) (n : Need) (reads : List (Fin 32)) (save : Bool) (go : Unit → Out) : Out :=
  s.gate n reads fun _ =>
    if s.asyncOpen then s.block 10 0
    else match s.matrixStop save with
    | some o => o
    | none =>
      match s.matrixTrap with
      | some o => o
      | none => go ()

/-- A matrix instruction enters the queue (R239); the two moves to and from registers enter the vector queue too (R240). -/
def State.matrixQueue (s : State) (op : Instr) (gs : List Word) : Out :=
  if 16 ≤ s.myCore.mx.queue.length then s.block 9 1
  else if isMove op ∧ s.myCore.vqFull then s.block 9 0
  else
    let (id, s1) := s.fresh
    let e : MEnt := { id := id, role := s.cr, op := op, gs := gs, started := false, cleared := false, halted := none,
                      told := false, rows := [], plane := [], poison := false, done := 0 }
    let v : VEnt := { id := id, role := s.cr, op := op, gs := [], fpcr := 0, seed := 0, ctr := 0, out := none }
    (s1.upMyCore fun k =>
      { k.upMx fun m => { m with queue := m.queue ++ [e] } with vq := if isMove op then k.vq ++ [v] else k.vq }).done 2

/-- MA.MM (R248): the checks at issue, against the slot's definition and the configuration in force, which it keeps. -/
def execMaMm (a : Fin 16) (t : Fin 64) (p : Fin 2) (k : Fin 16) (z r : Fin 2) (s : State) : Out :=
  s.matrixGate { maj := 32 } [] false fun _ =>
    let d := s.myCore.slots[t].defw
    let fa := s.myCore.mx.fmta
    if slotFmt d ≠ fa then s.trap cTYPE 0x20
    else if slotRows d = 0 ∨ 128 < slotRows d then s.trap cTYPE 0x21
    else if 64 * slotRB d < imageUsed fa (k.val + 1) then s.trap cTYPE 0x22
    else if gmax fa < k.val + 1 then s.trap cTYPE 0x23
    else s.matrixQueue (.maMm a t p k z r) [d, word fa, word s.myCore.mx.fmtb]

/-- MA.CFG (R245): waits for all matrix work, sets the formats, empties the planes. -/
def execMaCfg (a b : Fin 16) (s : State) : Out :=
  s.matrixGate { maj := 33 } [] false fun _ =>
    if !(s.myCore.mx.queue.isEmpty) then s.block 10 0
    else
      (s.upMyCore fun k => k.upMx fun m =>
        { m with fmta := a.val, fmtb := b.val,
                 planes := Vector.replicate 2 { empty := true, cols := [], poison := false } }).done 2

/-- MA.LDB (R247): g[GO] is read at issue. -/
def execMaLdb (p : Fin 2) (c : Fin 2048) (g : Fin 32) (s : State) : Out :=
  s.matrixGate { maj := 33 } [g] false fun _ =>
    s.matrixQueue (.maLdb p c g) [word ((c.val + (s.me.get g).toNat) % 2048), word s.myCore.mx.fmtb]

/-- MA.LDW (R246): operands are read and checked at issue. -/
def execMaLdw (a b c : Fin 32) (s : State) : Out :=
  s.matrixGate { maj := 33 } [a, b, c] false fun _ =>
    let bv := (s.me.get a).toNat
    let w := (s.me.get b).toNat
    let e0 := (s.me.get c).toNat
    let nc := bits w 19 8
    if nc = 0 ∨ 192 < bits w 11 8 + nc ∨ bits w 32 32 % 32 ≠ 0 ∨ e0 % 32 ≠ 0 ∨ bv % 4096 ≠ 0 then s.trap cTYPE 0x24
    else s.matrixQueue (.maLdw a b c) [word bv, word w, word e0, word s.myCore.mx.fmtb]

/-- MA.ZERO (R250). -/
def execMaZero (a : Fin 16) (s : State) : Out :=
  s.matrixGate { maj := 34 } [] false fun _ => s.matrixQueue (.maZero a) []

/-- MA.MOV.TV (R250). -/
def execMaMovTv (a : Fin 16) (r : Fin 8) (c : Fin 4) (v : Fin 64) (s : State) : Out :=
  s.matrixGate { maj := 34, vregs := vtop [v.val] } [] false fun _ => s.matrixQueue (.maMovTv a r c v) []

/-- MA.MOV.VT (R250). -/
def execMaMovVt (a : Fin 16) (r : Fin 8) (c : Fin 4) (v : Fin 64) (s : State) : Out :=
  s.matrixGate { maj := 34, vregs := vtop [v.val] } [] false fun _ => s.matrixQueue (.maMovVt a r c v) []

/-- The window check of MA.MOV.TP: the PAGE detail and address of the first byte that fails (R250). DESIGN CHOICE: 0x43 where that byte lies past
the scratchpad in the argument copy or the service area, T's too (log 146). -/
def tpFault (k : Core) (va : Nat) : Option (Nat × Nat) :=
  if va < 0x00FF000000000000 ∨ 0x00FF000000800000 ≤ va then some (0x40, va)
  else
    let o := va - 0x00FF000000000000
    if o < k.bndv * 65536 then some (0x41, va)
    else if k.bnds * 65536 < o + 98304 then
      let b := max o (k.bnds * 65536)
      some (if b < 0x780000 then 0x42 else 0x43, 0x00FF000000000000 + b)
    else none

/-- MA.MOV.TP (R250): every check is made before it is queued. -/
def execMaMovTp (a : Fin 16) (g : Fin 32) (s : State) : Out :=
  s.matrixGate { maj := 34 } [g] false fun _ =>
    let va := (s.me.get g).toNat
    match tpFault s.myCore va with
    | some (d, x) => s.trapX { cause := cPAGE, detail := d, va := x, kind := 2 }
    | none =>
      if va % 64 ≠ 0 then s.trapX { cause := cALIGN, detail := 64, va := va, kind := 2 }
      else s.matrixQueue (.maMovTp a g) [word (va - 0x00FF000000000000)]

/-- MA.MOV.SUM (R250). -/
def execMaMovSum (d sc n : Fin 16) (s : State) : Out :=
  s.matrixGate { maj := 34 } [] false fun _ => s.matrixQueue (.maMovSum d sc n) []

/-- MA.WAIT once it has issued (R251): a halted MA.MM, which never completes by itself, raises its SCHED here (R262); a fill record
raises ENG 0x03 after the last completion, with MASK 0. -/
def State.maWait (s : State) (mask : Nat) : Out :=
  let s1 := s.upMe fun t => { t with stage := .none }
  let named := (List.range 16).filter fun i => bits mask i 1 == 1
  let waits := s.myCore.mx.queue.any fun e => mask == 0 || shares (tilesWritten e.op) named
  match s.matrixStop false with
  | some o => o
  | none =>
    if (s.myCore.haltedOf s.cr).isSome then (match s1.matrixTrap with
      | some o => o
      | none => s.block 10 0)
    else if waits then s.block 10 0
    else if mask = 0 ∧ s.myCore.recPending s.cr 1 then s1.trap cENG 0x03
    else s.done 2

/-- MA.WAIT (R251). -/
def execMaWait (m : Fin 65536) (s : State) : Out :=
  match s.me.stage with
  | .mwait => s.gate { maj := 35 } [] fun _ => s.maWait m.val
  | _ => s.matrixGate { maj := 35 } [] false fun _ => (s.upMe fun t => { t with stage := .mwait }).maWait m.val

/-! ## Fills (R246) -/

/-- The element index of group i of a fill, its column and its group. -/
def MEnt.fillAt (e : MEnt) (i : Nat) : Nat × Nat × Nat :=
  let g := gmax (e.gv 3)
  (e.gv 2 + i / g * bits (e.gv 1) 32 32 + 32 * (i % g), bits (e.gv 1) 11 8 + i / g, i % g)

/-- The number of groups of a fill. -/
def MEnt.fillLen (e : MEnt) : Nat := bits (e.gv 1) 19 8 * gmax (e.gv 3)

/-- The byte range that a fill locks: from its lowest to its highest source byte (R242). -/
def MEnt.fillRange (e : MEnt) : Nat × Nat :=
  let spans := (List.range e.fillLen).flatMap fun i =>
    let p := blockPlace (e.gv 3) (e.gv 0) (e.fillAt i).1
    (p.1, p.1 + p.2.1) :: (match p.2.2 with
      | some x => [(x, x + 1)]
      | none => [])
  match spans with
  | [] => (0, 0)
  | x :: t =>
    let lo := t.foldl (fun m y => min m y.1) x.1
    let hi := t.foldl (fun m y => max m y.2) x.2
    (lo, hi - lo)

/-- Bytes of an image in a column of the store, its units marked filled, and poisoned when the data is (R235, R236, R256). -/
def Core.colWrite (k : Core) (col co off : Nat) (bs : List Byte) (bad : Bool) : Core :=
  let us := ((List.range bs.length).map fun i => (co + (off + i) / 64) % 2048).eraseDups
  let m := (bs.zipIdx).foldl (fun (m : Mem) (e : Byte × Nat) =>
    m.set (131072 * col + (64 * co + off + e.2) % 131072) e.1) k.col
  { k with col := m, filled := us.foldl (fun l u => insertNat u l) k.filled,
           cpoison := if bad then us.foldl (fun l u => insertNat u l) k.cpoison else k.cpoison }

/-- What one group of a fill gives. -/
inductive FillRes where
  | ok (s : State)
  | stop (w : Stall)

/-- Reads group i of a fill into the column store; each line that it reads takes an entry of the request table (R114). -/
def State.fillGroup (s : State) (c : Fin 64) (e : MEnt) (i : Nat) : FillRes :=
  let f := e.gv 3
  let (el, col, g) := e.fillAt i
  let (va, n, sc) := blockPlace f (e.gv 0) el
  match s.engAt c 4 (s.core c).view.asid va .read true with
  | .stop w => .stop w
  | .ok pa leaf s1 =>
    if leafFmt leaf ≠ f then .stop (.fault { cause := cTYPE, detail := 0x25, va := va, kind := 1 })
    else if !(s.roomFor c .fill ((linesOf va n).length + sc.toList.length)) then .stop (.room .fill)
    else
      let spa := match sc with
        | some x => some (pa - va % 4096 + x % 4096)
        | none => none
      let bad := s1.anyPoison pa n || (match spa with
        | some x => s1.anyPoison x 1
        | none => false)
      let co := bits (e.gv 1) 0 11
      let pad := imagePB f - imageUsed f (gmax f)
      let served := (s1.msServe pa n (leafBd leaf)).msServe (spa.getD pa) 1 (leafBd leaf)
      .ok (served.upCore c fun k =>
        let k := (k.unwait .fill).colWrite col co (n * g) (s1.phys pa n) bad
        let k := match spa with
          | some x => k.colWrite col co (imageSO f + g) (s1.phys x 1) bad
          | none => k
        if g + 1 = gmax f ∧ 0 < pad then k.colWrite col co (imageUsed f (gmax f)) (List.replicate pad 0) false else k)

/-- Reads up to `n` more groups; stops at a fault or a stall. The result: the state, the groups read, and why it stopped. -/
def State.fillRun (c : Fin 64) (e : MEnt) : Nat → Nat → State → State × Nat × Option Stall
  | 0, i, s => (s, i, none)
  | n + 1, i, s =>
    match s.fillGroup c e i with
    | .ok s1 => State.fillRun c e n (i + 1) s1
    | .stop w => (s, i, some w)

/-- Entry `id` of the matrix queue changed. -/
def Core.upEnt (k : Core) (id : Nat) (f : MEnt → MEnt) : Core :=
  k.upMx fun m => { m with queue := m.queue.map fun e => if e.id = id then f e else e }

/-- An entry leaves the matrix queue. -/
def Core.endEnt (k : Core) (id : Nat) : Core :=
  { k.upMx fun m => { m with queue := m.queue.filter (·.id ≠ id) } with vq := k.vq.filter fun v => !(v.id == id && isMove v.op) }

def Core.dropLocks (k : Core) (id : Nat) : Core := { k with locks := k.locks.filter (·.op ≠ id) }

/-- A fill that has met a fault after i groups leaves its record and the queue, so that nothing waits for it there any more: DESIGN CHOICE, an
MA.LDB behind it may load the partly filled image (R240, R246; log 118). With no record place free it performs nothing further and
waits for one (R181). -/
def State.fillFault (s : State) (c : Fin 64) (e : MEnt) (i : Nat) (x : XFault) : State :=
  match s.tryRec c { role := e.role, op := .fill { e with done := i, started := false, cleared := false, stop := none }, fault := x,
                     cancel := false } with
  | some s1 => s1.upCore c fun k => ((k.endEnt e.id).dropLocks e.id).leave .fill
  | none => s.upCore c fun k => (k.leave .fill).upEnt e.id fun y => { y with stop := some x }

/-- A fill goes on by up to n groups; at its end its lock clears (R242). -/
def State.fillGo (s : State) (c : Fin 64) (e : MEnt) (n : Nat) : State :=
  match e.stop with
  | some x => s.fillFault c e e.done x
  | none =>
    let (s1, i, why) := State.fillRun c e (min n (e.fillLen - e.done)) e.done s
    let s2 := s1.upCore c fun k => k.upEnt e.id fun x => { x with done := i }
    match why with
    | some (.fault x) => s2.fillFault c e i x
    | some w => s2.ask c .fill w
    | none =>
      if e.fillLen ≤ i then s2.upCore c fun k => (k.upEnt e.id fun x => { x with cleared := true }).dropLocks e.id else s2

/-! ## Start (R240) -/

/-- The conditions of R240 on the entries before e, all uncompleted. -/
def MEnt.free (e : MEnt) (before : List MEnt) : Bool :=
  let planeLoad := fun (p : MEnt) => !(isMM p.op) && (planeOf p.op).isSome
  before.all (fun p => p.started) &&
  (match e.op with
   | .maMm _ _ _ _ _ _ => before.all fun p =>
      (!(isMM p.op) || p.cleared) && !(planeLoad p && planeOf p.op == planeOf e.op) &&
      !(isMover p.op && shares (tilesOf p.op) (tilesOf e.op))
   | .maLdb _ _ _ => before.all fun p =>
      !(planeLoad p) && !(isMM p.op && planeOf p.op == planeOf e.op && !p.cleared) &&
      !(isFill p.op && shares p.units e.units)
   | .maLdw _ _ _ => before.all fun p => !(isFill p.op && !p.cleared) && !(planeLoad p && shares p.units e.units)
   | _ => before.all fun p => !(shares (tilesOf p.op) (tilesOf e.op)))

/-- The vector queue lets the move start: it is the first entry not started there, and R194 holds (R240). -/
def State.moveReady (s : State) (c : Fin 64) (id : Nat) : Bool :=
  match vnext (s.vline c) with
  | some (before, v) => v.id == id && s.vready c before v
  | none => false

/-- A slot's rows, whether any line of them is poisoned. -/
def Core.slotRow (k : Core) (d : Word) (used i : Nat) : List Byte := k.pool.read (slotBase d + 64 * slotRB d * i) used

def Core.rowPoison (k : Core) (d : Word) (used i : Nat) : Bool := k.anyPoison (slotBase d + 64 * slotRB d * i) used

/-- Starts an MA.MM as a consumer of its slot, or halts the queue at it (R242, R249, R261, R262). -/
def State.mmStart (s : State) (c : Fin 64) (e : MEnt) (t : Fin 64) : State :=
  match ((s.core c).slots[t]).consume with
  | .wait => s
  | .mismatch tag => s.upCore c fun k =>
      (k.setSlot t (k.slots[t].setHalt true)).upEnt e.id fun x => { x with halted := some tag, told := false }
  | .go => s.upCore c fun k =>
      let d := e.gs.headD 0
      let l : LockRec := { op := e.id, space := none, base := slotBase d, len := slotLen d, parked := false }
      { k.upEnt e.id fun x => { x with started := true } with locks := k.locks ++ [l] }

/-- MATRIX_START: entry i of the matrix queue starts (R240). -/
def State.matrixStart (s : State) (c : Fin 64) (i : Nat) : State :=
  let k := s.core c
  match k.mx.queue[i]? with
  | none => s
  | some e =>
    if e.started || (k.mx.frozen && !k.mx.parked) || e.halted.isSome || !(e.free (k.mx.queue.take i)) ||
        !(s.storesDone c e.role e.id) then s
    else match e.op with
    | .maMm _ t _ _ _ _ => s.mmStart c e t
    | .maLdw _ _ _ => s.upCore c fun k =>
        let r := e.fillRange
        let l : LockRec := { op := e.id, space := some k.view.asid, base := r.1, len := r.2, parked := false }
        { k.upEnt e.id fun x => { x with started := true } with locks := k.locks ++ [l] }
    | .maMovTv _ _ _ _ =>
      if s.moveReady c e.id then s.upCore c fun k =>
        (k.upEnt e.id fun x => { x with started := true }).vstart e.id VOut.none
      else s
    | .maMovVt _ _ _ v =>
      if s.moveReady c e.id then s.upCore c fun k =>
        (k.upEnt e.id fun x => { x with started := true, rows := [k.pool.read (4096 * v.val) 4096],
                                        poison := k.anyPoison (4096 * v.val) 4096 }).vstart e.id VOut.none
      else s
    | _ => s.upCore c fun k => k.upEnt e.id fun x => { x with started := true }

/-- MATRIX_START (R240). -/
def execMatrixStart (c : Fin 64) (im : Nat) (s : State) : Out := .next (s.matrixStart c im)

/-! ## Locks clear (R242) -/

/-- The columns of a plane under FMTB f. -/
def Plane.images (p : Plane) (f : Nat) : List (List Byte) :=
  if p.empty then List.replicate 192 (emptyImage f) else p.cols

/-- Rows of an MA.MM enter the array, up to row n (R237, R249). -/
def Core.mmEnter (k : Core) (e : MEnt) (p : Fin 2) (kg n : Nat) : Core :=
  let d := e.gs.headD 0
  let used := imageUsed (e.gv 1) kg
  let new := (List.range (n - e.rows.length)).map (e.rows.length + ·)
  k.upEnt e.id fun x =>
    { x with rows := x.rows ++ new.map (k.slotRow d used), plane := k.mx.planes[p].images (e.gv 2),
             poison := x.poison || k.mx.planes[p].poison || new.any (k.rowPoison d used) }

/-- LOCK_CLEAR: entry i has read its last row or source line (R242, R249). -/
def State.lockClear (s : State) (c : Fin 64) (i : Nat) : State :=
  let k := s.core c
  match k.mx.queue[i]? with
  | none => s
  | some e =>
    if !e.started || e.cleared || (k.mx.frozen && !k.mx.parked) then s
    else match e.op with
    | .maMm _ t p kg _ r => s.upCore c fun k =>
        let k := (k.mmEnter e p (kg.val + 1) (slotRows (e.gs.headD 0))).dropLocks e.id
        let k := if r.val = 1 then k.setSlot t (k.slots[t].release) else k
        k.upEnt e.id fun x => { x with cleared := true }
    | .maLdw _ _ _ => s.fillGo c e e.fillLen
    | _ => s

/-- LOCK_CLEAR (R242). -/
def execLockClear (c : Fin 64) (im : Nat) (s : State) : Out := .next (s.lockClear c im)

/-! ## Completion -/

/-- The window of a tile as a vector register (R250). -/
def Tile.window (x : Tile) (rb cb : Nat) : List Nat :=
  (List.range 1024).map fun l => x.get (winElem rb cb l).1 (winElem rb cb l).2

/-- A tile with a window replaced by lanes. -/
def Tile.setWindow (x : Tile) (rb cb : Nat) (bs : List Byte) : Tile :=
  { x with data := (List.range 16).foldl (fun m r =>
      m.write (tileOff (16 * rb + r) (64 * cb)) ((bs.drop (256 * r)).take 256)) x.data }

/-- MA.MOV.SUM's result (R250). DESIGN CHOICE: its mark is its sources', whatever the destination's was (log 145). -/
def tileSum (l : List Tile) : Tile :=
  { data := Mem.run 0 ((List.range (128 * 192)).flatMap fun i =>
      leBytes 4 ((treeOpt sumStep (l.map fun x => some (x.data.nat (4 * i) 4))).getD 0)),
    poison := l.any (·.poison) }

/-- The effect of a completing entry on its core (R247, R249, R250). -/
def Core.matrixEffect (k : Core) (e : MEnt) : Core :=
  match e.op with
  | .maMm a _ _ kg z _ =>
    k.upMx fun m =>
      let x := m.tiles[a].mmRows (e.gv 1) (e.gv 2) (kg.val + 1) (z.val == 1) e.rows e.plane e.done e.rows.length
      m.setTile a { x with poison := x.poison || e.poison }
  | .maLdb p _ _ =>
    let f := e.gv 1
    let co := e.gv 0
    let col := fun (n : Nat) => (List.range (imagePB f)).map fun b =>
      k.col.get (131072 * n + (64 * co + b) % 131072)
    let pl : Plane := { empty := false, cols := (List.range 192).map col, poison := shares (unitsOf f co) k.cpoison }
    k.upMx fun m => { m with planes := m.planes.set p pl }
  | .maZero a => k.upMx fun m => m.setTile a { data := [], poison := false }
  | .maMovTv a r c v =>
    let l := (k.mx.tiles[a].window r.val c.val).zipIdx
    let k1 := k.putLanes v.val (l.map fun x => (x.2, leBytes 4 x.1))
    if k.mx.tiles[a].poison then k1.markPool (4096 * v.val) 4096 true else k1
  | .maMovVt a r c _ =>
    k.upMx fun m =>
      let x := m.tiles[a].setWindow r.val c.val (e.rows.headD [])
      m.setTile a { x with poison := x.poison || e.poison }
  | .maMovTp a _ =>
    let t := k.mx.tiles[a]
    { k with pool := k.pool.write (e.gv 0) (t.data.read 0 98304) }.markPool (e.gv 0) 98304 t.poison
  | .maMovSum d sc n =>
    k.upMx fun m => m.setTile d (tileSum ((List.range (n.val + 1)).map fun i => m.tiles[Fin.ofNat 16 (sc.val + i)]))
  | _ => k

/-- Whether entry e, behind the entries `before`, may complete now. By R241's figures the tile mover ends its instructions in order,
but for one behind an MA.MOV.SUM. -/
def State.matrixMay (s : State) (c : Fin 64) (before : List MEnt) (e : MEnt) : Bool :=
  let k := s.core c
  let summing := fun (p : MEnt) => match p.op with
    | .maMovSum _ _ _ => true
    | _ => false
  (!(isMover e.op) || before.all fun p => !(isMover p.op) || summing p) &&
  match e.op with
  | .maMm _ _ _ _ _ _ => e.cleared && before.all fun p => !(isMM p.op && shares (tilesOf p.op) (tilesOf e.op))
  | .maLdw _ _ _ => e.cleared
  | .maMovTv _ _ _ _ =>
    match k.vq.find? (·.id == e.id) with
    | some v => !(s.vblocked c v)
    | none => false
  | .maMovTp _ _ => !(k.lockHit e.role none (e.gv 0) 98304)
  | _ => true

/-- MATRIX_COMPLETE: entry i of the matrix queue completes (R240 to R250). -/
def State.matrixComplete (s : State) (c : Fin 64) (i : Nat) : State :=
  let k := s.core c
  match k.mx.queue[i]? with
  | none => s
  | some e =>
    if !e.started || (k.mx.frozen && !k.mx.parked) || !(s.matrixMay c (k.mx.queue.take i) e) then s
    else s.upCore c fun k => (k.matrixEffect e).endEnt e.id

/-- MATRIX_COMPLETE (R241). -/
def execMatrixComplete (c : Fin 64) (im : Nat) (s : State) : Out := .next (s.matrixComplete c im)

/-! ## MA.SAVE and MA.RSTR (R252 to R255) -/

/-- Freezes one started entry: rows that have entered, groups that have been read, and rows already written are fixed now; how
many is a matter of timing (R253, log 39). -/
def State.freezeEnt (s : State) (c : Fin 64) (e : MEnt) : State :=
  if !e.started then s
  else
    let n := s.free
    let s1 := { s with free := n + 2 }
    match e.op with
    | .maMm a _ p kg z _ => s1.upCore c fun k =>
        let m := slotRows (e.gs.headD 0)
        let k1 := if e.cleared then k else k.mmEnter e p (kg.val + 1) (max e.rows.length (min m (Config.frozenRows n)))
        match k1.mx.queue.find? (·.id == e.id) with
        | none => k1
        | some e1 =>
          let first := (k1.mx.queue.takeWhile (·.id ≠ e.id)).all fun p => !(isMM p.op && shares (tilesOf p.op) (tilesOf e.op))
          let w := if first then max e1.done (min e1.rows.length (Config.frozenRows (n + 1))) else e1.done
          (k1.upMx fun mx => mx.setTile a (mx.tiles[a].mmRows (e.gv 1) (e.gv 2) (kg.val + 1) (z.val == 1) e1.rows e1.plane
            e1.done w)).upEnt e.id fun x => { x with done := w }
    | .maLdw _ _ _ => if e.cleared then s1 else s1.fillGo c e (Config.frozenRows n)
    | _ => s1

/-- Freezes the engine (R253): no unit starts or advances after it. -/
def State.freeze (s : State) (c : Fin 64) : State :=
  if (s.core c).mx.frozen then s
  else
    let s1 := (s.core c).mx.queue.foldl (fun s e => s.freezeEnt c e) s
    s1.upCore c fun k => (k.leave .fill).upMx fun m => { m with frozen := true }

/-- The 64-byte header of an image (R252). -/
def imageHeader (k : Core) (n : Nat) : List Byte :=
  let ops := k.mx.queue.length
  let froze := k.mx.queue.any (·.started)
  let frec := (List.finRange 32).any fun i => match k.recs[i] with
    | some x => x.op.cls == some 1
    | none => false
  leBytes 64 (0x04800001 + 0x200000 * 2 ^ 32 + (if froze then 2 ^ 64 else 0) + (if frec then 2 ^ 65 else 0) +
    ops % 256 * 2 ^ 96 + (Config.imageCheck n).toNat * 2 ^ 192)

/-- Page p of the image written with counter n. -/
def imagePage (hdr : List Byte) (n p : Nat) : List Byte :=
  (List.range 4096).map fun i => if p = 0 ∧ i < 64 then hdr.getD i 0 else Config.imageByte n (4096 * p + i)

/-- Writes a page of bytes at a site whose checks have passed. -/
def State.sitePut (s : State) (x : Site) (bs : List Byte) : State :=
  match x with
  | .own o => s.upMyCore fun k => { k with pool := k.pool.write o bs }.markPool o bs.length false
  | .peer m o => s.upCore m fun k => { k with pool := k.pool.write o bs }.markPool o bs.length false
  | .dev pa e => s.physWrite pa bs (leafBd e)

/-- One of the n bytes at a site lies in a poisoned line (R129). -/
def State.sitePoison (s : State) (x : Site) (n : Nat) : Bool :=
  match x with
  | .own o => s.myCore.anyPoison o n
  | .peer m o => (s.core m).anyPoison o n
  | .dev pa _ => s.anyPoison pa n

/-- The bytes at a site. -/
def State.siteGet (s : State) (x : Site) (n : Nat) : List Byte :=
  match x with
  | .own o => s.myCore.pool.read o n
  | .peer m o => (s.core m).pool.read o n
  | .dev pa _ => s.phys pa n

/-- Writes the pages of an image in order; a fault leaves the earlier pages written (R253). -/
def State.saveRun (hdr : List Byte) (n a : Nat) : List Nat → State → Option SiteRes × State
  | [], s => (none, s)
  | p :: ps, s =>
    match s.site (a + 4096 * p) 4096 .write 1 none (fun _ => true) with
    | .ok x s1 => State.saveRun hdr n a ps (s1.sitePut x (imagePage hdr n p))
    | r => (some r, s)

/-- Parks the engine: the queue empties into the image, and its locks become parked (R253). Its moves keep their places in the
vector queue, which waits behind them (R240). -/
def Core.park (k : Core) : Core :=
  { k.upMx fun m => { m with queue := [], parked := true, owed := m.queue.any fun e => e.role == .C } with
    locks := k.locks.map fun l => { l with parked := true } }

/-- The fill records of a core, by place. -/
def Core.fillRecs (k : Core) : List (Nat × Rec) :=
  (List.finRange 32).filterMap fun i => match k.recs[i] with
    | some x => if x.op.cls = some 1 then some (i.val, x) else none
    | none => none

/-- The image of a core with counter n (R252). -/
def Core.image (k : Core) (n : Nat) : MImage :=
  { n := n, m := k.mx, locks := k.locks, vq := k.vq.filter fun v => isMove v.op, recs := k.fillRecs }

/-- A move between tiles and registers has started: it completes within the cycles that a freeze takes (R196, R253). -/
def Core.moving (k : Core) : Bool := !k.mx.frozen && k.mx.queue.any fun e => isMove e.op && e.started

/-- MA.SAVE (R253). -/
def execMaSave (a : Fin 32) (s : State) : Out :=
  s.gate { maj := 35, priv := true } [a] fun _ =>
    let va := (s.me.get a).toNat
    if s.asyncOpen then s.block 10 0
    else match s.matrixStop true with
    | some o => o
    | none =>
      match s.matrixTrap with
      | some o => o
      | none =>
        if va % 4096 ≠ 0 then s.trapX { cause := cALIGN, detail := 4096, va := va, kind := 2 }
        else if !(s.me.stores.isEmpty) then s.block 10 0
        else if s.myCore.moving then s.block 10 0
        else
          let s1 := s.freeze s.cc
          let n := s1.free
          let s2 := { s1 with free := n + 1 }
          match State.saveRun (imageHeader s2.myCore n) n va (List.range 512) s2 with
          | (some r, s3) => s3.siteStop r
          | (none, s3) =>
            ({ s3 with images := s2.myCore.image n :: s3.images }.upMyCore Core.park).done 2

/-- The base dies serve the reads of n bytes at each site: the home slices write back and drop their copies first (R113). -/
def State.siteServe (s : State) (n : Nat) (xs : List Site) : State :=
  xs.foldl (fun (s : State) x => match x with
    | .dev pa e => s.msServe pa n (leafBd e)
    | _ => s) s

/-- Finds the sites of an image's pages for reading; nothing changes but the TLBs. -/
def State.loadSites (a : Nat) : List Nat → State → Except SiteRes (List Site × State)
  | [], s => .ok ([], s)
  | p :: ps, s =>
    match s.site (a + 4096 * p) 0 .read 1 none (fun _ => false) with
    | .ok x s1 =>
      match State.loadSites a ps s1 with
      | .ok (xs, s2) => .ok (x :: xs, s2)
      | .error r => .error r
    | r => .error r

/-- The bytes are the image that counter n made, by its VER, CHECK and opaque part (R252). -/
def imageIs (bs : List Byte) (n : Nat) : Bool :=
  (field bs 0 4 == 0x04800001) && (field bs 24 8 == (Config.imageCheck n).toNat) &&
    (bs.drop 64 == (List.range (0x200000 - 64)).map fun i => Config.imageByte n (64 + i))

/-- What a restore that raises POISON leaves: tiles and planes hold a mixture, free bytes of the model (R254). -/
def Core.torn (k : Core) (n : Nat) : Core :=
  k.upMx fun m =>
    { m with
      tiles := Vector.ofFn fun i =>
        { m.tiles[i] with data := Mem.run 0 ((List.range 98304).map fun j => Config.tornByte n (98304 * i.val + j)) },
      planes := Vector.ofFn fun (p : Fin 2) =>
        { m.planes[p] with empty := false, cols := (List.range 192).map fun col =>
            (List.range (imagePB m.fmtb)).map fun b => Config.tornByte n (0x180000 + 131072 * p.val + 512 * col + b) } }

/-- The operation that a record stands for, if it is a fill. -/
def Rec.fillId (x : Rec) : Option Nat :=
  match x.op with
  | .fill e => some e.id
  | _ => none

/-- A fill record of an image comes back, unless it is still pending: to its own place, or where that is taken to a free one (R254;
log 118). -/
def Core.putRec (k : Core) (i : Nat) (x : Rec) : Core :=
  let j : Fin 32 := Fin.ofNat 32 i
  if k.recs.toList.any fun y => y.any fun z => z.fillId == x.fillId && x.fillId.isSome then k
  else if k.recs[j].isNone then { k with recs := k.recs.set j (some x) }
  else match k.freeRec with
    | some i => { k with recs := k.recs.set i (some x) }
    | none => k

/-- An image's moves take their places in the vector queue again, by their order of issue (R196, R252). -/
def insertById (v : VEnt) : List VEnt → List VEnt
  | [] => [v]
  | x :: t => if x.id = v.id then x :: t else if v.id < x.id then v :: x :: t else x :: insertById v t

/-- Every saved field comes back, and the parked locks are live again (R254). -/
def Core.unpark (k : Core) (x : MImage) : Core :=
  x.recs.foldl (fun k y => k.putRec y.1 y.2)
    { k with mx := { x.m with frozen := false, parked := false, owed := false }, locks := x.locks,
             vq := x.vq.foldl (fun l v => insertById v l) k.vq }

/-- MA.RSTR (R254). -/
def execMaRstr (a : Fin 32) (s : State) : Out :=
  s.gate { maj := 35, priv := true } [a] fun _ =>
    let va := (s.me.get a).toNat
    if s.asyncOpen then s.block 10 0
    else if !s.myCore.mx.parked then s.trap cILL 0x0E
    else match s.matrixTrap with
    | some o => o
    | none =>
      if va % 4096 ≠ 0 then s.trapX { cause := cALIGN, detail := 4096, va := va, kind := 1 }
      else if !(s.myCore.mx.queue.isEmpty) ∨ !(s.me.stores.isEmpty) then s.block 10 0
      else match State.loadSites va (List.range 512) s with
      | .error r => s.siteStop r
      | .ok (xs, s0) =>
        let s1 := s0.siteServe 4096 xs
        let bs := xs.flatMap fun x => s1.siteGet x 4096
        let bad := fun (d : Nat) =>
          ({ s1 with free := s1.free + 1 }.upMyCore fun k => k.torn s1.free).trapX
            { cause := cPOISON, detail := d, va := va, kind := 1 }
        if xs.any fun x => s1.sitePoison x 4096 then bad 0
        else match s1.images.find? fun x => imageIs bs x.n with
        | none => bad 0x30
        | some x => (s1.upMyCore fun k => k.unpark x).done 2

end Sys2Proof.Machine
end

