-- ==== Sys2Proof/Machine/Ordering.lean ====
section
/-! DEFINITION. ACQ, REL and FEN (MAJ 15), and what the host does to the order: snoops and host writes (R131 to R150). -/
namespace Sys2Proof.Machine

/-! ## ACQ, REL, FEN (R147 to R150) -/

/-- An acquire at scope `sc` cannot be complete yet: a read of the thread is outstanding, or at .sy a snoop is not applied (R134). -/
def State.acqWaits (s : State) (sc : Nat) : Bool :=
  sc != 0 && (s.reading s.cc s.cr || (sc == 5 && !s.snoops.isEmpty))

/-- Completes an acquire at scope `sc` and retires the word of two halfwords, or blocks (R134). -/
def State.acquireThen (s : State) (sc : Nat) (go : State → Out) : Out :=
  if s.acqWaits sc then s.block 10 0 else go (s.acquired s.cc s.cr sc)

/-- ACQ (R147, R148). -/
def execAcq (sc : Fin 8) (s : State) : Out :=
  s.gate { maj := 15 } [] fun _ => s.acquireThen sc.val fun s => s.done 2

/-- REL (R148): later loads issue before it is complete; later stores, atomics, asynchronous words and arrivals wait (R133). -/
def execRel (sc : Fin 8) (s : State) : Out :=
  s.gate { maj := 15 } [] fun _ =>
    if sc.val = 0 then s.done 2
    else if 3 ≤ sc.val ∧ s.storeRecord s.cc s.cr then s.trap cENG 0x01
    else if (3 ≤ sc.val ∧ s.storeLost s.cc s.cr) ∨ (sc.val = 5 ∧ !s.hostup) then s.block 10 0
    else (s.openRel sc.val true).done 2

/-- FEN (R148). -/
def execFen (sc : Fin 8) (s : State) : Out :=
  s.gate { maj := 15 } [] fun _ =>
    match s.release sc.val with
    | .eng => s.trap cENG 0x01
    | .wait => s.block 10 0
    | .go => s.acquireThen sc.val fun s => s.done 2

/-! ## The host (R134, R139) -/

/-- The host reaches the line at `pa`: the package is on, the host link is up, and the dies on the way are admitted (R8, R421). -/
def State.hostReaches (s : State) (pa : Nat) : Bool :=
  s.powered && s.hostup && s.chipUp 8 && s.cdUp (s.homeDie pa) &&
    (if tierOf pa = 0 then s.bdUp (stackOf pa) else !(s.onIod1 pa) || s.chipUp 9)

/-- A host write of a line waits behind an earlier one, or for a snoop of the line that is not applied: until then the package reads
the older copy (R134, R139). -/
def State.hostWaits (s : State) (pa n : Nat) : Bool :=
  (linesOf pa n).any fun l => s.snoops.contains l || s.hostw.any fun w => (linesOf w.1 w.2.length).contains l

/-- The first held host write that a snoop holds no more is performed. -/
def State.hostPerform (s : State) : List (Nat × List Byte) → List (Nat × List Byte) → State
  | done, [] => { s with hostw := done.reverse }
  | done, w :: t =>
    if (linesOf w.1 w.2.length).any s.snoops.contains || done.any fun x => overlap (x.1 / 64) 1 (w.1 / 64) 1 then
      s.hostPerform (w :: done) t
    else (s.physWrite w.1 w.2 true).hostPerform done t

/-- CXL_SNOOP (R134): a snoop of a line reaches the package, or one that has reached it is applied in the L2 slices; host writes that
it held are performed then. -/
def execCxlSnoop (pa : Nat) (s : State) : Out :=
  let l := pa / 64
  .next (if s.snoops.contains l then
      let s1 := { s with snoops := s.snoops.erase l, l2own := eraseNat l s.l2own }
      s1.hostPerform [] s1.hostw
    else { s with snoops := s.snoops ++ [l] })

/-- HOST_WRITE (R139): performed at .sy, with no older copy left in an L2 slice; the host reaches nothing of a package that is off, nor
while its link is down (R437), nor behind a die that is not admitted (R8). -/
def execHostWrite (pa : Nat) (bytes : List Byte) (s : State) : Out :=
  .next (if bytes.isEmpty ∨ tierOf pa = 3 ∨ tierOf (pa + bytes.length - 1) ≠ tierOf pa then s
    else if !((linesOf pa bytes.length).all fun l => s.hostReaches (64 * l)) then s
    else if s.hostWaits pa bytes.length then { s with hostw := s.hostw ++ [(pa, bytes)] }
    else s.physWrite pa bytes true)

end Sys2Proof.Machine
end

