-- ==== Sys2Proof/Machine/Barrier.lean ====
section
/-! DEFINITION. Barrier slots and semaphores as shared operations: the slot word, its events, the threads they wake, targets,
handles, and posted events (R280 to R293). -/
namespace Sys2Proof.Machine

/-! ## The slot word (R280, R281) -/

def slotOff (n : Nat) : Nat := 0x780000 + 64 * n

/-- Bits 255:0 of a slot word; the rest is reserved and its events leave it. -/
def Core.slotW (k : Core) (n : Fin 32) : Nat := k.pool.nat (slotOff n.val) 32

def Core.setSlotW (k : Core) (n : Fin 32) (w : Nat) : Core :=
  { k with pool := k.pool.write (slotOff n.val) (leBytes 32 w) }

def wSval (w : Nat) : Int := sint 64 (bits w 192 64)
def wBcnt (w : Nat) : Int := sint 64 (bits w 128 64)
def wBstand (w : Nat) : Nat := bits w 96 32
def wAcnt (w : Nat) : Nat := bits w 80 16
def wAexp (w : Nat) : Nat := bits w 64 16
def wMode (w : Nat) : Nat := bits w 62 2
def wScope (w : Nat) : Nat := bits w 59 3
def wByt (w : Nat) : Nat := bits w 57 2
def wOvt (w : Nat) : Bool := bits w 56 1 == 1
def wBpost (w : Nat) : Bool := bits w 53 1 == 1
def wExpd (w : Nat) : Bool := bits w 52 1 == 1
def wOvl (w : Nat) : Bool := bits w 51 1 == 1
def wPhase (w : Nat) : Nat := bits w 16 16

def wSetSval (w : Nat) (v : Int) : Nat := setBits w 192 64 (ofInt 64 v)
def wSetBcnt (w : Nat) (v : Int) : Nat := setBits w 128 64 (ofInt 64 v)
def wSetAcnt (w v : Nat) : Nat := setBits w 80 16 v
def wFlag (w lo : Nat) (b : Bool) : Nat := setBits w lo 1 (if b then 1 else 0)
def wSetOvrn (w : Nat) : Nat := wFlag w 55 true
def wSetErr (w : Nat) : Nat := wFlag w 54 true

/-- The byte count and BPOST with which a phase begins (R282, R287). -/
def wNewPhase (w : Nat) : Nat :=
  let w := wSetAcnt w (wAexp w)
  let w := wSetBcnt w (if wByt w = 1 then (wBstand w : Int) else 0)
  wFlag w 53 (wByt w != 2)

/-! ## Barrier events (R282) -/

/-- A slot word with the overrun of its phase, which R283 reports. -/
structure BSlot where
  w : Nat
  o : Overrun

/-- Check (R282): the phase completes when nothing is still expected. -/
def BSlot.check (x : BSlot) : BSlot :=
  if wAcnt x.w = 0 ∧ wBpost x.w ∧ wBcnt x.w ≤ 0 then
    let ovf := x.o.cur || decide (wBcnt x.w < 0)
    let w := wFlag x.w 51 ovf
    let w := if ovf then wSetOvrn w else w
    let w := setBits w 16 16 (wPhase w + 1)
    { w := wNewPhase w,
      o := { cur := false, surplus := false, bytes := 0, lastSurplus := x.o.surplus,
             lastBytes := (-(wBcnt x.w)).toNat } }
  else x

/-- Arrive (R282). -/
def BSlot.arrive (x : BSlot) : BSlot :=
  if wAcnt x.w = 0 then
    BSlot.check { w := wSetOvrn x.w, o := { x.o with cur := true, surplus := true } }
  else BSlot.check { x with w := wSetAcnt x.w (wAcnt x.w - 1) }

/-- Bytes(n) (R282). -/
def BSlot.bytes (x : BSlot) (n : Nat) : BSlot :=
  if wByt x.w = 0 then { x with w := wSetErr x.w }
  else BSlot.check { x with w := wSetBcnt x.w (wBcnt x.w - n) }

/-- Post(n) (R282). -/
def BSlot.expect (x : BSlot) (n : Nat) : BSlot :=
  if wByt x.w ≠ 2 then { x with w := wSetErr x.w }
  else BSlot.check { x with w := wFlag (wSetBcnt x.w (wBcnt x.w + n)) 53 true }

/-- Saturation to 64 signed bits (R292). -/
def sat64 (i : Int) : Int := max (-(2 ^ 63 : Int)) (min i (2 ^ 63 - 1))

/-- An event at a slot: one whose mode does not take it sets ERR (R281, R282). -/
def BSlot.event (x : BSlot) (e : PostKind) : BSlot :=
  let need := match e with
    | .semSet _ => 2
    | .semAdd _ => 2
    | _ => 1
  if wMode x.w ≠ need then { x with w := wSetErr x.w }
  else match e with
    | .arrive => x.arrive
    | .bytes n => x.bytes n
    | .expect n => x.expect n
    | .semSet v => { x with w := wSetSval x.w v.toInt }
    | .semAdd v => { x with w := wSetSval x.w (sat64 (wSval x.w + v.toInt)) }
    | _ => x

/-! ## Waiters (R282, R283, R289, R293) -/

/-- The token k has passed (R289). -/
def passed (phase k : Nat) : Bool :=
  let d := (phase + 65536 - k % 65536) % 65536
  decide (1 ≤ d) && decide (d ≤ 32767)

/-- The detail of the overrun that a waiter for token k raises (R283). -/
def overrunDetail (n : Fin 32) (x : BSlot) (k : Nat) : Option Nat :=
  if wOvt x.w && wOvl x.w && wPhase x.w == (k + 1) % 65536 then
    some (n.val + (if x.o.lastSurplus then 32 else 0) + 256 * min x.o.lastBytes (2 ^ 24 - 1))
  else none

/-- A thread that waits on slot n goes on once its token has passed. -/
def Thread.wakeBar (t : Thread) (n : Fin 32) (x : BSlot) : Thread :=
  let go := fun (k : Nat) =>
    if passed (wPhase x.w) k then
      { t with stage := .passed n.val (wPhase x.w) (overrunDetail n x k), why := 0, obj := 0 }
    else t
  match t.stage with
  | .bwait m k => if m = n.val then go k else t
  | .arw m k => if m = n.val then go k else t
  | _ => t

def Core.bslot (k : Core) (n : Fin 32) : BSlot := { w := k.slotW n, o := k.ovr[n] }

def Core.setBslot (k : Core) (n : Fin 32) (x : BSlot) : Core := { k.setSlotW n x.w with ovr := k.ovr.set n x.o }

/-- Examines a slot's waiters once, in the order they began to wait (R293): those that complete with the SVAL they see, those
that stay, and SVAL afterwards. -/
def semPass (n : Nat) : List SemWait → Bool → Int → List (Role × Int) × List SemWait × Int
  | [], _, v => ([], [], v)
  | q :: qs, stuck, v =>
    if q.slot ≠ n then
      let (a, b, v1) := semPass n qs stuck v
      (a, q :: b, v1)
    else if q.thr.toInt ≤ v ∧ !(q.sub && stuck) then
      let (a, b, v1) := semPass n qs stuck (if q.sub then sat64 (v - q.thr.toInt) else v)
      ((q.role, v) :: a, b, v1)
    else
      let (a, b, v1) := semPass n qs (stuck || q.sub) v
      (a, q :: b, v1)

/-- Passes until no waiter completes: a subtraction of a negative threshold changes SVAL for those before it. -/
def semPasses (n : Nat) : Nat → List SemWait → Int → List (Role × Int) × List SemWait × Int
  | 0, qs, v => ([], qs, v)
  | f + 1, qs, v =>
    match semPass n qs false v with
    | ([], qs1, v1) => ([], qs1, v1)
    | (a, qs1, v1) =>
      let (b, qs2, v2) := semPasses n f qs1 v1
      (a ++ b, qs2, v2)

/-- Completes the waiters of a semaphore slot that its value satisfies (R293). -/
def Core.semScan (k : Core) (n : Fin 32) : Core :=
  let (done, left, v) := semPasses n.val (k.semq.length + 1) k.semq (wSval (k.slotW n))
  if done.isEmpty then k
  else
    let k := { k.setSlotW n (wSetSval (k.slotW n) v) with semq := left }
    done.foldl (fun (k : Core) (d : Role × Int) =>
      k.setThr d.1 { k.thr d.1 with stage := .result (ofInt 64 d.2), why := 0, obj := 0 }) k

/-- An event takes effect at slot n of a core, in one step: a phase that it completes wakes the waiters whose token has passed, and
a semaphore examines its waiters (R282, R293). -/
def Core.slotEvent (k : Core) (n : Fin 32) (e : PostKind) : Core :=
  let x := (k.bslot n).event e
  let same := wPhase x.w == wPhase (k.slotW n)
  let k := k.setBslot n x
  if wMode x.w = 2 then k.semScan n
  else if same then k
  else { k with threads := k.threads.map fun t => t.wakeBar n x }

/-- A thread of the core waits on slot n (R287). -/
def Core.slotWaited (k : Core) (n : Nat) : Bool :=
  k.threads.toList.any fun t => match t.stage with
    | .bwait m _ => m == n
    | .arw m _ => m == n
    | .sem m => m == n
    | _ => false

/-! ## Targets and handles (R267, R284, R285) -/

def tgKind (t : Nat) : Nat := bits t 30 2
def tgMemb (t : Nat) : Nat := bits t 26 4
def tgHnd (t : Nat) : Nat := bits t 5 21
def tgIx (t : Nat) : Nat := bits t 0 5

def hndDie (h : Nat) : Fin 4 := Fin.ofNat 4 (bits h 19 2)
def hndEntry (h : Nat) : Nat := bits h 7 12
def hndGen (h : Nat) : Nat := bits h 0 7

def hndWord (d : Fin 4) (ix gen : Nat) : Nat := d.val * 2 ^ 19 + ix * 128 + gen

/-- The generation of entry ix of a barrier-handle directory; an entry not used yet has 1 (log 5). -/
def Die.bhGen (d : Die) (ix : Nat) : Nat :=
  match d.bh.find? (·.ix == ix) with
  | some e => e.gen
  | none => 1

/-- What a live handle names: task, member, slot (R285). -/
def State.handleLive (s : State) (h : Nat) : Option (Nat × Nat × Nat) :=
  match (s.die (hndDie h)).bh.find? (·.ix == hndEntry h) with
  | some e => if hndGen h ≠ 0 ∧ e.gen = hndGen h then e.live else none
  | none => none

/-- The directory of a die can be read from another: it lies in stack BD(2d + 1) (R285). -/
def State.dirUp (s : State) (from_ d : Fin 4) : Bool :=
  s.cdUp d && s.routeUp from_ d && s.bdUp (Fin.ofNat 8 (2 * d.val + 1))

/-- The core where events for member m of a task take effect: none while it is saved, or its resume has not reloaded it (R285). -/
def Task.coreAt (t : Task) (m : Nat) : Option (Fin 64) := if t.phase = .resuming then none else t.cores[m]?

/-- The SCOPE of a slot of a task, on its core or in its save (R284, R285). -/
def State.taskScope (s : State) (id m n : Nat) : Nat :=
  match s.task id with
  | none => 0
  | some t => match t.coreAt m with
    | some d => wScope ((s.core d).slotW (Fin.ofNat 32 n))
    | none => match t.saved[m]? with
      | some k => wScope (k.slotW (Fin.ofNat 32 n))
      | none => 0

/-- The slot that a posted event of core c goes to now, if it lies on a core. -/
def State.postDest (s : State) (c : Fin 64) : Target → Option (Fin 64 × Fin 32)
  | .member m n => (s.member c m).map fun d => (d, Fin.ofNat 32 n)
  | .slot t m n => match s.task t with
    | some x => (x.coreAt m).map fun d => (d, Fin.ofNat 32 n)
    | none => none
  | .handle h => match s.handleLive h with
    | some (t, m, n) => match s.task t with
      | some x => (x.coreAt m).map fun d => (d, Fin.ofNat 32 n)
      | none => none
    | none => none

/-- A post of an event to a barrier or semaphore slot, and not to a ring. -/
def PostKind.toSlot : PostKind → Bool
  | .push _ _ _ _ _ => false
  | .eos _ _ _ => false
  | .reg _ _ _ => false
  | _ => true

/-- An earlier event of the thread to the same slot has not landed (R284). -/
def State.postBehind (s : State) (c : Fin 64) (r : Role) (id : Nat) (tg : Target) : Bool :=
  (s.core c).posts.any fun p => p.role == r && decide (p.id < id) && p.kind.toSlot &&
    (p.target == tg || ((s.postDest c p.target).isSome && s.postDest c p.target == s.postDest c tg))

/-- The target of a post: a handle that the core has resolved goes straight to its slot (R285). -/
def Core.aim (k : Core) (t : Nat) : Target :=
  if tgKind t = 2 then .member (tgMemb t) (tgIx t)
  else match k.hcache.find? (·.handle == tgHnd t) with
    | some x => .slot x.task x.teamix x.slot
    | none => .handle (tgHnd t)

/-- Queues a posted event of thread r of core c (R146, R284). -/
def State.addPost (s : State) (c : Fin 64) (r : Role) (tg : Target) (e : PostKind) : State :=
  let (id, s) := s.fresh
  s.upCore c fun k => { k with posts := k.posts ++ [{ id := id, role := r, target := tg, kind := e }] }

/-- The SCOPE of the slot that a target names, 0 when it names none: a member's configuration, or what the handle cache holds, or the
directory will name (R284). -/
def State.targetScope (s : State) (t : Nat) : Nat :=
  if tgKind t = 1 then wScope (s.myCore.slotW (Fin.ofNat 32 (tgIx t)))
  else if tgKind t = 2 then (match s.member s.cc (tgMemb t) with
    | some d => wScope ((s.core d).slotW (Fin.ofNat 32 (tgIx t)))
    | none => 0)
  else match s.myCore.hcache.find? (·.handle == tgHnd t) with
    | some x => x.scope
    | none => match s.handleLive (tgHnd t) with
      | some (t, m, n) => s.taskScope t m n
      | none => 0

/-- The SCOPE of the slot that a post of core c goes to. -/
def State.postScope (s : State) (c : Fin 64) (p : Post) : Nat :=
  match p.target with
  | .member m n => match s.member c m with
    | some d => wScope ((s.core d).slotW (Fin.ofNat 32 n))
    | none => 0
  | .slot t m n => s.taskScope t m n
  | .handle _ => 0

/-- A record of a posted event of the thread is pending (R285). -/
def Core.postRec (k : Core) (r : Role) : Bool :=
  (List.finRange 32).any fun i => match k.recs[i] with
    | some x => x.role == r && (match x.op with
      | .post _ => true
      | _ => false)
    | none => false

/-! ## Posted events land (R284, R285) -/

/-- The event leaves a record, if there is a place for it; else it waits (R181, R285). -/
def State.postFails (s : State) (c : Fin 64) (p : Post) (cause detail : Nat) : State :=
  let x : Rec := { role := p.role, op := .post p, fault := { cause := cause, detail := detail, va := 0, kind := 2 }, cancel := false }
  match s.tryRec c x with
  | some s1 => s1.upCore c fun k => { k with posts := k.posts.filter (·.id ≠ p.id) }
  | none => s

/-- The event is stale (R285): its record's cause is not given (log 55). -/
def State.postStale (s : State) (c : Fin 64) (p : Post) : State := s.postFails c p cTYPE 0

/-- The post of core c lands. -/
def State.postLand (s : State) (c : Fin 64) (p : Post) : State :=
  let gone : State → State := fun s => s.upCore c fun k => { k with posts := k.posts.filter (·.id ≠ p.id) }
  let at_ : Fin 64 → Nat → State := fun d n => (gone s).upCore d fun k => k.slotEvent (Fin.ofNat 32 n) p.kind
  match p.target with
  | .handle _ => s
  | .member m n => match s.member c m with
    | some d => at_ d n
    | none => s
  | .slot id m n => match s.task id with
    | none => s.postStale c p
    | some t => match t.coreAt m with
      | some d =>
        if !(s.cdUp (dieOf d)) || !(s.routeUp (dieOf c) (dieOf d)) then s.postFails c p cDIEX 0
        else if s.pathHeld c (dieOf d) then s
        else at_ d n
      | none => (gone s).upTask id fun t => { t with heldEv := t.heldEv ++ [(m, n, p.kind)] }

/-- A post that an earlier store's record holds back (R148): an arrival or a semaphore write at .di or wider. -/
def State.postShut (s : State) (c : Fin 64) (p : Post) : Bool :=
  (match p.kind with
   | .bytes _ => false
   | .expect _ => false
   | _ => true) && decide (3 ≤ s.postScope c p) && (s.core c).storeRecBelow p.role p.id

/-- Whether a post may leave and land now: events of a thread to a slot keep their order (R284); an arrival and a semaphore write
leave once the thread's earlier accesses are complete (R146) and, at .di or wider, no earlier store is a record (R148). -/
def State.postMay (s : State) (c : Fin 64) (p : Post) : Bool :=
  !(s.postBehind c p.role p.id p.target) &&
    (match p.kind with
     | .bytes _ => true
     | .expect _ => true
     | _ => !(s.outstanding c p.role p.id) && !(s.postShut c p))

/-- Post i of core c lands, if it is of the kind `sel`. -/
def State.landEvent (s : State) (c : Fin 64) (i : Nat) (sel : PostKind → Bool) : State :=
  match (s.core c).posts[i]? with
  | none => s
  | some p => if sel p.kind && s.postMay c p then s.postLand c p else s

/-- ARRIVE_EVENT (R282). -/
def execArriveEvent (c : Fin 64) (im : Nat) (s : State) : Out :=
  .next (s.landEvent c im fun e => match e with
    | .arrive => true
    | _ => false)

/-- BYTES_EVENT (R282). -/
def execBytesEvent (c : Fin 64) (im : Nat) (s : State) : Out :=
  .next (s.landEvent c im fun e => match e with
    | .bytes _ => true
    | _ => false)

/-- POST_EVENT (R282). -/
def execPostEvent (c : Fin 64) (im : Nat) (s : State) : Out :=
  .next (s.landEvent c im fun e => match e with
    | .expect _ => true
    | _ => false)

/-- SEM_EVENT_LAND (R292). -/
def execSemEventLand (c : Fin 64) (im : Nat) (s : State) : Out :=
  .next (s.landEvent c im fun e => match e with
    | .semSet _ => true
    | .semAdd _ => true
    | _ => false)

/-- Posts of a core that name a handle. -/
def Core.handlePosts (k : Core) (h : Nat) : List Post := k.posts.filter fun p => p.target == .handle h

/-- HANDLE_RESOLVE (R285): the core reads the directory entry; the handle's events take their slot, or leave records. -/
def State.handleResolve (s : State) (c : Fin 64) (h : Nat) : State :=
  let k := s.core c
  if (k.handlePosts h).isEmpty then s
  else if !(s.dirUp (dieOf c) (hndDie h)) then (k.handlePosts h).foldl (fun s p => s.postFails c p cDIEX 0) s
  else match s.handleLive h with
    | none => (k.handlePosts h).foldl (fun s p => s.postStale c p) s
    | some (t, m, n) => s.upCore c fun k =>
        { k with hcache := { handle := h, task := t, teamix := m, slot := n, scope := s.taskScope t m n } :: k.hcache.filter (·.handle ≠ h),
                 posts := k.posts.map fun p => if p.target = .handle h then { p with target := .slot t m n } else p }

/-- HANDLE_RESOLVE (R285). -/
def execHandleResolve (c : Fin 64) (h : Nat) (s : State) : Out := .next (s.handleResolve c h)

/-- Drops what every core has cached of a handle. -/
def State.forgetHandle (s : State) (h : Nat) : State :=
  { s with cores := s.cores.map fun k => { k with hcache := k.hcache.filter (·.handle ≠ h) } }

/-- Drops what every core has cached of a task's handles: it moves (R285). -/
def State.forgetTask (s : State) (id : Nat) : State :=
  { s with cores := s.cores.map fun k => { k with hcache := k.hcache.filter (·.task ≠ id) } }

/-! ## The handle directory (R285, R290) -/

/-- The physical address of entry ix of die d's barrier-handle directory. -/
def State.bhAddr (s : State) (d : Fin 4) (ix : Nat) : Nat :=
  0x1000000000 * (2 * d.val + 1) + bits s.sys[9].toNat 20 16 * 2 ^ 20 + 16 * ix

/-- Writes an entry, with bytes whose layout no rule gives. -/
def State.bhWrite (s : State) (d : Fin 4) (e : BhEnt) : State :=
  let bs := (List.range 16).map (Config.directoryByte s.free)
  let s1 := { s.physWrite (s.bhAddr d e.ix) bs true with free := s.free + 1 }
  s1.setDie d { s1.die d with bh := e :: (s1.die d).bh.filter (·.ix ≠ e.ix) }

/-- The live handle to a slot of a task, on any die. -/
def State.handleOf (s : State) (t m n : Nat) : Option Nat :=
  (List.finRange 4).findSome? fun d => (s.die d).bh.findSome? fun e =>
    if e.live = some (t, m, n) then some (hndWord d e.ix e.gen) else none

/-- The entries of a directory that are free. -/
def Die.bhFree (d : Die) : List Nat :=
  (List.range 4096).filter fun i => d.bh.all fun e => e.ix != i || e.live.isNone

end Sys2Proof.Machine
end

