-- ==== Sys2Proof/Machine/Sync.lean ====
section
/-! DEFINITION. The instructions of MAJ 39 to 41: barriers, semaphores and channel control, and the landing of link pushes (R286
to R301). -/
namespace Sys2Proof.Machine

/-- The slot that a register names. -/
def slotIx (v : Word) : Fin 32 := Fin.ofNat 32 v.toNat

/-- Writes gD and retires. -/
def State.putDone (s : State) (d : Fin 32) (v : Word) : Out := (s.upMe fun t => t.put d v).done 2

/-- The checks of an instruction of MAJ 39 or 40: a record of a posted event raises ENG 0x05 when the word first issues (R285). -/
def State.syncGate (s : State) (maj : Nat) (reads : List (Fin 32)) (go : Unit → Out) : Out :=
  s.gate { maj := maj } reads fun _ =>
    if s.me.stage = .none ∧ s.myCore.postRec s.cr then s.trap cENG 0x05 else go ()

/-! ## BAR.INIT and SEM.INIT (R287, R292) -/

/-- The slot word that BAR.INIT writes, from the configuration and SCOPE; EXPD is kept. -/
def barWord (w cfg sc : Nat) : Nat :=
  let x := setBits 0 64 16 (bits cfg 0 16)
  let x := setBits x 57 2 (bits cfg 16 2)
  let x := setBits x 56 1 (bits cfg 18 1)
  let x := setBits x 96 32 (bits cfg 32 32)
  let x := setBits (setBits x 62 2 1) 59 3 sc
  wNewPhase (wFlag x 52 (wExpd w))

/-- BAR.INIT (R287). -/
def execBarInit (a b d : Fin 32) (sc : Fin 8) (s : State) : Out :=
  s.syncGate 39 [a, b] fun _ =>
    let n := slotIx (s.me.get a)
    let cfg := (s.me.get b).toNat
    let byt := bits cfg 16 2
    if s.myCore.slotWaited n.val then s.putDone d 2
    else if byt = 3 ∨ (bits cfg 0 16 = 0 ∧ (byt = 0 ∨ (byt = 1 ∧ bits cfg 32 32 = 0))) then s.putDone d 1
    else (s.upMyCore fun k => k.setBslot n { w := barWord (k.slotW n) cfg sc.val, o := Overrun.reset }).putDone d 0

/-- SEM.INIT (R292). -/
def execSemInit (a b d : Fin 32) (sc : Fin 8) (s : State) : Out :=
  s.syncGate 40 [a, b] fun _ =>
    let n := slotIx (s.me.get a)
    if s.myCore.slotWaited n.val then s.putDone d 2
    else
      (s.upMyCore fun k =>
        let x := setBits (setBits 0 62 2 2) 59 3 sc.val
        k.setBslot n { w := wSetSval (wFlag x 52 (wExpd (k.slotW n))) (s.me.get b).toInt, o := Overrun.reset }).putDone d 0

/-! ## Events by instruction (R284, R288, R292) -/

/-- Makes an event at the target `t`. `rel`: the event is a release at the slot's scope first. `old`: what gD takes for an event
at an own slot. -/
def State.signal (s : State) (t : Nat) (e : PostKind) (rel : Bool) (old : Nat → Word) (d : Fin 32) : Out :=
  if tgKind t = 0 then s.trap cTYPE 0x2E
  else if tgKind t = 2 ∧ s.myCore.teamsz ≤ tgMemb t then s.trap cPAGE 0x45
  else
    let sc := if rel then s.targetScope t else 0
    if rel && s.asyncOpen then s.block 10 0
    else if tgKind t = 1 then
      match s.release sc with
      | .eng => s.trap cENG 0x01
      | .wait => s.block 10 0
      | .go =>
        let n : Fin 32 := Fin.ofNat 32 (tgIx t)
        if s.postBehind s.cc s.cr s.nextOp (.member s.myCore.teamix n.val) then s.block 10 0
        else (s.upMyCore fun k => k.slotEvent n e).putDone d (old (s.myCore.slotW n))
    else if 3 ≤ sc ∧ s.storeRecord s.cc s.cr then s.trap cENG 0x01
    else if (3 ≤ sc ∧ s.storeLost s.cc s.cr) ∨ (sc = 5 ∧ !s.hostup) then s.block 10 0
    else
      let s1 := if sc = 0 then s else s.openRel sc false
      (s1.addPost s.cc s.cr (s.myCore.aim t) e).putDone d 0

/-- BAR.ARR (R288). -/
def execBarArr (a d : Fin 32) (s : State) : Out :=
  s.syncGate 39 [a] fun _ => s.signal (bits (s.me.get a).toNat 0 32) .arrive true (fun w => word (wPhase w)) d

/-- BAR.EXPB (R288): a post is no release. -/
def execBarExpb (a b d : Fin 32) (s : State) : Out :=
  s.syncGate 39 [a, b] fun _ =>
    s.signal (bits (s.me.get a).toNat 0 32) (.expect (bits (s.me.get b).toNat 0 32)) false (fun _ => 0) d

/-- SEM.SET (R292). -/
def execSemSet (a b d : Fin 32) (s : State) : Out :=
  s.syncGate 40 [a, b] fun _ =>
    s.signal (bits (s.me.get a).toNat 0 32) (.semSet (s.me.get b)) true (fun w => word (bits w 192 64)) d

/-- SEM.ADD (R292). -/
def execSemAdd (a b d : Fin 32) (s : State) : Out :=
  s.syncGate 40 [a, b] fun _ =>
    s.signal (bits (s.me.get a).toNat 0 32) (.semAdd (s.me.get b)) true (fun w => word (bits w 192 64)) d

/-! ## Waits (R283, R289, R292) -/

/-- The end of a barrier wait whose token has passed: the acquire, PHASE in gD, and the overrun trap. -/
def State.barPassed (s : State) (d : Fin 32) : Out :=
  match s.me.stage with
  | .passed n ph ov =>
    s.acquireThen (wScope (s.myCore.slotW (Fin.ofNat 32 n))) fun s1 =>
      let s2 := s1.upMe fun t => t.put d (word ph)
      match ov with
      | some x => s2.trapAfter 2 cOVRN x
      | none => s2.done 2
  | _ => s.block 3 0

/-- BAR.WAIT (R289). -/
def execBarWait (a b d : Fin 32) (s : State) : Out :=
  s.syncGate 39 [a, b] fun _ =>
    match s.me.stage with
    | .passed _ _ _ => s.barPassed d
    | .bwait n _ => s.block 3 n
    | _ =>
      let n := slotIx (s.me.get a)
      let k := bits (s.me.get b).toNat 0 16
      let x := s.myCore.bslot n
      if wMode x.w ≠ 1 then s.trap cTYPE 0x2F
      else if passed (wPhase x.w) k then
        (s.upMe fun t => { t with stage := .passed n.val (wPhase x.w) (overrunDetail n x k) }).barPassed d
      else (s.upMe fun t => { t with stage := .bwait n.val k }).block 3 n.val

/-- A barrier wait that may have been passed by the word's own arrival. -/
def State.barGoOn (s : State) (n : Fin 32) (d : Fin 32) : Out :=
  match s.me.stage with
  | .passed _ _ _ => s.barPassed d
  | _ => s.block 3 n.val

/-- BAR.ARW (R289): the arrival is made once; the wait half remembers the token. -/
def execBarArw (a d : Fin 32) (s : State) : Out :=
  s.syncGate 39 [a] fun _ =>
    match s.me.stage with
    | .passed _ _ _ => s.barPassed d
    | .arw n _ => s.block 3 n
    | _ =>
      let n := slotIx (s.me.get a)
      let w := s.myCore.slotW n
      if wMode w ≠ 1 then s.trap cTYPE 0x2F
      else if s.asyncOpen ∨ s.postBehind s.cc s.cr s.nextOp (.member s.myCore.teamix n.val) then s.block 10 0
      else match s.release (wScope w) with
      | .eng => s.trap cENG 0x01
      | .wait => s.block 10 0
      | .go =>
        ((s.upMe fun t => { t with stage := .arw n.val (wPhase w) }).upMyCore fun k => k.slotEvent n .arrive).barGoOn n d

/-- The end of a SEM.WGE that its slot has granted: SVAL seen, then the acquire (R292). -/
def State.semGranted (s : State) (n : Fin 32) (d : Fin 32) : Out :=
  match s.me.stage with
  | .result v => s.acquireThen (wScope (s.myCore.slotW n)) fun s1 => s1.putDone d (word v)
  | _ => s.block 4 n.val

/-- SEM.WGE (R292, R293): it joins the slot's waiters, and the slot examines them. -/
def execSemWge (a b d : Fin 32) (u : Fin 2) (s : State) : Out :=
  s.syncGate 40 [a, b] fun _ =>
    let n := slotIx (s.me.get a)
    match s.me.stage with
    | .result _ => s.semGranted n d
    | .sem m => s.block 4 m
    | _ =>
      if wMode (s.myCore.slotW n) ≠ 2 then s.trap cTYPE 0x2F
      else
        let q : SemWait := { role := s.cr, slot := n.val, thr := s.me.get b, sub := u.val == 1 }
        ((s.upMe fun t => { t with stage := .sem n.val }).upMyCore fun k =>
          { k with semq := k.semq ++ [q] }.semScan n).semGranted n d

/-! ## BAR.STAT and handles (R290) -/

/-- BAR.STAT (R290). -/
def execBarStat (a d : Fin 32) (c : Fin 2) (s : State) : Out :=
  s.syncGate 39 [a] fun _ =>
    let n := slotIx (s.me.get a)
    let w := s.myCore.slotW n
    let s1 := if c.val = 1 then s.upMyCore fun k => k.setSlotW n (wFlag (wFlag (wFlag w 55 false) 54 false) 51 false) else s
    s1.putDone d (word w)

/-- BAR.EXP (R290): EXPD set, and the live handle, or a new one in a free entry of the issuing die's directory; which free entry is not given. -/
def execBarExp (a d : Fin 32) (s : State) : Out :=
  s.syncGate 39 [a] fun _ =>
    let n := slotIx (s.me.get a)
    let k := s.myCore
    let die := dieOf s.cc
    if wMode (k.slotW n) = 0 then s.putDone d (word (2 ^ 63 + 1))
    else if !(s.dirUp die die) then s.trapX { cause := cDIEX, detail := 0, va := 0, kind := 2 }
    else match s.handleOf k.taskid k.teamix n.val with
    | some h => (s.upMyCore fun k => k.setSlotW n (wFlag (k.slotW n) 52 true)).putDone d (word h)
    | none =>
      let free := (s.die die).bhFree
      match free[Config.pickEntry s.free % free.length]? with
      | none => s.putDone d (word (2 ^ 63 + 2))
      | some ix =>
        let gen := (s.die die).bhGen ix
        let s1 := { s with free := s.free + 1 }.bhWrite die { ix := ix, gen := gen, live := some (k.taskid, k.teamix, n.val) }
        (s1.upMyCore fun k => k.setSlotW n (wFlag (k.slotW n) 52 true)).putDone d (word (hndWord die ix gen))

/-- BAR.UNEX (R290). -/
def execBarUnex (a d : Fin 32) (s : State) : Out :=
  s.syncGate 39 [a] fun _ =>
    let h := bits (s.me.get a).toNat 0 21
    match s.handleLive h with
    | none => s.putDone d 1
    | some (t, m, n) =>
      if t ≠ s.myCore.taskid then s.putDone d 1
      else if !(s.dirUp (dieOf s.cc) (hndDie h)) then s.trapX { cause := cDIEX, detail := 0, va := 0, kind := 2 }
      else
        let e : BhEnt := { ix := hndEntry h, gen := nextGen 127 (hndGen h), live := none }
        let s1 := (s.bhWrite (hndDie h) e).forgetHandle h
        let s2 := match s.member s.cc m with
          | some c => s1.upCore c fun k => k.setSlotW (Fin.ofNat 32 n) (wFlag (k.slotW (Fin.ofNat 32 n)) 52 false)
          | none => s1
        s2.putDone d 0

/-! ## Channel control (R294 to R301) -/

/-- A posted push, end or registration from link entry i of a core, or one to ring i of a core. -/
def PostKind.ring : PostKind → Option (Nat × Nat)
  | .push r l _ _ _ => some (r, l)
  | .eos r l _ => some (r, l)
  | .reg r l _ => some (r, l)
  | _ => none

/-- A link push in flight to ring i of core c, or from its link entry i (R300). -/
def State.pushing (s : State) (c : Fin 64) (i : Nat) : Bool :=
  (List.finRange 64).any fun p => (s.core p).posts.any fun x =>
    match x.target, x.kind.ring with
    | .member m _, some (r, l) => (r == i && s.member p m == some c) || (l == i && p == c)
    | _, _ => false

/-- A thread of the core blocks on channel entry i. -/
def Core.chanWaited (k : Core) (i : Nat) : Bool :=
  k.threads.toList.any fun t => (t.why == 1 || t.why == 2) && t.obj == i

/-- CH.CFG (R300). -/
def execChCfg (d a b : Fin 32) (s : State) : Out :=
  s.gate { maj := 41 } [a, b] fun _ =>
    let cfg := (s.me.get a).toNat
    let base := (s.me.get b).toNat
    let k := s.myCore
    let n := bits cfg 0 5
    let capl := bits cfg 5 4
    let i : Fin 32 := Fin.ofNat 32 n
    if k.chcnt < n then s.trap cCHAN (0x500 + n)
    else if n < k.chcnt ∧ (k.chanWaited n || !(k.chans[i].ring.isEmpty) || s.pushing s.cc n) then s.putDone d 2
    else
      let put := fun (h : Chan) =>
        (s.upMyCore fun k => { k.setChan i h with chcnt := if n = k.chcnt then n + 1 else k.chcnt }).putDone d 0
      if bits cfg 9 1 = 1 then
        if k.teamsz ≤ bits cfg 10 4 then s.putDone d 1
        else put { Chan.reset with link := true, memb := bits cfg 10 4, rix := bits cfg 14 5 }
      else if capl = 0 ∨ 12 < capl ∨ base % 64 ≠ 0 ∨ base < k.bndv * 65536 ∨ k.bnds * 65536 < base + 8 * 2 ^ capl then
        s.putDone d 1
      else put { Chan.reset with base := base, capl := capl }

/-- The configured entry that a register names, or CHAN (R34). -/
def State.chanEntry (s : State) (a : Fin 32) (go : Fin 32 → Out) : Out :=
  let n := bits (s.me.get a).toNat 0 5
  if s.myCore.chcnt ≤ n then s.trap cCHAN n else if s.acqOpen s.cc s.cr then s.block 10 0 else go (Fin.ofNat 32 n)

/-- Posts a registration or an end on link entry i; an end claims an entry at the home, or blocks for one (R296, R301). -/
def State.postRing (s : State) (i : Fin 32) (e : PostKind) (claims : Bool) (d : Fin 32) : Out :=
  let h := s.myCore.chans[i]
  let post := fun (claim : Bool) (s : State) =>
    let (id, s) := s.fresh
    let p : Post := { id := id, role := s.cr, target := .member h.memb 0, kind := e, claim := claim }
    (s.upMyCore fun k => { k with posts := k.posts ++ [p] }).putDone d 0
  if claims ∧ s.relOpen s.cc s.cr then s.block 10 0
  else match s.member s.cc h.memb with
  | none => post false s
  | some m =>
    let j : Fin 32 := Fin.ofNat 32 h.rix
    let hh := (s.core m).chans[j]
    if !claims ∨ hh.link ∨ (s.core m).chcnt ≤ h.rix then post false s
    else if hh.full then s.block 1 i.val
    else post true (s.upCore m fun k => k.setChan j { hh with claims := hh.claims + 1 })

/-- CH.REG (R297, R301). -/
def execChReg (d a : Fin 32) (s : State) : Out :=
  s.gate { maj := 41 } [a] fun _ => s.chanEntry a fun i =>
    let h := s.myCore.chans[i]
    let pid := pidOf s.myCore s.cr
    if h.link then s.postRing i (.reg h.rix i.val pid) false d
    else if h.closed || h.eosm.contains pid then s.putDone d 1
    else (s.upMyCore fun k => k.setChan i { h with reg := insertNat pid h.reg }).putDone d 0

/-- CH.EOS (R297, R301). -/
def execChEos (d a : Fin 32) (s : State) : Out :=
  s.gate { maj := 41 } [a] fun _ => s.chanEntry a fun i =>
    let h := s.myCore.chans[i]
    let pid := pidOf s.myCore s.cr
    if h.link then s.postRing i (.eos h.rix i.val pid) true d
    else if s.relOpen s.cc s.cr then s.block 10 0
    else if h.refuses pid then s.putDone d 1
    else if h.full then s.block 1 i.val
    else (s.upMyCore fun k => k.setChan i (h.takeEos pid)).putDone d 0

/-- CH.TAKE (R301): D names an even register. -/
def execChTake (d : Fin 16) (a : Fin 32) (p : Fin 2) (s : State) : Out :=
  s.gate { maj := 41, chans := [a.val] } [] fun _ =>
    let lo : Fin 32 := Fin.ofNat 32 (2 * d.val)
    let hi : Fin 32 := Fin.ofNat 32 (2 * d.val + 1)
    let h := s.myCore.chans[a]
    let give := fun (s : State) (x y : Word) => (s.upMe fun t => (t.put lo x).put hi y).done 2
    if s.acqOpen s.cc s.cr then s.block 10 0
    else if h.link then s.trap cCHAN (0x100 + a.val)
    else match h.ring with
      | [] => if h.closed then give s 0 2 else s.block 2 a.val
      | e :: t =>
        let s1 := if p.val = 1 then s.upMyCore fun k => k.setChan a { h with ring := t } else s
        match e.eos, e.pend with
        | some pid, _ => give s1 0 (word (1 + pid * 256))
        | none, some _ => s.block 2 a.val
        | none, none => give s1 (word (s.myCore.pool.nat (h.base + 8 * e.pos) 8)) 0

/-- The status word of a channel entry (R295). -/
def Chan.stat (h : Chan) : Nat :=
  (if h.closed then 2 ^ 63 else 0) + (if h.link then 2 ^ 62 else 0) +
    (match h.ring with
     | e :: _ => if e.eos.isSome then 2 ^ 61 else 0
     | [] => 0) +
    (if h.drop then 2 ^ 60 else 0) + h.memb % 16 * 2 ^ 56 + h.rix % 32 * 2 ^ 51 + h.capl % 16 * 2 ^ 47 +
    h.neos % 128 * 2 ^ 32 + h.reg.length % 128 * 2 ^ 16 + h.ring.length % 8192

/-- CH.STAT (R301). -/
def execChStat (d a : Fin 32) (s : State) : Out :=
  s.gate { maj := 41 } [a] fun _ => s.chanEntry a fun i => s.putDone d (word (s.myCore.chans[i].stat))

/-! ## Link pushes land (R296, R297) -/

/-- An earlier claim on the same home ring has not landed. -/
def State.pushBehind (s : State) (m : Fin 64) (r : Nat) (id : Nat) : Bool :=
  (List.finRange 64).any fun p => (s.core p).posts.any fun x => decide (x.id < id) &&
    (match x.target, x.kind.ring with
     | .member j _, some (q, _) => q == r && s.member p j == some m
     | _, _ => false)

/-- A landing at home ring j of core m: it returns the entry it claimed, and joins the ring or is discarded with DROP (R296, R297). -/
def Core.landRing (k : Core) (j : Fin 32) (e : PostKind) (claim : Bool) : Core :=
  let h := k.chans[j]
  let back := if claim then { h with claims := h.claims - 1 } else h
  match e with
  | .push _ _ pid v _ =>
    if h.refuses pid ∨ back.full then k.setChan j { back with drop := true }
    else { k.setChan j (back.enqueue none none) with pool := k.pool.write (h.base + 8 * h.tail) (leBytes 8 v.toNat) }
  | .eos _ _ pid =>
    if h.refuses pid ∨ back.full then k.setChan j { back with drop := true } else k.setChan j (back.takeEos pid)
  | .reg _ _ pid =>
    k.setChan j (if h.closed || h.eosm.contains pid then { h with drop := true } else { h with reg := insertNat pid h.reg })
  | _ => k

/-- LINK_PUSH_LAND (R296): post i of core c lands at its home ring once its value is at hand, in claim order; where the member
has no such ring, DROP is set in the link entry (R300). -/
def State.linkLand (s : State) (c : Fin 64) (i : Nat) : State :=
  match (s.core c).posts[i]? with
  | none => s
  | some p =>
    match p.target, p.kind.ring with
    | .member m _, some (r, l) =>
      let waits : Bool := match p.kind with
        | .push _ _ _ _ pend => pend.isSome
        | _ => false
      match s.member c m with
      | none => s
      | some d =>
        if waits || s.pushBehind d r p.id then s
        else
          let s1 := s.upCore c fun k => { k with posts := k.posts.filter (·.id ≠ p.id) }
          let j : Fin 32 := Fin.ofNat 32 r
          if (s.core d).chcnt ≤ r ∨ (s.core d).chans[j].link then
            s1.upCore c fun k => k.setChan (Fin.ofNat 32 l) { k.chans[Fin.ofNat 32 l] with drop := true }
          else s1.upCore d fun k => k.landRing j p.kind p.claim
    | _, _ => s

/-- LINK_PUSH_LAND (R296). -/
def execLinkPushLand (c : Fin 64) (im : Nat) (s : State) : Out := .next (s.linkLand c im)

end Sys2Proof.Machine
end

