-- ==== Sys2Proof/Machine/Copy.lean ====
section
/-! DEFINITION. The copy engine and the tile-slot instructions: descriptors, the checks at issue, the sides of a copy and its
units, byte counts, completion, remote copies (R257 to R279). -/
namespace Sys2Proof.Machine

/-! ## Forms and descriptors (R263) -/

def isFillOp : Instr → Bool
  | .cpFill _ _ _ _ => true
  | _ => false

def isGath : Instr → Bool
  | .cpGath _ _ _ _ => true
  | _ => false

def isScat : Instr → Bool
  | .cpScat _ _ _ => true
  | _ => false

def isRc : Instr → Bool
  | .cpCopyRc _ _ _ => true
  | _ => false

/-- The descriptor that 64 bytes hold. -/
def descOf (b : List Byte) : CDesc :=
  { src := field b 0 8, dst := field b 8 8, six := field b 16 8, dix := field b 24 8, rows := field b 32 4, len := field b 36 4,
    sstr := sint 32 (field b 40 4), dstr := sint 32 (field b 44 4), bar := field b 48 4, tag := field b 52 2, mode := field b 54 1,
    sfmt := bits (field b 55 1) 0 4, dfmt := bits (field b 55 1) 4 4, seed := field b 56 4, ctr := field b 60 4 }

def CDesc.rm (d : CDesc) : Nat := bits d.mode 0 3
def CDesc.sat (d : CDesc) : Bool := bits d.mode 3 1 == 1

/-- Elements per row that an MX image holds at most (R264). -/
def mxCap (f : Nat) : Nat := if f = 8 then 512 else if f = 7 then 192 else 128

/-- Destination bytes of n elements of a format (R267). -/
def countBytes (f n : Nat) : Nat := if isMx f then n / 32 * (4 * mxW f + 1) else n * (fmtBits f / 8)

/-- Bytes that a row of n elements spans in an untyped place (R264). -/
def rowBytes (f n : Nat) : Nat := if isMx f then imageSO f + n / 32 else n * (fmtBits f / 8)

/-! ## Sides (R264) -/

/-- One side of a copy: its format, whether it is a typed page addressed by index, its row offsets. -/
structure Side where
  fmt   : Nat
  typed : Bool
  base  : Nat
  ix    : Nat
  str   : Int
  /-- The index table of a gather's source or a scatter's destination. -/
  rows  : Option (List Int)

/-- The offset of row r: in elements on a typed page, in bytes elsewhere. -/
def Side.off (x : Side) (r : Nat) : Int :=
  match x.rows with
  | some l => l.getD r 0 * x.str
  | none => r * x.str

/-- The element index of element e of row r of a typed side. -/
def Side.index (x : Side) (r e : Nat) : Nat := ofInt 64 (x.ix + x.off r + e)

def Side.row (x : Side) (r : Nat) : Nat := addrAdd x.base (x.off r)

/-- Where an element lies: address and number of the bytes that hold it, its first bit there, and the address of its scale. -/
def Side.elem (x : Side) (r e : Nat) : Nat × Nat × Nat × Option Nat :=
  let w := mxW x.fmt
  let b := fmtBits x.fmt / 8
  if isMx x.fmt then
    if x.typed then
      let i := x.index r e
      let gr := x.base + 4096 * (i / (32 * mxBlocks x.fmt))
      let j := i % (32 * mxBlocks x.fmt)
      ((gr + mxStart x.fmt + w * j / 8) % 2 ^ 64, (w * j % 8 + w + 7) / 8, w * j % 8, some ((gr + j / 32) % 2 ^ 64))
    else
      ((x.row r + w * e / 8) % 2 ^ 64, (w * e % 8 + w + 7) / 8, w * e % 8, some ((x.row r + imageSO x.fmt + e / 32) % 2 ^ 64))
  else if x.typed then ((x.base + x.index r e * b) % 2 ^ 64, b, 0, none)
  else ((x.row r + e * b) % 2 ^ 64, b, 0, none)

/-- The bytes of an MX block of 32 elements that starts at element e, and its scale's address. -/
def Side.block (x : Side) (r e : Nat) : Nat × Nat × Nat :=
  let p := x.elem r e
  (p.1, 4 * mxW x.fmt, p.2.2.2.getD 0)

/-- Row r of a typed side breaks the page's geometry (R264, R272). -/
def Side.crooked (x : Side) (r len : Nat) : Bool :=
  x.typed && (x.base % 4096 != 0 || (isMx x.fmt && (x.index r 0 % 32 != 0 || len % 32 != 0)))

/-- The element format of a device page, 0 when it is untyped or cannot be walked. -/
def State.pageFmt (s : State) (c : Fin 64) (asid va : Nat) : Nat :=
  if inWindow va then 0
  else match s.engLeaf c 3 asid va with
    | .ok e => leafFmt e
    | .error _ => 0

/-- A device page that cannot be walked. -/
def State.unknownPage (s : State) (c : Fin 64) (asid va : Nat) : Bool :=
  !(inWindow va) && (match s.engLeaf c 3 asid va with
    | .ok _ => false
    | .error _ => true)

/-- The side at an address with a descriptor format; `none` where the page has another format (R264). -/
def State.sideAt (s : State) (c : Fin 64) (asid va fmt ix : Nat) (str : Int) (rows : Option (List Int)) : Option Side :=
  let p := s.pageFmt c asid va
  if p = 0 then some { fmt := fmt, typed := false, base := va, ix := 0, str := str, rows := rows }
  else if fmt = 0 ∨ fmt = p then some { fmt := p, typed := true, base := va, ix := ix, str := str, rows := rows }
  else none

/-- The base of member m's slot rectangle as a peer-window address. -/
def peerWin (m o : Nat) : Nat := 0x00F0000000000000 + m * 2 ^ 24 + o

/-- The slot that a .ts form fills: its definition on the member's core. -/
def State.slotDef (s : State) (c : Fin 64) (m i : Nat) : Word :=
  match s.member c m with
  | some d => ((s.core d).slots[Fin.ofNat 64 i]).defw
  | none => 0

/-- The destination side of an entry. DESIGN CHOICE: the far side of a cp.copy.rc is untyped, and its DIX is neither used nor refused
(R273; log 148). -/
def State.dstSide (s : State) (c : Fin 64) (e : CEnt) : Option Side :=
  match e.slot with
  | some (m, i) =>
    let d := s.slotDef c m i
    some { fmt := slotFmt d, typed := false, base := peerWin m (slotBase d), ix := 0, str := 64 * slotRB d, rows := none }
  | none =>
    if isRc e.op then some { fmt := e.d.dfmt, typed := false, base := e.d.dst, ix := 0, str := e.d.dstr, rows := none }
    else s.sideAt c e.asid e.d.dst e.d.dfmt e.d.dix e.d.dstr (if isScat e.op then some e.idx else none)

/-- The source side of an entry; a fill's is FP32 or raw bytes, as its destination. -/
def State.srcSide (s : State) (c : Fin 64) (e : CEnt) (df : Nat) : Option Side :=
  if isFillOp e.op then
    some { fmt := if df = 0 then 0 else 1, typed := false, base := 0, ix := 0, str := 0, rows := none }
  else s.sideAt c e.asid e.d.src e.d.sfmt e.d.six e.d.sstr (if isGath e.op then some e.idx else none)

/-! ## Accesses of a unit (R268) -/

/-- The pieces of n bytes at `va` that lie in one 64-byte line each. -/
def linePieces : Nat → Nat → Nat → List (Nat × Nat)
  | 0, _, _ => []
  | f + 1, va, n =>
    if n = 0 then []
    else
      let k := min n (64 - va % 64)
      (va, k) :: linePieces f ((va + k) % 2 ^ 64) (n - k)

/-- The site of one piece for the copy engine: window rules, or translation; a typed page is met by a typed path alone (R166), and has the
side's format, where one is given. -/
def State.ioSite (s : State) (c : Fin 64) (e : CEnt) (a : Acc) (typed : Bool) (page : Option Nat) (va : Nat) : Except Stall (Site × State) :=
  let bad := fun ca d => Except.error (Stall.fault { cause := ca, detail := d, va := va, kind := a.kind })
  match s.window c e.role va a with
  | some (.error d) => bad cPAGE d
  | some (.ok x) => .ok (x, s)
  | none =>
    match s.engAt c 3 e.asid va a typed with
    | .stop w => .error w
    | .ok pa leaf s1 => if page.any (· != leafFmt leaf) then bad cTYPE 0x2B else .ok (.dev pa leaf, s1)

/-- The sites of pieces in order. -/
def State.ioSites (c : Fin 64) (e : CEnt) (a : Acc) (typed : Bool) (page : Nat) :
    List (Nat × Nat) → State → Except Stall (List (Site × Nat × Nat) × State)
  | [], s => .ok ([], s)
  | (va, n) :: t, s =>
    match s.ioSite c e a typed (some page) va with
    | .error w => .error w
    | .ok (x, s1) =>
      match State.ioSites c e a typed page t s1 with
      | .ok (l, s2) => .ok ((x, va, n) :: l, s2)
      | .error w => .error w

def ioPieces (l : List (Nat × Nat)) : List (Nat × Nat) := l.flatMap fun r => linePieces (r.2 / 64 + 2) r.1 r.2

/-- A core's pool or device memory, and the 64-byte line there. -/
def Site.line (c : Fin 64) (x : Site) : Option (Fin 64) × Nat := (x.pool c, x.addr / 64)

def State.linePoison (s : State) (l : Option (Fin 64) × Nat) : Bool :=
  match l.1 with
  | some m => (s.core m).ppoison.contains l.2
  | none => s.poisoned l.2

def State.setLinePoison (s : State) (l : Option (Fin 64) × Nat) (b : Bool) : State :=
  match l.1 with
  | some m => s.upCore m fun k => { k with ppoison := if b then insertNat l.2 k.ppoison else eraseNat l.2 k.ppoison }
  | none => s.setPoison l.2 b

/-- The bytes at sites, as the home slices, base dies and pools hold them. -/
def State.ioGet (s : State) (c : Fin 64) (l : List (Site × Nat × Nat)) : List Byte :=
  l.flatMap fun x => match x.1 with
    | .own o => (s.core c).pool.read o x.2.2
    | .peer m o => (s.core m).pool.read o x.2.2
    | .dev pa _ => s.phys pa x.2.2

/-- The base dies serve the memory-side lines among sites that are read: no home slice keeps them (R113). -/
def State.ioServe (s : State) (l : List (Site × Nat × Nat)) : State :=
  l.foldl (fun s x => match x.1 with
    | .dev pa e => s.msServe pa x.2.2 (leafBd e)
    | _ => s) s

/-- Lines of device memory among sites: each takes an entry of the request table (R114). -/
def ioLines (l : List (Site × Nat × Nat)) : Nat := (l.filter fun x => x.1.isDev).length

/-- A piece of a write meets a live or parked lock (R242, R243). -/
def State.ioLocked (s : State) (c : Fin 64) (x : Site × Nat × Nat) : Bool :=
  match x.1 with
  | .own o => (s.core c).lockHit .L none o x.2.2
  | .peer m o => (s.core m).lockHit .L none o x.2.2
  | .dev pa _ => s.fillLocked c .L x.2.1 pa x.2.2

/-- Writes one piece; the core's own L1 line goes (R112). -/
def State.ioPut (s : State) (c : Fin 64) (x : Site) (bs : List Byte) : State :=
  match x with
  | .own o => if reservedService o then s else s.upCore c fun k => { k with pool := k.pool.write o bs }
  | .peer m o => s.upCore m fun k => { k with pool := k.pool.write o bs }
  | .dev pa e => (s.physWrite pa bs (leafBd e)).upCore c fun k => k.l1drop (pa / 64)

/-- The bytes of one element, or of an MX block and its scale, of the destination. -/
def Side.runs (x : Side) (r e : Nat) : List (Nat × Nat) :=
  if isMx x.fmt then
    let b := x.block r (e / 32 * 32)
    [(b.1, b.2.1), (b.2.2, 1)]
  else
    let p := x.elem r e
    [(p.1, p.2.1)]

/-- The units up to element `upto` of the copy, and those performed ahead, write all 64 bytes of the line at `lv`. -/
def CEnt.covers (e : CEnt) (x : Side) (upto lv : Nat) : Bool :=
  (List.range 64).all fun i => (List.range upto ++ e.ahead).any fun k =>
    (x.runs (k / e.d.len) (k % e.d.len)).any fun r => decide (r.1 ≤ lv + i) && decide (lv + i < r.1 + r.2)

/-- Writes the pieces of a unit, with the poison of their lines (R129, R275): a line written from a poisoned line is poisoned; a
line that the copy has covered whole from clean lines is clean; padding, at the addresses `pads`, takes no bytes of the source. The result:
the state and the lines that took poison. -/
def State.ioPuts (c : Fin 64) (e : CEnt) (sd : Side) (upto : Nat) (pads : List Nat) (poison : Bool) :
    List (Site × Nat × Nat) → List Byte → State → List (Option (Fin 64) × Nat) → State × List (Option (Fin 64) × Nat)
  | [], _, s, bad => (s, bad)
  | (x, va, n) :: t, bs, s, bad =>
    let l := x.line c
    let s1 := s.ioPut c x (bs.take n)
    let (s2, bad) :=
      if poison && !(pads.contains va) then (s1.setLinePoison l true, l :: bad.erase l)
      else if n = 64 then (s1.setLinePoison l false, bad.erase l)
      else if s1.linePoison l && !(bad.contains l) && e.covers sd upto (va / 64 * 64) then (s1.setLinePoison l false, bad)
      else (s1, bad)
    State.ioPuts c e sd upto pads poison t (bs.drop n) s2 bad

/-! ## Values of a unit (R265, R274) -/

/-- The elements of row r from e: `n` of them. -/
def Side.elems (x : Side) (r e n : Nat) : List (Nat × Nat × Nat × Option Nat) := (List.range n).map fun i => x.elem r (e + i)

/-- Byte runs that hold elements and their scales. -/
def elemRuns (l : List (Nat × Nat × Nat × Option Nat)) : List (Nat × Nat) :=
  l.flatMap fun p => (p.1, p.2.1) :: (match p.2.2.2 with
    | some sc => [(sc, 1)]
    | none => [])

/-- Widens elements from their bytes, laid out by `elemRuns`. -/
def elemVals (f : Nat) : List (Nat × Nat × Nat × Option Nat) → List Byte → List Val
  | [], _ => []
  | p :: t, bs =>
    let code := bits (leNat (bs.take p.2.1)) p.2.2.1 (fmtBits f)
    match p.2.2.2 with
    | some _ => widenFmt f code (field bs p.2.1 1) :: elemVals f t (bs.drop (p.2.1 + 1))
    | none => widenFmt f code 0 :: elemVals f t (bs.drop p.2.1)

/-- The mixer value of element e of row r (R265). -/
def CDesc.z (d : CDesc) (r e : Nat) : Nat := mix d.seed ((r * d.len + e) % 2 ^ 32) d.ctr

/-- The destination bytes of converted values: one element, or a block's codes and its scale. -/
def CDesc.encode (d : CDesc) (f r e : Nat) (vs : List Val) : List Byte :=
  if isMx f then
    let sc := mxScale vs
    let codes := vs.zipIdx.map fun v => if sc = 0xFF then 0 else (mxRound f sc v.1 d.rm (d.z r (e + v.2))).1
    let x := codes.zipIdx.foldl (fun (a : Nat) (q : Nat × Nat) => a + q.1 % 2 ^ mxW f * 2 ^ (mxW f * q.2)) 0
    leBytes (4 * mxW f) x ++ leBytes 1 sc
  else vs.flatMap fun v => leBytes (fmtBits f / 8) (roundFmt f v d.rm d.sat (d.z r e))

/-! ## One unit, or a run of raw bytes within a line -/

/-- What the engine does next: elements to perform, source runs, destination runs, and the bytes as a function of those read. -/
structure CUnit where
  n     : Nat
  count : Nat
  reads : List (Nat × Nat)
  dsts  : List (Nat × Nat)
  make  : List Byte → List Byte

/-- The padding of the granule that holds element e of row r of a typed MX side, which every write of the granule writes as zero
(R59; log 50). -/
def Side.pad (x : Side) (r e : Nat) : List (Nat × Nat) :=
  if x.typed && isMx x.fmt then
    [(x.base + 4096 * (x.index r e / (32 * mxBlocks x.fmt)) + mxBlocks x.fmt, mxStart x.fmt - mxBlocks x.fmt)]
  else []

/-- The unit at element e of row r, of at most `cap` elements. Raw bytes go in runs that stay in one line of the destination, so that
no store lies between bytes of an 8-byte unit (R268). -/
def CEnt.unit (x : CEnt) (sd dd : Side) (r e cap : Nat) : CUnit :=
  let d := x.d
  let fill := isFillOp x.op
  if dd.fmt = 0 then
    let dv := (dd.elem r e).1
    let sv := (sd.elem r e).1
    let n := min cap (min (d.len - e) (64 - dv % 64))
    { n := n, count := n, reads := if fill then [] else [(sv, n)], dsts := [(dv, n)],
      make := fun bs => if fill then (List.range n).map fun i => BitVec.ofNat 8 (bits x.gb.toNat (8 * ((e + i) % 8)) 8) else bs }
  else if isMx dd.fmt then
    let b := dd.block r e
    let dsts := [(b.1, b.2.1), (b.2.2, 1)] ++ dd.pad r e
    let zeros : List Byte := (dd.pad r e).flatMap fun p => List.replicate p.2 0
    if fill then
      { n := 32, count := countBytes dd.fmt 32, reads := [], dsts := dsts,
        make := fun _ => d.encode dd.fmt r e (List.replicate 32 (f32.widen (bits x.gb.toNat 0 32) false)) ++ zeros }
    else if sd.fmt = dd.fmt then
      let sb := sd.block r e
      { n := 32, count := countBytes dd.fmt 32, reads := [(sb.1, sb.2.1), (sb.2.2, 1)], dsts := dsts, make := fun bs => bs ++ zeros }
    else
      let es := sd.elems r e 32
      { n := 32, count := countBytes dd.fmt 32, reads := elemRuns es, dsts := dsts,
        make := fun bs => d.encode dd.fmt r e (elemVals sd.fmt es bs) ++ zeros }
  else
    let p := dd.elem r e
    let dsts := [(p.1, p.2.1)]
    if fill then
      { n := 1, count := p.2.1, reads := [], dsts := dsts,
        make := fun _ => d.encode dd.fmt r e [f32.widen (bits x.gb.toNat 0 32) false] }
    else
      let es := sd.elems r e 1
      { n := 1, count := p.2.1, reads := elemRuns es, dsts := dsts,
        make := fun bs => if sd.fmt = dd.fmt then bs else d.encode dd.fmt r e (elemVals sd.fmt es bs) }

/-- A fault of the formats or the geometry at a row (R265, R272): the detail, the address and the kind of access. -/
def rowFault (fill : Bool) (sd dd : Side) (r len : Nat) : Option (Nat × Nat × Nat) :=
  if !fill && ((sd.fmt == 0) != (dd.fmt == 0)) then some (if sd.typed then (0x2B, sd.base, 1) else (0x2B, dd.base, 2))
  else if !fill && (sd.crooked r len || (isMx sd.fmt && len % 32 != 0)) then some (0x2C, sd.base, 1)
  else if dd.crooked r len || (isMx dd.fmt && len % 32 != 0) then some (0x2C, dd.base, 2)
  else none

/-- The route of a remote copy is up: its entry exists, one of its ports links and its association is live (R273, R437). -/
def State.routeLive (s : State) (h : Nat) : Bool :=
  s.routes.any fun r => r.h == h && s.assocs.contains r.assoc &&
    (List.finRange 8).any fun p => bits r.ports p.val 1 == 1 && s.ports[p]

/-- Whether the place of an access can be found, whatever its page's format. -/
def State.probe (s : State) (c : Fin 64) (e : CEnt) (a : Acc) (va : Nat) : Option Stall :=
  match s.ioSite c e a true none va with
  | .error w => some w
  | .ok _ => none

/-- The checks that the engine makes of a unit as it translates, source before destination (R272). -/
def State.unitStop (s : State) (c : Fin 64) (e : CEnt) (sd dd : Side) (r el : Nat) : Option Stall :=
  let bad := fun d va k => some (Stall.fault { cause := cTYPE, detail := d, va := va, kind := k })
  let fill := isFillOp e.op
  match (if fill then none else s.probe c e .read (sd.elem r el).1) with
  | some w => some w
  | none =>
    match (if isRc e.op then none else s.probe c e .write (dd.elem r el).1) with
    | some w => some w
    | none =>
      match rowFault fill sd dd r e.d.len with
      | some (d, va, k) => bad d va k
      | none =>
        -- SIX and DIX are reserved on a page that translation shows untyped (R263; log 50)
        if !fill && !sd.typed && e.d.six != 0 then bad 0x2A e.d.src 1
        else if e.slot.isNone && !(isRc e.op) && !dd.typed && e.d.dix != 0 then bad 0x2A e.d.dst 2
        else none

/-- The bytes of source runs, those of units that an earlier piece has begun to use as it read them (R143). -/
def CEnt.fromKept (e : CEnt) (runs : List (Nat × Nat)) (bs : List Byte) : List Byte :=
  ((runs.flatMap fun x => (List.range x.2).map (x.1 + ·)).zip bs).map fun x =>
    match e.kept.find? (·.1 == x.1 / 8 * 8) with
    | some u => u.2.getD (x.1 % 8) x.2
    | none => x.2

/-- Performs the unit at element p of an entry, of at most `cap` elements: the state, the elements and the count. -/
def State.copyUnitAt (s : State) (c : Fin 64) (e : CEnt) (sd dd : Side) (p cap : Nat) :
    Except Stall (State × CEnt × Nat × Nat) :=
  let r := p / e.d.len
  match s.unitStop c e sd dd r (p % e.d.len) with
  | some w => .error w
  | none =>
    let u := e.unit sd dd r (p % e.d.len) cap
    match State.ioSites c e .read true (if sd.typed then sd.fmt else 0) (ioPieces u.reads) s with
    | .error w => .error w
    | .ok (src, s1) =>
      let bytes := u.make (e.fromKept u.reads (s1.ioGet c src))
      if isRc e.op then
        let far := (u.dsts.headD (0, 0)).1
        let bad := fun ca => Except.error (Stall.fault { cause := ca, detail := 0x48, va := far, kind := 2 })
        if !(s1.routeLive (bits e.gb.toNat 0 16)) then bad cDIEX
        else if Config.farFault (bits e.gb.toNat 0 16) far then bad cPAGE
        else if !(s1.roomFor c .copy (ioLines src)) then .error (.room .copy)
        else .ok ((s1.ioServe src).upCore c fun k => k.unwait .copy, e, u.n, u.count)
      else match State.ioSites c e .write true (if dd.typed then dd.fmt else 0) (ioPieces u.dsts) s1 with
        | .error w => .error w
        | .ok (dst, s2) =>
          if dst.any (s2.ioLocked c) then .error .wait
          else if !(s2.roomFor c .copy (max (ioLines src) (ioLines dst))) then .error (.room .copy)
          else
            let poison := src.any fun x => s2.linePoison (x.1.line c)
            let pads := (ioPieces (dd.pad r (p % e.d.len))).map (·.1)
            let (s3, bad) := State.ioPuts c e dd (p + u.n) pads poison dst bytes (s2.ioServe src) e.bad
            .ok (s3.upCore c fun k => k.unwait .copy, { e with bad := bad }, u.n, u.count)

/-- Such a unit; a run of raw bytes whose source goes on in another page stops there, when that page stops it (R181). -/
def State.copyUnit (s : State) (c : Fin 64) (e : CEnt) (sd dd : Side) (p cap : Nat) : Except Stall (State × CEnt × Nat × Nat) :=
  match s.copyUnitAt c e sd dd p cap with
  | .ok x => .ok x
  | .error w =>
    let left := 4096 - (sd.elem (p / e.d.len) (p % e.d.len)).1 % 4096
    if dd.fmt = 0 ∧ !(isFillOp e.op) ∧ left < cap then
      match s.copyUnitAt c e sd dd p left with
      | .ok x => .ok x
      | .error _ => .error w
    else .error w

/-- The elements of a unit, as the destination divides them (R266). -/
def Side.step (x : Side) : Nat := if isMx x.fmt then 32 else 1

/-- The count of n elements of the destination. -/
def Side.count (x : Side) (n : Nat) : Nat := countBytes x.fmt n

/-- The units of 8 bytes that runs of bytes touch, by number. -/
def units8 (l : List (Nat × Nat)) : List Nat := l.flatMap fun x => (List.range ((x.1 % 8 + x.2 + 7) / 8)).map fun i => x.1 / 8 + i

/-- The unit that is written at once: 8 bytes (R144, R268), on a sink page the line, which lands by one write (R363). -/
def State.wholeUnit (s : State) (c : Fin 64) (e : CEnt) (u : Nat) : Nat :=
  if isRc e.op || inWindow (8 * u) then u
  else match s.engLeaf c 3 e.asid (8 * u) with
    | .ok l => if leafSk l then u / 8 * 8 else u
    | .error _ => u

/-- The units that are written at once and hold bytes of element k of the destination. -/
def State.unitsOf (s : State) (c : Fin 64) (e : CEnt) (dd : Side) (k : Nat) : List Nat :=
  (units8 (dd.runs (k / e.d.len) (k % e.d.len))).map (s.wholeUnit c e)

/-- The elements from `lo` up to q share no unit of the destination with those from q on: the engine may stand there (R144, R268). -/
def State.cut (s : State) (c : Fin 64) (e : CEnt) (dd : Side) (lo q : Nat) : Bool :=
  let total := e.d.rows * e.d.len
  decide (total ≤ q) ||
    (let left := (List.range (q - lo)).flatMap fun i => s.unitsOf c e dd (lo + i)
     (List.range (total - q)).all fun i => (s.unitsOf c e dd (q + i)).all fun u => !(left.contains u))

/-- The last element up to `top` where the engine may stand, past p. -/
def State.lastCut (s : State) (c : Fin 64) (e : CEnt) (dd : Side) (p top : Nat) : Option Nat :=
  ((List.range (top - p)).map fun i => top - i).find? fun q => s.cut c e dd p q

/-- Where the piece that starts at element p ends: at most 4,096 bytes of count (R267), with whole units where its elements lie so. -/
def State.pieceEnd (s : State) (c : Fin 64) (e : CEnt) (dd : Side) (p : Nat) : Nat :=
  let top := min (e.d.rows * e.d.len) (p + 4096 / dd.count dd.step * dd.step)
  (s.lastCut c e dd p top).getD top

/-- The source bytes of the step of elements at p. -/
def CEnt.srcRuns (e : CEnt) (sd dd : Side) (p : Nat) : List (Nat × Nat) := (e.unit sd dd (p / e.d.len) (p % e.d.len) 1).reads

/-- The source units of 8 bytes that hold bytes on both sides of element p, as they are now: a piece that ends there has read them whole
(R143, R268). -/
def State.keptAt (s : State) (c : Fin 64) (e : CEnt) (sd dd : Side) (p : Nat) : List (Nat × List Byte) :=
  if p = 0 ∨ e.d.rows * e.d.len ≤ p then []
  else
    let after := units8 (e.srcRuns sd dd p)
    ((units8 (e.srcRuns sd dd (p - dd.step))).filter after.contains).filterMap fun u =>
      if e.kept.any (·.1 == 8 * u) then none
      else match State.ioSites c e .read true (if sd.typed then sd.fmt else 0) [(8 * u, 8)] s with
        | .ok (src, _) => some (8 * u, s.ioGet c src)
        | .error _ => none

/-- The element writes of one event land as one write in the lines of open sink rows that they cover (R363). -/
def State.landCopy (s : State) (c : Fin 64) (e : CEnt) (dd : Side) (lo hi : Nat) : State :=
  if isRc e.op || dd.fmt == 0 then s
  else
    let new := ((List.range (hi - lo)).map (lo + ·)).filter fun k => !(e.ahead.contains k)
    let ps := (ioPieces (new.flatMap fun k => dd.runs (k / e.d.len) (k % e.d.len))).filterMap fun x =>
      if inWindow x.1 then none
      else match s.engLeaf c 3 e.asid x.1 with
        | .ok l => if leafSk l then some (leafAddr l x.1, x.2) else none
        | .error _ => none
    ((ps.map fun x => x.1 / 64).eraseDups).foldl (fun (s : State) l =>
      s.landWrite (64 * l) [l] fun a => ps.any fun x => decide (x.1 ≤ a) && decide (a < x.1 + x.2)) s

/-- Performs the units from element p up to `stop` in order, but those performed ahead, which are counted in their place (R266): the
element reached, the count, and what stopped it. -/
def State.copyRun (c : Fin 64) (sd dd : Side) (stop : Nat) : Nat → Nat → CEnt → Nat → State → State × CEnt × Nat × Nat × Option Stall
  | 0, p, e, n, s => (s, e, p, n, none)
  | f + 1, p, e, n, s =>
    if stop ≤ p then (s, e, p, n, none)
    else if e.ahead.contains p then
      State.copyRun c sd dd stop f (p + dd.step) { e with ahead := e.ahead.erase p } (n + dd.count dd.step) s
    else
      let next := e.ahead.foldl (fun m q => if p < q then min m q else m) stop
      match s.copyUnit c e sd dd p (next - p) with
      | .error w => (s, e, p, n, some w)
      | .ok (s1, e1, k, m) => State.copyRun c sd dd stop f (p + k) e1 (n + m) s1

/-- The first units of the destination from element p on end before this element. -/
def State.groupEnd (s : State) (c : Fin 64) (e : CEnt) (dd : Side) (p : Nat) : Nat :=
  (((List.range (e.d.rows * e.d.len - p)).map fun i => p + (i + 1)).find? fun q => s.cut c e dd p q).getD (e.d.rows * e.d.len)

/-- The elements from `lo` that are not performed write into no unit that those from p up to q write (R144, R266). -/
def State.apart (s : State) (c : Fin 64) (e : CEnt) (dd : Side) (lo p q : Nat) : Bool :=
  (List.range (p - lo)).all fun j => e.ahead.contains (lo + j) || (s.unitsOf c e dd (lo + j)).all fun u =>
    (List.range (q - p)).all fun i => !((s.unitsOf c e dd (p + i)).contains u)

/-- Posts a byte count to the entry's barrier (R267). -/
def State.postBytes (s : State) (c : Fin 64) (e : CEnt) (n : Nat) : State :=
  if n = 0 ∨ tgKind e.d.bar = 0 then s
  else if tgKind e.d.bar = 1 then s.upCore c fun k => k.slotEvent (Fin.ofNat 32 (tgIx e.d.bar)) (.bytes n)
  else if tgKind e.d.bar = 3 ∧ isRc e.op then s
  else s.addPost c e.role ((s.core c).aim e.d.bar) (.bytes n)

/-! ## Checks at issue (R272) -/

/-- The first byte of n at `va` that a window refuses: its offset and the PAGE detail. Window limits are multiples of 64. -/
def State.windowBad (s : State) (a : Acc) (va n : Nat) : Option (Nat × Nat) :=
  let pts := if n = 0 then [] else 0 :: ((List.range ((va % 64 + n - 1) / 64)).map fun i => 64 * (i + 1) - va % 64)
  pts.findSome? fun o =>
    match s.window s.cc s.cr ((va + o) % 2 ^ 64) a with
    | some (.error d) => some (o, d)
    | _ => none

/-- The first element of a row of n at `va` that a window refuses: element, PAGE detail, address. -/
def State.rowBad (s : State) (a : Acc) (f va n : Nat) : Option (Nat × Nat × Nat) :=
  let at_ := fun (o : Nat) => (va + o) % 2 ^ 64
  if isMx f then
    let codes := (s.windowBad a va (mxW f * n / 8)).map fun x => (8 * x.1 / mxW f, x.2, at_ x.1)
    let scales := (s.windowBad a (at_ (imageSO f)) (n / 32)).map fun x => (32 * x.1, x.2, at_ (imageSO f + x.1))
    match codes, scales with
    | some x, some y => if y.1 < x.1 then some y else some x
    | some x, none => some x
    | none, y => y
  else (s.windowBad a va (n * (fmtBits f / 8))).map fun x => (x.1 / (fmtBits f / 8), x.2, at_ x.1)

/-- Check 6 over both sides, by units of the destination, source before destination in each: the fault. -/
def State.windowCheck (s : State) (sd dd : Option Side) (rows len : Nat) : Option XFault :=
  let unit := match dd with
    | some y => if isMx y.fmt then 32 else 1
    | none => 1
  let one := fun (x : Option Side) (a : Acc) (r : Nat) => match x with
    | some y => if y.typed then none else (s.rowBad a y.fmt (y.row r) len).map fun (b : Nat × Nat × Nat) => (b.1 / unit, b.2)
    | none => none
  (List.range rows).findSome? fun r =>
    let mk := fun (x : Nat × Nat × Nat) (k : Nat) => some ({ cause := cPAGE, detail := x.2.1, va := x.2.2, kind := k } : XFault)
    match one sd .read r, one dd .write r with
    | some x, some y => if y.1 < x.1 then mk y 2 else mk x 1
    | some x, none => mk x 1
    | none, some y => mk y 2
    | none, none => none

/-- An untyped MX side too long for its image, or an MX side with a part not a multiple of 32 (check 3). -/
def mxBad (f len ix : Nat) (untyped : Bool) : Bool :=
  isMx f && (len % 32 != 0 || ix % 32 != 0 || (untyped && decide (mxCap f < len)))

/-- The reserved fields and ranges of check 2. -/
def CDesc.reserved (d : CDesc) (ts fill swin dwin : Bool) : Bool :=
  bits d.mode 4 4 != 0 || decide (6 ≤ d.rm) || decide (11 ≤ d.sfmt) || decide (11 ≤ d.dfmt) ||
  (tgKind d.bar == 0 && d.bar != 0) || (tgKind d.bar != 3 && tgHnd d.bar != 0) ||
  d.rows == 0 || decide (65536 ≤ d.rows) || d.len == 0 || decide (2 ^ 24 ≤ d.len) ||
  (ts && (bits d.dst 6 2 != 0 || d.dst / 4096 != 0)) || (fill && d.src != 0) ||
  ((fill || swin) && d.six != 0) || ((ts || dwin) && d.dix != 0)

/-- The checks 2 to 7 of R272 for an entry about to be queued: the trap, if one fails. -/
def State.copyCheck (s : State) (e : CEnt) : Option XFault :=
  let d := e.d
  let fill := isFillOp e.op
  let rc := isRc e.op
  let mk := fun c x => some ({ cause := c, detail := x, va := 0, kind := 0 } : XFault)
  let sp := if fill then 0 else s.pageFmt s.cc e.asid d.src
  let dp := if e.slot.isSome ∨ rc then 0 else s.pageFmt s.cc e.asid d.dst
  let sl := match e.slot with
    | some (m, i) => s.slotDef s.cc m i
    | none => 0
  let df := if e.slot.isSome ∧ d.dfmt = 0 then slotFmt sl else d.dfmt
  if d.reserved e.slot.isSome fill (inWindow d.src) (inWindow d.dst && !rc) then mk cTYPE 0x2A
  else if (!fill && mxBad d.sfmt d.len d.six (sp == 0)) || mxBad df d.len d.dix (dp == 0) then mk cTYPE 0x2C
  else if (match e.slot with
      | some (m, _) => decide (s.myCore.teamsz ≤ m)
      | none => false) || (tgKind d.bar == 2 && decide (s.myCore.teamsz ≤ tgMemb d.bar)) then mk cPAGE 0x45
  else if e.slot.isSome && (slotRows sl == 0 || decide (slotRows sl < d.rows) ||
      decide (64 * slotRB sl < rowBytes (slotFmt sl) d.len) || (d.dfmt != 0 && d.dfmt != slotFmt sl)) then mk cTYPE 0x2D
  else
    let sd := if fill || isGath e.op then none else s.sideAt s.cc e.asid d.src d.sfmt d.six d.sstr none
    let dd := if e.slot.isSome || rc || isScat e.op then none else s.sideAt s.cc e.asid d.dst d.dfmt d.dix d.dstr none
    let table := if isGath e.op || isScat e.op then s.windowBad .read e.gb.toNat (4 * d.rows) else none
    match table with
    | some (o, x) => some { cause := cPAGE, detail := x, va := (e.gb.toNat + o) % 2 ^ 64, kind := 1 }
    | none => match s.windowCheck sd dd d.rows d.len with
    | some x => some x
    | none =>
      if (isGath e.op || isScat e.op) && e.gb.toNat % 4 != 0 then
        some { cause := cALIGN, detail := 4, va := e.gb.toNat, kind := 1 }
      else none

/-- The count n of R271, `none` where the destination page's format cannot be known yet. -/
def State.copyCount (s : State) (e : CEnt) : Option Nat :=
  match e.slot with
  | some (m, i) => some (e.d.rows * countBytes (slotFmt (s.slotDef s.cc m i)) e.d.len)
  | none =>
    if isRc e.op ∨ e.d.dfmt ≠ 0 then some (e.d.rows * countBytes e.d.dfmt e.d.len)
    else if s.unknownPage s.cc e.asid e.d.dst then none
    else some (e.d.rows * countBytes (s.pageFmt s.cc e.asid e.d.dst) e.d.len)

/-! ## Issue (R271) -/

/-- The checks every instruction of MAJ 36 to 38 makes at issue (R275). -/
def State.copyGate (s : State) (maj : Nat) (sub : Bool) (reads : List (Fin 32)) (go : PUnit → Out) : Out :=
  s.gate { maj := maj, sub := sub } reads fun _ =>
    if s.myCore.recPending s.cr 0 then s.trap cENG 0x04 else go ()

/-- Issues a copy: the descriptor, the checks, the count in gD, and its place in the queue. -/
def State.copyIssue (s : State) (maj : Nat) (op : Instr) (a : Fin 32) (gb : Word) (reads : List (Fin 32)) (d : Fin 32) : Out :=
  s.copyGate maj (isRc op) (a :: reads) fun _ =>
    let va := (s.me.get a).toNat
    if s.asyncOpen then s.block 10 0
    else if !(s.me.stores.isEmpty) then s.hold
    else match s.site va 64 .watch 64 none (fun _ => false) with
    | .ok x s1 =>
      -- the descriptor never comes from the L1, and no older copy of its line stays there (R110, R132, R268); the thread's earlier reads of
      -- it are back first
      let again := s.myCore.reqs.any fun q => q.role == s.cr && q.touches (x.pool s.cc) x.ms x.addr 64
      if again then s.hold
      else if s1.sitePoison x 64 then s1.trapX { cause := cPOISON, detail := 0, va := va, kind := 1 }
      else if x.isDev ∧ !(s1.room 1) then s1.waitRoom
      else
        let (id, s2) := (match x with
          | .dev pa e => (s1.msServe pa 64 (leafBd e)).upMyCore fun k => k.l1drop (pa / 64)
          | _ => s1).fresh
        let e : CEnt := { id := id, role := s.cr, op := op, d := descOf (s1.siteGet x 64), gb := gb, asid := s.asid, started := false, idx := [],
                          done := 0, ahead := [], bad := [] }
        match s1.copyCheck e with
        | some f => s1.trapX f
        | none =>
          if 32 ≤ s.myCore.cq.length then s1.block 9 2
          else
            let (n, s3) := match s1.copyCount e with
              | some n => (word n, s2)
              | none => s2.freeVal
            let s4 := s3.upMyCore fun k =>
              { (if x.isDev then k.unwait (.thr s.cr) else k) with cq := k.cq ++ [e] }
            s4.putDone d n
    | r => s.siteStop r

/-- CP.COPY (R271). -/
def execCpCopy (a d : Fin 32) (s : State) : Out := s.copyIssue 36 (.cpCopy a d) a 0 [] d

/-- CP.COPY.TS (R271). -/
def execCpCopyTs (a d : Fin 32) (s : State) : Out := s.copyIssue 36 (.cpCopyTs a d) a 0 [] d

/-- CP.COPY.RC (R273). -/
def execCpCopyRc (a b d : Fin 32) (s : State) : Out := s.copyIssue 36 (.cpCopyRc a b d) a (s.me.get b) [b] d

/-- CP.GATH (R271). -/
def execCpGath (a b d : Fin 32) (t : Fin 2) (s : State) : Out := s.copyIssue 37 (.cpGath a b d t) a (s.me.get b) [b] d

/-- CP.SCAT (R271). -/
def execCpScat (a b d : Fin 32) (s : State) : Out := s.copyIssue 37 (.cpScat a b d) a (s.me.get b) [b] d

/-- CP.FILL (R274). -/
def execCpFill (a b d : Fin 32) (t : Fin 2) (s : State) : Out := s.copyIssue 37 (.cpFill a b d t) a (s.me.get b) [b] d

/-! ## Start, pieces, completion (R260, R267, R269) -/

/-- The core and slot that an entry of core c fills. -/
def State.fillsSlot (s : State) (c : Fin 64) (e : CEnt) : Option (Fin 64 × Nat) :=
  match e.slot with
  | some (m, i) => (s.member c m).map fun d => (d, i)
  | none => none

/-- A producer must wait: its slot is full, or an earlier producer into it has not completed (R260). -/
def State.producerWaits (s : State) (c : Fin 64) (e : CEnt) : Bool :=
  match s.fillsSlot c e with
  | none => false
  | some (d, i) =>
    ((s.core d).slots[Fin.ofNat 64 i]).full || (List.finRange 64).any fun p => (s.core p).producers.any fun x =>
      decide (x.id < e.id) && s.fillsSlot p x == some (d, i)

def Core.upCopy (k : Core) (id : Nat) (f : CEnt → CEnt) : Core := { k with cq := k.cq.map fun e => if e.id = id then f e else e }

/-- A copy leaves the queue; if it waited for an entry of the request table, another copy asks for itself. -/
def Core.dropCopy (k : Core) (id : Nat) : Core := { k.leave .copy with cq := k.cq.filter (·.id ≠ id) }

/-- The entry leaves a record if there is a place; else it keeps its place in the queue, performs nothing further, and waits for one (R181,
R275). -/
def State.copyFault (s : State) (c : Fin 64) (e : CEnt) (x : XFault) : State :=
  match s.tryRec c { role := e.role, op := .copy { e with started := false, stop := none }, fault := x, cancel := false } with
  | some s1 => s1.upCore c fun k => k.dropCopy e.id
  | none => s.upCore c fun k => (k.leave .copy).upCopy e.id fun _ => { e with stop := some x }

/-- What a stall does to an entry: a fault leaves its record; anything else is waited for. -/
def State.copyStop (s : State) (c : Fin 64) (e : CEnt) (w : Stall) : State :=
  match w with
  | .fault x => s.copyFault c e x
  | w => s.ask c .copy w

/-- Reads the index table of a gather or scatter: a typed page gives TYPE with its FMT (R166, R272). -/
def State.copyTable (s : State) (c : Fin 64) (e : CEnt) : State :=
  match State.ioSites c e .read false 0 (ioPieces [(e.gb.toNat, 4 * e.d.rows)]) s with
  | .error w => s.copyStop c e w
  | .ok (src, s1) =>
    if !(s1.roomFor c .copy (ioLines src)) then s.ask c .copy (.room .copy)
    else
      let bs := s1.ioGet c src
      let l := (List.range e.d.rows).map fun i => sint 32 (field bs (4 * i) 4)
      (s1.ioServe src).upCore c fun k => (k.unwait .copy).upCopy e.id fun x => { x with started := true, idx := l }

/-- A run of bytes where it lies: of a core's pool, of virtual device memory, or of physical memory. -/
inductive Run where
  | pool (m : Fin 64) (o n : Nat)
  | virt (va n : Nat)
  | phys (pa n : Nat)
  /-- Places that are not known. -/
  | any

/-- Two runs share a byte. -/
def Run.meets : Run → Run → Bool
  | .any, _ => true
  | _, .any => true
  | .pool m o n, .pool i p k => m == i && overlap o n p k
  | .virt a n, .virt b k => overlap a n b k
  | .phys a n, .phys b k => overlap a n b k
  | _, _ => false

/-- n bytes at `va` as runs: in device memory by virtual address, and by the places that its pages map now. -/
def State.runsOf (s : State) (c : Fin 64) (asid va n : Nat) : List Run :=
  if 0x00FF000000000000 ≤ va ∧ va < 0x00FF000000800000 then [.pool c (va - 0x00FF000000000000) n]
  else if inWindow va then (match s.member c ((va - 0x00F0000000000000) / 2 ^ 24) with
    | some m => [.pool m (va % 2 ^ 24) n]
    | none => [])
  else .virt va n :: (pagePieces (n / 4096 + 2) va n).filterMap fun p => match s.engLeaf c 3 asid p.1 with
    | .ok e => some (.phys (leafAddr e p.1) p.2)
    | .error _ => none

/-- The runs that a copy writes, row by row; those of a scatter whose index table a fault has kept it from reading are not known. -/
def State.dstRuns (s : State) (c : Fin 64) (e : CEnt) : List Run :=
  if isScat e.op && e.idx.isEmpty then [.any]
  else match s.dstSide c e with
  | none => []
  | some x => (List.range e.d.rows).flatMap fun r =>
      let first := (x.elem r 0).1
      if x.typed && isMx x.fmt then
        let last := (x.elem r (e.d.len - 1)).1
        s.runsOf c e.asid (first / 4096 * 4096) (last / 4096 * 4096 + 4096 - first / 4096 * 4096)
      else if x.typed then s.runsOf c e.asid first (e.d.len * (fmtBits x.fmt / 8))
      else s.runsOf c e.asid (x.row r) (rowBytes x.fmt e.d.len)

/-- Copy x of the thread writes a byte that its later copy e writes (R268). -/
def State.copyOver (s : State) (c : Fin 64) (x e : CEnt) : Bool :=
  x.role == e.role && decide (x.id < e.id) && !(isRc x.op) && !(isRc e.op) &&
    (s.dstRuns c x).any fun p => (s.dstRuns c e).any p.meets

/-- An earlier copy of the thread that has not completed writes a place that entry e writes (R268). -/
def State.copyBehind (s : State) (c : Fin 64) (e : CEnt) : Bool := (s.core c).producers.any fun x => s.copyOver c x e

/-- The copies that run: those held behind an earlier one do not (R268, R269). -/
def State.running (s : State) (c : Fin 64) : List CEnt := (s.core c).cq.filter fun x => x.started && !(s.copyBehind c x)

/-- COPY_START (R269): entry i of the copy queue starts, in issue order apart from waiting producers, up to four that run at once. -/
def State.copyStart (s : State) (c : Fin 64) (i : Nat) : State :=
  let k := s.core c
  match k.cq[i]? with
  | none => s
  | some e =>
    if e.started || decide (4 ≤ (s.running c).length) || s.producerWaits c e || !(s.storesDone c e.role e.id) ||
        (k.cq.take i).any (fun x => !(x.started) && !(s.producerWaits c x)) then s
    else if (isGath e.op || isScat e.op) && e.idx.isEmpty then (match e.stop with
      | some x => s.copyFault c e x
      | none => s.copyTable c e)
    else s.upCore c fun k => k.upCopy e.id fun x => { x with started := true }

/-- COPY_START (R269). -/
def execCopyStart (c : Fin 64) (im : Nat) (s : State) : Out := .next (s.copyStart c im)

/-- The sides of an entry, the source found first; or what a page's format stops (R264, R272). -/
def State.copySides (s : State) (c : Fin 64) (e : CEnt) : Except Stall (Side × Side) :=
  let bad := fun va k => Except.error (Stall.fault { cause := cTYPE, detail := 0x2B, va := va, kind := k })
  match s.srcSide c e 0 with
  | none => bad e.d.src 1
  | some s0 =>
    match s.dstSide c e with
    | some dd => .ok ((s.srcSide c e dd.fmt).getD s0, dd)
    | none =>
      match (if isFillOp e.op then none else s.probe c e .read (s0.elem (e.done / e.d.len) (e.done % e.d.len)).1) with
      | some w => .error w
      | none => bad e.d.dst 2

/-- A run that waits in the middle of a unit goes back to where the engine may stand. -/
def Stall.waits : Option Stall → Bool
  | some (.fault _) => false
  | some _ => true
  | none => false

/-- The next piece of a started entry: its units in order, its count, and what stopped it. -/
def State.copyPiece (s : State) (c : Fin 64) (e : CEnt) : State :=
  match s.copySides c e with
  | .error w => s.copyStop c e w
  | .ok (sd, dd) =>
    let go := fun stop => State.copyRun c sd dd stop 8192 e.done e 0 s
    let all := go (s.pieceEnd c e dd e.done)
    let (s1, e1, p, n, _) := if Stall.waits all.2.2.2.2 then go ((s.lastCut c e dd e.done all.2.2.1).getD e.done) else all
    let e2 := { e1 with done := p, kept := (if e1.ahead.isEmpty then [] else e1.kept) ++ s1.keptAt c e1 sd dd p }
    let s2 := ((s1.upCore c fun k => k.upCopy e.id fun _ => e2).landCopy c e dd e.done p).postBytes c e n
    match all.2.2.2.2 with
    | some w => s2.copyStop c e2 w
    | none => s2

/-- The units that are written at once from the one k past the next on are performed ahead of it, if nothing stops them or a unit between,
and no unit between writes into theirs; their count is posted in their place (R266, R267). -/
def State.copyAhead (s : State) (c : Fin 64) (e : CEnt) (k : Nat) : State :=
  match s.copySides c e with
  | .error _ => s
  | .ok (sd, dd) =>
    let p := e.done + dd.step * k
    let q := s.groupEnd c e dd p
    let between := (List.range (p - e.done)).map (e.done + ·)
    if isRc e.op || decide (e.d.rows * e.d.len ≤ p) || (e.ahead.any fun x => decide (p ≤ x) && decide (x < q)) ||
        (between.any fun x => (s.unitStop c e sd dd (x / e.d.len) (x % e.d.len)).isSome) || !(s.apart c e dd e.done p q) then s
    else match State.copyRun c sd dd q (q - p) p e 0 s with
      | (s1, e1, _, _, none) =>
        let units := ((List.range (q - p)).map (p + ·)).filter fun x => (x - p) % dd.step == 0
        let kept := e1.kept ++ s1.keptAt c e1 sd dd p ++ s1.keptAt c e1 sd dd q
        (s1.upCore c fun k => k.upCopy e.id fun _ => { e1 with ahead := e1.ahead ++ units, kept := kept }).landCopy c e dd p q
      | _ => s

/-- COPY_PIECE_POST (R267): entry i mod 64 of the copy queue goes on, in order, or out of order with the units i / 64 − 1 past the next (R266);
of the started entries the first four run (R269). -/
def State.copyPiecePost (s : State) (c : Fin 64) (i : Nat) : State :=
  match (s.core c).cq[i % 64]? with
  | none => s
  | some e =>
    if !e.started || s.copyBehind c e || decide (4 ≤ ((s.running c).takeWhile (·.id ≠ e.id)).length) || decide (e.d.rows * e.d.len ≤ e.done) then s
    else match e.stop with
    | some x => s.copyFault c e x
    | none => if i / 64 = 0 then s.copyPiece c e else s.copyAhead c e (i / 64 - 1)

/-- COPY_PIECE_POST (R267). -/
def execCopyPiecePost (c : Fin 64) (im : Nat) (s : State) : Out := .next (s.copyPiecePost c im)

/-- COPY_COMPLETE (R260): a producer sets its slot's TAG and FULL. -/
def State.copyComplete (s : State) (c : Fin 64) (i : Nat) : State :=
  match (s.core c).cq[i]? with
  | none => s
  | some e =>
    if !e.started || decide (e.done < e.d.rows * e.d.len) then s
    else
      let s1 := s.upCore c fun k => k.dropCopy e.id
      match s.fillsSlot c e with
      | some (d, j) => s1.upCore d fun k => k.setSlot (Fin.ofNat 64 j) ((k.slots[Fin.ofNat 64 j]).fill e.d.tag)
      | none => s1

/-- COPY_COMPLETE (R260). -/
def execCopyComplete (c : Fin 64) (im : Nat) (s : State) : Out := .next (s.copyComplete c im)

/-! ## Tile-slot instructions (R276 to R278) -/

def slotOf (v : Word) : Fin 64 := Fin.ofNat 64 v.toNat

/-- TS.DEF (R276). -/
def execTsDef (a b : Fin 32) (s : State) : Out :=
  s.copyGate 38 false [a, b] fun _ =>
    let d := s.me.get b
    let i := slotOf (s.me.get a)
    let k := s.myCore
    if 11 ≤ slotFmt d ∨ bits d.toNat 0 6 ≠ 0 ∨ bits d.toNat 23 15 ≠ 0 ∨ (slotRB d = 0 ∧ slotRows d ≠ 0) then s.trap cTYPE 0x28
    else if slotRows d ≠ 0 ∧ (slotBase d < k.bndv * 65536 ∨ k.bnds * 65536 < slotBase d + slotLen d) then s.trap cTYPE 0x29
    else if s.pend s.cc i.val || k.slotLock i then s.block 5 i.val
    else
      (s.upMyCore fun k =>
        (k.setSlot i { defw := d, state := slotWord 0 (bits (s.me.get a).toNat 16 16) false false }).upMx fun m =>
          { m with queue := m.queue.map fun e => match e.op with
              | .maMm _ t _ _ _ _ => if t = i then { e with halted := none, told := false } else e
              | _ => e }).done 2

/-- TS.REL (R277). -/
def execTsRel (a d : Fin 32) (s : State) : Out :=
  s.copyGate 38 false [a] fun _ =>
    let i := slotOf (s.me.get a)
    let x := s.myCore.slots[i]
    if slotRows x.defw = 0 then s.putDone d 2
    else if !x.full then s.putDone d 1
    else (s.upMyCore fun k => k.setSlot i x.release).putDone d 0

/-- TS.STAT (R278): the state, the definition with .def, or with .w a consumer's wait for the slot. -/
def execTsStat (a d : Fin 32) (f w : Fin 2) (s : State) : Out :=
  s.copyGate 38 false [a] fun _ =>
    let i := slotOf (s.me.get a)
    let x := s.myCore.slots[i]
    if f.val = 1 then s.putDone d x.defw
    else if w.val = 0 then s.putDone d (s.slotState s.cc i)
    else if slotRows x.defw = 0 then s.trap cTYPE 0x2D
    else match x.consume with
      | .wait => s.block 5 i.val
      | .go => s.putDone d (s.slotState s.cc i)
      | .mismatch tag => s.trap cSCHED (schedDetail i.val tag)

/-! ## Units from another chip (R273, R284) -/

/-- A region of address space `asid`, as the last dispatch decision read them: what breaks the sharing for another chip's unit takes
its frame (log 50). -/
def State.asidRegion (s : State) (asid : Nat) : Nat :=
  match s.rcbs.find? fun x => (viewOf x.1 (s.lineage 0 x.1)).asid == asid with
  | some x => x.1
  | none => 0

/-- What holds another chip's unit back at a page: the leaf is BUSY, or its sharing must be broken first (R171, R273). -/
def State.farStall (s : State) (asid va : Nat) : Option State :=
  if inWindow va then none
  else match s.walk 0 asid va with
    | .stop _ _ _ => none
    | .leaf _ e =>
      if leafBusy e then some s
      else if (leafAccess .write true e).isSome then none
      else if leafCow e then (match s.askCowFor 0 (s.asidRegion asid) asid va e with
        | .wait s1 => some s1
        | .empty _ => none)
      else none

/-- Writes bytes that another chip's copy sends, page by page, in an address space of this chip; a fault stops them. Lines written from a
poisoned line are poisoned (R275). -/
def State.farWrite (asid : Nat) (bad : Bool) : List (Nat × Nat) → List Byte → State → State × Nat
  | [], _, s => (s, 0)
  | (va, n) :: t, bs, s =>
    if inWindow va then (s, 0)
    else match s.walk 0 asid va with
      | .stop _ _ _ => (s, 0)
      | .leaf _ e =>
        if (leafAccess .write true e).isSome || leafCow e || (s.lost 0 (leafAddr e va)).isSome then (s, 0)
        else
          let s1 := s.physWrite (leafAddr e va) (bs.take n) (leafBd e)
          let (s1, k) := State.farWrite asid bad t (bs.drop n) (if bad then s1.markMem (leafAddr e va) n true else s1)
          (s1, n + k)

/-- A byte event through a handle of this chip: applied where the slot lies, held for a saved task, or discarded (R284, R285). -/
def State.handleEvent (s : State) (h : Nat) (e : PostKind) : State :=
  match s.handleLive h with
  | none => s
  | some (t, m, n) =>
    match s.task t with
    | none => s
    | some x => match x.coreAt m with
      | some d => s.upCore d fun k => k.slotEvent (Fin.ofNat 32 n) e
      | none => s.upTask t fun x => { x with heldEv := x.heldEv ++ [(m, n, e)] }

/-- Units of a remote copy arrive (R273): those written are counted into the barrier that KIND 11 names. While a page holds them back
they stay on their way. -/
def State.farUnits (s : State) (asid va : Nat) (bytes : List Byte) (bar : Nat) (bad : Bool) : State :=
  let ps := pagePieces (bytes.length / 4096 + 2) va bytes.length
  match ps.findSome? fun p => s.farStall asid p.1 with
  | some s1 => s1
  | none =>
    let (s1, n) := State.farWrite asid bad ps bytes s
    if n = 0 ∨ tgKind bar ≠ 3 then s1 else s1.handleEvent (tgHnd bar) (.bytes n)

end Sys2Proof.Machine
end

