-- ==== Sys2Proof/Machine/FastStep.lean ====
section
/-! DEFINITION. The fast-weight step and its numbers: rows of a head, fade, predict and write in plain and compensated mode,
chunks, and the working planes that a speculation log rebuilds (R316 to R318, R325). -/
namespace Sys2Proof.Machine

/-! ## Heads of a plane -/

/-- The geometry of a head. -/
structure HGeo where
  dk : Nat
  dv : Nat
  deriving DecidableEq, Repr

/-- The bytes of one head (R306). -/
def HGeo.bytes (g : HGeo) : Nat := 4 * (g.dk * g.dv)

/-- A list cut into pieces of n. -/
def pieces (n : Nat) : Nat → List Nat → List (List Nat)
  | 0, _ => []
  | k + 1, l => l.take n :: pieces n k (l.drop n)

/-- The rows of head h of a plane, as FP32 codes. -/
def HGeo.rows (g : HGeo) (m : Mem) (h : Nat) : List (List Nat) :=
  pieces g.dv g.dk ((leLanes (m.read (h * g.bytes) g.bytes)).map (·.toNat))

/-- Writes head h of a plane. -/
def HGeo.put (g : HGeo) (m : Mem) (h : Nat) (rows : List (List Nat)) : Mem :=
  m.write (h * g.bytes) (rows.flatten.flatMap (leBytes 4))

/-- A head of +0. -/
def HGeo.zero (g : HGeo) : List (List Nat) := List.replicate g.dk (List.replicate g.dv 0)

/-! ## The step (R316, R317) -/

/-- The negation of an FP32 code. -/
def negF (x : Nat) : Nat := if x < 2 ^ 31 then x + 2 ^ 31 else x - 2 ^ 31

/-- Dot: one tree of rounded products for each column (R316). -/
def dotRows (dv : Nat) (w : List (List Nat)) (x : List Nat) : List Nat :=
  (List.range dv).map fun j => treeSum ((w.zip x).map fun p => (pMul (p.1.getD j 0) p.2).1)

/-- A head under work: its rows of W, and of C when compensated. -/
structure Head where
  w : List (List Nat)
  c : Option (List (List Nat))
  deriving DecidableEq, Repr

/-- The fade of one element: the new W and C (R317). -/
def fadeC (a w c : Nat) : Nat × Nat :=
  let s := (pMul a w).1
  let r := (pF a w (negF s)).1
  (s, (pF a c r).1)

/-- Not finite. -/
def nonFinite (x : Nat) : Bool := bits x 23 8 == 255

/-- The compensated write of one element: the two-sum of W and x (R317). -/
def writeC (u k w c : Nat) : Nat × Nat :=
  let x := (pF u k c).1
  let s := (pAdd w x).1
  let b := (pSub s w).1
  let d := (pSub s b).1
  (s, if nonFinite s then 0 else (pAdd (pSub w d).1 (pSub x b).1).1)

/-- Applies f to the elements of W and C side by side, row by row with a value of the row. -/
def rows2 (f : Nat → Nat → Nat → Nat → Nat × Nat) (us : List Nat) (xs : List Nat) (w c : List (List Nat)) :
    List (List (Nat × Nat)) :=
  (xs.zip (w.zip c)).map fun r => (us.zip (r.2.1.zip r.2.2)).map fun e => f e.1 r.1 e.2.1 e.2.2

/-- FADE (R316, R317): `a` has one value per row. -/
def Head.fade (x : Head) (dv : Nat) (a : List Nat) : Head :=
  match x.c with
  | none => { x with w := (a.zip x.w).map fun r => r.2.map fun e => (pMul r.1 e).1 }
  | some c =>
    let r := rows2 (fun _ ai w c => fadeC ai w c) (List.replicate dv 0) a x.w c
    { w := r.map fun l => l.map (·.1), c := some (r.map fun l => l.map (·.2)) }

/-- WRITE (R316, R317). -/
def Head.write (x : Head) (u k : List Nat) : Head :=
  match x.c with
  | none => { x with w := (k.zip x.w).map fun r => (u.zip r.2).map fun e => (pF e.1 r.1 e.2).1 }
  | some c =>
    let r := rows2 writeC u k x.w c
    { w := r.map fun l => l.map (·.1), c := some (r.map fun l => l.map (·.2)) }

/-- One token without its read: fade, predict, write (R316). -/
def Head.token (x : Head) (dv : Nat) (a k v : List Nat) (b : Nat) : Head :=
  let y := x.fade dv a
  let p := dotRows dv y.w k
  let u := (v.zip p).map fun e => (pMul b (pSub e.1 e.2).1).1
  y.write u k

/-- The operands of one token of one head. -/
structure Tok where
  q : List Nat
  k : List Nat
  v : List Nat
  a : List Nat
  b : Nat
  deriving DecidableEq, Repr

/-- The fade of every row: one value, or one per row (R316 AROW). -/
def fadeRows (dk : Nat) (a : List Nat) : List Nat := if a.length = dk then a else List.replicate dk (a.headD 0)

/-- A token with its output: read first (RFW) or last (FWR) (R316). -/
def Head.step (x : Head) (g : HGeo) (fwr : Bool) (t : Tok) : Head × List Nat :=
  let y := x.token g.dv (fadeRows g.dk t.a) t.k t.v t.b
  (y, dotRows g.dv (if fwr then y.w else x.w) t.q)

/-- A chunk: tokens in ascending order, with their outputs (R316, R318). -/
def Head.chunk (x : Head) (g : HGeo) (fwr : Bool) : List Tok → Head × List (List Nat)
  | [] => (x, [])
  | t :: ts =>
    let (y, o) := x.step g fwr t
    let (z, os) := y.chunk g fwr ts
    (z, o :: os)

/-! ## States (R306, R310, R325) -/

def FwState.geo (f : FwState) : HGeo := { dk := f.dk, dv := f.dv }

/-- The bytes P of a plane (R310). -/
def FwState.planeBytes (f : FwState) : Nat := f.h * f.geo.bytes

/-- The slabs of one plane (R310). -/
def FwState.planeSlabs (f : FwState) : Nat := (f.planeBytes + 65535) / 65536

/-- The slabs of the speculation log (R310). -/
def FwState.logSlabs (f : FwState) : Nat :=
  if f.log then (64 * (64 + 4 * f.h * (2 * f.dk + f.dv + 1)) + 65535) / 65536 else 0

/-- Slabs of the working planes and the log. -/
def FwState.workSlabs (f : FwState) : Nat :=
  (if f.log then f.planeSlabs * (if f.comp then 2 else 1) else 0) + f.logSlabs

/-- All slabs of the state while it lies in Grotto (R310). -/
def FwState.slabCount (f : FwState) : Nat := f.planeSlabs * (if f.comp then 2 else 1) + f.workSlabs

def FwState.slabs (f : FwState) : List Nat := f.sw ++ f.sc ++ f.swork

/-- The slabs, by place in a plane, that head h lies in. -/
def FwState.headSlabs (f : FwState) (h : Nat) : List Nat :=
  (List.range f.planeSlabs).filter fun i => overlap (65536 * i) 65536 (h * f.geo.bytes) f.geo.bytes

def FwState.head (f : FwState) (h : Nat) : Head :=
  { w := f.geo.rows f.w h, c := if f.comp then some (f.geo.rows f.c h) else none }

def FwState.setHead (f : FwState) (h : Nat) (x : Head) : FwState :=
  { f with w := f.geo.put f.w h x.w, c := (match x.c with
    | some c => f.geo.put f.c h c
    | none => f.c) }

/-- A head of W′ and C′; with no entry pending they are the committed planes (R325). -/
def FwState.head2 (f : FwState) (h : Nat) : Head :=
  { w := f.geo.rows f.w2 h, c := if f.comp then some (f.geo.rows f.c2 h) else none }

def FwState.setHead2 (f : FwState) (h : Nat) (x : Head) : FwState :=
  { f with w2 := f.geo.put f.w2 h x.w, c2 := (match x.c with
    | some c => f.geo.put f.c2 h c
    | none => f.c2) }

/-- The token of head h in a log entry: it has no read. -/
def LogEnt.tok (e : LogEnt) (g : HGeo) (h : Nat) : Tok :=
  let an := if e.arow then g.dk else 1
  { q := [], k := (e.k.drop (h * g.dk)).take g.dk, v := (e.v.drop (h * g.dv)).take g.dv,
    a := (e.a.drop (h * an)).take an, b := e.b.getD h 0 }

/-- Log entries applied to a head in log order (R325, R326). -/
def Head.replay (x : Head) (g : HGeo) (h : Nat) : List LogEnt → Head
  | [] => x
  | e :: t =>
    let k := e.tok g h
    (x.token g.dv (fadeRows g.dk k.a) k.k k.v k.b).replay g h t

/-- Rebuilds head h of W′ and C′ from the committed planes and the entries `keep` (R327). -/
def FwState.rebuild (f : FwState) (keep : List LogEnt) (h : Nat) : FwState :=
  f.setHead2 h ((f.head h).replay f.geo h keep)

/-- The entries that FW.LOGD with window w keeps (R327). -/
def FwState.kept (f : FwState) (w : Nat) : List LogEnt := f.pend.filter fun e => decide (32768 ≤ (e.win + 65536 - w % 65536) % 65536)

end Sys2Proof.Machine
end

