-- ==== Sys2Proof/Machine/FastWeight.lean ====
section
/-! DEFINITION. Fast-weight states: handles and directories (R307 to R309), slabs and the pager (R310, R311), and the shared
operations that the instructions of MAJ 42 to 45 are written from. -/
namespace Sys2Proof.Machine

/-! ## Handles (R307, R308) -/

def fhGen (h : Nat) : Nat := bits h 48 15
def fhChip (h : Nat) : Nat := bits h 40 8
def fhDie (h : Nat) : Fin 4 := Fin.ofNat 4 (bits h 13 2)
def fhIx (h : Nat) : Nat := bits h 0 13

/-- A handle word with bit 63 or a reserved bit set (R309 order 2). -/
def fhBad (h : Nat) : Bool := bits h 63 1 == 1 || bits h 15 25 != 0

def fhWord (chip : Nat) (d : Fin 4) (ix gen : Nat) : Nat := gen * 2 ^ 48 + chip * 2 ^ 40 + d.val * 8192 + ix

/-- This chip's number (R307). -/
def State.chipn (s : State) : Nat := bits s.sys[10].toNat 0 8

/-- The generation of a directory entry; an entry not used yet has 1 (log 5). -/
def Die.fwGen (d : Die) (ix : Nat) : Nat :=
  match d.fw.find? (·.ix == ix) with
  | some e => e.gen
  | none => 1

/-- The state of a directory entry. -/
def State.fwAt (s : State) (d : Fin 4) (ix : Nat) : Option FwState := ((s.die d).fw.find? (·.ix == ix)).bind (·.st)

/-- The live state that a handle names. -/
def State.fwFind (s : State) (h : Nat) : Option FwState :=
  if fhGen h = 0 ∨ (s.die (fhDie h)).fwGen (fhIx h) ≠ fhGen h then none else s.fwAt (fhDie h) (fhIx h)

/-- The handle of a directory entry now. -/
def State.fwHandle (s : State) (d : Fin 4) (ix : Nat) : Nat := fhWord s.chipn d ix ((s.die d).fwGen ix)

/-- The physical address of entry ix of die d's fast-weight directory (R308). -/
def State.fwAddr (s : State) (d : Fin 4) (ix : Nat) : Nat :=
  0x1000000000 * (2 * d.val) + bits s.sys[8].toNat 20 16 * 2 ^ 20 + 64 * ix

/-- Writes an entry, with bytes whose layout no rule gives. -/
def State.fwWrite (s : State) (d : Fin 4) (e : FwEnt) : State :=
  let bs := (List.range 64).map (Config.directoryByte s.free)
  let s1 := { s.physWrite (s.fwAddr d e.ix) bs true with free := s.free + 1 }
  s1.setDie d { s1.die d with fw := e :: (s1.die d).fw.filter (·.ix ≠ e.ix) }

/-- Gives a directory entry its state; its generation stays. -/
def State.fwSet (s : State) (d : Fin 4) (ix : Nat) (f : FwState) : State :=
  s.fwWrite d { ix := ix, gen := (s.die d).fwGen ix, st := some f }

/-- The entry is free, and its generation advances, skipping 0 (R308). -/
def State.fwVacate (s : State) (d : Fin 4) (ix : Nat) : State :=
  s.fwWrite d { ix := ix, gen := nextGen 0x7FFF ((s.die d).fwGen ix), st := none }

/-- A free entry of a die's directory, which a transfer has not reserved; which of them is not given. -/
def State.fwPick (s : State) (d : Fin 4) : Option (Nat × State) :=
  let free := (List.range 8192).filter fun i =>
    (s.fwAt d i).isNone && s.xfers.all fun x => !(x.target == d.val && x.tix == some i)
  (free[Config.pickEntry s.free % free.length]?).map fun i => (i, { s with free := s.free + 1 })

/-- The directory of a die can be read from another: it lies in stack BD(2d) (R308). -/
def State.fwDirUp (s : State) (a d : Fin 4) : Bool := s.cdUp d && s.routeUp a d && s.bdUp (Fin.ofNat 8 (2 * d.val))

/-! ## The context record's handle (R307) -/

/-- The address, in ASID 0, of context i's record. -/
def State.ctxAddr (s : State) (i : Nat) : Nat := s.sysBase 2 + 256 * i

/-- The handle that an operand names: 0 names the context record's. Cause and detail when it cannot be read. -/
def State.fwName (s : State) (c : Fin 64) (g : Word) : Except (Nat × Nat) Nat :=
  if g ≠ 0 then .ok g.toNat
  else match (s.core c).ctx with
    | none => .error (cFWH, 0x05)
    | some i => (s.hwRead (dieOf c) 0 (s.ctxAddr i + 16) 8).map leNat

/-- The first of orders 2 to 4 and 5 of R309 that fails for a handle: the FWH detail. -/
def State.fwCheck (s : State) (c : Fin 64) (h : Nat) (loc : Bool) : Option Nat :=
  if fhBad h then some 0x02
  else if fhChip h ≠ s.chipn then some 0x03
  else if (s.fwFind h).isNone then some 0x01
  else if loc && fhDie h != dieOf c then some 0x04
  else none

/-! ## Slabs (R310) -/

/-- States of a die that reference a slab. -/
def State.slabRefs (s : State) (d : Fin 4) (n : Nat) : Nat :=
  ((s.die d).fw.filter fun x => match x.st with
    | some f => f.slabs.contains n
    | none => false).length

def State.slabPoison (s : State) (d : Fin 4) (n : Nat) : Bool := (s.die d).slabs.any fun x => x.n == n && x.poison

def State.setSlabPoison (s : State) (d : Fin 4) (l : List Nat) (b : Bool) : State :=
  s.setDie d { s.die d with slabs := (s.die d).slabs.map fun x => if l.contains x.n then { x with poison := b } else x }

/-- Takes one slab for each poison mark of the list, from the region's budget and the die's Grotto of 6,144 slabs. -/
def State.takeSlabs (s : State) (d : Fin 4) (region : Nat) (marks : List Bool) : Option (List Nat × State) :=
  let n := marks.length
  if n = 0 then some ([], s)
  else
    let free := (List.range 6144).filter fun i => (s.die d).slabs.all fun x => x.n != i
    if free.length < n ∨ !(fits 5 16 132 n (s.lineage d region)) then none
    else
      let mine := free.take n
      let new := (mine.zip marks).map fun x => ({ n := x.1, region := region, poison := x.2 } : Slab)
      some (mine, (s.setDie d { s.die d with slabs := (s.die d).slabs ++ new }).charge d region 132 n)

/-- Lets go of slabs: those that no state references any more are free. -/
def State.dropSlabs (s : State) (d : Fin 4) (l : List Nat) : State :=
  l.foldl (fun (s : State) n => if s.slabRefs d n = 0 then s.freeSlab d n else s) s

/-- Copies the shared slabs among places `is` of the committed planes, before anything changes; `none` when they cannot all be
had. -/
def State.fwCow (s : State) (d : Fin 4) (ix region : Nat) (is : List Nat) : Option State :=
  match s.fwAt d ix with
  | none => none
  | some f =>
    let shared := fun (l : List Nat) => is.filter fun i => decide (1 < s.slabRefs d (l.getD i 6144))
    let ws := shared f.sw
    let cs := shared f.sc
    let old := ws.map (f.sw.getD · 6144) ++ cs.map (f.sc.getD · 6144)
    if old.isEmpty then some s
    else match s.takeSlabs d region (old.map (s.slabPoison d)) with
      | none => none
      | some (new, s1) =>
        let put := fun (l : List Nat) (ps : List (Nat × Nat)) => ps.foldl (fun l p => l.set p.1 p.2) l
        some (s1.fwSet d ix { f with sw := put f.sw (ws.zip new), sc := put f.sc (cs.zip (new.drop ws.length)) })

/-- The slabs of the speculation log. -/
def FwState.logs (f : FwState) : List Nat := if f.log then f.swork.drop (f.planeSlabs * (if f.comp then 2 else 1)) else []

/-- Poison of the slabs of a state, in the order W, C, W′, C′, log; of a paged state, of the 16 frames of each (log 63). -/
def State.fwMarks (s : State) (d : Fin 4) (f : FwState) : List Bool :=
  match f.place with
  | .grotto => f.slabs.map (s.slabPoison d)
  | _ => (List.range f.slabCount).map fun j => ((f.frames.drop (16 * j)).take 16).any fun fr => s.anyPoison (4096 * fr) 4096

/-- W′ and C′ take the committed planes and their poison (R325). -/
def State.fwOpenWork (s : State) (d : Fin 4) (ix : Nat) : State :=
  match s.fwAt d ix with
  | none => s
  | some f =>
    let src := f.sw ++ f.sc
    let s1 := ((src.zip f.swork).foldl (fun (s : State) p => s.setSlabPoison d [p.2] (s.slabPoison d p.1)) s)
    s1.fwSet d ix { f with w2 := f.w, c2 := f.c }

/-! ## The pager (R311, R330) -/

/-- The frame list of a tier that the pager uses, among the areas of R433. -/
def placeList : Place → Nat
  | .t1 => 8
  | _ => 9

/-- Takes n frames from a tier's list, or none at all. -/
def State.takeFrames (s : State) (d : Fin 4) (p : Place) : Nat → Option (List Nat × State)
  | 0 => some ([], s)
  | n + 1 =>
    match s.takeFrames d p n with
    | none => none
    | some (l, s1) => (s1.takeFrame d (s1.listBase (placeList p))).map fun x => (l ++ [x.1], x.2)

def State.giveFrames (s : State) (d : Fin 4) (p : Place) (l : List Nat) : State :=
  l.foldl (fun (s : State) f => s.giveFrame d (s.listBase (placeList p)) f) s

/-- A frame that die d cannot reach (R330, R423, R437). -/
def State.framesLost (s : State) (d : Fin 4) (l : List Nat) : Bool :=
  l.any fun f => (List.range 64).any fun i => (s.lost d (4096 * f + 64 * i)).isSome

/-- What the pager writes to one frame: the model keeps the state itself, so the bytes are open; poison goes along. -/
def State.fillFrame (s : State) (f : Nat) (bad : Bool) : State :=
  let s1 := { s.physWrite (4096 * f) ((List.range 4096).map (Config.saveByte s.free)) true with free := s.free + 1 }
  if bad then s1.markMem (4096 * f) 4096 true else s1

/-- What a state gives up when it leaves its place: slabs, or frames. -/
def State.fwLeave (s : State) (d : Fin 4) (f : FwState) : State :=
  match f.place with
  | .grotto => s.dropSlabs d f.slabs
  | p => s.giveFrames d p f.frames

/-- Pages a state out to frames already taken. -/
def State.fwOutTo (s : State) (d : Fin 4) (ix : Nat) (p : Place) (frames : List Nat) : State :=
  match s.fwAt d ix with
  | none => s
  | some f =>
    let marks := s.fwMarks d f
    let s1 := frames.zipIdx.foldl (fun (s : State) x => s.fillFrame x.1 (marks.getD (x.2 / 16) false)) s
    (s1.fwSet d ix { f with place := p, sw := [], sc := [], swork := [], frames := frames }).fwLeave d f

/-- The frames that a page-out takes, or the failure code of R330. -/
def State.outFrames (s : State) (d : Fin 4) (f : FwState) (p : Place) : Except Nat (List Nat × State) :=
  match s.takeFrames d p (16 * f.slabCount) with
  | none => .error 0x04
  | some (l, s1) => if s.framesLost d (l ++ f.frames) then .error 0x08 else .ok (l, s1)

/-- A state in Grotto: the slabs go to the planes in order. -/
def FwState.settle (f : FwState) (l : List Nat) : FwState :=
  let n := f.planeSlabs
  let m := if f.comp then n else 0
  { f with place := .grotto, sw := l.take n, sc := (l.drop n).take m, swork := l.drop (n + m), frames := [] }

/-- Pages a state in, or gives the failure code (R311). -/
def State.fwIn (s : State) (d : Fin 4) (ix : Nat) : Except Nat State :=
  match s.fwAt d ix with
  | none => .error 0x01
  | some f =>
    if s.framesLost d f.frames then .error 0x08
    else match s.takeSlabs d f.region (s.fwMarks d f) with
      | none => .error 0x04
      | some (l, s1) => .ok ((s1.fwSet d ix (f.settle l)).fwLeave d f)

/-! ## Whole-state changes that other units make too (R329, R332, R341, R351) -/

/-- Frees a state (R329). -/
def State.fwFreeState (s : State) (d : Fin 4) (ix : Nat) : State :=
  match s.fwAt d ix with
  | none => s
  | some f => (s.fwVacate d ix).fwLeave d f

/-- A new state that shares the committed planes (R332): its handle. -/
def State.fwShare (s : State) (d : Fin 4) (ix region : Nat) : Option (Nat × State) :=
  match s.fwAt d ix, s.fwPick d with
  | some f, some (j, s1) =>
    let s2 := s1.fwSet d j { f with log := false, w2 := [], c2 := [], pend := [], swork := [], region := region }
    some (s2.fwHandle d j, s2)
  | _, _ => none

/-- The status word (R331). `moving`: a transfer moves the state. -/
def State.fwStatus (s : State) (d : Fin 4) (f : FwState) (moving : Bool) : Nat :=
  let wh := if moving then 3 else match f.place with
    | .grotto => 0
    | .t1 => 1
    | .t2 => 2
  let b := fun (x : Bool) (i : Nat) => if x then 2 ^ i else 0
  wh * 2 ^ 61 + b f.comp 60 + b f.log 59 + b ((s.fwMarks d f).any id) 58 +
    b (f.slabs.any fun n => decide (1 < s.slabRefs d n)) 57 + f.pend.length % 128 * 2 ^ 50 +
    (match f.pend with
     | e :: _ => e.win % 65536
     | [] => 0) * 2 ^ 34 + f.slabs.length % 2048 * 2 ^ 23 + (f.h - 1) * 65536 + (f.dv - 1) * 256 + (f.dk - 1)

end Sys2Proof.Machine
end

