-- ==== Sys2Proof/Machine/FastForms.lean ====
section
/-! DEFINITION. The update engine and the pager's transfers at work: how a queued form starts, what it does head by head, and how
it completes (R311 to R337). -/
namespace Sys2Proof.Machine

/-! ## Operands of an entry -/

/-- The register that takes the result. -/
def fwGd : Instr → Fin 32
  | .fwFu _ _ d => d
  | .fwFwd _ _ d => d
  | .fwUpd _ _ d => d
  | .fwOpen _ d => d
  | .fwClose _ d => d
  | .fwFree _ d => d
  | .fwPage _ _ d _ => d
  | .fwStat _ d => d
  | .fwSnap _ d => d
  | .fwAvg _ _ d => d
  | .fwRoll _ _ d => d
  | .fwMig _ _ d => d
  | .fwLogc _ _ d => d
  | .fwLogd _ _ d => d
  | _ => 0

def FEnt.ga (e : FEnt) : Word := e.gs.headD 0
def FEnt.gb (e : FEnt) : Word := e.gs.getD 1 0

/-- A field of the descriptor (R321). -/
def FEnt.fld (e : FEnt) (o n : Nat) : Nat := field e.desc o n

def FEnt.tokens (e : FEnt) : Nat := bits (e.fld 48 1) 0 6 + 1
def FEnt.hb (e : FEnt) : Nat := bits (e.fld 49 1) 0 6
def FEnt.nh (e : FEnt) : Nat := bits (e.fld 50 1) 0 6 + 1
def FEnt.fwr (e : FEnt) : Bool := bits (e.fld 51 1) 0 1 == 1
def FEnt.arow (e : FEnt) : Bool := bits (e.fld 51 1) 1 1 == 1
def FEnt.spec (e : FEnt) : Bool := bits (e.fld 51 1) 2 1 == 1
def FEnt.win (e : FEnt) : Nat := e.fld 52 2

/-- The number of sources of an FW.AVG (R333). -/
def FEnt.avgN (e : FEnt) : Nat := bits e.gb.toNat 0 5

/-- Chunk forms (R321), those that change the state, and those that read queries. -/
def isChunk : Instr → Bool
  | .fwFu _ _ _ => true
  | .fwFwd _ _ _ => true
  | .fwUpd _ _ _ => true
  | _ => false

def changes : Instr → Bool
  | .fwFu _ _ _ => true
  | .fwUpd _ _ _ => true
  | _ => false

def hasReads : Instr → Bool
  | .fwFu _ _ _ => true
  | .fwFwd _ _ _ => true
  | _ => false

/-- The handle operands, and whether the form needs each state on its die (R309). -/
def FEnt.names (e : FEnt) : List (Word × Bool) :=
  match e.op with
  | .fwFu _ _ _ => [(e.gb, true)]
  | .fwFwd _ _ _ => [(e.gb, true)]
  | .fwUpd _ _ _ => [(e.gb, true)]
  | .fwClose _ _ => [(e.ga, false)]
  | .fwFree _ _ => [(e.ga, false)]
  | .fwPage _ _ _ _ => [(e.ga, false)]
  | .fwStat _ _ => [(e.ga, false)]
  | .fwSnap _ _ => [(e.ga, true)]
  | .fwAvg _ _ _ => (List.range (e.avgN + 1)).map fun i =>
      (word (if i = 0 then e.fld 0 8 else e.fld (16 * i - 8) 8), true)
  | .fwRoll _ _ _ => [(e.ga, true), (e.gb, true)]
  | .fwMig _ _ _ => [(e.ga, false)]
  | .fwLogc _ _ _ => [(e.ga, true)]
  | .fwLogd _ _ _ => [(e.ga, true)]
  | _ => []

/-- A failure result (R313). -/
def fwFail (code : Nat) : Word := word (2 ^ 63 + code)

/-! ## The queue -/

def Core.upFw (k : Core) (id : Nat) (f : FEnt → FEnt) : Core := { k with fwq := k.fwq.map fun e => if e.id = id then f e else e }

def State.upFw (s : State) (c : Fin 64) (id : Nat) (f : FEnt → FEnt) : State := s.upCore c fun k => k.upFw id f

/-- The result of an entry is settled. -/
def State.fwSettle (s : State) (c : Fin 64) (e : FEnt) (v : Word) : State := s.upFw c e.id fun x => { x with out := some v }

/-- The entry leaves the queue and gD takes its result (R313). -/
def State.fwFinish (s : State) (c : Fin 64) (e : FEnt) (v : Word) : State :=
  (s.upThr c e.role fun t => t.deliver (fwGd e.op) e.id v).upCore c fun k => { k with fwq := k.fwq.filter (·.id ≠ e.id) }

/-- The start judges the handles again: the handles, or the failure code (R309, R313). -/
def State.fwJudge (s : State) (c : Fin 64) : List (Word × Bool) → Except Nat (List Nat)
  | [] => .ok []
  | (g, loc) :: t =>
    match s.fwName c g with
    | .error _ => .error (if (s.core c).ctx.isNone then 0x01 else 0x08)
    | .ok h =>
      if (s.fwCheck c h loc).isSome then .error 0x01
      else if !(s.cdUp (fhDie h)) || !(s.routeUp (dieOf c) (fhDie h)) then .error 0x08
      else (s.fwJudge c t).map (h :: ·)

/-- Thread r's records of core k stand for stopped image transfers of a state (R330). -/
def Core.fwShelved (k : Core) (p : Role → Bool) (h : Nat) : Bool :=
  k.recs.toList.any fun r => match r with
    | some { role := q, op := .fw e, .. } => p q && e.hs.contains h
    | _ => false

/-- A stopped image transfer of the state has still to be replayed or dropped (R330). -/
def State.fwStopped (s : State) (h : Nat) : Bool :=
  (s.cores.toList ++ s.tasks.flatMap (·.saved)).any fun k => k.fwShelved (fun _ => true) h

/-- A transfer works on the state (R312, R335), or has stopped and waits for its replay (R330). -/
def State.fwTransfer (s : State) (h : Nat) : Bool := (s.xfers.any fun x => x.e.hs.contains h) || s.fwStopped h

/-- A transfer that moves the state (R331). -/
def State.fwMoving (s : State) (h : Nat) : Bool :=
  s.xfers.any fun x => x.e.hs.contains h && (match x.e.op with
    | .fwPage _ _ _ o => decide (o.val < 3)
    | _ => true)

/-- A form that works on the whole state, log and working planes included; others work head by head (R314, R325). -/
def FEnt.whole (e : FEnt) : Bool :=
  match e.op with
  | .fwFu _ _ _ => e.spec
  | .fwUpd _ _ _ => e.spec
  | .fwFwd _ _ _ => false
  | .fwAvg _ _ _ => false
  | _ => true

/-- A cancelled form has performed some of its heads, and others are still to come (R336). -/
def FEnt.cut (e : FEnt) : Bool := decide (0 < e.head) || !e.slog.isEmpty

/-- Form x, running or cut between heads, keeps form e from its states: what one of them does to the whole of a state takes in all heads that the
other changes, or none (R314, R318, R336; log 60). -/
def FEnt.keepsFrom (x e : FEnt) (hs : List Nat) : Bool := (x.started || x.cut) && (e.whole || x.whole) && x.hs.any hs.contains

/-- A form of a task that is off its cores keeps e from its states. -/
def State.fwAway (s : State) (e : FEnt) (hs : List Nat) : Bool :=
  s.tasks.any fun t => t.saved.any fun k => k.fwq.any fun x => x.keepsFrom e hs

/-- A form of another core, or of a task that is off its cores, keeps e from its states before it starts (R314, R329, R336; log 60). -/
def State.fwShut (s : State) (c : Fin 64) (e : FEnt) (hs : List Nat) : Bool :=
  ((List.finRange 64).any fun p => p != c && (s.core p).fwq.any fun x => x.keepsFrom e hs) || s.fwAway e hs

/-- A form that a core holds, running or cut between heads, names a state. -/
def State.fwRunning (s : State) (h : Nat) : Bool :=
  (List.finRange 64).any fun p => (s.core p).fwq.any fun x => (x.started || x.cut) && x.hs.contains h

/-- Such a form, or one cut between heads of a task that is off its cores. -/
def State.fwHeld (s : State) (h : Nat) : Bool :=
  s.fwRunning h || s.tasks.any fun t => t.saved.any fun k => k.fwq.any fun x => x.cut && x.hs.contains h

/-- A state has a new handle: forms cut between heads keep their hold on it (R336). -/
def State.rehandle (s : State) (old new : Nat) : State :=
  let up := fun (k : Core) => { k with fwq := k.fwq.map fun e => { e with hs := e.hs.map fun h => if h = old then new else h } }
  { s with cores := s.cores.map up, tasks := s.tasks.map fun t => { t with saved := t.saved.map up } }

/-- Forms that wait for page-in (R311, R337). -/
def needsIn : Instr → Bool
  | .fwOpen _ _ => false
  | .fwClose _ _ => false
  | .fwFree _ _ => false
  | .fwStat _ _ => false
  | .fwMig _ _ _ => false
  | .fwPage _ _ _ o => decide (3 ≤ o.val)
  | _ => true

def isStat : Instr → Bool
  | .fwStat _ _ => true
  | _ => false

def State.fwPaged (s : State) (h : Nat) : Bool :=
  match s.fwFind h with
  | some f => f.place != .grotto
  | none => false

/-! ## Head forms: what the start checks (R323, R326, R327, R333) -/

/-- The heads that an entry works on. -/
def FEnt.heads (e : FEnt) (f : FwState) : List Nat :=
  match e.op with
  | .fwLogd _ _ _ => let keep := f.kept e.gb.toNat
    if keep.isEmpty ∨ keep.length = f.pend.length then [] else List.range f.h
  | .fwLogc _ _ _ => if bits e.gb.toNat 0 7 = 0 then [] else List.range f.h
  | .fwAvg _ _ _ => List.range f.h
  | _ => (List.range e.nh).map (e.hb + ·)

/-- Places of the committed planes that the heads still to come write. -/
def FEnt.places (e : FEnt) (f : FwState) : List Nat :=
  ((e.heads f).drop e.head).foldl (fun l h => (f.headSlabs h).foldl (fun l i => insertNat i l) l) []

/-- Same heads and shape. -/
def FwState.sameGeo (f g : FwState) : Bool := f.h == g.h && f.dk == g.dk && f.dv == g.dv

def FwState.geoList (f : FwState) : List Nat := [f.h, f.dk, f.dv, if f.log then 1 else 0]

/-- Starts a form that works on heads: the failure code, or the state with its slabs copied. -/
def State.fwHeadStart (s : State) (e : FEnt) (h : Nat) (f : FwState) : Except Nat State :=
  let d := fhDie h
  let ix := fhIx h
  let copied : Except Nat State := match s.fwCow d ix e.region (e.places f) with
    | none => .error 0x04
    | some s1 => .ok s1
  match e.op with
  | .fwLogc _ _ _ =>
    let g := e.gb.toNat
    let n := bits g 0 7
    if f.pend.length < n then .error 0x07
    else if bits g 7 1 = 1 ∧ 0 < n ∧ (f.pend[n - 1]?).map (·.win) ≠ some (bits g 16 16) then .error 0x09
    else copied
  | .fwLogd _ _ _ => .ok (if (e.heads f).isEmpty ∨ 0 < e.head then s else s.fwOpenWork d ix)
  | .fwAvg _ _ _ =>
    if (e.hs.drop 1).any (fun x => match s.fwFind x with
        | some g => !(g.sameGeo f)
        | none => true) then .error 0x05
    else if !f.pend.isEmpty then .error 0x03
    else copied
  | _ =>
    if f.geoList ≠ e.geo then .error 0x05
    else if !(changes e.op) then .ok s
    else if !e.spec then (if !f.pend.isEmpty then .error 0x03 else copied)
    else if 64 < f.pend.length + e.tokens then .error 0x02
    else .ok (if f.pend.isEmpty ∧ e.head = 0 then s.fwOpenWork d ix else s)

/-! ## One head (R314, R316 to R318, R322) -/

/-- Reads n FP32 codes of an array for token t, head h of an entry (R321). -/
def FEnt.arr (e : FEnt) (pool : Mem) (o n t h : Nat) : List Nat :=
  (leLanes (pool.read (e.fld o 8 - 0x00FF000000000000 + 4 * ((t * e.nh + (h - e.hb)) * n)) (4 * n))).map (·.toNat)

/-- The operands of every token of head h, as the pool holds them when its turn begins (R322). -/
def FEnt.toks (e : FEnt) (pool : Mem) (g : HGeo) (h : Nat) : List Tok :=
  let q := hasReads e.op
  let u := changes e.op
  (List.range e.tokens).map fun t =>
    { q := if q then e.arr pool 0 g.dk t h else [], k := if u then e.arr pool 8 g.dk t h else [],
      v := if u then e.arr pool 16 g.dv t h else [], a := if u then e.arr pool 32 (if e.arow then g.dk else 1) t h else [],
      b := if u then (e.arr pool 40 1 t h).headD 0 else 0 }

/-- Writes the outputs of head h; lines written from a poisoned head are poisoned (R323). -/
def FEnt.putOut (e : FEnt) (g : HGeo) (h : Nat) (bad : Bool) (os : List (List Nat)) (k : Core) : Core :=
  os.zipIdx.foldl (fun (k : Core) o =>
    let at_ := e.fld 24 8 - 0x00FF000000000000 + 4 * ((o.2 * e.nh + (h - e.hb)) * g.dv)
    { k with pool := k.pool.write at_ (o.1.flatMap (leBytes 4)) }.markPool at_ (4 * g.dv) bad) k

/-- The log entries of a SPEC chunk with head h added (R325). -/
def FEnt.logHead (e : FEnt) (ts : List Tok) : List LogEnt :=
  let l := if e.slog.isEmpty then ts.map fun _ => ({ win := e.win, arow := e.arow, k := [], a := [], b := [], v := [] } : LogEnt)
    else e.slog
  (l.zip ts).map fun x =>
    { x.1 with k := x.1.k ++ x.2.k, a := x.1.a ++ x.2.a, b := x.1.b ++ [x.2.b], v := x.1.v ++ x.2.v }

/-- Slabs of head h in a list of slabs of planes that begin at `o`. -/
def FwState.slabsOf (f : FwState) (l : List Nat) (o h : Nat) : List Nat := (f.headSlabs h).map fun i => l.getD (o + i) 6144

/-- Slabs of head h of the committed planes, and of the working planes. -/
def FwState.committed (f : FwState) (h : Nat) : List Nat := f.slabsOf f.sw 0 h ++ (if f.comp then f.slabsOf f.sc 0 h else [])

def FwState.working (f : FwState) (h : Nat) : List Nat :=
  f.slabsOf f.swork 0 h ++ (if f.comp then f.slabsOf f.swork f.planeSlabs h else [])

/-- A chunk form on head h. -/
def State.chunkHead (s : State) (c : Fin 64) (e : FEnt) (hd : Nat) (f : FwState) (h : Nat) : State × FEnt :=
  let d := fhDie hd
  let g := f.geo
  let ts := e.toks (s.core c).pool g h
  let two := e.spec && (changes e.op || !f.pend.isEmpty)
  let bad := (if two then f.working h else f.committed h).any (s.slabPoison d)
  let e1 := { e with bad := e.bad || bad }
  let x := if two then f.head2 h else f.head h
  match e.op with
  | .fwFwd _ _ _ => (s.upCore c (e.putOut g h bad (ts.map fun t => dotRows g.dv x.w t.q)), e1)
  | .fwFu _ _ _ =>
    let (y, os) := x.chunk g e.fwr ts
    let s1 := s.fwSet d (fhIx hd) (if e.spec then f.setHead2 h y else f.setHead h y)
    (s1.upCore c (e.putOut g h bad os), if e.spec then { e1 with slog := e.logHead ts } else e1)
  | _ =>
    let (y, _) := x.chunk g e.fwr ts
    (s.fwSet d (fhIx hd) (if e.spec then f.setHead2 h y else f.setHead h y),
     if e.spec then { e1 with slog := e.logHead ts } else e1)

/-- The weighted sum of the sources' heads (R333). -/
def avgHead (g : HGeo) (ws : List Nat) (xs : List (List (List Nat))) : List (List Nat) :=
  (List.range g.dk).map fun i => (List.range g.dv).map fun j =>
    treeSum ((ws.zip xs).map fun x => (pMul x.1 ((x.2.getD i []).getD j 0)).1)

/-- FW.AVG on head h. -/
def State.averageHead (s : State) (e : FEnt) (hd : Nat) (f : FwState) (h : Nat) : State × FEnt :=
  let d := fhDie hd
  let g := f.geo
  let src := (e.hs.drop 1).filterMap s.fwFind
  let ws := (List.range e.avgN).map fun m => e.fld (16 * m + 16) 4
  let bad := src.any fun x => (x.slabsOf x.sw 0 h).any (s.slabPoison d)
  let y : Head := { w := avgHead g ws (src.map fun x => x.geo.rows x.w h), c := if f.comp then some g.zero else none }
  let s1 := if bad then s.setSlabPoison d (f.committed h) true else s
  (s1.fwSet d (fhIx hd) (f.setHead h y), { e with bad := e.bad || bad })

/-- Head h of W′ and C′ is computed anew from the committed planes and the log entries `keep` (R327); what is computed from a poisoned slab is
poisoned (R313). Whether it read one. -/
def State.rebuildHead (s : State) (hd : Nat) (f : FwState) (keep : List LogEnt) (h : Nat) : State × Bool :=
  let d := fhDie hd
  let bad := (f.committed h ++ f.logs).any (s.slabPoison d)
  let s1 := if bad then s.setSlabPoison d (f.working h) true else s
  (s1.fwSet d (fhIx hd) (f.rebuild keep h), bad)

/-- FW.LOGD on a state in Grotto as one change, for the entries `keep` that remain (R327, R350). Whether it read a poisoned slab. -/
def State.logDiscard (s : State) (hd : Nat) (f : FwState) (keep : List LogEnt) : State × Bool :=
  let fin := fun (s : State) => match s.fwFind hd with
    | none => s
    | some f => s.fwSet (fhDie hd) (fhIx hd) { f with pend := keep }
  if keep.length = f.pend.length then (s, false)
  else if keep.isEmpty then (fin s, false)
  else
    let r := (List.range f.h).foldl (fun (a : State × Bool) h => match a.1.fwFind hd with
      | none => a
      | some f => let x := a.1.rebuildHead hd f keep h
        (x.1, a.2 || x.2)) (s.fwOpenWork (fhDie hd) (fhIx hd), false)
    (fin r.1, r.2)

/-- The next head of a form (R314). A form that applies log entries reads the log's slabs (log 63). -/
def State.fwHead (s : State) (c : Fin 64) (e : FEnt) (hd : Nat) (f : FwState) (h : Nat) : State × FEnt :=
  let d := fhDie hd
  match e.op with
  | .fwLogc _ _ _ =>
    let x := (f.head h).replay f.geo h (f.pend.take (bits e.gb.toNat 0 7))
    let bad := (f.committed h ++ f.logs).any (s.slabPoison d)
    let s1 := if bad then s.setSlabPoison d (f.committed h) true else s
    (s1.fwSet d (fhIx hd) (f.setHead h x), { e with bad := e.bad || bad })
  | .fwLogd _ _ _ =>
    let x := s.rebuildHead hd f (f.kept e.gb.toNat) h
    (x.1, { e with bad := e.bad || x.2 })
  | .fwAvg _ _ _ => s.averageHead e hd f h
  | _ => s.chunkHead c e hd f h

/-- What a form does after its last head, and its result (R325 to R327). -/
def State.fwLast (s : State) (e : FEnt) (hd : Nat) (f : FwState) : State × Word :=
  let set := fun (p : List LogEnt) => s.fwSet (fhDie hd) (fhIx hd) { f with pend := p }
  match e.op with
  | .fwLogc _ _ _ => let n := bits e.gb.toNat 0 7
    (if n = 0 then s else set (f.pend.drop n), word n)
  | .fwLogd _ _ _ => let keep := f.kept e.gb.toNat
    (if keep.length = f.pend.length then s else set keep, word (f.pend.length - keep.length))
  | _ => (if changes e.op && e.spec then set (f.pend ++ e.slog) else s, 0)

/-! ## Forms that act at once (R328 to R334) -/

/-- FW.OPEN's new state from its geometry word (R328). -/
def openState (g region : Nat) : FwState :=
  { h := bits g 16 6 + 1, dk := bits g 0 8 + 1, dv := bits g 8 8 + 1, comp := bits g 22 1 == 1, log := bits g 23 1 == 1,
    w := [], c := [], w2 := [], c2 := [], pend := [], place := .grotto, sw := [], sc := [], swork := [], frames := [],
    region := region }

/-- FW.OPEN (R328). -/
def State.fwOpenDo (s : State) (c : Fin 64) (e : FEnt) : State × Word :=
  let d := dieOf c
  let f := openState e.ga.toNat e.region
  match s.fwPick d with
  | none => (s, fwFail 0x06)
  | some (ix, s1) =>
    match s1.takeSlabs d e.region (List.replicate f.slabCount false) with
    | none => (s, fwFail 0x04)
    | some (l, s2) => let s3 := s2.fwSet d ix (f.settle l)
      (s3, word (s3.fwHandle d ix))

/-- FW.CLOSE (R329, R337). -/
def State.fwCloseDo (s : State) (hd : Nat) (f : FwState) : State × Word :=
  let d := fhDie hd
  let ix := fhIx hd
  let n := f.pend.length
  let s1 := s.fwSet d ix { f with pend := [] }
  if f.place = .t1 then (s1, word n)
  else match s1.outFrames d { f with pend := [] } .t1 with
    | .error x => (s, fwFail x)
    | .ok (l, s2) => (s2.fwOutTo d ix .t1 l, word n)

/-- FW.ROLL (R334). -/
def State.fwRollDo (s : State) (e : FEnt) (th sh : Nat) (t f : FwState) : State × Word :=
  let d := fhDie th
  let ix := fhIx th
  let n := word t.pend.length
  if !(t.sameGeo f) then (s, fwFail 0x05)
  else if th = sh then (s.fwSet d ix { t with pend := [] }, n)
  else if t.comp && !f.comp then
    let shared := (List.range t.planeSlabs).filter fun i => decide (1 < s.slabRefs d (t.sc.getD i 6144))
    match s.takeSlabs d e.region (shared.map fun _ => false) with
    | none => (s, fwFail 0x04)
    | some (new, s1) =>
      let sc := (shared.zip new).foldl (fun (l : List Nat) p => l.set p.1 p.2) t.sc
      let s2 := s1.fwSet d ix { t with w := f.w, c := [], sw := f.sw, sc := sc, pend := [] }
      ((s2.setSlabPoison d sc false).dropSlabs d (t.sw ++ t.sc), n)
  else
    let s1 := s.fwSet d ix { t with w := f.w, c := if t.comp then f.c else t.c, sw := f.sw,
                                    sc := if t.comp then f.sc else t.sc, pend := [] }
    (s1.dropSlabs d (t.sw ++ t.sc), n)

/-! ## Transfer parts (R312, R330, R335) -/

/-- The tier of FW.PAGE .t1 and .t2. -/
def pageTier (o : Fin 8) : Place := if o.val = 0 then .t1 else .t2

/-- The entry leaves the queue, and the pager goes on with its transfer part. -/
def State.addXfer (s : State) (c : Fin 64) (e : FEnt) (hd target : Nat) (tix : Option Nat) : State :=
  let k := s.core c
  let x : Xfer := { id := e.id, task := k.taskid, teamix := k.teamix, core := c, die := (fhDie hd).val, e := e, ix := fhIx hd,
                    target := target, tix := tix, ctx := k.ctx }
  { (s.upCore c fun k => { k with fwq := k.fwq.filter (·.id ≠ e.id) }) with xfers := s.xfers ++ [x] }

/-- FW.PAGE at its start (R330, R337). -/
def State.fwPageStart (s : State) (c : Fin 64) (e : FEnt) (o : Fin 8) (hd : Nat) (f : FwState) : State :=
  let d := fhDie hd
  let e1 := { e with started := true }
  if o.val < 2 then
    if f.place = pageTier o then s.fwSettle c e 0
    else match s.outFrames d f (pageTier o) with
      | .error x => s.fwSettle c e (fwFail x)
      | .ok (l, s1) => s1.addXfer c { e1 with hold := l } hd d.val none
  else if o.val = 2 then
    if f.place = .grotto then s.fwSettle c e 0 else s.addXfer c e1 hd d.val none
  else if o.val = 3 then s.addXfer c e1 hd d.val none
  else if !f.pend.isEmpty then s.fwSettle c e (fwFail 0x03)
  else match s.takeSlabs d e.region (List.replicate (f.planeSlabs * (if f.comp then 2 else 1)) false) with
    | none => s.fwSettle c e (fwFail 0x04)
    | some (l, s1) => s1.addXfer c { e1 with hold := l } hd d.val none

/-- FW.MIG at its start (R335). -/
def State.fwMigStart (s : State) (c : Fin 64) (e : FEnt) (hd : Nat) (f : FwState) : State :=
  let g := e.gb.toNat
  let d := fhDie hd
  let t : Fin 4 := Fin.ofNat 4 (bits g 0 2)
  let e1 := { e with started := true }
  if bits g 16 1 = 1 then
    if s.routeLive (bits g 32 16) then s.addXfer c e1 hd 4 none else s.fwSettle c e (fwFail 0x08)
  else if t = d then s.fwSettle c e (word hd)
  else if !(s.fwDirUp (dieOf c) t) || !(s.routeUp d t) then s.fwSettle c e (fwFail 0x08)
  else match s.fwPick t with
    | none => s.fwSettle c e (fwFail 0x06)
    | some (j, s1) =>
      if f.place ≠ .grotto then s1.addXfer c e1 hd t.val (some j)
      else match s1.takeSlabs t f.region (s.fwMarks d f) with
        | none => s.fwSettle c e (fwFail 0x04)
        | some (l, s2) => s2.addXfer c { e1 with hold := l } hd t.val (some j)

/-! ## Start and page-in (R311, R323) -/

/-- Begins a judged entry. -/
def State.fwBegin (s : State) (c : Fin 64) (e : FEnt) : State :=
  let hd := e.hs.headD 0
  let done := fun (x : State × Word) => x.1.fwSettle c e x.2
  match e.op with
  | .fwOpen _ _ => done (s.fwOpenDo c e)
  | op =>
    match s.fwFind hd with
    | none => s.fwSettle c e (fwFail 0x01)
    | some f =>
      match op with
      | .fwClose _ _ => done (s.fwCloseDo hd f)
      | .fwFree _ _ => done (s.fwFreeState (fhDie hd) (fhIx hd), 0)
      | .fwStat _ _ => done (s, word (s.fwStatus (fhDie hd) f (s.fwMoving hd)))
      | .fwPage _ _ _ o => s.fwPageStart c e o hd f
      | .fwMig _ _ _ => s.fwMigStart c e hd f
      | .fwSnap _ _ => done (match s.fwShare (fhDie hd) (fhIx hd) e.region with
        | none => (s, fwFail 0x06)
        | some (h, s1) => (s1, word h))
      | .fwRoll _ _ _ => match s.fwFind (e.hs.getD 1 0) with
        | none => s.fwSettle c e (fwFail 0x01)
        | some g => done (s.fwRollDo e hd (e.hs.getD 1 0) f g)
      | _ => match s.fwHeadStart e hd f with
        | .error x => s.fwSettle c e (fwFail x)
        | .ok s1 => s1.upFw c e.id fun _ => { e with started := true }

/-- The head of the queue, judged for its start: its handles, its failure code, or nothing while it must wait. -/
def State.fwReady (s : State) (c : Fin 64) : Option (FEnt × Except Nat (List Nat)) :=
  match (s.core c).fwq with
  | [] => none
  | e :: _ =>
    if e.started || e.out.isSome || !(s.storesDone c e.role e.id) then none
    else match s.fwJudge c e.names with
      | .error x => some (e, .error x)
      | .ok hs => if !(isStat e.op) && (hs.any s.fwTransfer || s.fwShut c e hs) then none else some (e, .ok hs)

/-- FW_START (R323). -/
def State.fwStart (s : State) (c : Fin 64) : State :=
  match s.fwReady c with
  | none => s
  | some (e, .error x) => s.fwSettle c e (fwFail x)
  | some (e, .ok hs) => if needsIn e.op && hs.any s.fwPaged then s else s.fwBegin c { e with hs := hs }

/-- FW_PAGE_IN_DONE (R311): the pager brings back the first paged state that the next form needs. -/
def State.fwPageIn (s : State) (c : Fin 64) : State :=
  match s.fwReady c with
  | some (e, .ok hs) =>
    match if needsIn e.op then hs.find? s.fwPaged else none with
    | none => s
    | some h => match s.fwIn (fhDie h) (fhIx h) with
      | .error x => s.fwSettle c e (fwFail x)
      | .ok s1 => s1
  | _ => s

/-- FW_COMPLETE (R313, R314): the running form performs its next head, or delivers its result. A state that its die's reset has
taken ends the form with 0x01 (R336). -/
def State.fwComplete (s : State) (c : Fin 64) : State :=
  match (s.core c).fwq with
  | [] => s
  | e :: _ =>
    match e.out with
    | some v => s.fwFinish c e v
    | none =>
      if !e.started then s
      else
        let hd := e.hs.headD 0
        match s.fwFind hd with
        | none => s.fwFinish c e (fwFail 0x01)
        | some f =>
          if (e.hs.drop 1).any fun h => (s.fwFind h).isNone then s.fwFinish c e (fwFail 0x01)
          else match (e.heads f)[e.head]? with
            | some h =>
              let (s1, e1) := s.fwHead c e hd f h
              s1.upFw c e.id fun _ => { e1 with head := e.head + 1 }
            | none =>
              let (s1, v) := s.fwLast e hd f
              s1.fwFinish c e (if e.bad then fwFail 0x0A else v)

/-! ## The end of a transfer (R330, R335) -/

/-- What a transfer has reserved goes back. -/
def State.dropHold (s : State) (x : Xfer) : State :=
  match x.e.op with
  | .fwPage _ _ _ o =>
    if o.val < 2 then s.giveFrames (Fin.ofNat 4 x.die) (pageTier o) x.e.hold else s.dropSlabs (Fin.ofNat 4 x.die) x.e.hold
  | _ => s.dropSlabs (Fin.ofNat 4 x.target) x.e.hold

/-- gD takes the result of a transfer: on the task's core, or at its resume (R335). -/
def State.xferEnd (s : State) (x : Xfer) (v : Word) : State :=
  let s1 := { s with xfers := s.xfers.filter (·.id ≠ x.id) }
  match s1.task x.task with
  | none => s1
  | some t => match t.coreAt x.teamix with
    | some c => s1.upThr c x.e.role fun t => t.deliver (fwGd x.e.op) x.e.id v
    | none => s1.upTask x.task fun t => { t with results := t.results ++ [(x.teamix, x.e.role, (fwGd x.e.op).val, x.e.id, v)] }

/-- The slab place and byte of element i of an image: W in head order, then C. -/
def FwState.elemAt (f : FwState) (i : Nat) : Bool × Nat :=
  if 4 * i < f.planeBytes then (false, 4 * i) else (true, 4 * i - f.planeBytes)

/-- The slab of element i among those of W and C in order. -/
def FwState.elemSlab (f : FwState) (i : Nat) : Nat :=
  let p := f.elemAt i
  (if p.1 then f.planeSlabs else 0) + p.2 / 65536

/-- The elements of an image (R330). -/
def FwState.imageLen (f : FwState) : Nat := f.planeBytes / 4 * (if f.comp then 2 else 1)

/-- Performs elements of an image from the next one until it ends or something stops it. -/
def State.imageRun (x : Xfer) (f : FwState) (wr : Bool) : Nat → FEnt → State → State × FEnt × Option Stall
  | 0, e, s => (s, e, none)
  | n + 1, e, s =>
    if f.imageLen ≤ e.head then (s, e, none)
    else
      let d : Fin 4 := Fin.ofNat 4 x.die
      let va := addrAdd e.gb.toNat (4 * e.head)
      match s.engAt x.core 5 e.asid va (if wr then .write else .read) false with
      | .stop w => (s, e, some w)
      | .ok pa leaf s1 =>
        let p := f.elemAt e.head
        if wr then
          let bad := s.slabPoison d ((f.sw ++ f.sc).getD (f.elemSlab e.head) 6144)
          let s2 := s1.ioPut x.core (.dev pa leaf) ((if p.1 then f.c else f.w).read p.2 4)
          let s3 := if bad then s2.setPoison (pa / 64) true else s2
          State.imageRun x f wr n { e with head := e.head + 1, bad := e.bad || bad } s3
        else
          let s2 := (if s.poisoned (pa / 64) then s1.setSlabPoison d [e.hold.getD (f.elemSlab e.head) 6144] true else s1).msServe pa 4 (leafBd leaf)
          State.imageRun x f wr n { e with head := e.head + 1, buf := e.buf.write (4 * e.head) (s.phys pa 4) } s2

/-- A stopped image transfer leaves a record on the core that its task runs on, if there is a place (R181, R330); while the task is off
its cores, or not yet reloaded, it waits. -/
def State.imageFault (s : State) (x : Xfer) (e : FEnt) (y : XFault) : State :=
  let keep := { s with xfers := s.xfers.map fun z => if z.id = x.id then { x with e := e } else z }
  match s.task x.task with
  | none => s.dropHold x |>.xferEnd x 0
  | some t => match t.coreAt x.teamix with
    | none => keep
    | some c => match s.tryRec c { role := e.role, op := .fw e, fault := y, cancel := false } with
      | none => keep
      | some s1 => { s1 with xfers := s1.xfers.filter (·.id ≠ x.id) }

/-- An image transfer goes on (R330). -/
def State.imageStep (s : State) (x : Xfer) (f : FwState) (wr : Bool) : State :=
  let d : Fin 4 := Fin.ofNat 4 x.die
  let keep := fun (s : State) (e : FEnt) => { s with xfers := s.xfers.map fun (z : Xfer) => if z.id = x.id then { x with e := e } else z }
  match State.imageRun x f wr (f.imageLen - x.e.head) x.e s with
  | (s1, e, some (.fault y)) => (s1.upCore x.core fun k => k.leave .seq).imageFault x e y
  | (s1, e, some (.cow asid va leaf)) => (match (keep s1 e).askCowFor (dieOf x.core) x.e.region asid va leaf with
    | .wait s2 => s2
    | .empty _ => keep s1 e)
  | (s1, e, some w) => (keep s1 e).ask x.core .seq w
  | (s1, e, none) =>
    if wr then s1.xferEnd x (if e.bad then fwFail 0x0A else 0)
    else
      let n := f.planeSlabs
      let g := { f with w := e.buf.slice 0 f.planeBytes, c := e.buf.slice f.planeBytes f.planeBytes, sw := e.hold.take n,
                        sc := if f.comp then e.hold.drop n else f.sc }
      ((s1.fwSet d x.ix g).dropSlabs d (f.sw ++ f.sc)).xferEnd x 0

/-- The context record of a handle-0 migration takes the new handle (R335). -/
def State.migRecord (s : State) (x : Xfer) (h : Nat) : State :=
  if x.e.ga ≠ 0 then s
  else match x.ctx with
    | none => s
    | some i => match s.hwStore (dieOf x.core) 0 (s.ctxAddr i + 16) (leBytes 8 h) with
      | .ok s1 => s1
      | .error _ => s

/-- A migration within the chip ends: the state stands at the target and the old handle is stale. -/
def State.migEnd (s : State) (x : Xfer) (f : FwState) (j : Nat) : State :=
  let d : Fin 4 := Fin.ofNat 4 x.die
  let t : Fin 4 := Fin.ofNat 4 x.target
  if !(s.fwDirUp d t) then (s.dropHold x).xferEnd x (fwFail 0x08)
  else
    let g := if f.place = .grotto then f.settle x.e.hold else f
    let s1 := (s.fwVacate d x.ix).fwSet t j g
    let s2 := if f.place = .grotto then s1.dropSlabs d f.slabs else s1
    let h := s2.fwHandle t j
    (s2.migRecord x h).xferEnd x (word h)

/-- The handle that another chip gives a state: its own number and the die asked for; entry and generation are its own (log 51). -/
def State.farHandle (s : State) (x : Xfer) : Nat × State :=
  let g := x.e.gb.toNat
  let chip := match s.routes.find? (·.h == bits g 32 16) with
    | some r => r.chip
    | none => 0
  let (v, s1) := s.freeVal
  (fhWord (bits chip 0 8) (Fin.ofNat 4 (bits g 0 2)) (bits v.toNat 0 13) (1 + bits v.toNat 13 15 % 0x7FFF), s1)

/-- FW_TRANSFER_COMPLETE (R330, R335). -/
def State.xferComplete (s : State) (i : Nat) : State :=
  match s.xfers[i]? with
  | none => s
  | some x =>
    let d : Fin 4 := Fin.ofNat 4 x.die
    match s.fwFind (x.e.hs.headD 0) with
    | none => (s.dropHold x).xferEnd x (fwFail 0x01)
    | some f =>
      if x.lost || !(s.cdUp d) then (s.dropHold x).xferEnd x (fwFail 0x08)
      else match x.e.op with
        | .fwPage _ _ _ o =>
          if o.val < 2 then
            if s.framesLost d (x.e.hold ++ f.frames) then (s.dropHold x).xferEnd x (fwFail 0x08)
            else (s.fwOutTo d x.ix (pageTier o) x.e.hold).xferEnd x 0
          else if o.val = 2 then
            match s.fwIn d x.ix with
            | .error z => s.xferEnd x (fwFail z)
            | .ok s1 => s1.xferEnd x 0
          else s.imageStep x f (o.val == 3)
        | _ =>
          match x.tix with
          | some j => s.migEnd x f j
          | none =>
            let r := bits x.e.gb.toNat 32 16
            if !(s.routeLive r) then s.xferEnd x (fwFail 0x08)
            else if Config.farFault r (x.e.hs.headD 0) then s.xferEnd x (fwFail 0x06)
            else if f.place = .grotto ∧ Config.farShort r (x.e.hs.headD 0) then s.xferEnd x (fwFail 0x04)
            else
              let (h, s1) := s.farHandle x
              ((s1.fwFreeState d x.ix).migRecord x h).xferEnd x (word h)

/-! ## States and units from another chip (R273, R335) -/

/-- The state that another chip sends; W′ and C′ are the committed planes with the log applied (R325). -/
def farState (region geo : Nat) (w c : List Byte) (log : List FarEntry) : FwState :=
  let f := openState geo region
  let g := { f with
    w := Mem.write [] 0 (w.take f.planeBytes), c := if f.comp then Mem.write [] 0 (c.take f.planeBytes) else [],
    pend := if f.log then (log.take 64).map fun x => { win := x.win, arow := x.arow, k := x.k, a := x.a, b := x.b, v := x.v } else [] }
  if g.pend.isEmpty then g else (List.range g.h).foldl (fun (f : FwState) h => f.rebuild g.pend h) g

/-- A state arrives in the Grotto of a die: it takes an entry and slabs as FW.MIG does, or nothing changes (R335). -/
def State.farArrive (s : State) (d : Fin 4) (region : Nat) (f : FwState) : State :=
  if !(s.fwDirUp d d) then s
  else match s.fwPick d with
    | none => s
    | some (ix, s1) => match s1.takeSlabs d region (List.replicate f.slabCount false) with
      | none => s
      | some (l, s2) => s2.fwSet d ix (f.settle l)

/-- REMOTE_COPY_RECEIVE (R273, R335). -/
def execRemoteCopyReceive (u : FarUnit) (s : State) : Out :=
  .next (match u with
    | .units asid va bytes bar bad => s.farUnits asid va bytes bar bad
    | .state d region geo w c log => s.farArrive d region (farState region geo w c log))

end Sys2Proof.Machine
end

