-- ==== Sys2Proof/Machine/FastIssue.lean ====
section
/-! DEFINITION. The instructions of MAJ 42 to 45 at issue, and the events of the update engine and the pager (R308, R309, R312,
R320 to R335). -/
namespace Sys2Proof.Machine

/-! ## Issue checks -/

/-- The checks that every instruction of MAJ 42 to 45 makes at issue (R330). -/
def State.fwGate (s : State) (maj : Nat) (reads : List (Fin 32)) (go : Unit → Out) : Out :=
  s.gate { maj := maj } reads fun _ =>
    if s.myCore.recPending s.cr 3 then s.trap cENG 0x06
    else if s.asyncOpen then s.block 10 0
    else go ()

/-- A handle is judged at issue (R309), after the directory has been read once (R308); then the word goes on with the state. -/
def State.fwNamed (s : State) (g : Word) (loc : Bool) (go : Nat → FwState → Out) : Out :=
  let bad := fun c d va => s.trapX { cause := c, detail := d, va := va, kind := if va = 0 then 0 else 1 }
  if g = 0 ∧ !(s.me.stores.isEmpty) then s.hold
  else match s.fwName s.cc g with
    | .error (c, d) => bad c d (if c = cFWH then 0 else s.ctxAddr (s.myCore.ctx.getD 0) + 16)
    | .ok h =>
      if fhBad h then bad cFWH 0x02 0
      else if fhChip h ≠ s.chipn then bad cFWH 0x03 0
      else if !(s.myCore.fwcache.contains h) then
        if s.fwDirUp (dieOf s.cc) (fhDie h) then
          .next (s.upMyCore fun k => { k with fwwant := if k.fwwant.contains h then k.fwwant else k.fwwant ++ [h] })
        else bad cDIEX 0 0
      else match s.fwFind h with
        | none => bad cFWH 0x01 0
        | some f => if loc && fhDie h != dieOf s.cc then bad cFWH 0x04 0 else go h f

/-- Handles judged one after another. -/
def State.fwAllNamed (s : State) : List Word → (Unit → Out) → Out
  | [], go => go ()
  | g :: t, go => s.fwNamed g true fun _ _ => s.fwAllNamed t go

/-- The instruction takes its place in the queue, or blocks while the queue is full (R312). -/
def State.fwQueue (s : State) (op : Instr) (gs : List Word) (desc : List Byte) (geo : List Nat) : Out :=
  if 8 ≤ s.myCore.fwq.length then s.block 9 3
  else
    let (id, s1) := s.fresh
    let e : FEnt := { id := id, role := s.cr, op := op, gs := gs, desc := desc, asid := s.asid, region := s.myCore.view.region,
                      geo := geo, started := false, hs := [], head := 0, out := none, bad := false, slog := [], hold := [],
                      buf := [] }
    ((s1.upMyCore fun k => { k with fwq := k.fwq ++ [e] }).upMe fun t => t.owe (fwGd op) id).done 2

/-! ## Chunk forms (R321, R322) -/

/-- The arrays that a form uses: descriptor offset, values per head and token. -/
def FEnt.arrays (e : FEnt) (g : HGeo) : List (Nat × Nat) :=
  (if hasReads e.op then [(0, g.dk)] else []) ++ (if changes e.op then [(8, g.dk), (16, g.dv)] else []) ++
    (if hasReads e.op then [(24, g.dv)] else []) ++
    (if changes e.op then [(32, if e.arow then g.dk else 1), (40, 1)] else [])

/-- In the own-pool window (R106). -/
def inOwn (va : Nat) : Bool := decide (0x00FF000000000000 ≤ va) && decide (va < 0x00FF000000800000)

/-- n bytes from an own-window address lie in the scratchpad. -/
def Core.inScratch (k : Core) (va n : Nat) : Bool :=
  decide (k.bndv * 65536 ≤ va - 0x00FF000000000000) && decide (va - 0x00FF000000000000 + n ≤ k.bnds * 65536)

/-- Checks 2 to 4 of R322 for places in the scratchpad: address, bytes, alignment. -/
def Core.scratchCheck (k : Core) (l : List (Nat × Nat × Nat)) : Option XFault :=
  let mk := fun c d (x : Nat × Nat × Nat) => ({ cause := c, detail := d, va := x.1, kind := 1 } : XFault)
  match l.find? (fun x => !(inOwn x.1)) with
  | some x => some (mk cPAGE 0x49 x)
  | none => match l.find? (fun x => x.1 % x.2.2 != 0) with
    | some x => some (mk cALIGN x.2.2 x)
    | none => (l.find? fun x => !(k.inScratch x.1 x.2.1)).map (mk cPAGE 0x4A)

/-- Checks 2 to 8 of R322. -/
def State.chunkCheck (s : State) (e : FEnt) (f : FwState) : Option XFault :=
  let ty := fun d => some ({ cause := cTYPE, detail := d, va := 0, kind := 0 } : XFault)
  let places := if inOwn e.ga.toNat then
      (e.arrays f.geo).map fun a => (e.fld a.1 8, 4 * (e.tokens * e.nh * a.2), 4)
    else []
  match s.myCore.scratchCheck ((e.ga.toNat, 64, 64) :: places) with
  | some x => some x
  | none =>
    if bits (e.fld 48 1) 6 2 ≠ 0 ∨ bits (e.fld 49 1) 6 2 ≠ 0 ∨ bits (e.fld 50 1) 6 2 ≠ 0 ∨ bits (e.fld 51 1) 3 5 ≠ 0 ∨
        e.fld 54 10 ≠ 0 then ty 0x31
    else if f.h < e.hb + e.nh then ty 0x32
    else if changes e.op && e.spec && !(e.hb == 0 && e.nh == f.h) then ty 0x33
    else if changes e.op && e.spec && !f.log then ty 0x34
    else none

/-- Issues a chunk form: the handle, the descriptor as the pool holds it, the checks. -/
def State.chunkIssue (s : State) (op : Instr) (a b : Fin 32) : Out :=
  s.fwGate 42 [a, b] fun _ =>
    let ga := s.me.get a
    let gb := s.me.get b
    s.fwNamed gb true fun _ f =>
      if !(s.me.stores.isEmpty) then s.hold
      else
        let desc := s.myCore.pool.read (ga.toNat - 0x00FF000000000000) 64
        let e : FEnt := { id := 0, role := s.cr, op := op, gs := [ga, gb], desc := desc, asid := 0, region := 0, geo := [],
                          started := false, hs := [], head := 0, out := none, bad := false, slog := [], hold := [], buf := [] }
        match s.chunkCheck e f with
        | some x => s.trapX x
        | none => s.fwQueue op [ga, gb] desc f.geoList

/-- FW.FU (R321). -/
def execFwFu (a b d : Fin 32) (s : State) : Out := s.chunkIssue (.fwFu a b d) a b

/-- FW.FWD (R321). -/
def execFwFwd (a b d : Fin 32) (s : State) : Out := s.chunkIssue (.fwFwd a b d) a b

/-- FW.UPD (R321). -/
def execFwUpd (a b d : Fin 32) (s : State) : Out := s.chunkIssue (.fwUpd a b d) a b

/-! ## The other forms -/

/-- FW.OPEN (R328). -/
def execFwOpen (a d : Fin 32) (s : State) : Out :=
  s.fwGate 43 [a] fun _ =>
    if (s.me.get a).toNat / 2 ^ 24 ≠ 0 then s.trap cTYPE 0x37 else s.fwQueue (.fwOpen a d) [s.me.get a] [] []

/-- FW.CLOSE (R329). -/
def execFwClose (a d : Fin 32) (s : State) : Out :=
  s.fwGate 43 [a] fun _ => s.fwNamed (s.me.get a) false fun _ _ => s.fwQueue (.fwClose a d) [s.me.get a] [] []

/-- FW.FREE (R329). -/
def execFwFree (a d : Fin 32) (s : State) : Out :=
  s.fwGate 43 [a] fun _ => s.fwNamed (s.me.get a) false fun _ _ => s.fwQueue (.fwFree a d) [s.me.get a] [] []

/-- FW.PAGE (R330). -/
def execFwPage (a b d : Fin 32) (o : Fin 8) (s : State) : Out :=
  s.fwGate 43 (if o.val < 3 then [a] else [a, b]) fun _ => s.fwNamed (s.me.get a) false fun _ _ =>
    if 3 ≤ o.val ∧ (s.me.get b).toNat % 4096 ≠ 0 then
      s.trapX { cause := cALIGN, detail := 4096, va := (s.me.get b).toNat, kind := if o.val = 3 then 2 else 1 }
    else s.fwQueue (.fwPage a b d o) [s.me.get a, s.me.get b] [] []

/-- FW.STAT (R331). -/
def execFwStat (a d : Fin 32) (s : State) : Out :=
  s.fwGate 43 [a] fun _ => s.fwNamed (s.me.get a) false fun _ _ => s.fwQueue (.fwStat a d) [s.me.get a] [] []

/-- FW.SNAP (R332). -/
def execFwSnap (a d : Fin 32) (s : State) : Out :=
  s.fwGate 44 [a] fun _ => s.fwNamed (s.me.get a) true fun _ _ => s.fwQueue (.fwSnap a d) [s.me.get a] [] []

/-- FW.AVG (R333): the list, then its handles. -/
def execFwAvg (a b d : Fin 32) (s : State) : Out :=
  s.fwGate 44 [a, b] fun _ =>
    if !(s.me.stores.isEmpty) then s.hold
    else
      let va := (s.me.get a).toNat
      let n := bits (s.me.get b).toNat 0 5
      match s.myCore.scratchCheck [(va, 8 + 16 * n, 64)] with
      | some x => s.trapX x
      | none =>
        let l := s.myCore.pool.read (va - 0x00FF000000000000) (8 + 16 * n)
        let at_ := fun i => word (field l (if i = 0 then 0 else 16 * i - 8) 8)
        if n = 0 ∨ 16 < n ∨ (List.range n).any (fun i => field l (16 * i + 20) 4 != 0) then s.trap cTYPE 0x36
        else s.fwAllNamed ((List.range (n + 1)).map at_) fun _ => s.fwQueue (.fwAvg a b d) [s.me.get a, s.me.get b] l []

/-- FW.ROLL (R334). -/
def execFwRoll (a b d : Fin 32) (s : State) : Out :=
  s.fwGate 44 [a, b] fun _ => s.fwAllNamed [s.me.get a, s.me.get b] fun _ =>
    s.fwQueue (.fwRoll a b d) [s.me.get a, s.me.get b] [] []

/-- FW.MIG (R335). -/
def execFwMig (a b d : Fin 32) (s : State) : Out :=
  s.fwGate 44 [a, b] fun _ => s.fwNamed (s.me.get a) false fun _ _ =>
    s.fwQueue (.fwMig a b d) [s.me.get a, s.me.get b] [] []

/-- FW.LOGC (R326). -/
def execFwLogc (a b d : Fin 32) (s : State) : Out :=
  s.fwGate 45 [a, b] fun _ => s.fwNamed (s.me.get a) true fun _ _ =>
    s.fwQueue (.fwLogc a b d) [s.me.get a, s.me.get b] [] []

/-- FW.LOGD (R327). -/
def execFwLogd (a b d : Fin 32) (s : State) : Out :=
  s.fwGate 45 [a, b] fun _ => s.fwNamed (s.me.get a) true fun _ _ =>
    s.fwQueue (.fwLogd a b d) [s.me.get a, s.me.get b] [] []

/-! ## Events -/

/-- FW_DIRECTORY_RESOLVE (R308): the first handle that the core is resolving enters its cache of 64. -/
def State.fwResolve (s : State) (c : Fin 64) : State :=
  match (s.core c).fwwant with
  | [] => s
  | h :: t => s.upCore c fun k => { k with fwwant := t, fwcache := (h :: k.fwcache.filter (· ≠ h)).take 64 }

/-- FW_DIRECTORY_RESOLVE (R308). -/
def execFwDirectoryResolve (c : Fin 64) (s : State) : Out := .next (s.fwResolve c)

/-- FW_START (R323). -/
def execFwStart (c : Fin 64) (s : State) : Out := .next (s.fwStart c)

/-- FW_COMPLETE (R313). -/
def execFwComplete (c : Fin 64) (s : State) : Out := .next (s.fwComplete c)

/-- FW_PAGE_IN_DONE (R311). -/
def execFwPageInDone (c : Fin 64) (s : State) : Out := .next (s.fwPageIn c)

/-- FW_TRANSFER_COMPLETE (R335). -/
def execFwTransferComplete (im : Nat) (s : State) : Out := .next (s.xferComplete im)

end Sys2Proof.Machine
end

