-- ==== Sys2Proof/Machine/Context.lean ====
section
/-! DEFINITION. The Context Table and the sequence queue: records and their fields, LOCK, lanes, the accesses of the sequence
engines, failure records, and the fork walker's copy of an attention-cache subtree (R172, R338 to R345). -/
namespace Sys2Proof.Machine

/-! ## Context records (R338, R339) -/

def cSTATE (r : Nat) : Nat := bits r 0 2
def cRESET (r : Nat) : Bool := bits r 2 1 == 1
def cGB (r : Nat) : Bool := bits r 3 1 == 1
def cLOCK (r : Nat) : Bool := bits r 7 1 == 1
def cWIN (r : Nat) : Nat := bits r 36 16
def cREGION (r : Nat) : Nat := bits r 52 12
def cNCHUNK (r : Nat) : Nat := bits r 64 64
def cHAND (r : Nat) : Nat := bits r 128 64
def cCLVL (r : Nat) : Nat := bits r 192 2
def cCNODE (r : Nat) : Nat := bits r 212 40
def cCLEN (r : Nat) : Nat := bits r 256 32
def cGIMG (r : Nat) : Nat := bits r 320 64
def cGSTK (r : Nat) : Nat := bits r 384 64
def cMASKA (r : Nat) : Nat := bits r 448 64
def cGSTATE (r : Nat) : Nat := bits r 512 32
def cGDONE (r : Nat) : Bool := bits r 555 1 == 1
def cTEMP (r : Nat) : Nat := bits r 576 32
def cSEED (r : Nat) : Nat := bits r 640 32
def cCTR (r : Nat) : Nat := bits r 672 32

/-- Depths and counts as the engines read them: no more than their limits. -/
def cNJ (r : Nat) : Nat := min (bits r 288 7) 64
def cGSP (r : Nat) : Nat := min (bits r 544 11) 1024
def cNGJ (r : Nat) : Nat := min (bits r 556 7) 64

/-- TOPK: 0 and 65 to 127 read as 64. -/
def cTOPK (r : Nat) : Nat :=
  let k := bits r 608 7
  if k = 0 ∨ 64 < k then 64 else k

/-- The context journal, oldest first. -/
def cJRN (r : Nat) : List Nat := (List.range (cNJ r)).map fun i => bits r (1024 + 16 * i) 16

/-- The record with a context journal; entries past its end are zero. -/
def setJRN (r : Nat) (l : List Nat) : Nat :=
  let v := l.zipIdx.foldl (fun (a : Nat) x => a + x.1 % 65536 * 2 ^ (16 * x.2)) 0
  setBits (setBits r 1024 1024 v) 288 7 l.length

/-- Places and widths of the fields that the hardware writes. -/
abbrev fSTATE : Nat × Nat := (0, 2)
abbrev fRESET : Nat × Nat := (2, 1)
abbrev fGB : Nat × Nat := (3, 1)
abbrev fLOCK : Nat × Nat := (7, 1)
abbrev fWIN : Nat × Nat := (36, 16)
abbrev fNCHUNK : Nat × Nat := (64, 64)
abbrev fFWH : Nat × Nat := (128, 64)
abbrev fCLEN : Nat × Nat := (256, 32)
abbrev fNJ : Nat × Nat := (288, 7)
abbrev fGIMG : Nat × Nat := (320, 64)
abbrev fGSTK : Nat × Nat := (384, 64)
abbrev fMASKA : Nat × Nat := (448, 64)
abbrev fGSTATE : Nat × Nat := (512, 32)
abbrev fGSP : Nat × Nat := (544, 11)
abbrev fGDONE : Nat × Nat := (555, 1)
abbrev fNGJ : Nat × Nat := (556, 7)
abbrev fTEMP : Nat × Nat := (576, 32)
abbrev fTOPK : Nat × Nat := (608, 7)
abbrev fCTR : Nat × Nat := (672, 32)
abbrev fJRN : Nat × Nat := (1024, 1024)

/-- The committed grammar configuration's fields, and the context journal's. -/
def fCfg : List (Nat × Nat) := [fGSTATE, fGSP, fGDONE]
def fJournal : List (Nat × Nat) := [fJRN, fNJ]

/-- `fs` as `new` has them, the rest as `cur` has it. -/
def setFields (cur new : Nat) (fs : List (Nat × Nat)) : Nat :=
  fs.foldl (fun (r : Nat) f => setBits r f.1 f.2 (bits new f.1 f.2)) cur

def setSTATE (r v : Nat) : Nat := setBits r 0 2 v
def setRESET (r : Nat) (b : Bool) : Nat := setBits r 2 1 (if b then 1 else 0)
def setGB (r : Nat) (b : Bool) : Nat := setBits r 3 1 (if b then 1 else 0)

/-- Reads a record at its base die. -/
def State.ctxRead (s : State) (d : Fin 4) (i : Nat) : Except (Nat × Nat) Nat := (s.hwRead d 0 (s.ctxAddr i) 256).map leNat

/-- Writes fields of a record, as `new` has them, in one step; the other bits stay as they are in memory (R339; log 67). -/
def State.ctxStore (s : State) (d : Fin 4) (i : Nat) (fs : List (Nat × Nat)) (new : Nat) : Except (Nat × Nat) State :=
  match s.ctxRead d i with
  | .error x => .error x
  | .ok cur =>
    let v := setFields cur new fs
    (List.range 32).foldl (fun (acc : Except (Nat × Nat) State) w =>
      match acc with
      | .error x => .error x
      | .ok s =>
        if bits v (64 * w) 64 = bits cur (64 * w) 64 then .ok s
        else s.hwStore d 0 (s.ctxAddr i + 8 * w) (leBytes 8 (bits v (64 * w) 64))) (.ok s)

/-- The number of records (R338). -/
def State.ctxn (s : State) : Nat := bits s.sys[3].toNat 0 19

/-! ## What an engine step gives -/

/-- A step of a sequence engine: a value, or why it does not complete. -/
abbrev SeqM (α : Type) := Except Stall α

/-- A fault at an address. -/
def seqBad {α : Type} (c d va kind : Nat) : SeqM α := .error (.fault { cause := c, detail := d, va := va, kind := kind })

/-- A record access as an engine step (R345). -/
def State.recRead (s : State) (c : Fin 64) (i : Nat) : SeqM Nat :=
  match s.ctxRead (dieOf c) i with
  | .ok r => .ok r
  | .error (ca, d) => seqBad ca d (s.ctxAddr i) 1

def State.recStore (s : State) (c : Fin 64) (i : Nat) (fs : List (Nat × Nat)) (new : Nat) : SeqM State :=
  match s.ctxStore (dieOf c) i fs new with
  | .ok s1 => .ok s1
  | .error (ca, d) => seqBad ca d (s.ctxAddr i) 2

/-- Reads bytes of device memory as the sequence engines do, at the home slice or base die (R143, R167). -/
def State.seqPeek (s : State) (c : Fin 64) (asid va n : Nat) : SeqM (List Byte) :=
  (pagePieces (n / 4096 + 2) va n).foldl (fun (acc : SeqM (List Byte)) p =>
    match acc with
    | .error e => .error e
    | .ok bs =>
      match s.engAt c 5 asid (p.1 % 2 ^ 64) .read false with
      | .stop w => .error w
      | .ok pa _ _ => if s.anyPoison pa p.2 then seqBad cPOISON 0 p.1 1 else .ok (bs ++ s.phys pa p.2)) (.ok [])

/-- Writes bytes of device memory, page by page. -/
def State.seqPoke (s : State) (c : Fin 64) (asid va : Nat) (bs : List Byte) : SeqM State :=
  ((pagePieces (bs.length / 4096 + 2) va bs.length).foldl (fun (acc : SeqM (State × List Byte)) p =>
    match acc with
    | .error e => .error e
    | .ok (s, bs) =>
      match s.engAt c 5 asid (p.1 % 2 ^ 64) .write false with
      | .stop w => .error w
      | .ok pa e s1 =>
        .ok (((s1.physWrite pa (bs.take p.2) (leafBd e)).upCore c fun k =>
          (linesOf pa p.2).foldl (fun k l => k.l1drop l) k), bs.drop p.2)) (.ok (s, bs))).map (·.1)

/-- The address space of a context's region (R339). -/
def State.ctxAsid (s : State) (c : Fin 64) (r : Nat) : SeqM Nat :=
  match s.rcbBytes (dieOf c) (cREGION r) with
  | .error (ca, d) => seqBad ca d (s.rcb (cREGION r)) 1
  | .ok _ => .ok (effective 1 6 2 (s.lineage (dieOf c) (cREGION r)) % 4096)

/-! ## Entries and lanes (R342) -/

/-- The register that takes the result. -/
def sqGd : Instr → Fin 32
  | .cxStart _ d _ => d
  | .cxPause _ d => d
  | .cxEnd _ d => d
  | .cxFork _ _ d => d
  | .cxCancel _ _ d _ => d
  | .cxSpec _ _ d => d
  | .cxCommit _ _ d => d
  | .grBind _ _ d => d
  | .grStep _ _ d _ => d
  | .grMask _ d => d
  | .grLatt _ _ d => d
  | .grSave _ _ d => d
  | .grFork _ _ d => d
  | .grRoll _ _ d => d
  | .skOpen _ d => d
  | .skClose _ _ d _ => d
  | .skDraw _ d => d
  | .ltExp _ d => d
  | .sqCfg _ _ d => d
  | .sqSend _ _ d => d
  | .sqRecv _ _ d => d
  | _ => 0

def SEnt.ga (e : SEnt) : Nat := (e.gs.headD 0).toNat
def SEnt.gb (e : SEnt) : Nat := (e.gs.getD 1 0).toNat

/-- A context index (R338). -/
def ctxIx (g : Nat) : Nat := bits g 0 18

/-- The contexts whose LOCK an instruction takes, ascending (R340). -/
def SEnt.locks (e : SEnt) : List Nat :=
  match e.op with
  | .cxFork _ _ _ => insertNat (ctxIx e.gb) [ctxIx e.ga]
  | .grFork _ _ _ => insertNat (ctxIx e.gb) [ctxIx e.ga]
  | .cxStart _ _ _ => [ctxIx e.ga]
  | .cxPause _ _ => [ctxIx e.ga]
  | .cxEnd _ _ => [ctxIx e.ga]
  | .cxCancel _ _ _ _ => [ctxIx e.ga]
  | .cxSpec _ _ _ => [ctxIx e.ga]
  | .cxCommit _ _ _ => [ctxIx e.ga]
  | .grBind _ _ _ => [ctxIx e.ga]
  | .grStep _ _ _ _ => [ctxIx e.ga]
  | .grMask _ _ => [ctxIx e.ga]
  | .grLatt _ _ _ => [ctxIx e.ga]
  | .grSave _ _ _ => [ctxIx e.ga]
  | .grRoll _ _ _ => [ctxIx e.ga]
  | _ => []

/-- The contexts whose records an instruction reads when it starts (R339): those it locks, and the one that SK.OPEN names. -/
def SEnt.reads (e : SEnt) : List Nat :=
  match e.op with
  | .skOpen _ _ => [ctxIx (field e.desc 12 4)]
  | _ => e.locks

/-- The record of a context as it stood when the entry started. -/
def SEnt.recOf (e : SEnt) (i : Nat) : Nat := ((e.reads.zip e.recs).find? fun x => x.1 == i).elim 0 (·.2)

/-- The lane of a form and, in the sink and queue lanes, what keeps its order: `none` starts at once (R342). -/
def SEnt.lane (e : SEnt) (die : Nat) : Nat × Option Nat :=
  match e.op with
  | .skOpen _ _ => (1, none)
  | .skClose _ _ _ _ => (1, some e.ga)
  | .skDraw _ _ => (1, some e.ga)
  | .sqCfg _ _ _ => (2, some (16 * die + bits e.ga 0 4))
  | .sqSend _ _ _ => (2, some (16 * bits e.gb 8 2 + bits e.gb 0 4))
  | .sqRecv _ _ _ => (2, some (16 * die + bits e.gb 0 4))
  | _ => (0, some 0)

/-- An earlier instruction of the thread in the same lane has not completed. -/
def Core.sqBehind (k : Core) (die : Nat) (i : Nat) (e : SEnt) : Bool :=
  (k.sq.take i).any fun x => x.role == e.role && (e.lane die).2.isSome && x.lane die == e.lane die

def State.upSq (s : State) (c : Fin 64) (id : Nat) (f : SEnt → SEnt) : State :=
  s.upCore c fun k => { k with sq := k.sq.map fun e => if e.id = id then f e else e }

/-- Clears what an entry holds: the BUSY of a fork's leaves, and its LOCKs. -/
def State.unlock (s : State) (c : Fin 64) (e : SEnt) : State :=
  e.locked.foldl (fun (s : State) i =>
    match s.ctxRead (dieOf c) i with
    | .error _ => s
    | .ok r => match s.ctxStore (dieOf c) i [fLOCK] (setBits r 7 1 0) with
      | .ok s1 => s1
      | .error _ => s) (s.forkUnmark e)

/-- An entry completes: LOCK clears and gD takes the result (R340, R342). -/
def State.seqDone (s : State) (c : Fin 64) (e : SEnt) (v : Word) : State :=
  ((s.unlock c e).upThr c e.role fun t => t.deliver (sqGd e.op) e.id v).upCore c fun k =>
    { k.leave .seq with sq := k.sq.filter (·.id ≠ e.id) }

/-- An entry as it was before it started: nothing is changed, and it executes again (R345). -/
def SEnt.fresh (e : SEnt) : SEnt :=
  { e with started := false, locked := [], recs := [], sent := none, dropped := 0, stop := none }

/-- An entry leaves an engine fault record if there is a place; else it keeps its place in the queue, has changed nothing, and waits for a
record place (R181, R345). -/
def State.seqFault (s : State) (c : Fin 64) (e : SEnt) (x : XFault) : State :=
  let s1 := s.unlock c e
  match s1.tryRec c { role := e.role, op := .seq e.fresh, fault := x, cancel := false } with
  | some s2 => s2.upCore c fun k => { k.leave .seq with sq := k.sq.filter (·.id ≠ e.id) }
  | none => (s1.upCore c fun k => k.leave .seq).upSq c e.id fun _ => { e.fresh with stop := some x }

/-- A fork's marking begins (R172): BUSY on every leaf of the parent's subtree, which leave the TLBs. -/
def State.forkMark (s : State) (c : Fin 64) (e : SEnt) (level frame asid : Nat) : State :=
  let l := (s.treeLeaves level frame).map fun x => leafFrame x.2
  let s1 := s.treeBusy level frame true
  ({ s1 with cores := s1.cores.map fun (k : Core) => k.dropFrames asid l }).upSq c e.id fun e => { e with sent := some 0 }

/-- Ends an attempt to complete an entry. -/
def State.seqEnd (s : State) (c : Fin 64) (e : SEnt) (r : SeqM (State × Word)) : State :=
  match r with
  | .ok (s1, v) => s1.seqDone c e v
  | .error (.fault x) => s.seqFault c e x
  | .error (.mark l f a) => s.forkMark c e l f a
  | .error w => s.ask c .seq w

/-- A failure that changes nothing (R343). -/
def seqFail (s : State) (code : Nat) : SeqM (State × Word) := .ok (s, fwFail code)

/-! ## Sink rows of a context (R341, R347, R350) -/

/-- Abandons the open rows of a context that `sel` picks by window. -/
def State.abandon (s : State) (i : Nat) (sel : Nat → Bool) : State :=
  let f := fun (r : Row) => if r.ctx = i ∧ sel r.win then { r with abandoned := true } else r
  { s with bds := s.bds.map fun b => { rows := b.rows.map fun x => { x with row := x.row.map f } } }

/-- Window e is at or after w (R350). -/
def atOrAfter (w e : Nat) : Bool := decide ((e + 65536 - w % 65536) % 65536 < 32768)

/-! ## The fork walker's copy of a subtree (R172) -/

/-- The entry a leaf becomes in the parent and the child: COW where WR = 1, and BUSY clear. -/
def markLeaf (e : Nat) : Nat := leafSetBusy (if leafWr e then setBits e 8 1 1 else e) false

/-- Copies a node, entry by entry: leaves are marked and counted, tables below get the frames of the list. The state and the
frames left. A leaf of T3 has no frame: its bits 59:20 are counted as a frame where they name one with a record (log 72). -/
def State.forkNode : Nat → Nat → Nat → List Nat → State → State × List Nat
  | l, pf, cf, frames, s =>
    (List.range 512).foldl (fun (acc : State × List Nat) i =>
      let (s, frames) := acc
      let e := s.nodeEnt pf i
      if leafP e && leafLeaf e then
        let m := markLeaf e
        let s1 := if m = e then s else s.hwWrite (4096 * pf + 8 * i) 8 m
        let s2 := if i % runLen (leafSize e) = 0 ∧ hasRec (leafFrame e) then
            s1.setFrameCount (leafFrame e) (s1.frameCount (leafFrame e) + 1)
          else s1
        (s2.hwWrite (4096 * cf + 8 * i) 8 m, frames)
      else if isTable l e then
        match l, frames with
        | l + 1, nf :: rest => State.forkNode l (leafFrame e) nf rest (s.hwWrite (4096 * cf + 8 * i) 8 (setBits e 20 40 nf))
        | _, _ => acc
      else (s.hwWrite (4096 * cf + 8 * i) 8 e, frames)) (s, frames)

/-- Takes n frames of 4 KiB from a free-pool list, or none. -/
def State.poolFrames (s : State) (d : Fin 4) (list : Nat) : Nat → Option (List Nat × State)
  | 0 => some ([], s)
  | n + 1 => match s.poolFrames d list n with
    | none => none
    | some (l, s1) => (s1.takeFrame d list).map fun x => (l ++ [x.1], x.2)

/-- What the fork walker reports. -/
inductive ForkRes where
  | done (s : State)
  | noFrames
  | wait
  /-- BUSY has to be set first. -/
  | mark
  | fault (x : XFault)

/-- The fork walker copies the parent's subtree to the child's (R172): frames first, then the marking under BUSY, then the invalidation of
the marked pages. BUSY is seen set while accesses through a leaf are under way; `held`: this walker has set it. The marking of all leaves
falls into one moment (log 72). -/
def State.forkTree (s : State) (d : Fin 4) (level pf cf : Nat) (asid region : Nat) (held : Bool) : ForkRes :=
  let nodes := s.treeNodes level pf
  let leaves := s.treeLeaves level pf
  match (cf :: nodes).findSome? fun f => (s.lost d (4096 * f)).map fun x => (f, cDIEX, x) with
  | some (f, c, x) => .fault { cause := c, detail := x, va := 4096 * f, kind := 1 }
  | none =>
    if nodes.any fun f => s.anyPoison (4096 * f) 4096 then .fault { cause := cPOISON, detail := 0, va := 4096 * pf, kind := 1 }
    else if !held && leaves.any fun x => leafBusy x.2 then .wait
    else if leaves.any fun x => s.leafInUse x.2 then (if held then .wait else .mark)
    else
      let list := effective 11 48 8 (s.lineage d region)
      match s.poolFrames d list (nodes.length - 1) with
      | none => .noFrames
      | some (frames, s1) =>
        let s2 := (State.forkNode level pf cf frames s1).1
        let marked := leaves.map fun x => leafFrame x.2
        .done ({ s2 with cores := s2.cores.map fun (k : Core) => k.dropFrames asid marked }).leafSynced

end Sys2Proof.Machine
end

