-- ==== Sys2Proof/Machine/Grammar.lean ====
section
/-! DEFINITION. The Flowstone engine: grammar images, configurations, taking a token, masks, the checks of a binding, lattices
(R352 to R362). -/
namespace Sys2Proof.Machine

/-! ## Images (R353) -/

/-- Reads n bytes of a grammar image at an offset. -/
abbrev GRead := Nat → Nat → SeqM (List Byte)

/-- The image at `base` in an address space. -/
def State.gImage (s : State) (c : Fin 64) (asid base : Nat) : GRead := fun o n => s.seqPeek c asid ((base + o) % 2 ^ 64) n

/-- The header of an image. -/
structure GHdr where
  ver    : Nat
  nstate : Nat
  v      : Nat
  start  : Nat
  endtok : Nat
  zeros  : Nat
  sto    : Nat
  size   : Nat
  deriving DecidableEq, Repr

def gHdr (rd : GRead) : SeqM GHdr := (rd 0 64).map fun b =>
  { ver := field b 0 4, nstate := field b 4 4, v := field b 8 4, start := field b 12 4, endtok := field b 16 4,
    zeros := field b 20 4 + field b 40 24, sto := field b 24 8, size := field b 32 8 }

/-- n bytes at offset o, a multiple of `al`, lie in the image. -/
def GHdr.inside (h : GHdr) (o n al : Nat) : Bool := o % al == 0 && decide (o + n ≤ h.size)

def GHdr.formOk (h : GHdr) : Bool := h.ver == 0x00010000 && h.zeros == 0

def GHdr.limitsOk (h : GHdr) : Bool :=
  decide (1 ≤ h.nstate) && decide (h.nstate ≤ 65536) && decide (1 ≤ h.v) && decide (h.v ≤ 262144) &&
    decide (h.start < h.nstate) && decide (h.endtok < h.v)

def GHdr.offsetsOk (h : GHdr) : Bool := decide (64 ≤ h.size) && decide (h.size ≤ 2 ^ 32) && h.inside h.sto (16 * h.nstate) 16

/-- A state's record, a key and a range. -/
structure GState where
  flags : Nat
  nkey  : Nat
  ko    : Nat
  deriving DecidableEq, Repr

structure GKey where
  sym : Nat
  nr  : Nat
  ro  : Nat
  deriving DecidableEq, Repr

structure GRange where
  lo   : Nat
  hi   : Nat
  act  : Nat
  next : Nat
  sa   : Nat
  sb   : Nat
  deriving DecidableEq, Repr

def gState (rd : GRead) (h : GHdr) (i : Nat) : SeqM GState := (rd (h.sto + 16 * i) 16).map fun b =>
  { flags := field b 0 4, nkey := field b 4 4, ko := field b 8 8 }

def gKeys (rd : GRead) (x : GState) : SeqM (List GKey) := (rd x.ko (16 * x.nkey)).map fun b =>
  (List.range x.nkey).map fun i => { sym := field b (16 * i) 4, nr := field b (16 * i + 4) 4, ro := field b (16 * i + 8) 8 }

def gRanges (rd : GRead) (k : GKey) : SeqM (List GRange) := (rd k.ro (24 * k.nr)).map fun b =>
  (List.range k.nr).map fun i =>
    { lo := field b (24 * i) 4, hi := field b (24 * i + 4) 4, act := field b (24 * i + 8) 4, next := field b (24 * i + 12) 4,
      sa := field b (24 * i + 16) 4, sb := field b (24 * i + 20) 4 }

/-- Sorted by ascending SYM, without repeats. -/
def keysOk : List GKey → Bool
  | a :: b :: t => decide (a.sym < b.sym) && keysOk (b :: t)
  | _ => true

/-- Sorted ranges with LO ≤ HI < V. -/
def rangesOk (v : Nat) : List GRange → Bool
  | [] => true
  | [a] => decide (a.lo ≤ a.hi) && decide (a.hi < v)
  | a :: b :: t => decide (a.lo ≤ a.hi) && decide (a.hi < v) && decide (a.hi < b.lo) && rangesOk v (b :: t)

def GRange.actOk (r : GRange) : Bool := decide (r.act ≤ 4)
def GRange.nextOk (h : GHdr) (r : GRange) : Bool := decide (r.next < h.nstate)
def GRange.symOk (r : GRange) : Bool := decide (r.sa < 0xFFFFFFFE) && decide (r.sb < 0xFFFFFFFE)

/-! ## Configurations and tokens (R352, R354) -/

/-- A grammar configuration; the top of the stack comes first. -/
structure GCfg where
  state : Nat
  stack : List Nat
  done  : Bool
  deriving DecidableEq, Repr

/-- What a configuration meets in the image: ACCEPT and the ranges of its key; `none` when a structure breaks R353 (R356). -/
def gNode (rd : GRead) (h : GHdr) (g : GCfg) : SeqM (Option (Bool × List GRange)) :=
  if !h.formOk || !h.limitsOk || !h.offsetsOk || decide (h.nstate ≤ g.state) then .ok none
  else (gState rd h g.state).bind fun x =>
    if 2 ≤ x.flags ∨ !(h.inside x.ko (16 * x.nkey) 16) then .ok none
    else (gKeys rd x).bind fun ks =>
      if !(keysOk ks) then .ok none
      else
        let acc := x.flags == 1
        let key := match ks.find? fun k => k.sym == g.stack.headD 0xFFFFFFFF with
          | some k => some k
          | none => ks.find? fun k => k.sym == 0xFFFFFFFE
        match key with
        | none => .ok (some (acc, []))
        | some k =>
          if !(h.inside k.ro (24 * k.nr) 8) then .ok none
          else (gRanges rd k).map fun rs =>
            if rangesOk h.v rs && rs.all (fun r => r.actOk && r.nextOk h && r.symOk) then some (acc, rs) else none

/-- Takes token x, or rejects it (R354). -/
def gTake (h : GHdr) (n : Option (Bool × List GRange)) (g : GCfg) (x : Nat) : Option GCfg :=
  if g.done then none
  else match n with
  | none => none
  | some (acc, rs) =>
    if x = h.endtok then (if acc then some { g with done := true } else none)
    else match rs.find? fun r => decide (r.lo ≤ x) && decide (x ≤ r.hi) with
      | none => none
      | some r =>
        match r.act with
        | 1 => some { g with state := r.next }
        | 2 => if g.stack.length = 1024 then none else some { g with state := r.next, stack := r.sa :: g.stack }
        | 3 => if 1022 < g.stack.length then none else some { g with state := r.next, stack := r.sb :: r.sa :: g.stack }
        | 4 => match g.stack with
          | t :: rest => if t = r.sa then some { g with state := r.next, stack := rest } else none
          | [] => none
        | _ => none

/-- Takes a token from a configuration as the image's bytes stand. -/
def gStep (rd : GRead) (h : GHdr) (g : GCfg) (x : Nat) : SeqM (Option GCfg) := (gNode rd h g).map fun n => gTake h n g x

/-- Tokens taken in order; a rejected one leaves the configuration unchanged. -/
def gReplay (rd : GRead) (h : GHdr) : GCfg → List Nat → SeqM GCfg
  | g, [] => .ok g
  | g, x :: t => (gStep rd h g x).bind fun r => gReplay rd h (r.getD g) t

/-- MB (R354). -/
def maskBytes (v : Nat) : Nat := (v + 511) / 512 * 64

/-- The mask of a configuration as bytes, and the tokens it allows (R354). -/
def gMask (h : GHdr) (n : Option (Bool × List GRange)) (g : GCfg) : List Byte × Nat :=
  let v := min h.v 262144
  let bs := (List.range (maskBytes v)).map fun i =>
    (List.range 8).foldl (fun (a : Nat) b => if 8 * i + b < v ∧ (gTake h n g (8 * i + b)).isSome then a + 2 ^ b else a) 0
  (bs.map fun x => BitVec.ofNat 8 x, (bs.map fun x => ((List.range 8).filter fun b => bits x b 1 == 1).length).sum)

/-- The mask of an optional configuration: all zero for an invalid row (R362). -/
def gMaskOf (rd : GRead) (h : GHdr) : Option GCfg → SeqM (List Byte × Nat)
  | none => .ok (List.replicate (maskBytes (min h.v 262144)) 0, 0)
  | some g => (gNode rd h g).map fun n => gMask h n g

/-! ## Loading and storing (R352) -/

/-- A grammar journal entry (R339): token and window. -/
def jEntry (x : Nat) : Nat × Nat := (bits x 0 18, bits x 32 16)
def jWord (e : Nat × Nat) : Nat := e.1 + e.2 % 65536 * 2 ^ 32

/-- The committed configuration and the grammar journal of a context. -/
def State.gLoad (s : State) (c : Fin 64) (asid r : Nat) : SeqM (GCfg × List (Nat × Nat)) :=
  (s.seqPeek c asid (cGSTK r) (4 * cGSP r)).bind fun st =>
    (s.seqPeek c asid ((cGSTK r + 4096) % 2 ^ 64) (8 * cNGJ r)).map fun jr =>
      ({ state := cGSTATE r, stack := ((List.range (cGSP r)).map fun i => field st (4 * i) 4).reverse, done := cGDONE r },
       (List.range (cNGJ r)).map fun i => jEntry (field jr (8 * i) 8))

/-- Writes the committed configuration back: the stack area, and the record's fields. -/
def State.gStoreCfg (s : State) (c : Fin 64) (asid r : Nat) (g : GCfg) : SeqM (State × Nat) :=
  (s.seqPoke c asid (cGSTK r) (g.stack.reverse.flatMap fun x => leBytes 4 x)).map fun s1 =>
    (s1, setBits (setBits (setBits r 512 32 g.state) 544 11 g.stack.length) 555 1 (if g.done then 1 else 0))

/-- Writes the grammar journal back. -/
def State.gStoreJrn (s : State) (c : Fin 64) (asid r : Nat) (l : List (Nat × Nat)) : SeqM (State × Nat) :=
  (s.seqPoke c asid ((cGSTK r + 4096) % 2 ^ 64) (l.flatMap fun e => leBytes 8 (jWord e))).map fun s1 =>
    (s1, setBits r 556 7 l.length)

/-! ## The checks of GR.BIND (R356) -/

/-- A test over the states of an image, as far as their records can be read. -/
def gAllStates (rd : GRead) (h : GHdr) (f : GState → SeqM Bool) : SeqM Bool :=
  (List.range h.nstate).foldl (fun (acc : SeqM Bool) i =>
    acc.bind fun b => if b then (gState rd h i).bind f else .ok false) (.ok true)

/-- A test over the keys of a state. -/
def gAllKeys (rd : GRead) (x : GState) (f : GKey → SeqM Bool) : SeqM Bool :=
  (gKeys rd x).bind fun ks => ks.foldl (fun (acc : SeqM Bool) k => acc.bind fun b => if b then f k else .ok false) (.ok true)

/-- A test over the ranges of an image whose offsets are sound. -/
def gAllRanges (rd : GRead) (h : GHdr) (f : List GRange → Bool) : SeqM Bool :=
  gAllStates rd h fun x => gAllKeys rd x fun k => (gRanges rd k).map f

/-- The tests of R356 in the order of its table: the detail of the first that fails, 0 for a sound image. -/
def gVerify (rd : GRead) (gimg : Nat) : SeqM Nat :=
  (gHdr rd).bind fun h =>
    if !h.formOk then .ok 0x01
    else if !h.limitsOk then .ok 0x02
    else if !h.offsetsOk || gimg % 4096 != 0 then .ok 0x03
    else (gAllStates rd h fun x => .ok (h.inside x.ko (16 * x.nkey) 16)).bind fun b3 =>
      if !b3 then .ok 0x03
      else (gAllStates rd h fun x => gAllKeys rd x fun k => .ok (h.inside k.ro (24 * k.nr) 8)).bind fun b3 =>
        if !b3 then .ok 0x03
        else (gAllStates rd h fun x => (gKeys rd x).map keysOk).bind fun b4 =>
          if !b4 then .ok 0x04
          else (gAllRanges rd h (rangesOk h.v)).bind fun b5 =>
            if !b5 then .ok 0x05
            else (gAllRanges rd h fun l => l.all GRange.actOk).bind fun b6 =>
              (gAllStates rd h fun x => .ok (decide (x.flags < 2))).bind fun f6 =>
                if !(b6 && f6) then .ok 0x06
                else (gAllRanges rd h fun l => l.all (GRange.nextOk h)).bind fun b7 =>
                  if !b7 then .ok 0x07
                  else (gAllRanges rd h fun l => l.all GRange.symOk).map fun b8 => if b8 then 0 else 0x08

/-! ## Areas (R355, R356, R364) -/

/-- The physical pieces of n bytes at `va` when a test holds of every page's leaf; `none` where it does not, or a page cannot be
walked. -/
def State.areaSegs (s : State) (c : Fin 64) (asid va n : Nat) (ok : Nat → Bool) : Option (List (Nat × Nat)) :=
  (pagePieces (n / 4096 + 2) va n).foldl (fun (acc : Option (List (Nat × Nat))) p =>
    match acc with
    | none => none
    | some l =>
      match if inWindow p.1 then .error (0, 0) else s.engLeaf c 5 asid (p.1 % 2 ^ 64) with
      | .error _ => none
      | .ok e => if ok e then some (l ++ [(leafAddr e p.1, p.2)]) else none) (some [])

/-- All pieces lie in one stack: that stack. -/
def oneStack (l : List (Nat × Nat)) : Option (Fin 8) :=
  match l with
  | [] => none
  | x :: t => if t.all fun y => stackOf y.1 == stackOf x.1 then some (stackOf x.1) else none

/-- Sink pages of T0. -/
def sinkLeaf (e : Nat) : Bool := leafSk e && leafTier e == 0

/-- A context's mask area, as R355 requires it: its stack. -/
def State.maskStack (s : State) (c : Fin 64) (asid maska v : Nat) : Option (Fin 8) :=
  if maska % 4096 ≠ 0 then none
  else (s.areaSegs c asid maska (64 + 65 * maskBytes v) sinkLeaf).bind oneStack

/-- The stack area lies on untyped pages (R356). -/
def State.stackAreaOk (s : State) (c : Fin 64) (asid gstk : Nat) : Bool :=
  gstk % 64 == 0 && (s.areaSegs c asid gstk 4608 fun e => leafFmt e == 0).isSome

/-! ## Ready bits (R355) -/

/-- Changes RDY and, where given, VALID in one step. -/
def State.setReady (s : State) (c : Fin 64) (asid maska : Nat) (clr set : Nat) (valid : Option Nat) : SeqM State :=
  (s.seqPeek c asid maska 16).bind fun b =>
    let v := leNat b
    let w := Nat.lor (v - Nat.land v clr) set
    s.seqPoke c asid maska (leBytes 16 w ++ match valid with
      | some x => leBytes 8 x
      | none => [])

/-- The ready bits of every slot. -/
def allSlots : Nat := 2 ^ 65 - 1

/-! ## Lattices (R360, R361) -/

/-- A node entry. -/
structure LNode where
  token : Nat
  has0  : Bool
  has1  : Bool
  par0  : Nat
  par1  : Nat
  rsv   : Nat
  deriving DecidableEq, Repr

def lNode (x : Nat) : LNode :=
  { token := bits x 0 18, has0 := bits x 18 1 == 1, has1 := bits x 19 1 == 1, par0 := bits x 20 6, par1 := bits x 26 6,
    rsv := bits x 32 32 }

/-- The cases of R360 that do not hold of a sound lattice. -/
def latticeBad (n : Nat) (l : List LNode) : Bool :=
  n == 0 || decide (64 < n) || l.zipIdx.any fun x =>
    (x.1.has0 && decide (x.2 ≤ x.1.par0)) || (x.1.has1 && decide (x.2 ≤ x.1.par1)) || (x.1.has1 && !x.1.has0) ||
      (x.1.has1 && x.1.par1 == x.1.par0) || x.1.rsv != 0

/-- The first paths in path order, each as its nodes from the last to the first, 65 at most: whether more than 64 exist shows
(R361). -/
def latticePaths (l : List LNode) : List (List Nat) :=
  l.zipIdx.foldl (fun (acc : List (List Nat)) x =>
    let via := fun (p : Nat) => (acc.filter fun q => q.head? == some p).map (x.2 :: ·)
    let new := if !x.1.has0 then [[x.2]] else via x.1.par0 ++ (if x.1.has1 then via x.1.par1 else [])
    (acc ++ new).take 65) []

/-- The bytes of the row of path p among the rows (R361). -/
def latticeRow (l : List LNode) (rows : List (List Nat)) (pos0 : Nat) (p : List Nat) : List Byte :=
  let am := rows.zipIdx.foldl (fun (a : Nat) q => if q.1.reverse.isPrefixOf p.reverse then a + 2 ^ q.2 else a) 0
  let prow := match p with
    | _ :: (y :: t) => (rows.findIdx? (· == y :: t)).getD 255
    | _ => 255
  let node := p.headD 0
  leBytes 8 am ++ leBytes 4 ((l[node]?).map (·.token) |>.getD 0) ++ leBytes 4 ((pos0 + p.length - 1) % 2 ^ 32) ++
    leBytes 1 node ++ leBytes 1 p.length ++ leBytes 1 prow ++ leBytes 13 0

end Sys2Proof.Machine
end

