-- ==== Sys2Proof/Machine/Sink.lean ====
section
/-! DEFINITION. The sink: rows and tickets, block processing, shortlists and draws; and the speculation queues (R73, R363 to
R370). -/
namespace Sys2Proof.Machine

/-! ## Tickets and rows (R363) -/

def tkGen (t : Nat) : Nat := bits t 16 16
def tkBd (t : Nat) : Fin 8 := Fin.ofNat 8 (bits t 8 3)
def tkRow (t : Nat) : Nat := bits t 0 8
def tkWord (b : Fin 8) (ix gen : Nat) : Nat := gen * 65536 + b.val * 256 + ix

/-- The generation of a row; one not used yet has 1. -/
def BaseDie.gen (b : BaseDie) (ix : Nat) : Nat :=
  match b.rows.find? (·.ix == ix) with
  | some x => x.gen
  | none => 1

def BaseDie.row (b : BaseDie) (ix : Nat) : Option Row := (b.rows.find? (·.ix == ix)).bind (·.row)

/-- The open row that a ticket names. -/
def State.rowOf (s : State) (t : Nat) : Option Row :=
  if bits t 32 32 ≠ 0 ∨ bits t 11 5 ≠ 0 ∨ (s.bd (tkBd t)).gen (tkRow t) ≠ tkGen t then none else (s.bd (tkBd t)).row (tkRow t)

def State.setRow (s : State) (b : Fin 8) (ix gen : Nat) (r : Option Row) : State :=
  s.setBd b { rows := { ix := ix, gen := gen, row := r } :: (s.bd b).rows.filter (·.ix ≠ ix) }

/-- The row of a ticket changes. -/
def State.putRow (s : State) (t : Nat) (r : Row) : State := s.setRow (tkBd t) (tkRow t) (tkGen t) (some r)

/-- The row of a ticket is freed, and its generation advances, skipping 0 (R363). -/
def State.freeRow (s : State) (t : Nat) : State := s.setRow (tkBd t) (tkRow t) (nextGen 0xFFFF (tkGen t)) none

/-- Rows of a base die that are free. -/
def BaseDie.freeRows (b : BaseDie) : List Nat := (List.range 256).filter fun i => (b.row i).isNone

/-! ## Temperature classes (R365) -/

inductive TClass where
  | greedy
  | normal
  | unif
  | bad
  deriving DecidableEq, Repr

def tClass (t : Nat) : TClass :=
  if t % 2 ^ 31 = 0 ∨ t < 2 ^ 23 then .greedy
  else if t < 0x7F800000 then .normal
  else if t = 0x7F800000 then .unif
  else .bad

/-- −∞ as an FP32 code. -/
def negInf : Nat := 0xFF800000

/-! ## Processing a block (R73, R365, R372) -/

/-- n bytes of physical pieces from place o. -/
def State.segRead (s : State) (l : List (Nat × Nat)) (o n : Nat) : List Byte :=
  (linePieces (n / 64 + 2) o n).flatMap fun p =>
    let rec go : List (Nat × Nat) → Nat → List Byte
      | [], _ => []
      | (b, k) :: t, at_ => if at_ ≤ p.1 ∧ p.1 < at_ + k then s.phys (b + p.1 - at_) p.2 else go t (at_ + k)
    go l 0

/-- Writes bytes at place o of physical pieces as the sink does: the row's own landing does not come of it. -/
def State.segWrite (s : State) (l : List (Nat × Nat)) (o : Nat) (bs : List Byte) : State :=
  ((linePieces (bs.length / 64 + 2) o bs.length).foldl (fun (acc : State × List Byte) p =>
    let rec go : List (Nat × Nat) → Nat → State
      | [], _ => acc.1
      | (b, k) :: t, at_ =>
        if at_ ≤ p.1 ∧ p.1 < at_ + k then acc.1.physWrite (b + p.1 - at_) (acc.2.take p.2) true else go t (at_ + k)
    (go l 0, acc.2.drop p.2)) (s, bs)).1

def Row.blockCount (r : Row) : Nat := (r.v + 4095) / 4096

/-- Tokens of block b. -/
def Row.blockLen (r : Row) (b : Nat) : Nat := min 4096 (r.v - 4096 * b)

/-- Every line of block b has landed (R363). -/
def Row.hasLanded (r : Row) (b : Nat) : Bool :=
  (List.range ((4 * r.blockLen b + 63) / 64)).all fun i => r.landed.contains (256 * b + i)

/-- The named slot's ready bit is set. -/
def State.slotReady (s : State) (r : Row) : Bool :=
  match r.slot with
  | none => true
  | some i => bits (s.physNat r.rdypa 16) i 1 == 1

/-- The mask bit of a token: bits at and above the grammar's V read as 0 (R364). -/
def maskBit (m : List Byte) (gv t : Nat) : Bool := decide (t < gv) && bits ((m.getD (t / 8) 0).toNat) (t % 8) 1 == 1

/-- The y of a token (R365). -/
def sinkY (cl : TClass) (c : Nat) (allowed : Bool) (x : Nat) : Nat :=
  if !allowed || (fp32 x).isNan then negInf
  else match cl with
    | .greedy => x
    | .unif => 0
    | _ => (pMul x c).1

/-- m[b] and s[b] (R73). -/
def blockSum (ys : List Nat) : Nat × Nat :=
  let m := treeMax ys
  (m, if m = negInf then 0 else treeSum (ys.map fun y => (fexp (pSub y m).1).1))

/-- Processes block b of a row. -/
def State.processRow (s : State) (t : Nat) (r : Row) (b : Nat) : State :=
  let mask := match r.mask with
    | some m => some m
    | none => if r.slot.isSome then some (s.segRead r.msegs 0 (maskBytes r.gv)) else none
  let allowed := fun (i : Nat) => match r.slot, mask with
    | some _, some m => maskBit m r.gv i
    | _, _ => true
  let cl := tClass r.temp
  let c := if cl = .normal then (frcp r.temp).1 else 0
  let base := 4096 * b
  let xs := (leLanes (s.segRead r.segs (4 * base) (4 * r.blockLen b))).map (·.toNat)
  let toks := xs.zipIdx.map fun x => (base + x.2, x.1)
  let ys := toks.map fun x => (x.1, sinkY cl c (allowed x.1) x.2)
  let (m, sum) := blockSum (ys.map (·.2))
  let fine := toks.filter fun x => allowed x.1 && !(fp32 x.2).isNan
  let s1 := s.segWrite r.segs (4 * base) (ys.flatMap fun y => leBytes 4 y.2)
  s1.putRow t { r with mask := mask, blocks := r.blocks ++ [(b, m, sum)], ys := r.ys ++ ys.filter (fun y => y.2 != negInf),
                       cand := r.cand ++ fine.map (·.1),
                       nanl := r.nanl || toks.any fun x => allowed x.1 && (fp32 x.2).isNan }

/-- SINK_BLOCK_PROCESS (R365): block `b` of row `ix` of a base die, once it has landed and its mask is ready. -/
def State.sinkProcess (s : State) (bd : Fin 8) (ix b : Nat) : State :=
  match (s.bd bd).row ix with
  | none => s
  | some r =>
    if r.abandoned || tClass r.temp == .bad || decide (r.blockCount ≤ b) || r.blocks.any (fun x => x.1 == b) ||
        !(r.hasLanded b) || !(s.slotReady r) || !(s.bdUp bd) || !(s.cdUp (Fin.ofNat 4 (bd.val / 2))) then s
    else s.processRow (tkWord bd ix ((s.bd bd).gen ix)) r b

/-! ## Closing a row (R73, R366) -/

/-- Every block is processed, or the row closes at once. -/
def Row.canClose (r : Row) : Bool := r.abandoned || tClass r.temp == .bad || r.blocks.length == r.blockCount

/-- m and S over the blocks (R73). -/
def Row.sums (r : Row) : Nat × Nat :=
  let bs := (List.range r.blockCount).filterMap fun b => (r.blocks.find? (·.1 == b)).map (·.2)
  let m := treeMax (bs.map (·.1))
  (m, treeSum (bs.map fun x => if x.1 = negInf then 0 else (pMul x.2 (fexp (pSub x.1 m).1).1).1))

/-- What a closed row reports. -/
structure Report where
  status : Nat
  places : List (Nat × Nat)
  m      : Nat
  sum    : Nat
  deriving DecidableEq, Repr

/-- (y, token) pairs in descending y, ties lower token first. -/
def before (a b : Nat × Nat) : Bool :=
  if (fp32 b.2).lt (fp32 a.2) then true else if (fp32 a.2).lt (fp32 b.2) then false else decide (a.1 < b.1)

/-- Inserts a token into the n best so far. -/
def keepBest (n : Nat) (x : Nat × Nat) : List (Nat × Nat) → List (Nat × Nat)
  | [] => if n = 0 then [] else [x]
  | y :: t => if n = 0 then [] else if before x y then x :: (y :: t).take (n - 1) else y :: keepBest (n - 1) x t

/-- STATUS, shortlist, m and S (R365, R366). -/
def Row.report (r : Row) : Report :=
  let cl := tClass r.temp
  let base := (match cl with
    | .bad => 1
    | .greedy => 2
    | .unif => 4
    | .normal => 0) + (if r.nanl then 8 else 0)
  if cl = .bad ∨ r.abandoned then { status := base + (if r.abandoned then 32 else 0), places := [], m := 0, sum := 0 }
  else
    let (m, sum) := r.sums
    if m = negInf then { status := base + 64, places := [], m := 0, sum := 0 }
    else
      { status := base + (if m = 0x7F800000 ∨ nonFinite sum then 16 else 0),
        places := r.ys.foldl (fun l x => keepBest r.topk x l) [], m := m, sum := sum }

/-- The 528 bytes of a shortlist (R366). -/
def Report.bytes (x : Report) (win : Nat) : List Byte :=
  leBytes 2 x.status ++ leBytes 1 x.places.length ++ leBytes 1 0 ++ leBytes 4 x.m ++ leBytes 4 x.sum ++ leBytes 2 win ++
    leBytes 2 0 ++ ((List.range 64).flatMap fun i => match x.places[i]? with
      | some p => leBytes 4 p.1 ++ leBytes 4 p.2
      | none => leBytes 8 0)

/-- Why a ticket fails (R343, R363): its base die is quarantined, or it is stale. -/
def State.ticketFail (s : State) (t : Nat) : Nat := if s.bdUp (tkBd t) then 0x2D else 0x31

/-- Goes on where a core's request reaches a base die: while the compute die before it is quarantined, or no route leads there, the form
completes with DIEX as a replayable record (R12, R345, R423). -/
def State.reachBd {α : Type} (s : State) (c : Fin 64) (b : Fin 8) (go : SeqM α) : SeqM α :=
  let d : Fin 4 := Fin.ofNat 4 (b.val / 2)
  if s.bdUp b && !(s.cdUp d && s.routeUp (dieOf c) d) then seqBad cDIEX 0 0 1 else go

/-- SK.CLOSE (R366). -/
def State.skCloseDo (s : State) (c : Fin 64) (e : SEnt) (free : Bool) : SeqM (State × Word) :=
  let t := e.ga
  s.reachBd c (tkBd t) <| match if s.bdUp (tkBd t) then s.rowOf t else none with
  | none => seqFail s (s.ticketFail t)
  | some r =>
    if !r.canClose then .error .wait
    else
      let x := r.report
      let o := e.gb - 0x00FF000000000000
      let s1 := s.upCore c fun k => { k with pool := k.pool.write o (x.bytes r.win) }.markPool o 528 false
      let s2 := if free then s1.freeRow t else s1.putRow t { r with closed := true }
      .ok (s2, word (x.status + 65536 * x.places.length))

/-! ## Drawing (R367) -/

/-- The running sums P of a shortlist. -/
def prefixSums (m : Nat) : Nat → List (Nat × Nat) → List Nat
  | _, [] => []
  | acc, x :: t =>
    let p := (pAdd acc (fexp (pSub x.2 m).1).1).1
    p :: prefixSums m p t

/-- u as an FP32 code: a 24-bit fraction. -/
def unitF (z : Nat) : Nat := (f32.round (.fin false (z / 256) (-24)) 0 false 0).1

/-- The drawn token and its place, from SEED and CTR. -/
def Row.pick (r : Row) (x : Report) (seed ctr : Nat) : Nat × Nat :=
  let z := mix seed 0 ctr
  match tClass r.temp with
  | .unif =>
    let cand := r.cand.foldl (fun l t => insertNat t l) []
    let tok := cand.getD (z / 256 * cand.length / 2 ^ 24) 0
    (tok, (x.places.findIdx? (·.1 == tok)).getD 63)
  | _ =>
    let ps := prefixSums x.m 0 x.places
    let t := (pMul (unitF z) (ps.getLastD 0)).1
    let i := (ps.findIdx? fun p => (fp32 t).lt (fp32 p)).getD (x.places.length - 1)
    ((x.places.getD i (0, 0)).1, i)

/-- SK.DRAW (R367): the row is freed whatever comes of the draw. SEED is the one that its start read, CTR that of the atomic. -/
def State.skDrawDo (s : State) (c : Fin 64) (e : SEnt) : SeqM (State × Word) :=
  let t := e.ga
  s.reachBd c (tkBd t) <| match if s.bdUp (tkBd t) then s.rowOf t else none with
  | none => seqFail s (s.ticketFail t)
  | some r =>
    if !r.canClose then .error .wait
    else
      let x := r.report
      let s1 := s.freeRow t
      let give := fun (s : State) (p : Nat × Nat) => Except.ok (s, word (p.1 % 2 ^ 18 + p.2 * 2 ^ 24))
      if tClass r.temp = .bad then .ok (s1, fwFail 0x2B)
      else if r.abandoned then .ok (s1, fwFail 0x2A)
      else if bits x.status 6 1 = 1 then .ok (s1, fwFail 0x2C)
      else if tClass r.temp = .greedy ∨ bits x.status 4 1 = 1 then give s1 ((x.places.headD (0, 0)).1, 0)
      else (s.recRead c r.ctx).bind fun rc =>
        (s1.recStore c r.ctx [fCTR] (setBits rc 672 32 (cCTR rc + 1))).bind fun s2 =>
          give s2 (r.pick x (cSEED (e.recs.headD rc)) (cCTR rc))

/-! ## Opening (R364) -/

/-- SK.OPEN (R364), by the record that its start read (R339). -/
def State.skOpenDo (s : State) (c : Fin 64) (e : SEnt) : SeqM (State × Word) :=
  let d := e.desc
  let ctx := ctxIx (field d 12 4)
  let v := field d 8 4
  let slot := if field d 16 1 = 255 then none else some (field d 16 1)
  let r := e.recOf ctx
  if slot.isSome && !(cGB r) then seqFail s 0x25
  else match (s.areaSegs c e.asid (field d 0 8) (4 * v) sinkLeaf).bind fun l => (oneStack l).map fun b => (l, b) with
    | none => seqFail s 0x28
    | some (segs, bd) =>
      let row := fun (slot : Option Nat) (ms : List (Nat × Nat)) (rdy gv : Nat) =>
        s.reachBd c bd <| if !(s.bdUp bd) then seqFail s 0x31
        else
          let free := (s.bd bd).freeRows
          match free[Config.pickEntry s.free % free.length]? with
          | none => seqFail s 0x29
          | some ix =>
            let gen := (s.bd bd).gen ix
            let x : Row := { segs := segs, v := v, ctx := ctx, slot := slot, msegs := ms, rdypa := rdy, gv := gv,
                             win := field d 18 2, temp := cTEMP r, topk := cTOPK r, mask := none, landed := [], blocks := [],
                             ys := [], cand := [], nanl := false, abandoned := false, closed := false }
            .ok ({ s with free := s.free + 1 }.setRow bd ix gen (some x), word (tkWord bd ix gen))
      match slot with
      | none => row none [] 0 0
      | some i => (s.ctxAsid c r).bind fun asid => (gHdr (s.gImage c asid (cGIMG r))).bind fun h =>
        let gv := min h.v 262144
        if s.maskStack c asid (cMASKA r) gv ≠ some bd then seqFail s 0x28
        else match s.areaSegs c asid (cMASKA r) 16 sinkLeaf,
            s.areaSegs c asid (cMASKA r + 64 + i * maskBytes gv) (maskBytes gv) sinkLeaf with
          | some ((pa, _) :: _), some ms => row (some i) ms pa gv
          | _, _ => seqFail s 0x28

/-! ## Speculation queues (R368 to R370) -/

def State.specq (s : State) (d : Fin 4) (q : Fin 16) : SpecQ := (s.die d).sq[q]

def State.setSpecq (s : State) (d : Fin 4) (q : Fin 16) (x : SpecQ) : State :=
  s.setDie d { s.die d with sq := (s.die d).sq.set q x }

/-- The physical address of the record at place i of a ring: 32 records of 128 bytes in each page. -/
def SpecQ.recAt (q : SpecQ) (i : Nat) : Nat := q.ring.getD (i % 64 / 32) 0 + 128 * (i % 32)

/-- A send or receive of a queue is in flight, other than entry `id` of core c. -/
def State.specBusy (s : State) (d : Fin 4) (q : Nat) (id : Nat) : Bool :=
  (List.finRange 64).any fun p => (s.core p).sq.any fun x => x.started && x.id != id &&
    (match x.op with
     | .sqSend _ _ _ => bits x.gb 8 2 == d.val && bits x.gb 0 4 == q
     | .sqRecv _ _ _ => dieOf p == d && bits x.gb 0 4 == q
     | _ => false)

/-- A page where a ring may lie: untyped T0, on one of the die's two stacks. -/
def ringLeaf (d : Fin 4) (e : Nat) : Bool :=
  leafTier e == 0 && leafFmt e == 0 && (stackOf (4096 * leafFrame e)).val / 2 == d.val

/-- SQ.CFG (R368). -/
def State.sqCfgDo (s : State) (c : Fin 64) (e : SEnt) : SeqM (State × Word) :=
  let d := dieOf c
  let q : Fin 16 := Fin.ofNat 16 e.ga
  if 0 < (s.specq d q).held ∨ 0 < (s.specq d q).flying ∨ s.specBusy d q.val e.id then seqFail s 0x2E
  else if e.gb % 8192 ≠ 0 then seqFail s 0x28
  else match s.areaSegs c e.asid e.gb 8192 (ringLeaf d) with
    | none => seqFail s 0x28
    | some l =>
      if (oneStack l).isNone then seqFail s 0x28
      else .ok (s.setSpecq d q { cfg := true, sender := bits e.ga 8 2, ring := l.map (·.1), head := 0, held := 0, flying := 0,
                                 seq := 0 }, 0)

/-- The die and queue of an SQ.SEND. -/
def SEnt.sendTo (e : SEnt) : Fin 4 × Fin 16 := (Fin.ofNat 4 (bits e.gb 8 2), Fin.ofNat 16 (bits e.gb 0 4))

/-- The queue's stack and the route to its die are up. -/
def State.specUp (s : State) (a d : Fin 4) (q : SpecQ) : Bool :=
  s.cdUp d && s.routeUp a d && q.ring.all fun p => s.bdUp (stackOf p)

/-- SQ.SEND stamps its record and sends it, once the ring has room (R369). -/
def State.sqStamp (s : State) (c : Fin 64) (e : SEnt) : State :=
  let (d, q) := e.sendTo
  let x := s.specq d q
  if e.sent.isSome ∨ 64 ≤ x.held + x.flying then s
  else if !(s.specUp (dieOf c) d x) then s.seqFault c e { cause := cDIEX, detail := 0, va := 0, kind := 2 }
  else (s.setSpecq d q { x with seq := (x.seq + 1) % 65536, flying := x.flying + 1 }).upSq c e.id fun y =>
    { y with sent := some x.seq }

/-- A record of a lower SEQ to the same queue has not landed. -/
def State.sendBehind (s : State) (d : Fin 4) (q : Fin 16) (x : SpecQ) (n : Nat) : Bool :=
  (List.finRange 64).any fun p => (s.core p).sq.any fun y =>
    (match y.op with
     | .sqSend _ _ _ => y.sendTo == (d, q)
     | _ => false) && (match y.sent with
     | some k => decide ((x.seq + 65536 - n) % 65536 < (x.seq + 65536 - k) % 65536)
     | none => false)

/-- SQ_RECORD_LAND (R369): the record of entry i lands whole, with its SEQ stamped, and the send completes. -/
def State.sqLand (s : State) (c : Fin 64) (i : Nat) : State :=
  match (s.core c).sq[i]? with
  | none => s
  | some e =>
    let (d, q) := e.sendTo
    let x := s.specq d q
    match e.op, e.sent with
    | .sqSend _ _ _, some n =>
      if s.sendBehind d q x n || s.pathHeld c d then s
      else
        let x1 := { x with flying := x.flying - 1 }
        if !(s.specUp (dieOf c) d x) then
          (s.setSpecq d q x1).seqFault c e { cause := cDIEX, detail := 0, va := 0, kind := 2 }
        else
          let bs := e.desc.take 4 ++ leBytes 2 n ++ leBytes 2 0 ++ e.desc.drop 8
          ((s.setSpecq d q { x1 with held := x.held + 1 }).physWrite (x.recAt (x.head + x.held)) bs true).seqDone c e (word n)
    | _, _ => s

/-- An earlier SQ.RECV of the die waits on the same queue (R370). -/
def State.recvBehind (s : State) (d : Fin 4) (q n : Nat) : Bool :=
  (List.finRange 64).any fun p => dieOf p == d && (s.core p).sq.any fun y =>
    y.started && (match y.op with
     | .sqRecv _ _ _ => bits y.gb 0 4 == q
     | _ => false) && (match y.sent with
     | some k => decide (k < n)
     | none => false)

/-- SQ.RECV drops one stale head, or takes the head record and acquires (R370). -/
def State.sqTake (s : State) (c : Fin 64) (e : SEnt) : State :=
  let d := dieOf c
  let q : Fin 16 := Fin.ofNat 16 (bits e.gb 0 4)
  let x := s.specq d q
  if x.held = 0 ∨ s.recvBehind d q.val (e.sent.getD 0) then s
  else if !(s.specUp d d x) then s.seqFault c e { cause := cDIEX, detail := 0, va := 0, kind := 1 }
  else
    let bs := s.phys (x.recAt x.head) 128
    let s1 := s.setSpecq d q { x with head := (x.head + 1) % 64, held := x.held - 1 }
    if bits e.gb 8 1 = 1 ∧ field bs 2 1 ≠ bits e.gb 16 8 then s1.upSq c e.id fun y => { y with dropped := y.dropped + 1 }
    else if s.anyPoison (x.recAt x.head) 128 then s.seqFault c e { cause := cPOISON, detail := 0, va := 0, kind := 1 }
    else
      let o := e.ga - 0x00FF000000000000
      let s2 := (s1.upCore c fun k => { k with pool := k.pool.write o bs }.markPool o 128 false).acquired c e.role 4
      s2.seqDone c e (word (field bs 0 2 + field bs 4 2 * 65536 + e.dropped % 65536 * 2 ^ 32))

end Sys2Proof.Machine
end

