-- ==== Sys2Proof/Machine/Sequence.lean ====
section
/-! DEFINITION. The instructions of MAJ 46 to 50 at issue, how their entries start and complete, and the events of the sequence
engines (R338 to R374). -/
namespace Sys2Proof.Machine

/-! ## Context forms (R347 to R351) -/

/-- Finishes a context form: fields of the record change in one step, and the result. -/
def State.ctxPut (s : State) (c : Fin 64) (i : Nat) (fs : List (Nat × Nat)) (new : Nat) (v : Word) : SeqM (State × Word) :=
  (s.recStore c i fs new).map fun s1 => (s1, v)

/-- A context's fast-weight state, judged and in Grotto for a change of the whole state: its failure code, or a wait (R310, R350,
R351). -/
def State.fwWhole (s : State) (c : Fin 64) (h : Nat) : SeqM (Except Nat State) :=
  if (s.fwCheck c h false).isSome then .ok (.error 0x01)
  else if !(s.cdUp (fhDie h)) || !(s.routeUp (dieOf c) (fhDie h)) then .ok (.error 0x08)
  else if s.fwTransfer h || s.fwHeld h then .error .wait
  else if s.fwPaged h then .ok (s.fwIn (fhDie h) (fhIx h))
  else .ok (.ok s)

/-- Discards pending entries of the speculation log of a handle, as FW.LOGD does, all of them for `none`; the state is paged in first
(R327, R337, R350). Whether a poisoned slab was read: code 0x0A, with the full effect (R313; log 149). -/
def State.fwCancel (s : State) (c : Fin 64) (h : Nat) (w : Option Nat) : SeqM (Except Nat (State × Bool)) :=
  if h = 0 then .ok (.ok (s, false))
  else if (s.fwCheck c h false).isSome then .ok (.error 0x01)
  else match s.fwFind h with
    | none => .ok (.error 0x01)
    | some f =>
      if !f.log then .ok (.ok (s, false))
      else (s.fwWhole c h).map fun r => r.map fun s1 =>
        match s1.fwFind h with
        | none => (s1, false)
        | some f => s1.logDiscard h f (match w with
          | none => []
          | some w => f.kept w)

/-- The effect of CX.CANCEL and CX.END on a context: windows at or after w, or all (R350). -/
def State.cxDiscard (s : State) (c : Fin 64) (i r : Nat) (w : Option Nat) (fs : List (Nat × Nat)) (fin : Nat → Nat) :
    SeqM (State × Word) :=
  let gone := fun (e : Nat) => match w with
    | none => true
    | some w => atOrAfter w e
  (s.fwCancel c (cHAND r) w).bind fun q =>
    match q with
    | .error x => seqFail s x
    | .ok (s1, bad) =>
      let keep := (cJRN r).filter fun e => !(gone e)
      let r1 := setJRN r keep
      let n := if bad then fwFail 0x0A else word ((cJRN r).length - keep.length)
      let end_ := fun (s : State) (fs : List (Nat × Nat)) (r2 : Nat) => (s.abandon i gone).ctxPut c i (fs ++ fJournal) (fin r2) n
      if cNGJ r = 0 then end_ s1 fs r1
      else (s1.ctxAsid c r).bind fun asid => (s1.gLoad c asid r).bind fun g =>
        (s1.gStoreJrn c asid r1 (g.2.filter fun e => !(gone e.2))).bind fun x => end_ x.1 (fNGJ :: fs) x.2

/-- CX.START (R347). -/
def State.cxStartDo (s : State) (c : Fin 64) (e : SEnt) (rst : Bool) : SeqM (State × Word) :=
  let i := ctxIx e.ga
  let r := e.recOf i
  if cSTATE r = 3 ∧ !rst then seqFail s 0x20
  else s.ctxPut c i (if rst then [fSTATE, fRESET] else [fSTATE]) (if rst then setRESET (setSTATE r 1) true else setSTATE r 1)
    (word (cSTATE r))

/-- CX.PAUSE (R347). -/
def State.cxPauseDo (s : State) (c : Fin 64) (e : SEnt) : SeqM (State × Word) :=
  let i := ctxIx e.ga
  let r := e.recOf i
  if cSTATE r = 3 then seqFail s 0x20 else s.ctxPut c i [fSTATE] (setSTATE r 2) (word (cSTATE r))

/-- CX.END (R347). -/
def State.cxEndDo (s : State) (c : Fin 64) (e : SEnt) : SeqM (State × Word) :=
  let i := ctxIx e.ga
  s.cxDiscard c i (e.recOf i) none [fSTATE] fun r => setSTATE r 3

/-- CX.CANCEL (R350). -/
def State.cxCancelDo (s : State) (c : Fin 64) (e : SEnt) (all : Bool) : SeqM (State × Word) :=
  let i := ctxIx e.ga
  s.cxDiscard c i (e.recOf i) (if all then none else some (bits e.gb 0 16)) [] id

/-- CX.SPEC (R348). -/
def State.cxSpecDo (s : State) (c : Fin 64) (e : SEnt) : SeqM (State × Word) :=
  let i := ctxIx e.ga
  let r := e.recOf i
  let n := bits e.gb 0 7
  let w := bits e.gb 16 16
  if n = 0 then seqFail s 0x22
  else if 64 < cNJ r + n then seqFail s 0x21
  else s.ctxPut c i (fWIN :: fJournal) (setBits (setJRN r (cJRN r ++ List.replicate n w)) 36 16 (w + 1)) (word (cNJ r + n))

/-- CX.COMMIT (R349). -/
def State.cxCommitDo (s : State) (c : Fin 64) (e : SEnt) : SeqM (State × Word) :=
  let i := ctxIx e.ga
  let r := e.recOf i
  let n := bits e.gb 0 7
  let chk := bits e.gb 7 1 = 1
  let g := bits e.gb 8 1 = 1
  let wchk := bits e.gb 16 16
  let r1 := setBits (setJRN r ((cJRN r).drop n)) 256 32 (cCLEN r + n)
  if cNJ r < n ∨ (g ∧ cNGJ r < n) then seqFail s 0x22
  else if chk ∧ 0 < n ∧ (cJRN r).getD (n - 1) 0 ≠ wchk then seqFail s 0x23
  else if !(g ∧ 0 < n) then s.ctxPut c i (fCLEN :: fJournal) r1 (word n)
  else (s.ctxAsid c r).bind fun asid => (s.gLoad c asid r).bind fun x =>
    if chk ∧ (x.2.getD (n - 1) (0, 0)).2 ≠ wchk then seqFail s 0x23
    else
      let rd := s.gImage c asid (cGIMG r)
      (gHdr rd).bind fun h => (gReplay rd h x.1 ((x.2.take n).map (·.1))).bind fun cfg =>
        (s.gStoreCfg c asid r1 cfg).bind fun y => (y.1.gStoreJrn c asid y.2 (x.2.drop n)).bind fun z =>
          z.1.ctxPut c i (fNGJ :: fCfg ++ fCLEN :: fJournal) z.2 (word n)

/-- The snapshot that CX.FORK takes of the parent's state (R351): its handle. -/
def State.forkSnap (s : State) (c : Fin 64) (h region : Nat) : SeqM (Except Nat (Nat × State)) :=
  if h = 0 then .ok (.ok (0, s))
  else (s.fwWhole c h).map fun r => match r with
    | .error x => .error x
    | .ok s1 => match s1.fwShare (fhDie h) (fhIx h) region with
      | none => .error 0x06
      | some x => .ok x

/-- The child's record (R351). -/
def childRec (p k h : Nat) : Nat :=
  let cp := fun (r lo n : Nat) => setBits r lo n (bits p lo n)
  let r := setBits k 128 64 h
  let r := cp (cp (cp r 256 32) 64 64) 36 16
  let r := cp (cp (cp (cp r 576 32) 608 7) 3 1) 320 64
  let r := cp (cp (cp r 512 32) 544 11) 555 1
  setRESET (setSTATE r 2) false

/-- The fields of the child's record that CX.FORK writes (R351). -/
def fChild : List (Nat × Nat) := [fFWH, fCLEN, fNCHUNK, fWIN, fTEMP, fTOPK, fGB, fGIMG, fRESET, fSTATE] ++ fCfg

/-- CX.FORK (R351). -/
def State.cxForkDo (s : State) (c : Fin 64) (e : SEnt) : SeqM (State × Word) :=
  let pi := ctxIx e.ga
  let ki := ctxIx e.gb
  let p := e.recOf pi
  let k := e.recOf ki
  if pi = ki ∨ (cSTATE k ≠ 0 ∧ cSTATE k ≠ 3) ∨ bits k 288 7 ≠ 0 ∨ bits k 556 7 ≠ 0 ∨ (cCLVL p ≠ 0 ∧ cCLVL k ≠ cCLVL p) then
    seqFail s 0x20
  else if cGB p && (cGSTK k == 0 || cMASKA k == 0) then seqFail s 0x25
  else (s.ctxAsid c p).bind fun pa => (s.ctxAsid c k).bind fun ka =>
    (s.forkSnap c (cHAND p) e.region).bind fun q =>
      match q with
      | .error x => seqFail s x
      | .ok (h, s1) =>
        let finish := fun (s2 : State) =>
          let put := fun (s3 : State) => s3.ctxPut c ki fChild (childRec p k h) (word h)
          (s2.seqPeek c pa (cGSTK p) (4 * cGSP p)).bind fun st => (s2.seqPoke c ka (cGSTK k) st).bind put
        if cCLVL p = 0 then finish s1
        else match s1.forkTree (dieOf c) (cCLVL p) (cCNODE p) (cCNODE k) pa (cREGION k) e.sent.isSome with
          | .done s2 => finish s2
          | .noFrames => seqFail (if h = 0 then s1 else s1.fwFreeState (fhDie h) (fhIx h)) 0x24
          | .wait => .error .wait
          | .mark => .error (.mark (cCLVL p) (cCNODE p) pa)
          | .fault x => .error (.fault x)

/-! ## Grammar forms (R356 to R362) -/

/-- Goes on with a bound context: its address space, configuration, journal, image and header; 0x25 when none is bound. -/
def State.bound (s : State) (c : Fin 64) (r : Nat)
    (go : Nat → GCfg → List (Nat × Nat) → GRead → GHdr → SeqM (State × Word)) : SeqM (State × Word) :=
  if !(cGB r) then seqFail s 0x25
  else (s.ctxAsid c r).bind fun asid => (s.gLoad c asid r).bind fun x =>
    let rd := s.gImage c asid (cGIMG r)
    (gHdr rd).bind fun h => go asid x.1 x.2 rd h

/-- GR.BIND after its checks at issue (R356). -/
def State.grBindDo (s : State) (c : Fin 64) (e : SEnt) : SeqM (State × Word) :=
  let i := ctxIx e.ga
  let r := e.recOf i
  let gimg := field e.desc 0 8
  let gstk := field e.desc 8 8
  let maska := field e.desc 16 8
  if gimg = 0 then s.ctxPut c i [fGB] (setGB r false) 0
  else (s.ctxAsid c r).bind fun asid => (gHdr (s.gImage c asid gimg)).bind fun h =>
    if !(s.stackAreaOk c asid gstk) || (s.maskStack c asid maska (min h.v 262144)).isNone then seqFail s 0x28
    else
      let r1 := setBits (setBits (setBits r 320 64 gimg) 384 64 gstk) 448 64 maska
      let r2 := setBits (setBits (setBits (setBits r1 512 32 h.start) 544 11 0) 555 1 0) 556 7 0
      (s.seqPoke c asid maska (leBytes 16 0)).bind fun s1 => s1.ctxPut c i (fGIMG :: fGSTK :: fMASKA :: fGB :: fNGJ :: fCfg) (setGB r2 true) 0

/-- The result of GR.STEP (R357). -/
def GCfg.word (g : GCfg) : Word :=
  Machine.word (g.state % 2 ^ 32 + g.stack.length % 2048 * 2 ^ 32 + if g.done then 2 ^ 48 else 0)

/-- GR.STEP (R357). -/
def State.grStepDo (s : State) (c : Fin 64) (e : SEnt) (spec : Bool) : SeqM (State × Word) :=
  let i := ctxIx e.ga
  let r := e.recOf i
  let x := bits e.gb 0 18
  s.bound c r fun asid cfg jr rd h =>
    if spec then
      if 64 ≤ jr.length then seqFail s 0x21
      else (gReplay rd h cfg (jr.map (·.1))).bind fun g => (gStep rd h g x).bind fun q =>
        match q with
        | none => seqFail s 0x26
        | some g1 => (s.gStoreJrn c asid r (jr ++ [(x, bits e.gb 32 16)])).bind fun y => y.1.ctxPut c i [fNGJ] y.2 g1.word
    else if !jr.isEmpty then seqFail s 0x27
    else (gStep rd h cfg x).bind fun q =>
      match q with
      | none => seqFail s 0x26
      | some g1 => (s.gStoreCfg c asid r g1).bind fun y => y.1.ctxPut c i fCfg y.2 g1.word

/-- Writes one mask slot. -/
def State.putSlot (s : State) (c : Fin 64) (asid maska v i : Nat) (bs : List Byte) : SeqM State :=
  s.seqPoke c asid ((maska + 64 + i * maskBytes v) % 2 ^ 64) bs

/-- GR.MASK (R358). -/
def State.grMaskDo (s : State) (c : Fin 64) (e : SEnt) : SeqM (State × Word) :=
  let r := e.recOf (ctxIx e.ga)
  s.bound c r fun asid cfg jr rd h =>
    (gReplay rd h cfg (jr.map (·.1))).bind fun g => (gMaskOf rd h (some g)).bind fun m =>
      (s.putSlot c asid (cMASKA r) (min h.v 262144) 64 m.1).bind fun s1 =>
        (s1.setReady c asid (cMASKA r) 0 (2 ^ 64) none).map fun s2 => (s2, word m.2)

/-- A row of a lattice: its token and the row of its prefix. -/
structure LRow where
  token : Nat
  prow  : Nat
  deriving DecidableEq, Repr

/-- The configurations of the rows in row order (R362); `none` for an invalid row. -/
def latticeCfgs (rd : GRead) (h : GHdr) (root : GCfg) : List LRow → List (Option GCfg) → SeqM (List (Option GCfg))
  | [], acc => .ok acc
  | x :: t, acc =>
    match if x.prow = 255 then some root else (acc[x.prow]?).join with
    | none => latticeCfgs rd h root t (acc ++ [none])
    | some g => (gStep rd h g x.token).bind fun r => latticeCfgs rd h root t (acc ++ [r])

/-- Writes the masks of the slots in order. -/
def State.putSlots (c : Fin 64) (asid maska v : Nat) : List (List Byte) → Nat → State → SeqM State
  | [], _, s => .ok s
  | b :: t, i, s => (s.putSlot c asid maska v i b).bind fun s1 => State.putSlots c asid maska v t (i + 1) s1

/-- GR.LATT (R362): the descriptor and rows as the pool held them at the start. -/
def State.grLattDo (s : State) (c : Fin 64) (e : SEnt) : SeqM (State × Word) :=
  let r := e.recOf (ctxIx e.ga)
  let n := field e.desc 17 1
  let rows : List LRow := (List.range n).map fun i =>
    { token := field e.desc (64 + 32 * i + 8) 4, prow := field e.desc (64 + 32 * i + 18) 1 }
  s.bound c r fun asid cfg jr rd h =>
    if 64 < n then seqFail s 0x2F
    else (gReplay rd h cfg (jr.map (·.1))).bind fun root => (latticeCfgs rd h root rows []).bind fun cs =>
      let all := (List.range 64).map (fun i => (cs[i]?).join) ++ [some root]
      let masks : SeqM (List (List Byte)) := all.foldl (fun (acc : SeqM (List (List Byte))) g =>
        acc.bind fun l => (gMaskOf rd h g).map fun m => l ++ [m.1]) (.ok [])
      masks.bind fun ms =>
        let valid := cs.zipIdx.foldl (fun (a : Nat) x => if x.1.isSome then a + 2 ^ x.2 else a) 0
        (State.putSlots c asid (cMASKA r) (min h.v 262144) ms 0 s).bind fun s1 =>
          (s1.setReady c asid (cMASKA r) 0 allSlots (some valid)).map fun s2 => (s2, word (cs.filter Option.isSome).length)

/-- The bytes of a save image (R359). -/
def saveImage (r : Nat) (g : GCfg) (jr : List (Nat × Nat)) : List Byte :=
  leBytes 4 0x04800201 ++ leBytes 4 g.state ++ leBytes 2 g.stack.length ++ leBytes 1 (if g.done then 1 else 0) ++
    leBytes 1 jr.length ++ leBytes 8 (cGIMG r) ++ leBytes 44 0 ++
    ((List.range 64).flatMap fun i => leBytes 8 ((jr[i]?).map jWord |>.getD 0)) ++
    ((List.range 1024).flatMap fun i => leBytes 4 ((g.stack.reverse[i]?).getD 0))

/-- Writes bytes page by page; the pages before a stop stay written. -/
def State.pokePages (c : Fin 64) (asid : Nat) : List (Nat × Nat) → List Byte → State → State × SeqM Unit
  | [], _, s => (s, .ok ())
  | (va, n) :: t, bs, s =>
    match s.seqPoke c asid va (bs.take n) with
    | .error x => (s, .error x)
    | .ok s1 => State.pokePages c asid t (bs.drop n) s1

/-- GR.SAVE (R359): a stop leaves the bytes already written. -/
def State.grSaveDo (s : State) (c : Fin 64) (e : SEnt) : State :=
  let r := e.recOf (ctxIx e.ga)
  let img := (s.ctxAsid c r).bind fun asid => (s.gLoad c asid r).map fun x => saveImage r x.1 x.2
  if !(cGB r) then s.seqEnd c e (seqFail s 0x25)
  else match img with
  | .error x => s.seqEnd c e (.error x)
  | .ok bs => match State.pokePages c e.asid (pagePieces 4 e.gb 4672) bs s with
    | (s1, .ok _) => s1.seqDone c e 0
    | (s1, .error x) => s1.seqEnd c e (.error x)

/-- The cases in which GR.ROLL refuses an image (R359). -/
def imageBad (b : List Byte) (r nstate : Nat) : Bool :=
  let ngj := field b 11 1
  let gsp := field b 8 2
  field b 0 4 != 0x04800201 || field b 12 8 != cGIMG r || decide (1024 < gsp) || decide (64 < ngj) ||
    decide (nstate ≤ field b 4 4) || bits (field b 10 1) 1 7 != 0 || ((b.drop 20).take 44).any (· != 0) ||
    (((b.drop 64).take 512).drop (8 * ngj)).any (· != 0) || ((b.drop 576).drop (4 * gsp)).any (· != 0) ||
    (List.range 64).any fun i => jWord (jEntry (field b (64 + 8 * i) 8)) != field b (64 + 8 * i) 8

/-- GR.ROLL (R359). -/
def State.grRollDo (s : State) (c : Fin 64) (e : SEnt) : SeqM (State × Word) :=
  let i := ctxIx e.ga
  let r := e.recOf i
  if !(cGB r) then seqFail s 0x25
  else (s.ctxAsid c r).bind fun asid => (s.seqPeek c e.asid e.gb 4672).bind fun b =>
    (gHdr (s.gImage c asid (cGIMG r))).bind fun h =>
      if imageBad b r h.nstate then seqFail s 0x30
      else
        let g : GCfg := { state := field b 4 4, stack := ((List.range (field b 8 2)).map fun j => field b (576 + 4 * j) 4).reverse,
                          done := bits (field b 10 1) 0 1 == 1 }
        (s.gStoreCfg c asid r g).bind fun y =>
          (y.1.gStoreJrn c asid y.2 ((List.range (field b 11 1)).map fun j => jEntry (field b (64 + 8 * j) 8))).bind fun z =>
            z.1.ctxPut c i (fNGJ :: fCfg) z.2 0

/-- GR.FORK (R359). -/
def State.grForkDo (s : State) (c : Fin 64) (e : SEnt) : SeqM (State × Word) :=
  let pi := ctxIx e.ga
  let ki := ctxIx e.gb
  let p := e.recOf pi
  let k := e.recOf ki
  if !(cGB p) || !(cGB k) then seqFail s 0x25
  else if bits k 556 7 ≠ 0 then seqFail s 0x27
  else (s.ctxAsid c p).bind fun pa => (s.ctxAsid c k).bind fun ka => (s.gLoad c pa p).bind fun x =>
    (s.gStoreCfg c ka k x.1).bind fun y => y.1.ctxPut c ki (fGIMG :: fCfg) (setBits y.2 320 64 (cGIMG p)) 0

/-- LT.EXP (R361): the descriptor as issued and the node table as the pool held it at the start. -/
def State.ltExpDo (s : State) (c : Fin 64) (e : SEnt) : SeqM (State × Word) :=
  let n := field e.desc 16 1
  let nodes := (List.range n).map fun i => lNode (field e.desc (64 + 8 * i) 8)
  if latticeBad n nodes then seqFail s 0x2F
  else
    let ps := latticePaths nodes
    let rows := ps.take 64
    let tooMany := if 64 < ps.length then 1 else 0
    let bs := rows.flatMap fun p => latticeRow nodes rows (field e.desc 20 4) p
    let ro := field e.desc 8 8 - 0x00FF000000000000
    let o := e.ga - 0x00FF000000000000
    .ok (s.upCore c fun k =>
      { (k.markPool ro bs.length false) with
        pool := (k.pool.write ro bs).write (o + 17) (leBytes 1 rows.length ++ leBytes 1 tooMany) },
      word (rows.length + tooMany * 256))

/-! ## Start and completion (R340, R342, R345) -/

/-- The record that SK.DRAW reads as it starts, if its row is open and the record can be read (R339, R367). -/
def State.drawRec (s : State) (c : Fin 64) (e : SEnt) : List Nat :=
  match s.rowOf e.ga with
  | none => []
  | some r => match s.recRead c r.ctx with
    | .ok x => [x]
    | .error _ => []

/-- What the start of a form captures: the records, the pool's bytes, its order in a queue; or its failure. -/
def State.seqBegin (s : State) (c : Fin 64) (e : SEnt) : State :=
  let pool := (s.core c).pool
  let at_ := fun (va : Nat) => va - 0x00FF000000000000
  match e.reads.mapM fun i => s.recRead c i with
  | .error x => s.seqEnd c e (.error x)
  | .ok rs =>
    let e1 := { e with started := true, recs := rs }
    match e.op with
    | .ltExp _ _ => s.upSq c e.id fun _ =>
        { e1 with desc := e.desc.take 64 ++ pool.read (at_ (field e.desc 0 8)) (8 * min 64 (field e.desc 16 1)) }
    | .grLatt _ _ _ => s.upSq c e.id fun _ =>
        { e1 with desc := pool.read (at_ e.gb) 64 ++ pool.read (at_ (field e.desc 8 8)) 2048 }
    | .skDraw _ _ => s.upSq c e.id fun _ => { e1 with recs := s.drawRec c e }
    | .sqSend _ _ _ =>
      let x := s.specq e.sendTo.1 e.sendTo.2
      if s.outstanding c e.role e.id then s
      else if !(s.cdUp e.sendTo.1) || !(s.routeUp (dieOf c) e.sendTo.1) then
        s.seqFault c e { cause := cDIEX, detail := 0, va := 0, kind := 2 }
      else if !x.cfg ∨ x.sender ≠ (dieOf c).val then s.seqDone c e (fwFail 0x2E)
      else s.upSq c e.id fun _ => { e1 with desc := pool.read (at_ e.ga) 128 }
    | .sqRecv _ _ _ =>
      if !(s.specq (dieOf c) (Fin.ofNat 16 (bits e.gb 0 4))).cfg then s.seqDone c e (fwFail 0x2E)
      else
        let (n, s1) := s.fresh
        s1.upSq c e.id fun _ => { e1 with sent := some n }
    | _ => s.upSq c e.id fun _ => e1

/-- SEQ_START (R342): entry i starts in its lane, taking the LOCKs it needs one after the other (R340). -/
def State.seqStart (s : State) (c : Fin 64) (i : Nat) : State :=
  match (s.core c).sq[i]? with
  | none => s
  | some e =>
    if e.started || (s.core c).sqBehind (dieOf c).val i e || !(s.storesDone c e.role e.id) then s
    else match e.stop with
    | some x => s.seqFault c e x
    | none => match e.locks.find? fun x => !(e.locked.contains x) with
      | none => s.seqBegin c e
      | some x =>
        match s.ctxRead (dieOf c) x with
        | .error (ca, d) => s.seqFault c e { cause := ca, detail := d, va := s.ctxAddr x, kind := 3 }
        | .ok r =>
          if cLOCK r then s
          else match s.ctxStore (dieOf c) x [fLOCK] (setBits r 7 1 1) with
            | .error (ca, d) => s.seqFault c e { cause := ca, detail := d, va := s.ctxAddr x, kind := 3 }
            | .ok s1 =>
              let e1 := { e with locked := e.locked ++ [x] }
              let s2 := s1.upSq c e.id fun _ => e1
              if e.locks.all e1.locked.contains then s2.seqBegin c e1 else s2

/-- SEQ_COMPLETE (R345): a started entry makes its changes in one step. -/
def State.seqComplete (s : State) (c : Fin 64) (i : Nat) : State :=
  match (s.core c).sq[i]? with
  | none => s
  | some e =>
    if !e.started then s
    else match e.op with
      | .cxStart _ _ r => s.seqEnd c e (s.cxStartDo c e (r.val == 1))
      | .cxPause _ _ => s.seqEnd c e (s.cxPauseDo c e)
      | .cxEnd _ _ => s.seqEnd c e (s.cxEndDo c e)
      | .cxFork _ _ _ => s.seqEnd c e (s.cxForkDo c e)
      | .cxCancel _ _ _ l => s.seqEnd c e (s.cxCancelDo c e (l.val == 1))
      | .cxSpec _ _ _ => s.seqEnd c e (s.cxSpecDo c e)
      | .cxCommit _ _ _ => s.seqEnd c e (s.cxCommitDo c e)
      | .grBind _ _ _ => s.seqEnd c e (s.grBindDo c e)
      | .grStep _ _ _ sp => s.seqEnd c e (s.grStepDo c e (sp.val == 1))
      | .grMask _ _ => s.seqEnd c e (s.grMaskDo c e)
      | .grLatt _ _ _ => s.seqEnd c e (s.grLattDo c e)
      | .grSave _ _ _ => s.grSaveDo c e
      | .grFork _ _ _ => s.seqEnd c e (s.grForkDo c e)
      | .grRoll _ _ _ => s.seqEnd c e (s.grRollDo c e)
      | .skOpen _ _ => s.seqEnd c e (s.skOpenDo c e)
      | .skClose _ _ _ f => s.seqEnd c e (s.skCloseDo c e (f.val == 1))
      | .skDraw _ _ => s.seqEnd c e (s.skDrawDo c e)
      | .ltExp _ _ => s.seqEnd c e (s.ltExpDo c e)
      | .sqCfg _ _ _ => s.seqEnd c e (s.sqCfgDo c e)
      | .sqSend _ _ _ => s.sqStamp c e
      | .sqRecv _ _ _ => s.sqTake c e
      | _ => s

/-- SEQ_START (R342). -/
def execSeqStart (c : Fin 64) (im : Nat) (s : State) : Out := .next (s.seqStart c im)

/-- SEQ_COMPLETE (R345). -/
def execSeqComplete (c : Fin 64) (im : Nat) (s : State) : Out := .next (s.seqComplete c im)

/-- SINK_BLOCK_PROCESS (R365). -/
def execSinkBlockProcess (bd : Fin 8) (row blk : Nat) (s : State) : Out := .next (s.sinkProcess bd row blk)

/-- SQ_RECORD_LAND (R369). -/
def execSqRecordLand (c : Fin 64) (im : Nat) (s : State) : Out := .next (s.sqLand c im)

/-! ## Issue (R338, R342, R344) -/

/-- The checks that every instruction of MAJ 46 to 50 makes at issue (R345). -/
def State.seqGate (s : State) (maj : Nat) (reads : List (Fin 32)) (go : Unit → Out) : Out :=
  s.gate { maj := maj } reads fun _ =>
    if s.myCore.recPending s.cr 4 then s.trap cENG 0x07
    else if s.asyncOpen then s.block 10 0
    else go ()

/-- A context index lies in the table (R338). -/
def State.ctxOk (s : State) (g : Word) (go : Unit → Out) : Out :=
  if s.ctxn ≤ ctxIx g.toNat then s.trap cTYPE 0x38 else go ()

/-- Places in the scratchpad, checked as R344 gives once the thread's stores are performed. -/
def State.scratch (s : State) (l : List (Nat × Nat × Nat)) (go : Unit → Out) : Out :=
  if !(s.me.stores.isEmpty) then s.hold
  else match s.myCore.scratchCheck l with
    | some x => s.trapX x
    | none => go ()

/-- n bytes of the own pool at an own-window address. -/
def State.poolAt (s : State) (va n : Nat) : List Byte := s.myCore.pool.read (va - 0x00FF000000000000) n

/-- The instruction takes its place in the queue, or blocks while the queue is full (R342). -/
def State.seqQueue (s : State) (op : Instr) (gs : List Word) (desc : List Byte) : Out :=
  if 16 ≤ s.myCore.sq.length then s.block 9 4
  else
    let (id, s1) := s.fresh
    let e : SEnt := { id := id, role := s.cr, op := op, gs := gs, desc := desc, asid := s.asid, region := s.myCore.view.region,
                      started := false, locked := [], recs := [], sent := none, dropped := 0 }
    ((s1.upMyCore fun k => { k.leave .seq with sq := k.sq ++ [e] }).upMe fun t => t.owe (sqGd op) id).done 2

/-- A form whose only operand checked at issue is its context. -/
def State.ctxIssue (s : State) (maj : Nat) (op : Instr) (a : Fin 32) (regs : List (Fin 32)) : Out :=
  s.seqGate maj regs fun _ => s.ctxOk (s.me.get a) fun _ => s.seqQueue op (regs.map s.me.get) []

/-- A form of two contexts. -/
def State.forkIssue (s : State) (maj : Nat) (op : Instr) (a b : Fin 32) : Out :=
  s.seqGate maj [a, b] fun _ => s.ctxOk (s.me.get a) fun _ => s.ctxOk (s.me.get b) fun _ =>
    s.seqQueue op [s.me.get a, s.me.get b] []

/-- CX.START (R347). -/
def execCxStart (a d : Fin 32) (r : Fin 2) (s : State) : Out := s.ctxIssue 46 (.cxStart a d r) a [a]

/-- CX.PAUSE (R347). -/
def execCxPause (a d : Fin 32) (s : State) : Out := s.ctxIssue 46 (.cxPause a d) a [a]

/-- CX.END (R347). -/
def execCxEnd (a d : Fin 32) (s : State) : Out := s.ctxIssue 46 (.cxEnd a d) a [a]

/-- CX.FORK (R351). -/
def execCxFork (a b d : Fin 32) (s : State) : Out := s.forkIssue 46 (.cxFork a b d) a b

/-- CX.CANCEL (R350). -/
def execCxCancel (a b d : Fin 32) (l : Fin 2) (s : State) : Out := s.ctxIssue 46 (.cxCancel a b d l) a [a, b]

/-- CX.SPEC (R348). -/
def execCxSpec (a b d : Fin 32) (s : State) : Out := s.ctxIssue 46 (.cxSpec a b d) a [a, b]

/-- CX.COMMIT (R349). -/
def execCxCommit (a b d : Fin 32) (s : State) : Out := s.ctxIssue 46 (.cxCommit a b d) a [a, b]

/-- A word whose access at issue does not complete: it blocks on a leaf that is BUSY or shared, or traps (R127, R171, R181). -/
def State.stallIssue (s : State) (w : Stall) : Out :=
  match w with
  | .fault x => s.trapX x
  | .miss => (s.ask s.cc .seq w).block 8 0
  | _ => (s.ask s.cc .seq w).block 13 0

/-- The check of a grammar image at issue, in the address space of the context's region (R339, R356). -/
def State.bindCheck (s : State) (i gimg : Nat) (go : Unit → Out) : Out :=
  if gimg = 0 then go ()
  else
    match (s.recRead s.cc i).bind fun r => (s.ctxAsid s.cc r).bind fun asid => gVerify (s.gImage s.cc asid gimg) gimg with
    | .error w => s.stallIssue w
    | .ok 0 => go ()
    | .ok d => (s.upMyCore fun k => k.leave .seq).trap cGRAM d

/-- GR.BIND (R356). -/
def execGrBind (a b d : Fin 32) (s : State) : Out :=
  s.seqGate 47 [a, b] fun _ => s.ctxOk (s.me.get a) fun _ => s.scratch [((s.me.get b).toNat, 64, 64)] fun _ =>
    let desc := s.poolAt (s.me.get b).toNat 64
    if (desc.drop 24).any (· != 0) then s.trap cTYPE 0x3A
    else s.bindCheck (ctxIx (s.me.get a).toNat) (field desc 0 8) fun _ =>
      s.seqQueue (.grBind a b d) [s.me.get a, s.me.get b] desc

/-- GR.STEP (R357). -/
def execGrStep (a b d : Fin 32) (sc : Fin 2) (s : State) : Out := s.ctxIssue 47 (.grStep a b d sc) a [a, b]

/-- The mask area whose ready bits a form clears: its address space and place; none where no grammar is bound or the context is out of
reach, which the start of the form meets (R355; log 71). -/
def State.readyAt (s : State) (i : Nat) : Option (Nat × Nat) :=
  match s.recRead s.cc i with
  | .error _ => none
  | .ok r =>
    if !(cGB r) then none
    else match s.ctxAsid s.cc r with
      | .ok asid => some (asid, cMASKA r)
      | .error _ => none

/-- Clears the ready bits that a form clears when it issues (R355), then goes on; the access waits and faults as any other. While the
queue is full the form has not issued. -/
def State.clearReady (s : State) (i mask : Nat) (go : State → Out) : Out :=
  if 16 ≤ s.myCore.sq.length then go s
  else match s.readyAt i with
    | none => go s
    | some (asid, m) => match s.setReady s.cc asid m mask 0 none with
      | .ok s1 => go s1
      | .error w => s.stallIssue w

/-- GR.MASK (R358). -/
def execGrMask (a d : Fin 32) (s : State) : Out :=
  s.seqGate 47 [a] fun _ => s.ctxOk (s.me.get a) fun _ =>
    s.clearReady (ctxIx (s.me.get a).toNat) (2 ^ 64) fun s => s.seqQueue (.grMask a d) [s.me.get a] []

/-- The reserved bytes of a lattice descriptor (R360). -/
def latticeRsv (desc : List Byte) : Bool := field desc 19 1 != 0 || (desc.drop 24).any (· != 0)

/-- GR.LATT (R362). -/
def execGrLatt (a b d : Fin 32) (s : State) : Out :=
  s.seqGate 47 [a, b] fun _ => s.ctxOk (s.me.get a) fun _ =>
    let desc := s.poolAt (s.me.get b).toNat 64
    s.scratch (((s.me.get b).toNat, 64, 64) :: (if inOwn (s.me.get b).toNat then [(field desc 8 8, 2048, 4)] else [])) fun _ =>
      if latticeRsv desc then s.trap cTYPE 0x3A
      else s.clearReady (ctxIx (s.me.get a).toNat) allSlots fun s =>
        s.seqQueue (.grLatt a b d) [s.me.get a, s.me.get b] desc

/-- The alignment of a save image (R359). -/
def State.imageIssue (s : State) (op : Instr) (a b : Fin 32) (kind : Nat) : Out :=
  s.seqGate 47 [a, b] fun _ => s.ctxOk (s.me.get a) fun _ =>
    if (s.me.get b).toNat % 64 ≠ 0 then s.trapX { cause := cALIGN, detail := 64, va := (s.me.get b).toNat, kind := kind }
    else s.seqQueue op [s.me.get a, s.me.get b] []

/-- GR.SAVE (R359). -/
def execGrSave (a b d : Fin 32) (s : State) : Out := s.imageIssue (.grSave a b d) a b 2

/-- GR.ROLL (R359). -/
def execGrRoll (a b d : Fin 32) (s : State) : Out := s.imageIssue (.grRoll a b d) a b 1

/-- GR.FORK (R359). -/
def execGrFork (a b d : Fin 32) (s : State) : Out := s.forkIssue 47 (.grFork a b d) a b

/-- SK.OPEN (R364). -/
def execSkOpen (a d : Fin 32) (s : State) : Out :=
  s.seqGate 48 [a] fun _ => s.scratch [((s.me.get a).toNat, 64, 64)] fun _ =>
    let desc := s.poolAt (s.me.get a).toNat 64
    let v := field desc 8 4
    let slot := field desc 16 1
    if field desc 17 1 ≠ 0 ∨ (desc.drop 20).any (· != 0) ∨ (64 < slot ∧ slot ≠ 255) ∨ v = 0 ∨ 262144 < v ∨
        field desc 0 8 % 64 ≠ 0 then s.trap cTYPE 0x3A
    else s.ctxOk (word (field desc 12 4)) fun _ => s.seqQueue (.skOpen a d) [s.me.get a] desc

/-- SK.CLOSE (R366). -/
def execSkClose (a b d : Fin 32) (f : Fin 2) (s : State) : Out :=
  s.seqGate 48 [a, b] fun _ => s.scratch [((s.me.get b).toNat, 528, 64)] fun _ =>
    s.seqQueue (.skClose a b d f) [s.me.get a, s.me.get b] []

/-- SK.DRAW (R367). -/
def execSkDraw (a d : Fin 32) (s : State) : Out := s.seqGate 48 [a] fun _ => s.seqQueue (.skDraw a d) [s.me.get a] []

/-- LT.EXP (R360, R344). -/
def execLtExp (a d : Fin 32) (s : State) : Out :=
  s.seqGate 49 [a] fun _ =>
    let desc := s.poolAt (s.me.get a).toNat 64
    let n := field desc 16 1
    let tables := if inOwn (s.me.get a).toNat then
        [(field desc 0 8, if n = 0 ∨ 64 < n then 512 else 8 * n, 4), (field desc 8 8, 2048, 4)]
      else []
    s.scratch (((s.me.get a).toNat, 64, 64) :: tables) fun _ =>
      if latticeRsv desc then s.trap cTYPE 0x3A else s.seqQueue (.ltExp a d) [s.me.get a] desc

/-- SQ.CFG (R368). -/
def execSqCfg (a b d : Fin 32) (s : State) : Out :=
  s.seqGate 50 [a, b] fun _ => s.seqQueue (.sqCfg a b d) [s.me.get a, s.me.get b] []

/-- SQ.SEND (R369): a release at .pk, and the record's place. -/
def execSqSend (a b d : Fin 32) (s : State) : Out :=
  s.seqGate 50 [a, b] fun _ => s.scratch [((s.me.get a).toNat, 128, 64)] fun _ =>
    if s.storeRecord s.cc s.cr then s.trap cENG 0x01
    else
      (if 16 ≤ s.myCore.sq.length then s else s.openRel 4 false).seqQueue (.sqSend a b d)
        [s.me.get a, s.me.get b] []

/-- SQ.RECV (R370). -/
def execSqRecv (a b d : Fin 32) (s : State) : Out :=
  s.seqGate 50 [a, b] fun _ => s.scratch [((s.me.get a).toNat, 128, 64)] fun _ =>
    s.seqQueue (.sqRecv a b d) [s.me.get a, s.me.get b] []

end Sys2Proof.Machine
end

