-- ==== Sys2Proof/Machine/Dispatcher.lean ====
section
/-! DEFINITION. The die dispatchers: queues and task records, the judgement of a record, the choice of a task, forming a team,
loading a core, and the reset of a context (R18 to R20, R341, R375 to R386). -/
namespace Sys2Proof.Machine

/-! ## Queue control records and task records (R378, R379, R381) -/

def qREGION (q : List Byte) : Nat := field q 0 2
def qSTATE (q : List Byte) : Nat := field q 2 1
def qDIE (q : List Byte) : Nat := bits (field q 3 1) 0 2
def qCAPL (q : List Byte) : Nat := field q 4 1
def qRING (q : List Byte) : Nat := field q 8 8
def qHEAD (q : List Byte) : Nat := field q 16 8
def qTAIL (q : List Byte) : Nat := field q 24 8
def qEVF (q : List Byte) : Nat := field q 32 4
def qNDROP (q : List Byte) : Nat := field q 36 4

/-- A queue control record, read through ASID 0 (R404). -/
def State.qcrRead (s : State) (d : Fin 4) (q : Nat) : Except (Nat × Nat) (List Byte) := s.hwRead d 0 (s.qcr q) 64

/-- The address of the record at position p. -/
def recAddr (q : List Byte) (p : Nat) : Nat := qRING q + 128 * (p % 2 ^ qCAPL q)

def rTSZ (r : List Byte) : Nat := bits (field r 4 1) 0 3
def rHASCTX (r : List Byte) : Bool := bits (field r 4 1) 3 1 == 1
def rKERN (r : List Byte) : Nat := field r 8 8
def rCTX (r : List Byte) : Nat := bits (field r 16 4) 0 18
def rCHUNK (r : List Byte) : Nat := field r 24 8
def rARGP (r : List Byte) : Nat := field r 32 8
def rARGLEN (r : List Byte) : Nat := field r 40 2
def rWAITM (r : List Byte) : Nat := field r 44 4
def rSIGM (r : List Byte) : Nat := field r 48 4

/-- The record's context, if it names one. -/
def rContext (r : List Byte) : Option Nat := if rHASCTX r then some (rCTX r) else none

/-- Cores of a team size code. -/
def teamOf (code : Nat) : Nat := 2 ^ code

/-- SEQ and SEQ2 name position p, and TAKEN is clear (R381). -/
def recPresent (p : Nat) (r : List Byte) : Bool := field r 0 4 == p % 2 ^ 31 && field r 124 4 == p % 2 ^ 31

/-- The record of position p has been taken. -/
def recTaken (p : Nat) (r : List Byte) : Bool := field r 0 4 == 2 ^ 31 + p % 2 ^ 31

/-- The team size code or a reserved byte out of its limits (R385, R407). -/
def recForm (r : List Byte) : Bool :=
  decide (4 < rTSZ r) || field r 5 3 != 0 || field r 20 4 != 0 || field r 42 2 != 0 ||
    field r 120 4 != 0

/-- The record checks of R385 step 3. -/
def State.recBad (s : State) (r : List Byte) : Bool :=
  recForm r || decide (2048 < rARGLEN r) || (rHASCTX r && decide (s.ctxn ≤ rCTX r))

/-- The address space of a queue's region. -/
def chainAsid (l : List (Nat × List Byte)) : Nat := effective 1 6 2 l % 4096

/-- Free values of n bits. -/
def State.freeBits (s : State) (n : Nat) : Nat × State :=
  let (v, s1) := s.freeVal
  (bits v.toNat 0 n, s1)

/-- A queue enters FAULT, and QFAULT is posted (R376, R405). What the spec does not state of the event is free: of an invalid
region cause, detail and address; of every QFAULT the thread. -/
def State.queueFault (s : State) (d : Fin 4) (q region pos : Nat) (f : Option XFault) : State :=
  let fd := effective 2 8 2 (s.lineage d region)
  let (th, s1) := s.freeBits 2
  let (ca, s2) := match f with
    | some x => (x.cause, s1)
    | none => s1.freeBits 8
  let (dt, s3) := match f with
    | some x => (x.detail, s2)
    | none => s2.freeBits 32
  (s3.qcrSet d q 2 1 3).postHost
    { kind := 5, region := region, fdom := fd, task := 0, cause := ca, thread := th, detail := dt,
      fva := match f with
        | some x => x.va
        | none => 0,
      trapa := 0, queue := q, pos := pos, core := none }

/-- HEAD after the records from it that have been taken (R381). -/
def State.headOver (s : State) (d : Fin 4) (asid : Nat) (q : List Byte) : Nat → Nat → Nat
  | 0, h => h
  | f + 1, h =>
    if qTAIL q ≤ h then h
    else match s.hwRead d asid (recAddr q h) 128 with
      | .ok r => if recTaken h r then s.headOver d asid q f (h + 1) else h
      | .error _ => h

/-- No dispatcher holds cores for h any more (R20). -/
def State.unhold (s : State) (h : Held) : State := { s with dies := s.dies.map fun x => { x with held := x.held.filter (· ≠ h) } }

/-- Takes the record at position p of a queue: TAKEN, WAITM's flags in EVF, and HEAD (R381). -/
def State.takeRecord (s : State) (d : Fin 4) (qn asid : Nat) (q r : List Byte) (p : Nat) : Except (Nat × Nat) State :=
  (s.hwStore d asid (recAddr q p) (leBytes 4 (2 ^ 31 + p % 2 ^ 31))).map fun s1 =>
    let evf := Nat.xor (qEVF q) (Nat.land (qEVF q) (rWAITM r))
    let s2 := s1.qcrSet d qn 32 4 evf
    { (s2.qcrSet d qn 16 8 (s2.headOver d asid q 65536 (qHEAD q))).unhold (.record qn p) with
      bypass := s2.bypass.filter fun b => !(b.queue == qn && b.pos == p) }

/-- NDROP + 1. -/
def State.countDrop (s : State) (d : Fin 4) (qn : Nat) : State :=
  match s.qcrRead d qn with
  | .ok q => s.qcrSet d qn 36 4 ((qNDROP q + 1) % 2 ^ 32)
  | .error _ => s

/-! ## What the dispatcher finds (R382, R383) -/

/-- The first `n` positions from h below `tail` that are not taken, with their bytes; `fuel` bounds the taken ones passed. -/
def State.window64 (s : State) (d : Fin 4) (asid : Nat) (q : List Byte) : Nat → Nat → Nat →
    Except (Nat × XFault) (List (Nat × List Byte))
  | 0, _, _ => .ok []
  | f + 1, n, h =>
    if n = 0 ∨ qTAIL q ≤ h then .ok []
    else match s.hwRead d asid (recAddr q h) 128 with
      | .error (c, x) => .error (h, { cause := c, detail := x, va := recAddr q h, kind := 1 })
      | .ok r =>
        if recTaken h r then s.window64 d asid q f n (h + 1)
        else (s.window64 d asid q f (n - 1) (h + 1)).map ((h, r) :: ·)

/-- What the dispatcher does with a present record. -/
inductive Verdict where
  /-- It waits. -/
  | wait
  /-- It fails its record checks, and ends FAULTED as soon as it is found (R385). -/
  | bad
  /-- It is taken and dropped (R382). -/
  | drop
  | eligible
  deriving DecidableEq, Repr

/-- A live task of context i runs or is saved. -/
def State.ctxBusy (s : State) (i : Nat) : Bool := s.tasks.any fun t => t.ctx == some i

/-- The judgement of a present record (R20, R382, R385). -/
def State.judge (s : State) (d : Fin 4) (l : List (Nat × List Byte)) (q r : List Byte) : Verdict :=
  if s.recBad r then .bad
  else
    let ready : Verdict :=
      if Nat.land (qEVF q) (rWAITM r) = rWAITM r ∧ fits 4 12 128 (teamOf (rTSZ r)) l = true then .eligible else .wait
    match rContext r with
    | none => ready
    | some i =>
      match s.ctxRead d i with
      | .error _ => .wait
      | .ok c =>
        if cSTATE c = 3 then .drop
        else if cSTATE c ≠ 1 then .wait
        else if rCHUNK r < cNCHUNK c then .drop
        else if cNCHUNK c < rCHUNK r ∨ s.ctxBusy i = true then .wait
        else ready

/-- A FAULTED event of a record that formed no team (R385): it carries no TASKID; the thread is free. -/
def State.recordFaulted (s : State) (d : Fin 4) (qn p region : Nat) (l : List (Nat × List Byte)) : State :=
  let v := viewOf region l
  let (th, s1) := s.freeBits 2
  let s2 := s1.postHost
    { kind := 3, region := region, fdom := v.fdom, task := 0, cause := cTYPE, thread := th, detail := 0x3C, fva := 0, trapa := 0,
      queue := qn, pos := p, core := none }
  if v.stop then s2.faultDomain d v.fdom else s2

/-- Clears away what is not to be dispatched from one queue: its faults, its bad records, its dropped records. -/
def State.sweepQueue (s : State) (d : Fin 4) (qn : Nat) : State :=
  match s.qcrRead d qn with
  | .error _ => s
  | .ok q =>
    if qSTATE q ≠ 1 ∨ qDIE q ≠ d.val then s
    else match s.validChain d (qREGION q) with
      | none => s.queueFault d qn (qREGION q) 0 none
      | some l =>
        match s.window64 d (chainAsid l) q 65600 64 (qHEAD q) with
        | .error (p, x) => s.queueFault d qn (qREGION q) p (some x)
        | .ok rs => rs.foldl (fun (s : State) x =>
            if !(recPresent x.1 x.2) then s
            else match s.qcrRead d qn with
              | .error _ => s
              | .ok q =>
                let take : Verdict → State := fun v =>
                  match s.takeRecord d qn (chainAsid l) q x.2 x.1 with
                  | .error (c, y) => s.queueFault d qn (qREGION q) x.1
                      (some { cause := c, detail := y, va := recAddr q x.1, kind := 2 })
                  | .ok s1 =>
                    if v = .bad then s1.recordFaulted d qn x.1 (qREGION q) l else s1.countDrop d qn
                match s.judge d l q x.2 with
                | .bad => take .bad
                | .drop => take .drop
                | _ => s) s

def State.sweep (s : State) (d : Fin 4) : State := (List.range 16384).foldl (fun s q => s.sweepQueue d q) s

/-- A task that could be dispatched, with what orders it (R383). -/
structure Cand where
  what   : Held
  region : Nat
  chain  : List (Nat × List Byte)
  size   : Nat
  /-- The order of a saved task's save. -/
  order  : Nat
  /-- The record, its queue's control record, and its position. -/
  rec_   : List Byte
  qcr    : List Byte

/-- The effective priority (R375, R376). -/
def prioOf (l : List (Nat × List Byte)) : Nat := effective 0 2 1 l % 16

/-- A region's PASS. -/
def passOf : List (Nat × List Byte) → Nat
  | [] => 0
  | (_, b) :: _ => field b 144 8

/-- Whether a stands before b in the order of R383. -/
def Cand.before (a b : Cand) : Bool :=
  let lt := fun (l : List (Nat × Nat)) => l.foldr (fun p r => decide (p.1 < p.2) || (p.1 == p.2 && r)) false
  let key := fun (c : Cand) => match c.what with
    | .saved _ => (0, c.order, 0)
    | .record q p => (1, q, p)
  lt [(prioOf b.chain, prioOf a.chain), (passOf a.chain, passOf b.chain), (a.region, b.region), ((key a).1, (key b).1),
    ((key a).2.1, (key b).2.1), ((key a).2.2, (key b).2.2)]

def insertCand (c : Cand) : List Cand → List Cand
  | [] => [c]
  | x :: t => if c.before x then c :: x :: t else x :: insertCand c t

/-- The eligible records of one queue. -/
def State.queueCands (s : State) (d : Fin 4) (qn : Nat) : List Cand :=
  match s.qcrRead d qn with
  | .error _ => []
  | .ok q =>
    if qSTATE q ≠ 1 ∨ qDIE q ≠ d.val then []
    else match s.validChain d (qREGION q) with
      | none => []
      | some l =>
        match s.window64 d (chainAsid l) q 65600 64 (qHEAD q) with
        | .error _ => []
        | .ok rs => (rs.filter fun x => recPresent x.1 x.2 && s.judge d l q x.2 == .eligible).map fun x =>
            { what := .record qn x.1, region := qREGION q, chain := l, size := teamOf (rTSZ x.2), order := 0, rec_ := x.2,
              qcr := q }

/-- The saved tasks that can be resumed: a valid region with budget. -/
def State.savedCands (s : State) (d : Fin 4) : List Cand :=
  s.tasks.filterMap fun t =>
    if t.phase ≠ .saved then none
    else match s.validChain d t.region with
      | none => none
      | some l =>
        if fits 4 12 128 t.size l then
          some { what := .saved t.id, region := t.region, chain := l, size := t.size, order := t.order, rec_ := [], qcr := [] }
        else none

/-- Every candidate of the die, in the order of R383. -/
def State.cands (s : State) (d : Fin 4) : List Cand :=
  (s.savedCands d ++ (List.range 16384).flatMap (s.queueCands d)).foldl (fun l c => insertCand c l) []

/-! ## Cores (R384) -/

def State.freeCores (s : State) (d : Fin 4) : List (Fin 64) :=
  (List.finRange 64).filter fun c => dieOf c == d && (s.core c).taskid == 0

/-- A task has cores of die d. -/
def Task.onDie (t : Task) (d : Fin 4) : Bool := t.cores.any fun c => dieOf c == d

/-- Asks for ordinary pre-emptions of running tasks of lower priority until enough cores will free (R384). -/
def State.requestCores (s : State) (d : Fin 4) (c : Cand) : State :=
  let prio := fun (t : Task) => prioOf (s.lineage d t.region)
  let going := (s.tasks.filter fun t => t.onDie d && t.preempt != 0).map (·.size)
  let low := s.tasks.filter fun t =>
    t.onDie d && t.preempt == 0 && (t.phase == .running || t.phase == .formed) && decide (prio t < prioOf c.chain)
  let first := fun (a b : Task) => decide (prio a < prio b) || (prio a == prio b && decide (b.order < a.order))
  let sorted := low.foldl (fun l t => l.takeWhile (fun x => first x t) ++ t :: l.dropWhile fun x => first x t) []
  let have_ := (s.freeCores d).length + going.sum
  (sorted.foldl (fun (x : Nat × State) t =>
    if c.size ≤ x.1 then x else (x.1 + t.size, x.2.upTask t.id fun t => { t with preempt := 1 })) (have_, s)).2

/-- PASS of a region after a dispatch of n cores (R383). -/
def State.addPass (s : State) (d : Fin 4) (c : Cand) : State :=
  let share := effective 3 10 2 c.chain
  let step := 2 ^ 24 / (if share = 0 then 1 else share) * c.size
  match s.hwStore d 0 (s.rcb c.region + 144) (leBytes 8 ((passOf c.chain + step) % 2 ^ 64)) with
  | .ok s1 => s1
  | .error _ => s

/-! ## Loading a core (R81, R102, R185, R191, R236, R238, R245, R259, R280, R294, R385) -/

/-- A slot definition that TS.DEF would refuse (R276). -/
def defBad (bndv bnds : Nat) (d : Word) : Bool :=
  decide (11 ≤ slotFmt d) || bits d.toNat 0 6 != 0 || bits d.toNat 23 15 != 0 || (slotRB d == 0 && slotRows d != 0) ||
    (slotRows d != 0 && (decide (slotBase d < bndv * 65536) || decide (bnds * 65536 < slotBase d + slotLen d)))

/-- What dispatch needs of a kernel descriptor (R380). -/
structure Kern where
  entries : List Nat
  bndv    : Nat
  bnds    : Nat
  bndc    : Nat
  nslot   : Nat
  feats   : List Nat
  ok      : Bool

def kernOf (b : List Byte) : Kern :=
  { entries := [field b 0 8, field b 8 8, field b 16 8], bndv := field b 24 1, bnds := field b 25 1, bndc := field b 26 1,
    nslot := field b 27 1, feats := [field b 32 8, field b 40 8, field b 48 8, field b 56 8], ok := field b 28 4 == 0 }

/-- Bounds, slot count, reserved bytes and features (R105, R380, R385, R431). -/
def State.kernBad (s : State) (k : Kern) : Bool :=
  !k.ok || decide (k.bndv < 1) || decide (4 < k.bndv) || decide (k.bnds < k.bndv) || decide (k.bndc < k.bnds) ||
    decide (120 < k.bndc) || decide (64 < k.nslot) ||
    Nat.land (k.feats.getD 0 0) s.featack.toNat != k.feats.getD 0 0 || (k.feats.drop 1).any (· != 0)

/-- Slot entries: number and DEF. -/
def slotEntries (n : Nat) (b : List Byte) : List (Nat × Word) :=
  (List.range n).map fun i => (field b (16 * i) 1, word (field b (16 * i + 8) 8))

def slotsBad (k : Kern) (b : List Byte) : Bool :=
  (List.range k.nslot).any (fun i => field b (16 * i + 1) 7 != 0) ||
    (slotEntries k.nslot b).any fun x => decide (64 ≤ x.1) || defBad k.bndv k.bnds x.2

/-- Reads bytes as `hwRead` does; a fault names its own address. -/
def State.hwFetch (s : State) (d : Fin 4) (asid va n : Nat) : Except XFault (List Byte) :=
  (pagePieces (n / 4096 + 2) va n).foldl (fun acc p =>
    match acc with
    | .error e => .error e
    | .ok bs =>
      match s.hwRead d asid p.1 p.2 with
      | .error (c, x) => .error { cause := c, detail := x, va := p.1, kind := 1 }
      | .ok b => .ok (bs ++ b)) (.ok [])

/-- What a record's kernel gives, or the fault that ends the task (R385 steps 2 to 4): the kernel, its slots, the arguments. -/
def State.loadKernel (s : State) (d : Fin 4) (asid : Nat) (r : List Byte) : Except XFault (Kern × List (Nat × Word) × List Byte) :=
  let bad : XFault := { cause := cTYPE, detail := 0x3C, va := 0, kind := 0 }
  match s.hwFetch d asid (rKERN r) 64 with
  | .error x => .error x
  | .ok b =>
    let k := kernOf b
    match s.hwFetch d asid (rKERN r + 64) (16 * min 64 k.nslot) with
    | .error x => .error x
    | .ok sl =>
      if s.kernBad k || slotsBad k sl then .error bad
      else (s.hwFetch d asid (rARGP r) (rARGLEN r)).map fun a => (k, slotEntries k.nslot sl, a)

/-- The identity of a team member (R102, R387). -/
def Core.join (k : Core) (t : Task) (ix : Nat) (v : View) : Core :=
  { k with teamix := ix, teamsz := t.size, ctx := t.ctx, taskid := t.id, view := v }

/-- A core as dispatch leaves it: cleared and loaded, its threads idle (R385 steps 4 to 6). -/
def Core.load (k : Core) (kn : Kern) (slots : List (Nat × Word)) (args : List Byte) : Core :=
  ({ k with
    bndv := kn.bndv, bnds := kn.bnds, bndc := kn.bndc, l1 := [], pool := Mem.write [] 0x780800 args, ppoison := [],
    preds := Vector.replicate 12 0, mx := Matrix.reset, col := [], filled := [], cpoison := [],
    slots := slots.foldl (fun (v : Vector Slot 64) x => v.set (Fin.ofNat 64 x.1) { defw := x.2, state := 0 })
      (Vector.replicate 64 { defw := 0, state := 0 }),
    chcnt := 0, chans := Vector.replicate 32 Chan.reset, ovr := Vector.replicate 32 Overrun.reset } : Core).bumpL1

/-- Dispatches a record onto cores (R385): the team is formed, and the task waits for its first issue. -/
def State.dispatchRecord (s : State) (d : Fin 4) (c : Cand) (qn p : Nat) (cores : List (Fin 64)) : State :=
  let asid := chainAsid c.chain
  match s.takeRecord d qn asid c.qcr c.rec_ p with
  | .error (ca, x) => s.queueFault d qn c.region p (some { cause := ca, detail := x, va := recAddr c.qcr p, kind := 2 })
  | .ok s1 =>
    let t : Task :=
      { id := s1.nextTask, region := c.region, queue := qn, pos := p, ctx := rContext c.rec_, chunk := rCHUNK c.rec_,
        size := c.size, sigm := rSIGM c.rec_, entries := [], phase := .formed, cores := cores, preempt := 0, order := s1.nextOp,
        bypass := 0, written := 0, cancel := false, saved := [], blocks := [], heldEv := [], results := [], invals := [] }
    let s2 := { s1 with nextTask := s1.nextTask + 1, nextOp := s1.nextOp + 1, tasks := s1.tasks ++ [t] }
    let s3 := (s2.charge d c.region 128 c.size).addPass d c
    let v := viewOf c.region c.chain
    let s4 := cores.zipIdx.foldl (fun (s : State) x => s.upCore x.1 fun k => k.join t x.2 v) s3
    match s4.loadKernel d asid c.rec_ with
    | .error x =>
      let (th, s5) := s4.freeBits 2
      s5.endFaulted t.id 3 x.cause th x.detail x.va 0
    | .ok (kn, slots, args) =>
      cores.foldl (fun (s : State) x => s.upCore x fun k => k.load kn slots args)
        (s4.upTask t.id fun t => { t with entries := kn.entries })

/-- Gives a saved task its cores (R384, R393); its state is reloaded by TASK_RESUME. -/
def State.dispatchSaved (s : State) (d : Fin 4) (c : Cand) (id : Nat) (cores : List (Fin 64)) : State :=
  let s1 := (s.charge d c.region 128 c.size).addPass d c
  let v := viewOf c.region c.chain
  let s2 := { (s1.upTask id fun t =>
                { t with phase := .resuming, cores := cores, preempt := 0, order := s1.nextOp, bypass := 0 }).unhold (.saved id) with
              nextOp := s1.nextOp + 1 }
  match s2.task id with
  | none => s2
  | some t => cores.zipIdx.foldl (fun (s : State) x => s.upCore x.1 fun k => k.join t x.2 v) s2

/-! ## Bypasses and the choice (R20, R383) -/

def State.bypasses (s : State) (h : Held) : Nat :=
  match h with
  | .saved id => match s.task id with
    | some t => t.bypass
    | none => 0
  | .record q p => match s.bypass.find? fun b => b.queue == q && b.pos == p with
    | some b => b.count
    | none => 0

/-- One more bypass, counted on die d: the 64th has the die hold its cores for the task, behind those it holds them for already. DESIGN CHOICE:
the dispatch of one held task before another counts no bypass of the second (log 151). -/
def State.addBypass (s : State) (d : Fin 4) (h : Held) : State :=
  let n := min 64 (s.bypasses h + 1)
  let s1 := match h with
    | .saved id => s.upTask id fun t => { t with bypass := n }
    | .record q p =>
      { s with bypass := { queue := q, pos := p, count := n } :: s.bypass.filter fun b => !(b.queue == q && b.pos == p) }
  if n = 64 ∧ !((s1.die d).held.contains h) then s1.setDie d { s1.die d with held := (s1.die d).held ++ [h] } else s1

/-- A dispatch to another task counts one bypass of each eligible task. -/
def State.countBypasses (s : State) (d : Fin 4) (l : List Cand) : State := l.foldl (fun (s : State) c => s.addBypass d c.what) s

/-- Dispatches a candidate onto the lowest-numbered free cores. -/
def State.dispatch (s : State) (d : Fin 4) (c : Cand) : State :=
  let cores := (s.freeCores d).take c.size
  match c.what with
  | .saved id => s.dispatchSaved d c id cores
  | .record q p => s.dispatchRecord d c q p cores

/-- The first candidate, in order, that the n free cores cannot hold. -/
def firstShort (n : Nat) : List Cand → Option Cand
  | [] => none
  | c :: t => if n < c.size then some c else firstShort n t

/-- The candidate that the die holds its cores for: the first held of those eligible now, or one that has been bypassed 64 times elsewhere (R20). -/
def State.heldCand (s : State) (d : Fin 4) (l : List Cand) : Option Cand :=
  match (s.die d).held.findSome? fun h => l.find? (·.what == h) with
  | some c => some c
  | none => l.find? fun c => s.bypasses c.what == 64

/-- The choice of a round among the candidates, in order. -/
def State.choose (s : State) (d : Fin 4) (l : List Cand) : State :=
  let n := (s.freeCores d).length
  match s.heldCand d l with
  | some c =>
    if n < c.size then s.requestCores d c else (s.dispatch d c).countBypasses d (l.filter (·.what != c.what))
  | none =>
    let s1 := match firstShort n l with
      | some c => s.requestCores d c
      | none => s
    match l.find? fun c => decide (c.size ≤ n) with
    | none => s1
    | some c => (s1.dispatch d c).countBypasses d (l.filter (·.what != c.what))

/-- The fields that regions' tasks run under are read again at each decision (R375). -/
def State.refreshViews (s : State) (d : Fin 4) : State :=
  s.tasks.foldl (fun (s : State) t =>
    let l := s.lineage d t.region
    t.cores.foldl (fun (s : State) c => s.upCore c fun k => { k with view := viewOf t.region l }) s) (s.refreshRcbs d)

/-- DISPATCH_ROUND (R383): only in OPERATIONAL (R428), with every base written (R404), on an admitted die. -/
def State.dispatchRound (s : State) (d : Fin 4) : State :=
  if s.lcs ≠ .operational ∨ s.dispatchReady = false ∨ s.cdUp d = false then s
  else
    let s1 := (s.refreshViews d).sweep d
    s1.choose d (s1.cands d)

/-- DISPATCH_ROUND (R383). -/
def execDispatchRound (die : Fin 4) (s : State) : Out := .next (s.dispatchRound die)

/-! ## Before the first word (R341, R335, R385) -/

/-- What a step before the first word finds: it is done, it waits, or the task ends FAULTED. -/
inductive Prep where
  | ok (s : State)
  | wait
  | bad (x : XFault)

/-- The context's fast-weight state starts from zero (R341): the state is paged in first; where it cannot be, its planes are
zeroed where they lie. Shared slabs are copied first. -/
def State.zeroState (s : State) (d : Fin 4) (h region : Nat) : Option State :=
  match s.fwFind h with
  | none => some s
  | some f =>
    if s.fwTransfer h || s.fwHeld h then none
    else
      let s1 := if f.place = .grotto then s else
        match s.fwIn (fhDie h) (fhIx h) with
        | .ok s1 => s1
        | .error _ => s
      let zero := fun (s : State) =>
        match s.fwFind h with
        | none => s
        | some f =>
          let s2 := s.setSlabPoison (fhDie h) f.slabs false
          s2.fwSet (fhDie h) (fhIx h) { f with w := [], c := [], w2 := [], c2 := [], pend := [] }
      match s1.fwFind h with
      | none => some s1
      | some f1 =>
        if f1.place ≠ .grotto then some (zero s1)
        else if d ≠ fhDie h ∧ !(s.routeUp d (fhDie h)) then none
        else (s1.fwCow (fhDie h) (fhIx h) region (List.range f1.planeSlabs)).map zero

/-- START of the context's image, if a grammar is bound (R341, R352). -/
def State.startState (s : State) (c : Fin 64) (r : Nat) : SeqM Nat :=
  if cGB r then (s.ctxAsid c r).bind fun a => (gHdr (s.gImage c a (cGIMG r))).map (·.start) else .ok (cGSTATE r)

/-- The context record after the reset (R341). -/
def resetRec (r start : Nat) : Nat :=
  let r1 := setRESET (setJRN (setBits r 256 32 0) []) false
  setBits (setBits (setBits (setBits r1 556 7 0) 512 32 start) 544 11 0) 555 1 0

/-- The reset of a context at the dispatch of its task, in one step under LOCK (R341). -/
def State.ctxReset (s : State) (c : Fin 64) (i region : Nat) : Prep :=
  let d := dieOf c
  match s.ctxRead d i with
  | .error (ca, x) => .bad { cause := ca, detail := x, va := s.ctxAddr i, kind := 1 }
  | .ok r =>
    if !(cRESET r) then .ok s
    else if cLOCK r then .wait
    else match s.startState c r with
      | .error (.fault x) => .bad x
      | .error _ => .wait
      | .ok st =>
        match s.zeroState d (cHAND r) region with
        | none => .wait
        | some s1 =>
          match (s1.abandon i fun _ => true).ctxStore d i (fRESET :: fCLEN :: fNGJ :: fJournal ++ fCfg) (resetRec r st) with
          | .error (ca, x) => .bad { cause := ca, detail := x, va := s.ctxAddr i, kind := 2 }
          | .ok s2 => .ok s2

/-- Moves the context's fast-weight state to the team's die (R335, R384); `none` while something works on it. A state that
cannot move stays where it is. -/
def State.ctxMigrate (s : State) (d : Fin 4) (i : Nat) : Option State :=
  match s.ctxRead d i with
  | .error _ => some s
  | .ok r =>
    let h := cHAND r
    match s.fwFind h with
    | none => some s
    | some f =>
      let o := fhDie h
      if o = d ∨ fhChip h ≠ s.chipn then some s
      else if s.xfers.any (fun x => x.e.hs.contains h) || s.fwRunning h then none
      else if s.fwTransfer h || !(s.fwDirUp d o) || !(s.fwDirUp d d) || !(s.routeUp o d) then some s
      else match s.fwPick d with
        | none => some s
        | some (j, s1) =>
          let move := fun (s : State) (g : FwState) =>
            let s2 := (s.fwVacate o (fhIx h)).fwSet d j g
            let s3 := if f.place = .grotto then s2.dropSlabs o f.slabs else s2
            match s3.hwStore d 0 (s3.ctxAddr i + 16) (leBytes 8 (s3.fwHandle d j)) with
            | .ok s4 => s4.rehandle h (s4.fwHandle d j)
            | .error _ => s3.rehandle h (s3.fwHandle d j)
          if f.place ≠ .grotto then some (move s1 f)
          else match s1.takeSlabs d f.region (s.fwMarks o f) with
            | none => some s
            | some (l, s2) => some (move s2 (f.settle l))

/-- A role thread at the start of its task (R81, R385 step 7). -/
def startThread (r : Role) (entry : Nat) : Thread :=
  let t := { Thread.reset with g := Thread.reset.g.set 1 (word (ownWin 0x780800)) }
  if r = .T ∨ entry = 0 then { t with status := .idle }
  else { t with status := .running, hdr := entry, fetch := some { target := entry, src := entry, kind := .entry } }

/-- The role threads of a core start. -/
def Core.startThreads (k : Core) (entries : List Nat) : Core :=
  ((k.setThr .L (startThread .L (entries.getD 0 0))).setThr .C (startThread .C (entries.getD 1 0))).setThr .S
    (startThread .S (entries.getD 2 0))

/-- TASK_FIRST_ISSUE (R385): the context is reset and its state migrated if need be, and the threads start. -/
def State.firstIssue (s : State) (id : Nat) : State :=
  match s.task id with
  | none => s
  | some t =>
    match t.phase, t.cores with
    | .formed, c :: _ =>
      let start := fun (s : State) =>
        (t.cores.foldl (fun (s : State) x => s.upCore x fun k => k.startThreads t.entries) s).upTask id fun t =>
          { t with phase := .running }
      match t.ctx with
      | none => start s
      | some i =>
        match s.ctxReset c i t.region with
        | .wait => s
        | .bad x =>
          let (th, s1) := s.freeBits 2
          s1.endFaulted id 3 x.cause th x.detail x.va 0
        | .ok s1 => match s1.ctxMigrate (dieOf c) i with
          | none => s1
          | some s2 => start s2
    | _, _ => s

/-- TASK_FIRST_ISSUE (R385). -/
def execTaskFirstIssue (task : Nat) (s : State) : Out := .next (s.firstIssue task)

end Sys2Proof.Machine
end

