-- ==== Sys2Proof/Machine/Fence.lean ====
section
/-! DEFINITION. EFEN (MAJ 16): the asynchronous work of a thread that has not completed, and its records (R151 to R153). -/
namespace Sys2Proof.Machine

/-- Whether the mask selects a class: bits 0 copy, 1 matrix, 2 vector, 3 fast weights, 4 sequence; 0 selects all. -/
def efenSel (f : Fin 32) (i : Nat) : Bool := f.val == 0 || bits f.val i 1 == 1

/-- The first form of the queue waits for the replay of an image transfer that a record of thread r stands for, and the others for it (R330). -/
def State.fwBehind (s : State) (c : Fin 64) (r : Role) : Bool :=
  match (s.core c).fwq with
  | [] => false
  | e :: _ => !e.started && e.out.isNone && (match s.fwJudge c e.names with
    | .error _ => false
    | .ok hs => hs.any ((s.core c).fwShelved (· == r)))

/-- A fast-weight instruction of the thread, its transfer part included, has not completed (R312, R335). Once one of its image transfers has left a
record, those that can go on only after its replay, or once a record place is free, do not hold back its ENG (R181, R330). -/
def State.fwBusy (s : State) (c : Fin 64) (r : Role) : Bool :=
  let k := s.core c
  let mine := k.recs.toList.any fun x => match x with
    | some { role := q, op := .fw _, .. } => q == r
    | _ => false
  if mine && k.freeRec.isNone then false
  else (s.xfers.any fun x => x.task == k.taskid && x.teamix == k.teamix && x.e.role == r) ||
    ((k.fwq.any fun e => e.role == r) && !(mine && s.fwBehind c r))

/-- A copy of core p cannot go on before copy x of core q has completed: both fill one slot, or the later writes over the earlier
(R260, R268). -/
def State.copyAfter (s : State) (p : Fin 64) (e : CEnt) (q : Fin 64) (x : CEnt) : Bool :=
  decide (x.id < e.id) && (((s.fillsSlot p e).isSome && s.fillsSlot p e == s.fillsSlot q x) || (p == q && s.copyOver p x e))

/-- Every copy that is queued or running, with its core. -/
def State.copies (s : State) : List (Fin 64 × CEnt) := (List.finRange 64).flatMap fun p => (s.core p).cq.map fun e => (p, e)

/-- Copies that stand behind `stuck` ones, directly or through others. -/
def State.copiesBehind (s : State) : Nat → List (Fin 64 × CEnt) → List (Fin 64 × CEnt)
  | 0, stuck => stuck
  | f + 1, stuck =>
    let new := s.copies.filter fun e => !(stuck.any fun x => x.1 == e.1 && x.2.id == e.2.id) &&
      stuck.any fun x => s.copyAfter e.1 e.2 x.1 x.2
    if new.isEmpty then stuck else s.copiesBehind f (stuck ++ new)

/-- The faulted copies that a thread's records stand for (R275). -/
def Core.faulted (k : Core) (r : Role) : List CEnt :=
  (List.finRange 32).filterMap fun i => match k.recs[i] with
    | some { role := q, op := .copy e, cancel := false, .. } => if q = r then some e else none
    | _ => none

/-- A copy of the thread has not completed. Once one of them has left a record, those that can go on only after its replay, or once a
record place is free, do not hold back its ENG (R181, R275). -/
def State.copyBusy (s : State) (c : Fin 64) (r : Role) : Bool :=
  let k := s.core c
  let mine := k.cq.filter fun e => e.role == r
  if mine.isEmpty then false
  else if (k.faulted r).isEmpty then true
  else if k.freeRec.isNone then false
  else
    let stuck := s.copiesBehind s.copies.length ((k.faulted r).map fun e => (c, e))
    mine.any fun e => !(stuck.any fun x => x.1 == c && x.2.id == e.id)

/-- An asynchronous instruction of thread r in a selected class has not completed. Matrix work that a parked engine owes C has not
(R151, R253). -/
def State.asyncBusy (s : State) (c : Fin 64) (r : Role) (sel : Nat → Bool) : Bool :=
  let k := s.core c
  (sel 0 && s.copyBusy c r) ||
    (sel 1 && ((k.mx.queue.any fun e => e.role == r) || (r == .C && k.mx.owed))) ||
    (sel 2 && k.vq.any fun e => e.role == r && !(isMove e.op)) ||
    (sel 3 && s.fwBusy c r) || (sel 4 && k.sq.any fun e => e.role == r)

/-- A record of the thread in a selected class is pending. -/
def Core.asyncRec (k : Core) (r : Role) (sel : Nat → Bool) : Bool := [0, 1, 3, 4].any fun i => sel i && k.recPending r i

/-- EFEN (R151): a halted MA.MM never completes by itself, so it raises its SCHED here (R262). -/
def execEfen (f : Fin 32) (s : State) : Out :=
  s.gate { maj := 16 } [] fun _ =>
    let sel := efenSel f
    match (if sel 1 then s.myCore.haltedOf s.cr else none) with
    | some (id, i, tag) =>
      if s.myCore.asyncRec s.cr sel then s.trap cENG 0x02
      else (s.upMyCore fun k => k.tell id).trap cSCHED (schedDetail i tag)
    | none =>
      if s.asyncBusy s.cc s.cr sel then s.block 10 0
      else if s.myCore.asyncRec s.cr sel then s.trap cENG 0x02
      else s.done 2

end Sys2Proof.Machine
end

