-- ==== Sys2Proof/Machine/Team.lean ====
section
/-! DEFINITION. A task after its first word: pre-emption, the save and the resume of a team, the end of a task, the watchdogs,
the delivery of traps and of host events (R387 to R403, R408, R410, R418, R435). -/
namespace Sys2Proof.Machine

/-! ## Where a thread stands (R389, R396, R418) -/

/-- A role thread that an ordinary pre-emption need not wait for. -/
def Thread.atRest (t : Thread) : Bool :=
  match t.status with
  | .idle => true
  | .ended => true
  | .stopped _ _ => true
  | _ => false

/-- A role thread that an urgent pre-emption or a cancellation need not wait for: one that waits for the driver, or whose trap is
served or still to be delivered, stands at a word boundary too. -/
def Thread.atBoundary (t : Thread) : Bool := t.atRest || t.status == .host || t.trap.isSome

/-- T stands still: it is idle, or stopped or halted at a word boundary. -/
def Thread.quietT (t : Thread) (urgent : Bool) : Bool :=
  t.status == .idle || (urgent && (t.atRest || t.status == .host))

/-- Every thread of a core has stopped for a pre-emption. -/
def Core.quiet (k : Core) (urgent : Bool) : Bool :=
  [Role.L, .C, .S].all (fun r => if urgent then (k.thr r).atBoundary else (k.thr r).atRest) && (k.thr .T).quietT urgent

/-- L, C and S have all ended; an idle thread counts as ended (R408). -/
def Core.finished (k : Core) : Bool :=
  [Role.L, .C, .S].all fun r => (k.thr r).status == .ended || (k.thr r).status == .idle

/-- Accesses of a core's threads have returned, stores are performed or left as records, posted events have landed (R390); an event that a
store's record holds is saved with its thread (log 120). -/
def State.drained (s : State) (c : Fin 64) : Bool :=
  let k := s.core c
  k.threads.toList.all (fun t => t.stores.isEmpty) && k.posts.all (s.postShut c) && k.reqs.all fun q => !q.isRead

/-- A form of the sequence queue that any pre-emption cancels: an SQ.SEND whose record has not left the core, an SQ.RECV (R369, R370). -/
def SEnt.waits (e : SEnt) : Bool :=
  match e.op with
  | .sqSend _ _ _ => e.sent.isNone
  | .sqRecv _ _ _ => true
  | _ => false

/-- The engines of a core hold no work that an ordinary pre-emption waits for. -/
def Core.enginesIdle (k : Core) : Bool :=
  k.vq.isEmpty && k.mx.queue.isEmpty && k.cq.isEmpty && k.fwq.isEmpty && k.sq.all SEnt.waits

/-- The fast-weight forms that stop at a head boundary (R336). -/
def FEnt.byHead (e : FEnt) : Bool :=
  isChunk e.op || (match e.op with
    | .fwLogc _ _ _ => true
    | .fwLogd _ _ _ => true
    | .fwAvg _ _ _ => true
    | _ => false)

/-- The first form of a core's queue cannot start before an image transfer is replayed (R330) or a task that is off its cores has gone on (R336); the
others wait for it. -/
def State.fwIdle (s : State) (c : Fin 64) : Bool :=
  match (s.core c).fwq with
  | [] => false
  | e :: _ => !e.started && e.out.isNone && (match s.fwJudge c e.names with
    | .error _ => false
    | .ok hs => hs.any s.fwStopped || s.fwAway e hs)

/-- What an urgent pre-emption or a cancellation still waits for in the engines (R390): vector work but moves that have not started (R196),
fast-weight forms that have no head boundary (R336) unless others must go on before they can (log 150), a record that has left the core
(R369). -/
def State.enginesCut (s : State) (c : Fin 64) : Bool :=
  let k := s.core c
  k.vq.all (fun v => isMove v.op && v.out.isNone) && k.fwq.all (fun e => e.out.isNone) && (k.fwq.all FEnt.byHead || s.fwIdle c) &&
    k.sq.all fun e => match e.op with
      | .sqSend _ _ _ => e.sent.isNone
      | _ => true

/-! ## The thread save (R396) -/

/-- STOP, and the live mask, of a role thread. -/
def Thread.stopCode (t : Thread) : Nat × Nat :=
  match t.status with
  | .stopped n live => (n, live)
  | .ended => (3, 0)
  | .idle => (4, 0)
  | .host => (1, allLive)
  | .running => (2, allLive)

/-- Registers outside the live mask read zero after the resume (R391). -/
def Thread.masked (t : Thread) (live : Nat) : Thread :=
  { t with g := Vector.ofFn fun i => if bits live i.val 1 = 1 then t.g[i] else 0 }

/-- HDR, REPS and WPOS of a thread save. A thread that is idle or has ended has no word to issue next: its bytes are free; so is REPS where the
block to be entered cannot be read (log 83). -/
def Thread.savePos (t : Thread) (stop : Nat) (junk : Nat → Byte) : List Byte :=
  if 3 ≤ stop then (List.range 18).map junk
  else match t.fetch with
    | some f => (match f.kind with
      | .resume reps wpos => leBytes 8 f.target ++ leBytes 8 reps ++ leBytes 2 wpos
      | _ => leBytes 8 f.target ++ (List.range 8).map junk ++ leBytes 2 0)
    | none => leBytes 8 t.hdr ++ leBytes 8 t.reps ++ leBytes 2 t.wpos

/-- The 512 bytes of a thread save. -/
def Thread.saveBytes (t : Thread) (stop live : Nat) (csr : List Byte) (junk : Nat → Byte) : List Byte :=
  let waitk := match t.stage with
    | .arw _ k => k
    | _ => 0
  t.savePos stop junk ++ leBytes 1 stop ++ leBytes 1 0 ++ leBytes 4 live ++
    leBytes 8 t.fpcr.toNat ++ leBytes 4 t.rngseed.toNat ++ leBytes 4 t.rngctr.toNat ++ leBytes 2 t.scnt ++ leBytes 2 0 ++
    leBytes 4 waitk ++ leBytes 16 0 ++ (((t.masked live).g.toList.drop 1).flatMap fun x => leBytes 8 x.toNat) ++ csr ++
    leBytes (200 - csr.length) 0

/-- The offset of a thread's save in the service area (R394). -/
def saveOff (r : Role) : Nat := 0x781400 + 512 * (rix r).val

/-- T's STOP: 2 when it stopped mid-handler, 4 when it was not running; every LIVE bit is set. -/
def Thread.stopT (t : Thread) : Nat := if t.status = .idle then 4 else 2

/-- The trap CSRs as T's save holds them. -/
def Core.csrBytes (k : Core) : List Byte :=
  leBytes 8 k.trapc.toNat ++ leBytes 8 k.trapa.toNat ++ leBytes 8 k.trappc.toNat ++ leBytes 8 k.trapw.toNat

/-- Where a thread that has stopped at the end of a block goes on: in the next block, its repeats as the header gives them (R39, R396). -/
def State.entered (s : State) (c : Fin 64) (r : Role) : Thread :=
  let t := s.thr c r
  match t.fetch with
  | none => t
  | some f =>
    if t.trap.isSome ∨ t.status = .host then t
    else match f.kind with
      | .resume _ _ => t
      | _ => match s.findBlock c r t f with
        | .ok b => t.enter b f.kind r 0
        | _ => t

/-- Writes the four thread saves into the service area, whose poison goes; n numbers their free bytes. -/
def Core.writeSaves (k : Core) (n : Nat) : Core :=
  let junk := fun (r : Role) (i : Nat) => Config.saveByte n (512 * (rix r).val + i)
  let one := fun (p : Mem) (r : Role) =>
    p.write (saveOff r) ((k.thr r).saveBytes (k.thr r).stopCode.1 (k.thr r).stopCode.2 [] (junk r))
  let p := [Role.L, .C, .S].foldl one k.pool
  ({ k with pool := p.write (saveOff .T) ((k.thr .T).saveBytes (k.thr .T).stopT allLive k.csrBytes (junk .T)) }).markPool
    (saveOff .L) 2048 false

/-! ## The save block (R391, R392) -/

/-- 4 KiB pages of a save block of 36 MiB. -/
def savePages : Nat := 9216

/-- Core k's save writes line l of its block: it holds something, and a column-store unit only when it is filled (R391). -/
def Core.savesLine (k : Core) (l : Nat) : Bool :=
  let o := Config.saveLine l
  if o < 131072 then true else if o < 133120 then k.filled.contains (o - 131072) else decide (o < 166400)

/-- The lines of page i of its block that core k's save writes, by place in the page. -/
def Core.savesPage (k : Core) (i : Nat) : List Nat := (List.range 64).filter fun j => k.savesLine (64 * i + j)

/-- What line l of core k's block holds is poisoned: a pool line but those of the thread saves, which the save writes itself, a column-store
unit, a tile, a plane (R391). -/
def Core.badLine (k : Core) (l : Nat) : Bool :=
  let o := Config.saveLine l
  if o < 131072 then k.ppoison.contains o && !(decide (saveOff .L / 64 ≤ o) && decide (o < saveOff .L / 64 + 32))
  else if o < 133120 then k.cpoison.contains (o - 131072)
  else if o < 157696 then (k.mx.tiles[Fin.ofNat 16 ((o - 133120) / 1536)]).poison
  else if o < 165888 then (k.mx.planes[Fin.ofNat 2 o]).poison
  else false

/-- How far a write of save blocks comes: the pages done, counted through the blocks, and why it stops, if it does. -/
structure SaveRes where
  s    : State
  n    : Nat
  stop : Option Stall

/-- Writes the lines `l` of one page at `pa`, those of `bad` poisoned; their bytes are open (log 81), and the rest of the page keeps its own. -/
def State.writePage (s : State) (pa : Nat) (ms : Bool) (l bad : List Nat) : State :=
  let s1 := l.foldl (fun (s : State) j =>
    s.physWrite (pa + 64 * j) ((List.range 64).map fun b => Config.saveByte s.free (64 * j + b)) ms) s
  { bad.foldl (fun (s : State) j => s.setPoison (pa / 64 + j) true) s1 with free := s.free + 1 }

/-- Writes `n` pages of core c's block, whose first page is `b`, from page i on; `done` pages are written before. A page with nothing to
write is not touched. -/
def State.writeBlock (c : Fin 64) (b : Nat) : Nat → Nat → Nat → State → SaveRes
  | 0, _, done, s => { s := s, n := done, stop := none }
  | n + 1, i, done, s =>
    match (s.core c).savesPage i with
    | [] => State.writeBlock c b n (i + 1) (done + 1) s
    | l => match s.engAt c 3 0 (4096 * (b + i)) .write false with
      | .stop w => { s := s, n := done, stop := some w }
      | .ok pa e s1 => State.writeBlock c b n (i + 1) (done + 1) (s1.writePage pa (leafBd e) l (l.filter fun j => (s.core c).badLine (64 * i + j)))

/-- Writes the blocks of a team, one for each core, past the pages that are written: `skip` of them are left to pass (R392). -/
def State.writeBlocks (pages : Nat) : List (Fin 64 × Nat) → Nat → Nat → State → SaveRes
  | [], _, done, s => { s := s, n := done, stop := none }
  | (c, b) :: t, skip, done, s =>
    let k := min skip pages
    let r := State.writeBlock c b (pages - k) k (done + k) s
    match r.stop with
    | none => State.writeBlocks pages t (skip - k) r.n r.s
    | some _ => r

/-- Blocks back to the list. -/
def State.giveBlocks (s : State) (d : Fin 4) (l : List Nat) : State := l.foldl (fun s b => s.giveFrame d (s.sysBase 6) b) s

/-- Takes blocks from the SAVEL list until the task has one for each core; `none` when the list cannot give one. -/
def State.takeBlocks (d : Fin 4) : Nat → State → List Nat → Option (List Nat × State)
  | 0, s, l => some (l, s)
  | n + 1, s, l =>
    match s.takeFrame d (s.sysBase 6) with
    | none => none
    | some (b, s1) => State.takeBlocks d n s1 (l ++ [b])

/-! ## What the save makes of a core (R285, R289, R390, R391) -/

/-- Copies are cancelled at a unit boundary: each leaves a cancellation record while places are free; the others keep their
place in the queue (R275, R390). -/
def Core.cancelCopies (k : Core) : Core :=
  k.cq.foldl (fun (k : Core) e =>
    let x : Rec := { role := e.role, op := .copy { e with started := false }, fault := { cause := 0, detail := 0, va := 0, kind := 0 },
                     cancel := true }
    match k.freeRec with
    | some i => { k.dropCopy e.id with recs := k.recs.set i (some x) }
    | none => (k.leave .copy).upCopy e.id fun e => { e with started := false }) k

/-- Fast-weight forms stop at a head boundary and keep their next head (R336), and one that has performed some heads its hold on the state. -/
def Core.cancelFw (k : Core) : Core :=
  { k with fwq := k.fwq.map fun e => { e with started := false, hs := if e.cut then e.hs else [] } }

/-- Sequence forms stop with nothing changed, their LOCKs clear (R345). -/
def State.cancelSeq (s : State) (c : Fin 64) : State :=
  (s.core c).sq.foldl (fun (s : State) e => (s.unlock c e).upSq c e.id fun _ => e.fresh) s

/-- The matrix engine freezes; its flag in the image is what it was before (R252, R390). -/
def State.freezeFor (s : State) (c : Fin 64) : State :=
  let was := (s.core c).mx.frozen
  (s.freeze c).upCore c fun k => k.upMx fun m => { m with frozen := was }

/-- A blocked wait is forgotten and executes again; a BAR.ARW keeps its token; a WAITA will complete with what has woken it, or
with code 3 (R126, R289, R292, R387). -/
def State.unwait (s : State) (t : Thread) : Thread :=
  let t1 := { t with why := if t.status = .host ∨ t.trap.isSome then t.why else 0, obj := 0, xwalk := none }
  match t.stage with
  | .bwait _ _ => { t1 with stage := .none }
  | .mwait => { t1 with stage := .none }
  | .sem _ => { t1 with stage := .none }
  | .watch id => { t1 with stage := .result (match s.watches.find? (·.id == id) with
    | some w => w.fired.getD 3
    | none => 3) }
  | _ => t1

/-- A thread as the save keeps it: its live registers, no block, no release. -/
def State.savedThread (s : State) (r : Role) (t : Thread) : Thread :=
  { (s.unwait t).masked (if r = .T then allLive else t.stopCode.2) with blk := none, ahead := none, relUpto := none, relMark := none }

/-- Filled units alone keep their bytes (R236). -/
def Core.filledCol (k : Core) : Mem := k.col.filter fun e => k.filled.contains (e.1 % 131072 / 64)

/-- The contents that a core saves; n numbers the free bytes of its thread saves. -/
def State.snapshot (s : State) (c : Fin 64) (n : Nat) : Core :=
  let k := ({ s.core c with threads := Vector.ofFn fun i => s.entered c (roleOf i) } : Core).writeSaves n
  { k with threads := Vector.ofFn fun i => s.savedThread (roleOf i) (k.threads[i]), col := k.filledCol, semq := [],
           reqs := [], reqwait := [], walks := [], walkwait := [], l1 := [], hcache := [], fwcache := [], fwwant := [] }

/-- The engines of a core give up what they do (R390, urgent). -/
def State.cutEngines (s : State) (c : Fin 64) : State :=
  ((s.freezeFor c).cancelSeq c).upCore c fun k => k.cancelCopies.cancelFw

/-- The task leaves its cores, saved (R377, R387, R391). -/
def State.keepSaved (s : State) (t : Task) (d : Fin 4) : State :=
  let s1 := t.cores.foldl (if t.preempt = 2 then State.cutEngines else State.cancelSeq) s
  let snaps := t.cores.zipIdx.map fun x => s1.snapshot x.1 (s1.free + x.2)
  let mine := s1.invals.filterMap fun v => match v.owner with
    | some (c, _) => (t.cores.idxOf? c).map fun i => (i, v)
    | none => none
  let s2 := s1.upTask t.id fun t =>
    { t with phase := .saved, cores := [], saved := snaps, order := s1.nextOp, preempt := 0, bypass := 0, written := 0,
             invals := mine.map fun x => (x.1, { x.2 with owner := none }) }
  let s3 := (t.cores.foldl (fun (s : State) c => s.upCore c Core.vacate) s2).forgetTask t.id
  { s3.charge d t.region 128 (-(t.size : Int)) with
    nextOp := s1.nextOp + 1, free := s1.free + t.cores.length,
    watches := s3.watches.filter fun w => !(t.cores.contains w.core),
    invals := s3.invals.filter fun v => !(match v.owner with
      | some (c, _) => t.cores.contains c
      | none => false),
    hostq := s3.hostq.map fun e => if t.cores.any fun c => e.core == some c then { e with core := none } else e }

/-- A cancelled task leaves: its sequence forms let go of their LOCKs, its records are discarded, its blocks go back (R410). -/
def State.endCancelled (s : State) (t : Task) (d : Fin 4) : State := (s.giveBlocks d t.blocks).removeTask t

/-- The save ends; a cancellation that came meanwhile then applies to the saved task (R418). -/
def State.finishSave (s : State) (t : Task) (d : Fin 4) : State :=
  let s1 := s.keepSaved t d
  if !t.cancel then s1
  else match s1.task t.id with
    | some x => s1.endCancelled x d
    | none => s1

/-- A save that the driver must help (R392): SAVEF is posted, and the task stays on its cores. The event's thread is free. -/
def State.saveStops (s : State) (t : Task) (c : Fin 64) (x : XFault) : State :=
  let (th, s1) := s.freeBits 2
  (s1.postHost (taskEvent 2 (s.core c).view t x.cause th x.detail x.va 0)).upTask t.id fun t => { t with phase := .savef }

/-- Every core of the task is ready to be saved. -/
def State.saveReady (s : State) (t : Task) : Bool :=
  let urgent := t.preempt == 2
  let done := fun (c : Fin 64) =>
    let k := s.core c
    k.quiet urgent && s.drained c && (if urgent then s.enginesCut c else k.enginesIdle) && s.invals.all fun v =>
      match v.owner with
      | some (x, _) => x != c || v.done
      | none => true
  t.cores.all done && !(t.cores.all fun c => (s.core c).finished)

/-- TASK_SAVE (R391, R392): takes the blocks, writes them on from where a stop left them, and frees the cores. A block on a lost die is
replaced and its write starts again. `pages` is the size of a block. -/
def State.taskSave (s : State) (id pages : Nat) : State :=
  match s.task id with
  | none => s
  | some t =>
    match t.phase, t.cores with
    | .running, c :: _ =>
      if !(t.preempt == 1 || t.preempt == 2) || !(s.saveReady t) then s
      else
        let d := dieOf c
        match State.takeBlocks d (t.size - t.blocks.length) s t.blocks with
        | none => s
        | some (bs, s1) =>
          let r := State.writeBlocks pages (t.cores.zip bs) t.written 0 s1
          let at_ := r.n / pages
          let s2 := r.s.upTask id fun t => { t with blocks := bs, written := r.n }
          match r.stop with
          | none => s2.finishSave { t with blocks := bs } d
          | some (.fault x) =>
            if x.cause = cDIEX then s2.upTask id fun t => { t with blocks := t.blocks.eraseIdx at_, written := at_ * pages }
            else s2.saveStops t (t.cores.getD at_ c) x
          | some w => s2.ask (t.cores.getD at_ c) .copy w
    | _, _ => s

/-- TASK_SAVE (R391). -/
def execTaskSave (task : Nat) (s : State) : Out := .next (s.taskSave task savePages)

/-- PREEMPT_ESCALATE (R389): an ordinary pre-emption that takes too long becomes urgent. -/
def execPreemptEscalate (task : Nat) (s : State) : Out :=
  .next (s.upTask task fun t => if t.preempt = 1 then { t with preempt := 2 } else t)

/-! ## The resume (R387, R392, R393) -/

/-- A stopped thread goes on: its block is fetched again (R396). -/
def Thread.restart (t : Thread) : Thread :=
  let f := match t.fetch with
    | some f => some f
    | none => some { target := t.hdr, src := t.hdr, kind := FetchKind.resume t.reps t.wpos }
  match t.status with
  | .stopped _ _ => { t with status := .running, fetch := f }
  | .running => { t with fetch := f }
  | _ => t

/-- Puts an entry back into a queue ahead of every later one. -/
def insertId {α : Type} (id : α → Nat) (e : α) : List α → List α
  | [] => [e]
  | x :: t => if id e < id x then e :: x :: t else x :: insertId id e t

/-- Cancelled copies return to the queue (R275). -/
def Core.uncancel (k : Core) : Core :=
  (List.finRange 32).foldl (fun (k : Core) i =>
    match k.recs[i] with
    | some { op := .copy e, cancel := true, .. } => { k with recs := k.recs.set i none, cq := insertId CEnt.id e k.cq }
    | _ => k) k

/-- Saved contents on a new core, whose own L1 generation and TLBs stay (R387, R393). -/
def Core.restore (k snap : Core) (t : Task) (ix : Nat) (v : View) : Core :=
  (({ snap with
    l1gen := k.l1gen, l1clear := k.l1clear, ptlb := k.ptlb, ctlb := k.ctlb,
    threads := snap.threads.map Thread.restart } : Core).uncancel.join t ix v).bumpL1

/-- A poisoned line of a save block and where it goes (R392): a pool line, a column-store unit, a tile, a plane; or it ends the task. A line
that the save did not write is not read. -/
def Core.savedPoison (k : Core) (l : Nat) : Option Core :=
  let o := Config.saveLine l
  if o < 131072 then
    if 0x781000 ≤ 64 * o ∧ 64 * o < 0x782000 then none else some { k with ppoison := insertNat o k.ppoison }
  else if o < 133120 then some { k with cpoison := insertNat (o - 131072) k.cpoison }
  else if o < 157696 then
    let i : Fin 16 := Fin.ofNat 16 ((o - 133120) / 1536)
    some (k.upMx fun m => { m with tiles := m.tiles.set i { m.tiles[i] with poison := true } })
  else if o < 165888 then
    let i : Fin 2 := Fin.ofNat 2 o
    some (k.upMx fun m => { m with planes := m.planes.set i { m.planes[i] with poison := true } })
  else none

/-- What reading core k's save block finds: the places of its poisoned lines among those written, or a fault. -/
def State.readBlock (s : State) (k : Core) (d : Fin 4) (b : Nat) : Nat → Nat → Except XFault (List Nat)
  | 0, _ => .ok []
  | n + 1, i =>
    let va := 4096 * (b + i)
    let l := k.savesPage i
    if l.isEmpty then s.readBlock k d b n (i + 1)
    else match s.hwAddr d 0 va .read false with
    | .error (c, x) => .error { cause := c, detail := x, va := va, kind := 1 }
    | .ok pa =>
      let bad := if s.anyPoison pa 4096 then
          l.filterMap fun j => if s.poisoned (pa / 64 + j) then some (64 * i + j) else none
        else []
      (s.readBlock k d b n (i + 1)).map (bad ++ ·)

/-- The save blocks read back: the cores' contents with their poison, or what ends the task. -/
def State.readBlocks (s : State) (d : Fin 4) (pages : Nat) : List (Core × Nat) → Except XFault (List Core)
  | [] => .ok []
  | (k, b) :: t =>
    match s.readBlock k d b pages 0 with
    | .error x => .error x
    | .ok ls =>
      match ls.foldl (fun (a : Option Core) l => a.bind fun k => k.savedPoison l) (some k) with
      | none => .error { cause := cPOISON, detail := 0, va := 4096 * b, kind := 1 }
      | some k1 => (s.readBlocks d pages t).map (k1 :: ·)

/-- Results and events that came while the task was saved (R285, R335), in order. -/
def State.applyHeld (s : State) (t : Task) : State :=
  let s1 := t.results.foldl (fun (s : State) (x : Nat × Role × Nat × Nat × Word) =>
    match t.cores[x.1]? with
    | some c => s.upThr c x.2.1 fun th => th.deliver (Fin.ofNat 32 x.2.2.1) x.2.2.2.1 x.2.2.2.2
    | none => s) s
  t.heldEv.foldl (fun (s : State) (x : Nat × Nat × PostKind) =>
    match t.cores[x.1]? with
    | some c => s.upCore c fun k => k.slotEvent (Fin.ofNat 32 x.2.1) x.2.2
    | none => s) s1

/-- The reload (R393): contents, held results and events, invalidations, blocks back to their list. -/
def State.reload (s : State) (t : Task) (d : Fin 4) (snaps : List Core) : State :=
  let s1 := (t.cores.zip snaps).zipIdx.foldl (fun (s : State) x =>
    s.upCore x.1.1 fun k => k.restore x.1.2 t x.2 k.view) s
  let s2 := s1.applyHeld t
  let mine := t.invals.filterMap fun x => (t.cores[x.1]?).map fun c => { x.2 with owner := some (c, Role.T) }
  let xs := s2.xfers.map fun x => if x.task = t.id then { x with core := t.cores.getD x.teamix x.core } else x
  ({ s2 with invals := s2.invals ++ mine, xfers := xs }.giveBlocks d t.blocks).upTask t.id fun t =>
    { t with phase := .running, saved := [], blocks := [], heldEv := [], results := [], invals := [] }

/-- TASK_RESUME (R393). `pages` is the size of a block. -/
def State.taskResume (s : State) (id pages : Nat) : State :=
  match s.task id with
  | none => s
  | some t =>
    match t.phase, t.cores with
    | .resuming, c :: _ =>
      let d := dieOf c
      match s.readBlocks d pages (t.saved.zip t.blocks) with
      | .error x =>
        let (th, s1) := s.freeBits 2
        (s1.giveBlocks d t.blocks).endFaulted id 3 x.cause th x.detail x.va 0
      | .ok snaps =>
        let moved := match t.ctx with
          | some i => s.ctxMigrate d i
          | none => some s
        match moved with
        | none => s
        | some s1 => s1.reload t d snaps
    | _, _ => s

/-- TASK_RESUME (R393). -/
def execTaskResume (task : Nat) (s : State) : Out := .next (s.taskResume task savePages)

/-! ## The end of a task (R142, R408, R410) -/

/-- A transfer of the task runs (R142). -/
def State.transfers (s : State) (t : Task) : Bool := s.xfers.any fun x => x.task == t.id

/-- A task that has ended normally: NCHUNK and EVF change, its cores are free (R382, R408). DESIGN CHOICE: NCHUNK, or EVF, stays as it is where the
context record, or the queue's record, cannot be read or written then, and the task ends all the same (log 137). -/
def State.endNormal (s : State) (t : Task) (d : Fin 4) : State :=
  let s1 := match t.ctx with
    | none => s
    | some i => match s.hwRead d 0 (s.ctxAddr i + 8) 8 with
      | .error _ => s
      | .ok b => match s.hwStore d 0 (s.ctxAddr i + 8) (leBytes 8 ((leNat b + 1) % 2 ^ 64)) with
        | .ok s1 => s1
        | .error _ => s
  let s2 := match s1.qcrRead d t.queue with
    | .ok q => s1.qcrSet d t.queue 32 4 (Nat.lor (qEVF q) t.sigm)
    | .error _ => s1
  s2.removeTask t

/-- A thread that has ended and left a store that became a record: the release of the task's end raises ENG at its TK.END (R142, R148). -/
def State.endRecord (s : State) (t : Task) : Option (Fin 64 × Role) :=
  t.cores.findSome? fun c => ([Role.L, .C, .S].find? fun r => (s.thr c r).status == .ended && s.storeRecord c r).map fun r => (c, r)

/-- TASK_END (R408, R410). -/
def State.taskEnd (s : State) (id : Nat) : State :=
  match s.task id with
  | none => s
  | some t =>
    match t.phase, t.cores with
    | .running, c :: _ =>
      let d := dieOf c
      if t.preempt = 3 then
        if t.cores.all fun c => (s.core c).quiet true && s.drained c && s.enginesCut c then s.endCancelled t d else s
      else if t.cores.all (fun c => (s.core c).finished && ((s.core c).thr .T).quietT false && s.drained c &&
          (s.core c).enginesIdle && (s.core c).sq.isEmpty) && !(s.transfers t) then
        match s.endRecord t with
        | none => s.endNormal t d
        | some (c, r) => (s.upThr c r fun t => { t with status := .running }).trapAt c r ((s.thr c r).faultHere cENG 0x01 0 0)
      else s
    | _, _ => s

/-- TASK_END (R408). -/
def execTaskEnd (task : Nat) (s : State) : Out := .next (s.taskEnd task)

/-! ## Traps and watchdogs (R388, R399, R400, R402) -/

/-- TRAP_DELIVERY (R399): raised traps of a core, in the order L, C, S. -/
def execTrapDelivery (c : Fin 64) (s : State) : Out := .next ([Role.L, .C, .S].foldl (fun s r => s.deliverTrap c r) s)

/-- No PG.MIG.W waits for migration `id` any more. -/
def Die.unwaited (id : Nat) (d : Die) : Die :=
  { d with moves := (d.moves.filter fun m => m.id ≠ id || m.ended.isNone).map fun m => if m.id = id then { m with waits := false } else m }

/-- A thread leaves the wait of its word, which will execute again from its beginning, or not at all (R402, R413): what the word has
begun lets go of the thread. A result that an event has granted stays. -/
def State.leaveWait (s : State) (c : Fin 64) (r : Role) : State :=
  let t := s.thr c r
  let s1 := match t.stage with
    | .watch id => { s with watches := s.watches.filter (·.id ≠ id) }
    | .mig id => { s with dies := s.dies.map (Die.unwaited id) }
    | .pin pa e => s.writeLeaf pa e e
    | _ => s
  let s2 := s1.upCore c fun k => { k.waitsNot r with semq := k.semq.filter (·.role ≠ r), reqs := k.reqs.filter fun q => !(q.role == r && q.arms) }
  s2.upThr c r fun t => { t with stage := match t.stage with
    | .result v => .result v
    | .safe => .safe
    | _ => .none }

/-- WATCHDOG_EXPIRY (R402): WATCH at the blocked word, with WHY and OBJ in its detail. -/
def State.watchdog (s : State) (c : Fin 64) (r : Role) : State :=
  let t := s.thr c r
  if r = .T ∨ (s.core c).view.wdog = 0 ∨ t.status ≠ .running ∨ t.trap.isSome ∨ t.why = 0 ∨ t.why = 12 then s
  else (s.leaveWait c r).trapAt c r (t.faultHere cWATCH (t.why % 16 * 4096 + t.obj % 64) 0 0)

/-- WATCHDOG_EXPIRY (R402). -/
def execWatchdogExpiry (c : Fin 64) (r : Role) (s : State) : Out := .next (s.watchdog c r)

/-- T_WATCHDOG_EXPIRY (R400): T has run too long. -/
def State.watchdogT (s : State) (c : Fin 64) : State :=
  let t := s.thr c .T
  if (s.core c).view.wdog = 0 ∨ t.status ≠ .running then s
  else s.trapInT c (t.faultHere cWATCH (t.why % 16 * 4096 + t.obj % 64) 0 0)

/-- T_WATCHDOG_EXPIRY (R400). -/
def execTWatchdogExpiry (c : Fin 64) (s : State) : Out := .next (s.watchdogT c)

/-- SAFE_COUNT_EXPIRY (R388): SAFE at the word that would be the 16,385th retirement. -/
def State.safeExpiry (s : State) (c : Fin 64) (r : Role) : State :=
  let t := s.thr c r
  if !(t.safeDue r) || t.stage != .safe || t.status != .running || t.trap.isSome then s
  else (s.upThr c r fun t => { t with stage := .none }).trapAt c r (t.faultHere cSAFE 0 0 0)

/-- SAFE_COUNT_EXPIRY (R388). -/
def execSafeCountExpiry (c : Fin 64) (r : Role) (s : State) : Out := .next (s.safeExpiry c r)

/-! ## Host events (R403, R435) -/

/-- The 64 bytes of a host event (R403). -/
def HostEvent.bytes (e : HostEvent) : List Byte :=
  leBytes 4 e.kind ++ leBytes 2 e.region ++ leBytes 2 e.fdom ++ leBytes 8 e.task ++ leBytes 1 e.cause ++ leBytes 1 e.thread ++
    leBytes 2 0 ++ leBytes 4 e.detail ++ leBytes 8 e.fva ++ leBytes 8 e.trapa ++
    leBytes 8 (bits e.queue 0 14 + bits e.pos 0 48 * 65536) ++ leBytes 16 0

/-- The event may be posted now: its T's stores are performed, and the host link carries the release at .sy. -/
def State.postable (s : State) (e : HostEvent) : Bool :=
  s.hostup && (match e.core with
    | some c => (s.thr c .T).stores.isEmpty
    | none => true)

/-- HOST_EVENT_POST (R435): the oldest event enters the ring, if the ring can take it. -/
def State.hostPost (s : State) : State :=
  match s.hostq with
  | [] => s
  | e :: rest =>
    let base := s.sysBase 7
    let d : Fin 4 := match e.core with
      | some c => dieOf c
      | none => 0
    if base = 0 ∨ s.postable e = false then s
    else match s.hwRead d 0 base 24 with
      | .error _ => s
      | .ok h =>
        let cap := field h 16 8
        let tail := field h 8 8
        if cap = 0 ∨ cap ≤ tail - field h 0 8 then s
        else match s.hwStore d 0 (base + 64 + 64 * (tail % cap)) e.bytes with
          | .error _ => s
          | .ok s1 => match s1.hwStore d 0 (base + 8) (leBytes 8 ((tail + 1) % 2 ^ 64)) with
            | .error _ => s
            | .ok s2 => { s2 with hostq := rest, msix := s2.msix.set 2 true }

/-- HOST_EVENT_POST (R435). -/
def execHostEventPost (s : State) : Out := .next s.hostPost

/-! ## The driver's answers (R392, R399, R400) -/

/-- A thread that waits for the driver goes on at its trapping word, that of SYS, BRK or OVRN too; a halted T as well (R399, R400). -/
def Thread.retried (t : Thread) : Thread :=
  let t := match t.trap with
    | some p =>
      if p.cause = cSYS ∨ p.cause = cBRK ∨ p.cause = cOVRN then
        { t with hdr := p.hdr, reps := p.reps, wpos := p.wpos, fetch := none }
      else t
    | none => t
  let f := match t.fetch with
    | some f => some f
    | none => some { target := t.hdr, src := t.hdr, kind := FetchKind.resume t.reps t.wpos }
  { t with status := .running, trap := none, fetch := f, blk := none, ahead := none, why := 0, obj := 0 }

/-- RETRY for a thread of a core: it goes on at the trapping word, and its halted matrix work applies R261 again (R262). -/
def Core.retry (k : Core) (r : Role) : Core := (k.setThr r (k.thr r).retried).unhalt r

/-- A paused save ends, and the task goes on in place (R392); a cancellation that waited for its end stops it (R418). -/
def State.abortSave (s : State) (t : Task) : State :=
  let d : Fin 4 := match t.cores with
    | c :: _ => dieOf c
    | [] => 0
  let s1 := t.cores.foldl (fun (s : State) c => s.upCore c fun k => { k with threads := k.threads.map fun x =>
    match x.status with
    | .stopped _ _ => { x with status := .running }
    | _ => x }) s
  (s1.giveBlocks d t.blocks).upTask t.id fun t => { t with phase := .running, preempt := if t.cancel then 3 else 0, blocks := [], written := 0, cancel := false }

/-- ANSWER (R399, R400, R432): RETRY or ABORT for a task, its member i and a thread; 1 when nothing waits there, for which R432 names no status (log 99). -/
def State.answerFor (s : State) (id : Nat) (r : Role) (i : Nat) (retry : Bool) : State × Nat :=
  match s.task id with
  | none => (s, 1)
  | some t =>
    let abort := fun (s : State) => s.faultEnd t
    if t.phase = .savef then
      (if retry then s.upTask id fun t => { t with phase := .running } else s.abortSave t, 0)
    else
      let k : Option Core := match t.cores[i]? with
        | some c => if t.phase = .resuming then t.saved[i]? else some (s.core c)
        | none => t.saved[i]?
      match k with
      | none => (s, 1)
      | some k =>
        if (k.thr r).status ≠ .host then (s, 1)
        else if !retry then (abort (match t.cores with
          | c :: _ => s.giveBlocks (dieOf c) t.blocks
          | [] => s.giveBlocks 0 t.blocks), 0)
        else match t.cores[i]? with
          | some c =>
            if t.phase = .resuming then (s.upTask id fun t => { t with saved := t.saved.set i (k.retry r) }, 0)
            else (s.upCore c fun k => k.retry r, 0)
          | none => (s.upTask id fun t => { t with saved := t.saved.set i (k.retry r) }, 0)

end Sys2Proof.Machine
end

