-- ==== Sys2Proof/Machine/System.lean ====
section
/-! DEFINITION. Task, trap and system instructions: MAJ 51 to 55 (R388, R399, R404 to R417). -/
namespace Sys2Proof.Machine

/-! ## Ends, yields and safe points (R388, R408, R409, R411) -/

/-- TK.END (R408): waits as EFEN with every class, then for the thread's posted events; the thread has ended. A store that has become a
record traps here, or at the task's end, before the release that would make it visible (R130, R142, R148): the thread stands at its
TK.END. -/
def execTkEnd (s : State) : Out :=
  s.gate { maj := 51 } [] fun _ =>
    let r := s.cr
    if r = .T then s.trap cILL 0x08
    else match s.myCore.haltedOf r with
    | some (id, i, tag) =>
      if s.myCore.asyncRec r (fun _ => true) then s.trap cENG 0x02
      else (s.upMyCore fun k => k.tell id).trap cSCHED (schedDetail i tag)
    | none =>
      if s.asyncBusy s.cc r (fun _ => true) then s.block 10 0
      else if s.myCore.asyncRec r (fun _ => true) then s.trap cENG 0x02
      else if s.storeRecord s.cc r then s.trap cENG 0x01
      else if s.myCore.posts.any (fun p => p.role == r) then s.block 10 0
      else if s.myCore.postRec r then s.trap cENG 0x05
      else .next (s.upMe fun t => { t.clearWait with scnt := t.scnt + 1, status := .ended })

/-- Asks for a pre-emption of a task; a stronger request stays (R389). -/
def State.askPreempt (s : State) (id n : Nat) : State := s.upTask id fun t => { t with preempt := max t.preempt n }

/-- The word is a safe point with this live mask: it retires, and a pending pre-emption stops the thread. In T it is none (log 87). -/
def State.safeDone (s : State) (n live : Nat) : Out :=
  if s.cr = .T then s.done n else .next (s.upMe fun t => (t.retire n).safePoint (s.preemptOf s.cc) live)

/-- TK.YIELD (R409). -/
def execTkYield (a : Fin 32) (s : State) : Out :=
  s.gate { maj := 51, safe := true } [a] fun _ =>
    (s.askPreempt s.myCore.taskid 1).safeDone 2 (bits (s.me.get a).toNat 1 31 * 2)

/-- The live mask that SAFEPT's CODE gives (R411). -/
def safeMask (c : Nat) : Nat :=
  bits c 0 15 * 2 + bits c 15 1 * (15 * 2 ^ 16) + bits c 16 1 * (15 * 2 ^ 20) + bits c 17 1 * (15 * 2 ^ 24) +
    bits c 18 1 * (7 * 2 ^ 28) + bits c 19 1 * 2 ^ 31

/-- SAFEPT (R411). -/
def execSafept (c : Fin 1048576) (s : State) : Out :=
  s.gate { maj := 52, safe := true } [] fun _ =>
    if s.cr = .T then s.trap cILL 0x08 else s.safeDone 2 (safeMask c.val)

/-- TRAP (R412). -/
def execTrap (c : Fin 1048576) (s : State) : Out := s.gate { maj := 52 } [] fun _ => s.trapAfter 2 cSYS c.val

/-! ## TRET (R44, R255, R262, R413) -/

/-- The trap of a TRAPPC that T has written and that names no block header (R413). -/
def State.badTrappc (s : State) (c : Fin 64) : Option (Nat × Nat) :=
  if !(s.core c).tpcw then none
  else
    let pc := (s.core c).trappc.toNat
    match s.findBlock c .T Thread.reset { target := pc, src := pc, kind := .jump } with
    | .bad ca d _ _ => if ca = cBTGT then some (ca, d) else none
    | _ => none

/-- TRET (R413). -/
def execTret (s : State) : Out :=
  s.gate { maj := 52, priv := true } [] fun _ =>
    match s.myCore.served with
    | none => s.trap cILL 0x0F
    | some r =>
      if s.myCore.mx.parked then s.trap cILL 0x0E
      else match s.badTrappc s.cc with
      | some (ca, d) => s.trap ca d
      | none =>
        .next ((if s.myCore.tpcw then s.leaveWait s.cc r else s).upMyCore fun k =>
          let k1 := k.upMx fun m => { m with frozen := false }
          ((k1.setThr .T ((k1.thr .T).retire 2)).unhalt r).leaveTrap)

/-! ## System registers (R404, R414) -/

/-- The writable bits of a system register. -/
def sysMask (i : Nat) : Nat :=
  match i with
  | 3 => 2 ^ 19 - 1
  | 8 => (2 ^ 16 - 1) * 2 ^ 20
  | 9 => (2 ^ 16 - 1) * 2 ^ 20
  | 10 => 0xFF
  | _ => (2 ^ 40 - 1) * 2 ^ 12

/-- Every live fast-weight state goes: its entry is free and its generation advances (R404, FWDO). -/
def State.dropStates (s : State) : State :=
  (List.finRange 4).foldl (fun (s : State) d =>
    ((s.die d).fw.filter (·.st.isSome)).foldl (fun (s : State) e => s.fwFreeState d e.ix) s) s

/-- Every live barrier handle goes stale (R404, BHDO). -/
def State.dropHandles (s : State) : State :=
  { s with cores := s.cores.map fun k => { k with hcache := [] }, dies := s.dies.map fun d => { d with bh := d.bh.map fun e =>
      if e.live.isSome then { e with gen := nextGen 127 e.gen, live := none } else e } }

/-- Writes a system register, with what follows from it (R404). -/
def State.sysWrite (s : State) (i : Fin 11) (v : Word) : State :=
  let s1 := if i = 8 then s.dropStates else if i = 9 then s.dropHandles else s
  { s1 with sys := s1.sys.set i (v &&& word (sysMask i.val)), sysset := s1.sysset.set i true }

/-- SYS.RD (R414). -/
def execSysRd (a d : Fin 32) (s : State) : Out :=
  s.gate { maj := 53, priv := true } [a] fun _ =>
    let i := bits (s.me.get a).toNat 0 8
    if 10 < i then s.trap cILL 0x03 else s.putDone d s.sys[Fin.ofNat 11 i]

/-- SYS.WR (R414). -/
def execSysWr (a b : Fin 32) (s : State) : Out :=
  s.gate { maj := 53, priv := true } [a, b] fun _ =>
    let i := bits (s.me.get a).toNat 0 8
    if 10 < i then s.trap cILL 0x03
    else if !s.myCore.view.sys then s.trap cPRIV 0x01
    else (s.sysWrite (Fin.ofNat 11 i) (s.me.get b)).done 2

/-! ## Engine fault records (R401, R415) -/

/-- Places of the records that a mask names, in index order. -/
def Core.recsOf (k : Core) (mask : Nat) : List (Fin 32) :=
  (List.finRange 32).filter fun i => k.recs[i].isSome && (mask == 0 || bits mask i.val 1 == 1)

/-- Replays one operation: it goes back to its engine, ahead of what was issued later. -/
def State.replay (s : State) (c : Fin 64) (x : Rec) : State :=
  match x.op with
  | .copy e => s.upCore c fun k => { k with cq := insertId CEnt.id e k.cq }
  | .fill e => s.upCore c fun k => k.upMx fun m => { m with queue := insertId MEnt.id e m.queue }
  | .fw e =>
    let hd := e.hs.headD 0
    let k := s.core c
    { s with xfers := s.xfers ++ [{ id := e.id, task := k.taskid, teamix := k.teamix, core := c, die := (fhDie hd).val, e := e,
                                    ix := fhIx hd, target := (fhDie hd).val, tix := none, ctx := k.ctx }] }
  | .seq e => s.upCore c fun k => { k with sq := insertId SEnt.id e k.sq }
  | .post p => s.upCore c fun k => { k with posts := insertId Post.id p k.posts }
  | .store st => s.upThr c x.role fun t => { t with stores := insertId Store.id st t.stores }

/-- Drops one operation: it completes as though its remaining units did not exist, with no count for them; a store or an event
is lost. The result of a sequence form is free. -/
def State.dropOp (s : State) (c : Fin 64) (x : Rec) : State :=
  match x.op with
  | .copy e =>
    match s.fillsSlot c e with
    | some (d, j) => s.upCore d fun k => k.setSlot (Fin.ofNat 64 j) ((k.slots[Fin.ofNat 64 j]).fill e.d.tag)
    | none => s
  | .fill e => s.upCore c fun k => k.dropLocks e.id
  | .fw e =>
    let d := fhDie (e.hs.headD 0)
    (e.hold.foldl (fun (s : State) n => s.freeSlab d n) s).upThr c x.role fun t =>
      t.deliver (fwGd e.op) e.id (if e.bad then fwFail 0x0A else 0)
  | .seq e =>
    let (v, s1) := s.freeVal
    s1.upThr c x.role fun t => t.deliver (sqGd e.op) e.id v
  | .post _ => s
  | .store _ => s

/-- Frees the records of a mask and treats each in index order. -/
def State.settleRecs (s : State) (c : Fin 64) (mask : Nat) (f : State → Rec → State) : State :=
  ((s.core c).recsOf mask).foldl (fun (s : State) i =>
    match (s.core c).recs[i] with
    | none => s
    | some x => f (s.upCore c fun k => { k with recs := k.recs.set i none }) x) s

/-- ENG.RPL (R415). -/
def execEngRpl (a d : Fin 32) (s : State) : Out :=
  s.gate { maj := 54, priv := true } [a] fun _ =>
    let mask := bits (s.me.get a).toNat 0 32
    (s.settleRecs s.cc mask fun s x => s.replay s.cc x).putDone d (word (s.myCore.recsOf mask).length)

/-- ENG.DROP (R415). -/
def execEngDrop (a d : Fin 32) (s : State) : Out :=
  s.gate { maj := 54, priv := true } [a] fun _ =>
    let mask := bits (s.me.get a).toNat 0 32
    (s.settleRecs s.cc mask fun s x => s.dropOp s.cc x).putDone d (word (s.myCore.recsOf mask).length)

/-! ## Queues (R405, R407, R416) -/

/-- A failure code (R407). -/
def failW (code : Nat) : Word := word (2 ^ 63 + code)

/-- A queue control record that an instruction reads and writes: a fault is precise (R416). -/
def State.withQcr (s : State) (q : Nat) (go : List Byte → Out) : Out :=
  match s.hwRead (dieOf s.cc) 0 (s.qcr q) 64 with
  | .error (c, x) => s.trapX { cause := c, detail := x, va := s.qcr q, kind := 1 }
  | .ok b =>
    match s.hwStore (dieOf s.cc) 0 (s.qcr q) b with
    | .error (c, x) => s.trapX { cause := c, detail := x, va := s.qcr q, kind := 2 }
    | .ok _ => go b

/-- Writes a record into the ring at position p, SEQ and SEQ2 last (R381, R407). -/
def State.ringWrite (s : State) (asid : Nat) (q r : List Byte) (p : Nat) : Except XFault State :=
  let va := recAddr q p
  let seq := leBytes 4 (p % 2 ^ 31)
  match s.hwStore (dieOf s.cc) asid va (seq ++ (r.drop 4).take 120 ++ seq) with
  | .error (c, x) => .error { cause := c, detail := x, va := va, kind := 2 }
  | .ok s1 => .ok s1

/-- TQ.PUSH (R386, R407). -/
def execTqPush (a b d : Fin 32) (s : State) : Out :=
  s.gate { maj := 51 } [a, b] fun _ =>
    let va := (s.me.get a).toNat
    let qn := bits (s.me.get b).toNat 0 14
    let die := dieOf s.cc
    if s.asyncOpen then s.block 10 0
    else s.scratch [(va, 128, 64)] fun _ =>
      match s.release 4 with
      | .eng => s.trap cENG 0x01
      | .wait => s.block 10 0
      | .go =>
        s.withQcr qn fun q =>
          let r := s.poolAt va 128
          if qSTATE q ≠ 1 then s.putDone d (failW 0x40)
          else if !(s.under die (qREGION q) s.myCore.view.region) then s.putDone d (failW 0x42)
          else if recForm r then s.putDone d (failW 0x43)
          else if 2 ^ qCAPL q ≤ qTAIL q - qHEAD q then s.putDone d (failW 0x41)
          else
            let p := qTAIL q
            let s1 := s.qcrSet die qn 24 8 ((p + 1) % 2 ^ 64)
            let asid := chainAsid (s.lineage die (qREGION q))
            match s1.ringWrite asid q r p with
            | .ok s2 => s2.putDone d (word p)
            | .error x => (s1.queueFault die qn (qREGION q) p (some x)).putDone d (failW 0x44)

/-- A task of queue q runs (R416): a saved one does not (log 86). -/
def State.queueRuns (s : State) (q : Nat) : Bool := s.tasks.any fun t => t.queue == q && t.phase != .saved

/-- TQ.CFG's image is out of its limits. -/
def imageOut (b : List Byte) : Bool :=
  decide (qCAPL b < 4) || decide (16 < qCAPL b) || bits (field b 3 1) 2 6 != 0 || field b 5 3 != 0 ||
    (b.drop 40).any (· != 0) || qRING b % 4096 != 0 || decide (4096 ≤ qREGION b)

/-- A dispatcher holds no cores for records of queue q (R20). -/
def Die.unholdQueue (q : Nat) (d : Die) : Die :=
  { d with held := d.held.filter fun h => match h with
      | .record n _ => n != q
      | .saved _ => true }

/-- TQ.CFG (R416). -/
def execTqCfg (a b d : Fin 32) (s : State) : Out :=
  s.gate { maj := 55, priv := true } [a, b] fun _ =>
    let qn := bits (s.me.get a).toNat 0 14
    let va := (s.me.get b).toNat
    let die := dieOf s.cc
    if s.asyncOpen then s.block 10 0
    else s.scratch [(va, 64, 64)] fun _ =>
      s.withQcr qn fun q =>
        let im := s.poolAt va 64
        if !(qSTATE q == 0 || qSTATE q == 2) || s.queueRuns qn then s.putDone d 2
        else if imageOut im then s.putDone d 1
        else
          let s1 := s.qcrSet die qn 0 5 (field im 0 2 + 65536 * 1 + 2 ^ 24 * field im 3 1 + 2 ^ 32 * field im 4 1)
          let s2 := ((s1.qcrSet die qn 8 8 (qRING im)).qcrSet die qn 16 16 0).qcrSet die qn 32 8 (qEVF im)
          { s2 with bypass := s2.bypass.filter (·.queue ≠ qn), dies := s2.dies.map (Die.unholdQueue qn) }.putDone d 0

/-- TQ.KILL (R405, R416). -/
def execTqKill (a d : Fin 32) (s : State) : Out :=
  s.gate { maj := 55, priv := true } [a] fun _ =>
    let qn := bits (s.me.get a).toNat 0 14
    if s.asyncOpen then s.block 10 0
    else s.withQcr qn fun q =>
      (s.qcrSet (dieOf s.cc) qn 2 1 2).putDone d (word (qTAIL q + 2 ^ 64 - qHEAD q))

/-! ## Tasks (R410, R417) -/

/-- TK.PRE (R417). -/
def execTkPre (a d : Fin 32) (u : Fin 2) (s : State) : Out :=
  s.gate { maj := 55, priv := true } [a] fun _ =>
    match s.task (s.me.get a).toNat with
    | none => s.putDone d 2
    | some t =>
      if t.phase = .saved then s.putDone d 1
      else (s.askPreempt t.id (1 + u.val)).putDone d 0

/-- Cancels a live task (R410): one that is being saved leaves when its save ends (R418), one whose threads run stops first, any other
leaves at once. -/
def State.cancelTask (s : State) (t : Task) (die : Fin 4) : State :=
  let later := s.upTask t.id fun t => { t with cancel := true }
  match t.phase with
  | .running => if t.blocks.isEmpty then s.askPreempt t.id 3 else later
  | .savef => later
  | _ => s.endCancelled t die

/-- Cancels a record not yet taken (R410): the state and the status. -/
def State.cancelRecord (s : State) (qn p : Nat) : State × Nat :=
  let die := dieOf s.cc
  match s.qcrRead die qn with
  | .error _ => (s, 2)
  | .ok q =>
    if !(s.under die (qREGION q) s.myCore.view.region) then (s, 3)
    else if p < qHEAD q ∨ qTAIL q ≤ p then (s, 2)
    else
      let asid := chainAsid (s.lineage die (qREGION q))
      match s.hwRead die asid (recAddr q p) 128 with
      | .error _ => (s, 2)
      | .ok r =>
        if !(recPresent p r) then (s, 2)
        else match s.takeRecord die qn asid q r p with
          | .error _ => (s, 2)
          | .ok s1 => (s1.countDrop die qn, 1)

/-- TK.CANCEL (R410). -/
def execTkCancel (a d : Fin 32) (s : State) : Out :=
  s.gate { maj := 51 } [a] fun _ =>
    let g := (s.me.get a).toNat
    let die := dieOf s.cc
    if bits g 63 1 = 1 then
      let (s1, n) := s.cancelRecord (bits g 0 14) (bits g 16 47)
      s1.putDone d (word n)
    else
      let me := s.myCore.taskid
      let id := if g = 0 then me else g
      match s.task id with
      | none => s.putDone d 2
      | some t =>
        if id = me then (s.cancelTask t die).done 2
        else if !(s.under die t.region s.myCore.view.region) then s.putDone d 3
        else (s.cancelTask t die).putDone d 0

end Sys2Proof.Machine
end

