-- ==== Sys2Proof/Machine/Package.lean ====
section
/-! DEFINITION. The package around the cores: power, attestation, link keys, single-die resets and readmission, the management
mailbox, the host link and the ports, ageing and soft errors (R12, R27, R29, R404, R419 to R439). -/
namespace Sys2Proof.Machine

/-! ## Chiplets and links (R8, R9, R422) -/

/-- The chiplets that a UCIe-A or HBM4E link direction joins: the sending end and the receiving end. -/
def linkEnds (x : Fin 40) : Fin 18 × Fin 18 :=
  let l := x.val / 2
  let e : Fin 18 × Fin 18 :=
    if l < 4 then (Fin.ofNat 18 l, Fin.ofNat 18 ((l + 1) % 4))
    else if l < 12 then (Fin.ofNat 18 ((l - 4) / 2), Fin.ofNat 18 (8 + (l - 4) % 2))
    else (Fin.ofNat 18 ((l - 12) / 2), Fin.ofNat 18 (10 + (l - 12)))
  if x.val % 2 = 0 then e else (e.2, e.1)

/-- Whether a link direction ends at a chiplet. -/
def linkOf (c : Fin 18) (x : Fin 40) : Bool := (linkEnds x).1 == c || (linkEnds x).2 == c

/-- There are twenty links; the places from 40 on do not exist, so every direction of a chiplet is among these. -/
def linkDirs : List (Fin 40) := List.finRange 40

def State.setLink (s : State) (x : Fin 40) (l : LinkDir) : State := { s with links := s.links.set x l }

/-- The links of a chiplet shut, and a rollover on them is abandoned (R422, R427). -/
def State.shutLinks (s : State) (c : Fin 18) : State :=
  linkDirs.foldl (fun (s : State) x => if linkOf c x then s.setLink x LinkDir.reset else s) s

/-- Fresh keys on every direction of a chiplet whose other end is admitted too (R422, R425, R427). -/
def State.keyLinks (s : State) (c : Fin 18) : State :=
  linkDirs.foldl (fun (s : State) x =>
    if linkOf c x && s.chipUp (linkEnds x).1 && s.chipUp (linkEnds x).2 then
      let (k, s1) := s.fresh
      s1.setLink x { LinkDir.reset with keyed := true, key := k }
    else s) s

def State.setChip (s : State) (c : Fin 18) (x : ChipSt) : State := { s with chips := s.chips.set c x }

/-- A chiplet is quarantined: its links shut, its session is void (R422). -/
def State.quarantine (s : State) (c : Fin 18) : State :=
  { (s.setChip c .quarantined).shutLinks c with sessions := s.sessions.set c none }

/-- The vault die of a compute die. -/
def vaultOf (d : Fin 4) : Fin 18 := Fin.ofNat 18 (4 + d.val)

/-- A chiplet is admitted alone, or a compute die with its vault die, and its links are keyed (R420 to R422). -/
def State.admitChip (s : State) (c : Fin 18) : State :=
  if c.val < 4 then ((s.setChip c .admitted).setChip (vaultOf (Fin.ofNat 4 c.val)) .admitted).keyLinks c
  else (s.setChip c .admitted).keyLinks c

/-- The session with a chiplet has succeeded. -/
def State.attested (s : State) (c : Fin 18) : Bool :=
  match s.sessions[c] with
  | some (ok, _) => ok
  | none => false

/-- A chiplet may be admitted: its session has succeeded, and that of the die it is admitted together with (R421). -/
def State.admits (s : State) (c : Fin 18) : Bool :=
  if c.val < 8 then s.attested (Fin.ofNat 18 (c.val % 4)) && s.attested (Fin.ofNat 18 (4 + c.val % 4)) else s.attested c

/-! ## Power and package reset (R27, R422, R428, R429, R438) -/

/-- A T2 line that only an L2 held is lost with it: the bytes left in T2 are open (log 96). -/
def State.loseLines (s : State) (l : List Nat) : State :=
  l.foldl (fun (s : State) x =>
    if tierOf (64 * x) = 2 then
      { s with mem := s.mem.write (64 * x) ((List.range 8).flatMap fun i => leBytes 8 (Config.freeWord (s.free + i)).toNat),
               free := s.free + 8 }
    else s) s

/-- The package after a reset (R27, R429): everything is wiped but T2, the life cycle and what lies outside the package. The
model's own counters and schedule stay. -/
def State.rebootedAs (s : State) (l : LifeCycle) : State :=
  let s1 := s.loseLines s.l2own
  { State.reset with mem := s1.mem.filter (fun e => decide (t2Base ≤ e.1)), pflip := s1.pflip.filter (fun l => tierOf (64 * l) == 2),
                     lcs := l, hostup := s.hostup && s.powered && l != .decommissioned, free := s1.free, nextTask := s.nextTask, nextOp := s.nextOp,
                     cur := s.cur, agenda := s.agenda, tick := s.tick }

/-- A package reset that leaves the life cycle as it is. -/
def State.rebooted (s : State) : State := s.rebootedAs s.lcs

/-- PACKAGE_RESET (R27, R438). -/
def execPackageReset (s : State) : Out := .next s.rebooted

/-- POWER_OFF (R27, R422). -/
def execPowerOff (s : State) : Out :=
  .next { s.rebooted with chips := Vector.replicate 18 ChipSt.off, powered := false, hostup := false }

/-! ## Routes (R10 to R12) -/

/-- The side a channel takes: the other way round only while the usual way is closed and the other is open (R10, R12). -/
def State.altSide (s : State) (a b : Fin 4) : Bool := b == a + 2 && !(s.cdUp (a + 1)) && s.cdUp (a + 3)

/-- Each channel whose side has to change does, once, and drains first (R12). -/
def State.turnChannels (s : State) : State :=
  { s with chan := Vector.ofFn fun i : Fin 256 =>
      let alt := s.altSide (dieOf (Fin.ofNat 64 (i.val / 4))) (Fin.ofNat 4 i.val)
      if s.chan[i].alt = alt then s.chan[i] else { alt := alt, drain := true } }

/-! ## Attestation and bring-up (R420, R421, R427, R436, R438) -/

/-- The driver chooses the mode of IOD1's port when IOD1 is brought up; it stays until a package reset (R436). -/
def State.chooseIod1 (s : State) : State :=
  match s.iod1 with
  | some _ => s
  | none =>
    let (v, s1) := s.freeBits 1
    { s1 with iod1 := some (if v = 0 then .host else .pool) }

/-- Its place in the order in which the root attests the chiplets at power-up: IOD1, the compute and vault dies, the base dies (R438). -/
def bootGroup (c : Fin 18) : Nat := if c.val = 9 then 0 else if c.val < 8 then 1 else 2

/-- Every chiplet but the root die has had its session. -/
def State.allHeard (s : State) (p : Fin 18 → Bool) : Bool :=
  (List.finRange 18).all fun c => c == 8 || !(p c) || s.sessions[c].isSome

/-- The end of attestation at power-up (R438 steps 3 to 5): the root die and every chiplet that may be are admitted, and the links between
them are keyed. -/
def State.boot (s : State) : State :=
  let s1 := { s with chips := Vector.ofFn fun c => if c = 8 || s.admits c then .admitted else .quarantined, booted := true }
  let s2 := (List.finRange 18).foldl (fun (s : State) c => if c.val < 8 ∨ c.val = 9 ∨ c.val = 8 then s.keyLinks c else s) s1
  (if s2.chipUp 9 then s2.chooseIod1 else s2).turnChannels

/-- A compute die takes part again: lines served elsewhere meanwhile come home written back (R423), and its routes return once they have
drained (R12). -/
def State.joinDie (s : State) (d : Fin 4) : State :=
  let s1 := s.admitChip (Fin.ofNat 18 d.val)
  { s1 with l2own := s1.l2own.filter fun l => !(tierOf (64 * l) != 0 && s1.homeDie (64 * l) == d) }.turnChannels

/-- A quarantined chiplet's session after power-up (R420, R421, R427). A die in a single-die reset that passes waits for DIE_READMISSION; one
that fails stays quarantined, and its reset is over. -/
def State.reattest (s : State) (c : Fin 18) (ok : Bool) : State :=
  let d : Fin 4 := Fin.ofNat 4 c.val
  let cd : Fin 18 := Fin.ofNat 18 d.val
  if !ok then
    { s with wiped := if c.val < 8 then (s.wiped.set cd false).set (vaultOf d) false else s.wiped.set c false }
  else if 8 < c.val then
    let s1 := { s with wiped := s.wiped.set c false }.admitChip c
    if c.val = 9 then s1.chooseIod1 else s1
  else if s.admits c && !s.wiped[cd] then s.joinDie d else s

/-- A chiplet's session ends; its transcript is numbered, and a failure is reported to the driver (R420). At power-up the chiplets have one
session each, group by group, and their admission follows the last (R438); the root die's session is the driver's. -/
def State.attest (s : State) (c : Fin 18) (ok : Bool) (why : Nat) : State :=
  if !s.powered || s.lcs == .decommissioned then s
  else
    let heard : State :=
      let (n, s1) := s.fresh
      { s1 with sessions := s1.sessions.set c (some (ok, why, n)),
                reports := if ok then s1.reports else s1.reports ++ [(c.val, why)] }
    if c = 8 then (if s.booted then heard else s)
    else if s.booted then (if s.chips[c] = .quarantined then heard.reattest c ok else s)
    else if s.sessions[c].isSome || !(s.allHeard fun x => decide (bootGroup x < bootGroup c)) then s
    else if heard.allHeard fun _ => true then heard.boot
    else heard

/-- CHIPLET_ATTESTATION (R420). -/
def execChipletAttestation (c : Fin 18) (ok : Bool) (why : Nat) (s : State) : Out := .next (s.attest c ok why)

/-! ## Single-die reset (R12, R126, R175, R308, R423 to R429) -/

/-- The lines whose latest write only the L2 of die d holds. -/
def State.ownedBy (s : State) (d : Fin 4) : List Nat := s.l2own.filter fun l => s.homeDie (64 * l) == d

/-- Those lines are poisoned in memory, and the L2 holds them no more (R424). -/
def State.poisonOwned (s : State) (d : Fin 4) : State :=
  let l := s.ownedBy d
  { l.foldl (fun (s : State) x => s.setPoison x true) s with l2own := s.l2own.filter fun x => !(l.contains x) }

/-- Watches of lines homed on die d are lost (R126). -/
def State.loseWatches (s : State) (d : Fin 4) : State :=
  { s with watches := s.watches.map fun w =>
      if (w.fired == none) && s.homeDie (64 * w.line) == d then { w with fired := some 3 } else w }

/-- Tasks on the cores of a die end FAULTED with DIEX (R393, R423); the thread that the event names is open (log 101). -/
def State.loseTasks (s : State) (d : Fin 4) : State :=
  (s.tasks.filter fun t => t.cores.any fun c => dieOf c == d).foldl (fun (s : State) t =>
    let (v, s1) := s.freeVal
    s1.endFaulted t.id 3 cDIEX (v.toNat % 4) 0 0 0) s

/-- Migrations and breaks that the die's fork walker had begun end early: BUSY clears, a page keeps its old place (R171, R175; log 114). -/
def State.loseMoves (s : State) (d : Fin 4) : State :=
  (s.die d).moves.foldl (fun (s : State) m =>
    let e := s.physNat m.pa 8
    if m.ended.isSome || (m.cow && m.locked.isNone) then s
    else
      let s1 := if m.cow then s else s.charge d m.region 136 (-(framesIn (sizeFrames (leafSize e)) (leafTier e) m.tier))
      (s1.unbusy m.pa).dropLeaf m.asid m.va) s

/-- Slabs that an operation has reserved on a die that is reset are gone: an import's on the state's die, a migration's on its target. -/
def FEnt.loseHold (e : FEnt) (d : Fin 4) (target : Nat) : FEnt :=
  match e.op with
  | .fwPage _ _ _ o => if 3 ≤ o.val ∧ fhDie (e.hs.headD 0) = d then { e with hold := [] } else e
  | _ => if target = d.val then { e with hold := [] } else e

def Core.loseHolds (k : Core) (d : Fin 4) : Core :=
  { k with recs := k.recs.map fun x => x.map fun r => match r.op with
      | .fw e => { r with op := .fw (e.loseHold d 4) }
      | _ => r }

/-- Transfers from or to the die fail (R313, R335). -/
def State.loseXfers (s : State) (d : Fin 4) : State :=
  { s with
    xfers := s.xfers.map fun x => if x.die = d.val ∨ x.target = d.val then { x with lost := true, e := x.e.loseHold d x.target } else x
    cores := s.cores.map fun k => k.loseHolds d
    tasks := s.tasks.map fun t => { t with saved := t.saved.map fun k => k.loseHolds d } }

/-- The die's fast-weight states in Grotto go stale with their slabs (R308); states in T1 and T2 stay. -/
def State.loseStates (s : State) (d : Fin 4) : State :=
  let s1 := ((s.die d).fw.filter fun e => match e.st with
    | some f => f.place == .grotto
    | none => false).foldl (fun (s : State) e => s.fwVacate d e.ix) s
  (s1.die d).slabs.foldl (fun (s : State) x => s.freeSlab d x.n) s1

/-- Barrier handles in the die's directory are stale (R423). -/
def Die.loseHandles (x : Die) : Die :=
  { x with bh := x.bh.map fun e => if e.live.isSome then { e with gen := nextGen 127 e.gen, live := none } else e }

/-- No core knows a handle of die d's directory any more. -/
def State.forgetHandles (s : State) (d : Fin 4) : State :=
  { s with cores := s.cores.map fun k => { k with hcache := k.hcache.filter fun x => hndDie x.handle != d } }

/-- What the wipe leaves of a die (R429): the directories lie in T0 and keep their entries; tasks that the die has bypassed 64 times stay held
(R20). -/
def Die.wipe (x : Die) : Die := { Die.reset with fw := x.fw, bh := x.loseHandles.bh, held := x.held }

/-- Records that are on their way to a specialist queue of the die are lost with it, and their sends fail (R369, R427). -/
def State.loseSends (s : State) (d : Fin 4) : State :=
  (List.finRange 64).foldl (fun (s : State) c => (s.core c).sq.foldl (fun (s : State) e => match e.op with
    | .sqSend _ _ _ =>
      if e.sent.isSome && (e.sendTo.1 == d) then s.seqFault c e { cause := cDIEX, detail := 0, va := 0, kind := 2 } else s
    | _ => s) s) s

/-- Single-die reset of CDn with VDn (R427), in the order of its steps up to the wipe. -/
def State.resetCd (s : State) (d : Fin 4) : State :=
  let cd : Fin 18 := Fin.ofNat 18 d.val
  let s1 := (((s.loseTasks d).loseMoves d).loseWatches d).loseXfers d |>.loseSends d |>.loseStates d
  let s2 := ((s1.poisonOwned d).quarantine cd).quarantine (vaultOf d)
  let s3 := { s2 with wiped := (s2.wiped.set cd true).set (vaultOf d) true,
                      cores := Vector.ofFn fun c => if dieOf c = d then Core.reset else s2.core c }
  ((s3.setDie d (s3.die d).wipe).forgetHandles d).turnChannels

/-- Single-die reset of BDk: its sink rows go, its memory stays (R363, R429). -/
def State.resetBd (s : State) (b : Fin 8) : State :=
  let c : Fin 18 := Fin.ofNat 18 (10 + b.val)
  let s1 := (s.setBd b { rows := [] }).quarantine c
  { s1 with wiped := s1.wiped.set c true }

/-- Single-die reset of IOD1: its channels' key is replaced, so that their lines read as poisoned; those an L2 holds stay as
they are (R429). Its ports drop. -/
def State.resetIod (s : State) : State :=
  let s1 := s.quarantine 9
  { s1 with wiped := s1.wiped.set 9 true,
            pflip := s1.pflip.filter fun l => !(tierOf (64 * l) == 1 && Config.onIod1 l && !(s1.l2own.contains l)),
            ports := Vector.ofFn fun i : Fin 8 => if 4 ≤ i.val then false else s1.ports[i] }

/-- A chiplet fails or is reset (R423, R425, R427): only CDn with VDn, BDk and IOD1 singly; IOD0 resets the package. -/
def State.resetChip (s : State) (c : Fin 18) : State :=
  if c.val < 8 then s.resetCd (Fin.ofNat 4 c.val)
  else if c = 8 then s.rebooted
  else if c = 9 then s.resetIod
  else s.resetBd (Fin.ofNat 8 (c.val - 10))

/-! ## Link failures and key rollover (R425, R426) -/

/-- FLIT_TAG_FAILURE (R425): the flit is dropped and sent again; a third failure in a row resets the sending chiplet. -/
def execFlitTagFailure (l : Fin 40) (s : State) : Out :=
  let x := s.links[l]
  .next (if !x.keyed then s
    else if x.fails < 2 then s.setLink l { x with fails := x.fails + 1 }
    else
      let s1 := { s with free := s.free + 1 }
      if Config.tagRun s.free then s1.resetChip (linkEnds l).1 else s1.setLink l { x with fails := 1 })

/-- KEY_ROLLOVER_START (R426): the next key is installed at the receiver. -/
def execKeyRolloverStart (l : Fin 40) (s : State) : Out :=
  let x := s.links[l]
  .next (if x.keyed && x.roll == .none then s.setLink l { x with roll := .started } else s)

/-- KEY_ROLLOVER_ACK (R426): the sender switches the key phase; a stopped sender goes on. -/
def execKeyRolloverAck (l : Fin 40) (s : State) : Out :=
  let x := s.links[l]
  .next (if x.roll = .started then
      let (k, s1) := s.fresh
      s1.setLink l { x with roll := .switched, key := k, phase := !x.phase, stop := false }
    else s)

/-- DRAIN_MARKER (R426): the receiver retires the old key. -/
def execDrainMarker (l : Fin 40) (s : State) : Out :=
  let x := s.links[l]
  .next (if x.roll = .switched then s.setLink l { x with roll := .none } else s)

/-- ROLLOVER_SEND_STOP (R426): at 2^32 flits without the switch, the sender stops. -/
def execRolloverSendStop (l : Fin 40) (s : State) : Out :=
  let x := s.links[l]
  .next (if x.keyed && x.roll != .switched then s.setLink l { x with stop := true } else s)

/-- ROLLOVER_STOP_TIMEOUT (R426): the stop has lasted too long, and R425 applies. -/
def execRolloverStopTimeout (l : Fin 40) (s : State) : Out :=
  .next (if s.links[l].stop then s.resetChip (linkEnds l).1 else s)

/-! ## Readmission (R12, R423, R427) -/

/-- DIE_READMISSION (R427): the die, attested again, gets new keys and takes part again. -/
def State.readmit (s : State) (d : Fin 4) : State :=
  let cd : Fin 18 := Fin.ofNat 18 d.val
  if s.wiped[cd] && s.admits cd then
    { s with wiped := (s.wiped.set cd false).set (vaultOf d) false }.joinDie d
  else s

/-- DIE_READMISSION (R427). -/
def execDieReadmission (die : Fin 4) (s : State) : Out := .next (s.readmit die)

/-- ROUTE_RESEND (R12): the channel has drained, and its requests go out again in order on the new route. -/
def execRouteResend (src : Fin 64) (dst : Fin 4) (s : State) : Out :=
  let i : Fin 256 := Fin.ofNat 256 (4 * src.val + dst.val)
  .next { s with chan := s.chan.set i { s.chan[i] with drain := false } }

/-! ## The outside (R437) -/

/-- HOST_LINK_DOWN (R437). -/
def execHostLinkDown (s : State) : Out := .next { s with hostup := false }

/-- HOST_LINK_UP (R437): no link opens in DECOMMISSIONED (R428). -/
def execHostLinkUp (s : State) : Out := .next { s with hostup := s.powered && s.lcs != .decommissioned }

/-- PORT_LINK_CHANGE (R437): a port links or drops, or a MACsec association goes live or dead; ports 4 to 7 are IOD1's (log 103). -/
def execPortLinkChange (port : Fin 8) (assoc : Option Nat) (up : Bool) (s : State) : Out :=
  let on := up && s.powered && s.lcs != .decommissioned
  .next (match assoc with
    | none => { s with ports := s.ports.set port (on && (decide (port.val < 4) || s.chipUp 9)) }
    | some a => { s with assocs := if on then insertNat a s.assocs else eraseNat a s.assocs })

/-! ## The management mailbox (R432) -/

/-- Done. -/
def State.replyOk (s : State) (code : Nat) : State := s.reply' code 0 []

/-- Not done: no rule gives the status, only that it is not 0 (log 99). -/
def State.replyOdd (s : State) (code : Nat) : State :=
  let (v, s1) := s.freeVal
  s1.reply' code (1 + v.toNat % 65535) []

/-- Commands can run: the package has come up and the driver has attested its root die (R438 steps 6 and 7), and a link may open (R428). -/
def State.mailboxUp (s : State) : Bool := s.powered && s.booted && s.sessions[8].isSome && s.lcs != .decommissioned

/-- A command runs, in ring order, once the command before it has been answered. The host link need not be up: the driver can end a task
that waits for it (R437; log 99). -/
def State.mailbox (s : State) (go : Unit → State) : Out :=
  if !s.mailboxUp || s.invals.any (·.owner.isNone) then .next s else .next (go ())

/-- SYSWR (R404, R432). -/
def execSyswr (n : Nat) (v : Word) (s : State) : Out :=
  s.mailbox fun _ => if n < 11 then (s.sysWrite (Fin.ofNat 11 n) v).replyOk 1 else s.replyOdd 1

/-- TLBINV (R180, R432): answered when the invalidation is complete. -/
def execTlbinv (kind : Fin 4) (a b : Word) (s : State) : Out :=
  s.mailbox fun _ =>
    let (id, s1) := s.fresh
    let v : Inval :=
      { id := id, owner := none, scope := 4, die := 0, core := 0, kind := kind.val, addr := a.toNat,
        asid := bits b.toNat 0 12, count := bits b.toNat 16 32, done := false }
    { s1 with invals := s1.invals ++ [v] }

/-- FEATACK0 as written: only ACK is writable, and BASE reads 1 (R430). -/
def featWord (v : Word) : Word := v &&& 0x7FFE ||| 1

/-- FEAT (R430, R432). -/
def execFeat (ack : Word) (lock : Bool) (s : State) : Out :=
  s.mailbox fun _ =>
    if s.featlock then s.replyOdd 3
    else { s with featack := featWord ack, featlock := lock }.replyOk 3

/-- ANSWER (R399, R432). -/
def execAnswer (task : Nat) (r : Role) (i : Nat) (retry : Bool) (s : State) : Out :=
  s.mailbox fun _ =>
    let (s1, n) := s.answerFor task r i retry
    if n = 0 then s1.replyOk 4 else s1.replyOdd 4

/-- LISTS (R433): the bases of the eleven areas. -/
def execLists (bases : List Word) (s : State) : Out :=
  s.mailbox fun _ =>
    if bases.length = 11 then { s with lists := Vector.ofFn fun i : Fin 11 => bases.getD i.val 0 }.replyOk 5 else s.replyOdd 5

/-- ROUTE (R437). -/
def execRoute (h chip ports assoc : Nat) (s : State) : Out :=
  s.mailbox fun _ =>
    if h < 65536 then
      let x : Route := { h := h, chip := chip % 256, ports := ports % 256, assoc := assoc }
      { s with routes := x :: s.routes.filter (·.h ≠ h) }.replyOk 6
    else s.replyOdd 6

/-- PREEMPT (R389, R432). -/
def execPreempt (task : Nat) (s : State) : Out :=
  s.mailbox fun _ =>
    match s.task task with
    | some t => if t.phase = .saved then s.replyOdd 7 else (s.askPreempt task 2).replyOk 7
    | none => s.replyOdd 7

/-- DIERST (R427, R439): a second one for a die that is still in its reset answers busy. -/
def execDierst (c : Fin 18) (s : State) : Out :=
  s.mailbox fun _ =>
    if (4 ≤ c.val ∧ c.val < 9) then s.replyOdd 8
    else if s.wiped[c] then s.reply' 8 1 []
    else (s.resetChip c).replyOk 8

/-- The life-cycle state by its place in R428's table. -/
def lifeOf (n : Fin 5) : LifeCycle :=
  match n with
  | 0 => .manufacture
  | 1 => .provisioned
  | 2 => .operational
  | 3 => .rma
  | 4 => .decommissioned

/-- The next states of R428. -/
def lifeNext (old new : LifeCycle) (signed : Bool) : Bool :=
  match old with
  | .manufacture => new == .provisioned
  | .provisioned => new == .operational
  | .operational => new == .rma
  | .rma => (new == .provisioned && signed) || new == .decommissioned
  | .decommissioned => false

/-- The identity that a package presents (R428). -/
inductive Identity where
  | device
  | deviceAndAlias
  | rmaCertificate
  | none
  deriving DecidableEq, Repr

/-- What each life-cycle state presents (R428). -/
def LifeCycle.identity : LifeCycle → Identity
  | .manufacture => .device
  | .provisioned => .deviceAndAlias
  | .operational => .deviceAndAlias
  | .rma => .rmaCertificate
  | .decommissioned => .none

/-- The states in which debug is open (R428). -/
def LifeCycle.debugOpen : LifeCycle → Bool
  | .manufacture => true
  | .rma => true
  | _ => false

/-- Whether the customer's manifests can be read (R428). -/
def LifeCycle.manifests (l : LifeCycle) : Bool := l != .rma

/-- LCS (R428): the change takes effect at the package reset that it forces. -/
def execLcs (next : Fin 5) (signed : Bool) (s : State) : Out :=
  s.mailbox fun _ =>
    if lifeNext s.lcs (lifeOf next) signed then s.rebootedAs (lifeOf next) else s.replyOdd 9

/-- AGE (R434). -/
def execAge (s : State) : Out := s.mailbox fun _ => s.reply' 10 0 (s.age.toList.map BitVec.toNat)

/-- ATTEST (R420, R432): the stored transcript of a chiplet's last session. -/
def execAttest (c : Fin 18) (s : State) : Out :=
  s.mailbox fun _ =>
    match s.sessions[c] with
    | none => s.replyOdd 11
    | some (_, _, n) => s.reply' 11 0 ((List.range (Config.transcriptLen n)).map fun i => (Config.transcriptByte n i).toNat)

/-! ## Ageing and soft errors (R29, R434) -/

/-- An ageing record as the controller keeps it: reserved bits 0, CERT only for base dies. -/
def ageRecord (i : Nat) (x : BitVec 128) : BitVec 128 :=
  let n := setBits x.toNat 64 20 0
  BitVec.ofNat 128 (if i < 10 then setBits n 16 16 0 else n)

/-- An EOLH falls below 720 hours. -/
def fallsShort (old new : BitVec 128) : Bool := decide (720 ≤ bits old.toNat 96 32) && decide (bits new.toNat 96 32 < 720)

/-- AGE_UPDATE (R434). -/
def execAgeUpdate (recs : List (BitVec 128)) (s : State) : Out :=
  .next (if !s.powered then s
    else
      let l := Vector.ofFn fun i : Fin 18 => ageRecord i.val (recs.getD i.val 0)
      let near := (List.finRange 18).any fun i => fallsShort s.age[i] l[i]
      { s with age := l, msix := if near then s.msix.set 1 true else s.msix })

/-- SOFT_ERROR (R29, R129): one that ECC corrects shows only in the trend; any other poisons its line of memory, the pool or the L1
cache, its column-store unit, its tile, its plane or its slab. -/
def execSoftError (place : Nat) (x : ErrArray) (fixed : Bool) (s : State) : Out :=
  .next (if fixed || !s.powered then s
    else match x with
      | .mem => if tierOf place = 3 then s else s.setPoison (place / 64) true
      | .pool c => s.upCore c fun k => { k with ppoison := if place < 0x800000 then insertNat (place / 64) k.ppoison else k.ppoison }
      | .column c => s.upCore c fun k => { k with cpoison := if place < 2048 then insertNat place k.cpoison else k.cpoison }
      | .tile c => s.upCore c fun k => k.upMx fun m =>
        let t : Fin 16 := Fin.ofNat 16 place
        { m with tiles := m.tiles.set t { m.tiles[t] with poison := true } }
      | .plane c => s.upCore c fun k => k.upMx fun m =>
        let i : Fin 2 := Fin.ofNat 2 place
        { m with planes := m.planes.set i { m.planes[i] with poison := true } }
      | .l1 c => s.upCore c fun k => { k with l1 := k.l1.map fun x => if x.line = place / 64 then { x with bad := true } else x }
      | .slab d => s.setSlabPoison d [place] true)

end Sys2Proof.Machine
end

