-- ==== Sys2Proof/Machine/Dispatch.lean ====
section
/-! DEFINITION. The dispatch of every step of the opcode table to its meaning, one arm per constructor of Instr. -/
namespace Sys2Proof.Machine

def exec (i : Instr) (s : State) : Host.Outcome State Fault Refusal :=
  match i with
  | .vaddI32 g d a b => Sys2Proof.Machine.execVaddI32 g d a b s
  | .vsubI32 g d a b => Sys2Proof.Machine.execVsubI32 g d a b s
  | .vmulI32 g d a b => Sys2Proof.Machine.execVmulI32 g d a b s
  | .vmulhI32 g d a b => Sys2Proof.Machine.execVmulhI32 g d a b s
  | .vaddsI32 g d a b => Sys2Proof.Machine.execVaddsI32 g d a b s
  | .vsubsI32 g d a b => Sys2Proof.Machine.execVsubsI32 g d a b s
  | .vaddsN32 g d a b => Sys2Proof.Machine.execVaddsN32 g d a b s
  | .vsubsN32 g d a b => Sys2Proof.Machine.execVsubsN32 g d a b s
  | .vaddF32 g d a b => Sys2Proof.Machine.execVaddF32 g d a b s
  | .vsubF32 g d a b => Sys2Proof.Machine.execVsubF32 g d a b s
  | .vmulF32 g d a b => Sys2Proof.Machine.execVmulF32 g d a b s
  | .vfmaF32 g d a b => Sys2Proof.Machine.execVfmaF32 g d a b s
  | .vfmsF32 g d a b => Sys2Proof.Machine.execVfmsF32 g d a b s
  | .vminF32 g d a b => Sys2Proof.Machine.execVminF32 g d a b s
  | .vmaxF32 g d a b => Sys2Proof.Machine.execVmaxF32 g d a b s
  | .vand g d a => Sys2Proof.Machine.execVand g d a s
  | .vor g d a => Sys2Proof.Machine.execVor g d a s
  | .vxor g d a => Sys2Proof.Machine.execVxor g d a s
  | .vandn g d a => Sys2Proof.Machine.execVandn g d a s
  | .vsll g d a im => Sys2Proof.Machine.execVsll g d a im s
  | .vsrl g d a im => Sys2Proof.Machine.execVsrl g d a im s
  | .vsra g d a im => Sys2Proof.Machine.execVsra g d a im s
  | .vmov g d a => Sys2Proof.Machine.execVmov g d a s
  | .vcmpI32 g k c a b => Sys2Proof.Machine.execVcmpI32 g k c a b s
  | .vcmpF32 g k c a b => Sys2Proof.Machine.execVcmpF32 g k c a b s
  | .vsel g d a b => Sys2Proof.Machine.execVsel g d a b s
  | .vminI32 g d a b => Sys2Proof.Machine.execVminI32 g d a b s
  | .vmaxI32 g d a b => Sys2Proof.Machine.execVmaxI32 g d a b s
  | .vminN32 g d a b => Sys2Proof.Machine.execVminN32 g d a b s
  | .vmaxN32 g d a b => Sys2Proof.Machine.execVmaxN32 g d a b s
  | .vrotrImm g d a im => Sys2Proof.Machine.execVrotrImm g d a im s
  | .vrotrReg g d a sc => Sys2Proof.Machine.execVrotrReg g d a sc s
  | .vrotcImm g d a im => Sys2Proof.Machine.execVrotcImm g d a im s
  | .vrotcReg g d a sc => Sys2Proof.Machine.execVrotcReg g d a sc s
  | .vbcrImm g d a im => Sys2Proof.Machine.execVbcrImm g d a im s
  | .vbcrReg g d a sc => Sys2Proof.Machine.execVbcrReg g d a sc s
  | .vbccImm g d a im => Sys2Proof.Machine.execVbccImm g d a im s
  | .vbccReg g d a sc => Sys2Proof.Machine.execVbccReg g d a sc s
  | .vrsumF32 g d a => Sys2Proof.Machine.execVrsumF32 g d a s
  | .vcsumF32 g d a => Sys2Proof.Machine.execVcsumF32 g d a s
  | .vrmaxF32 g d a => Sys2Proof.Machine.execVrmaxF32 g d a s
  | .vcmaxF32 g d a => Sys2Proof.Machine.execVcmaxF32 g d a s
  | .vrminF32 g d a => Sys2Proof.Machine.execVrminF32 g d a s
  | .vcminF32 g d a => Sys2Proof.Machine.execVcminF32 g d a s
  | .vrsumI32 g d a => Sys2Proof.Machine.execVrsumI32 g d a s
  | .vcsumI32 g d a => Sys2Proof.Machine.execVcsumI32 g d a s
  | .pand g d a b => Sys2Proof.Machine.execPand g d a b s
  | .por g d a b => Sys2Proof.Machine.execPor g d a b s
  | .pxor g d a b => Sys2Proof.Machine.execPxor g d a b s
  | .pandn g d a b => Sys2Proof.Machine.execPandn g d a b s
  | .pnez g d a => Sys2Proof.Machine.execPnez g d a s
  | .vmovp g d a => Sys2Proof.Machine.execVmovp g d a s
  | .pset g d im => Sys2Proof.Machine.execPset g d im s
  | .pfirst g d a => Sys2Proof.Machine.execPfirst g d a s
  | .vlidx g d sc => Sys2Proof.Machine.execVlidx g d sc s
  | .vextN32 d a sc => Sys2Proof.Machine.execVextN32 d a sc s
  | .vextI32 d a sc => Sys2Proof.Machine.execVextI32 d a sc s
  | .vins g d a sc => Sys2Proof.Machine.execVins g d a sc s
  | .vbcg g d a => Sys2Proof.Machine.execVbcg g d a s
  | .vmovi g d im => Sys2Proof.Machine.execVmovi g d im s
  | .pcnt d a => Sys2Proof.Machine.execPcnt d a s
  | .pfind d a => Sys2Proof.Machine.execPfind d a s
  | .vcvtBf16F32 g d a p sc r => Sys2Proof.Machine.execVcvtBf16F32 g d a p sc r s
  | .vcvtF16F32 g d a p sc r => Sys2Proof.Machine.execVcvtF16F32 g d a p sc r s
  | .vcvtE4m3F32 g d a p sc r => Sys2Proof.Machine.execVcvtE4m3F32 g d a p sc r s
  | .vcvtE5m2F32 g d a p sc r => Sys2Proof.Machine.execVcvtE5m2F32 g d a p sc r s
  | .vcvtF32Bf16 g d a p => Sys2Proof.Machine.execVcvtF32Bf16 g d a p s
  | .vcvtF32F16 g d a p => Sys2Proof.Machine.execVcvtF32F16 g d a p s
  | .vcvtF32E4m3 g d a p => Sys2Proof.Machine.execVcvtF32E4m3 g d a p s
  | .vcvtF32E5m2 g d a p => Sys2Proof.Machine.execVcvtF32E5m2 g d a p s
  | .vcvtI32F32 g d a r => Sys2Proof.Machine.execVcvtI32F32 g d a r s
  | .vcvtN32F32 g d a r => Sys2Proof.Machine.execVcvtN32F32 g d a r s
  | .vcvtF32I32 g d a r => Sys2Proof.Machine.execVcvtF32I32 g d a r s
  | .vcvtF32N32 g d a r => Sys2Proof.Machine.execVcvtF32N32 g d a r s
  | .vrintF32 g d a r => Sys2Proof.Machine.execVrintF32 g d a r s
  | .vcvtMxF32 d a m r => Sys2Proof.Machine.execVcvtMxF32 d a m r s
  | .vcvtF32Mx g d a m => Sys2Proof.Machine.execVcvtF32Mx g d a m s
  | .vexpF32 g d a => Sys2Proof.Machine.execVexpF32 g d a s
  | .vexp2F32 g d a => Sys2Proof.Machine.execVexp2F32 g d a s
  | .vlog2F32 g d a => Sys2Proof.Machine.execVlog2F32 g d a s
  | .vrcpF32 g d a => Sys2Proof.Machine.execVrcpF32 g d a s
  | .vrsqrtF32 g d a => Sys2Proof.Machine.execVrsqrtF32 g d a s
  | .vsqrtF32 g d a => Sys2Proof.Machine.execVsqrtF32 g d a s
  | .vtanhF32 g d a => Sys2Proof.Machine.execVtanhF32 g d a s
  | .vcmpr g d a k sc => Sys2Proof.Machine.execVcmpr g d a k sc s
  | .vtopkF32 g d a k sc => Sys2Proof.Machine.execVtopkF32 g d a k sc s
  | .vscanF32 g d a e c => Sys2Proof.Machine.execVscanF32 g d a e c s
  | .vscanI32 g d a e c => Sys2Proof.Machine.execVscanI32 g d a e c s
  | .vrandN32 g d sc => Sys2Proof.Machine.execVrandN32 g d sc s
  | .vrandF32 g d sc => Sys2Proof.Machine.execVrandF32 g d sc s
  | .vtopkI32 g d a k sc => Sys2Proof.Machine.execVtopkI32 g d a k sc s
  | .maMm a t p k z r => Sys2Proof.Machine.execMaMm a t p k z r s
  | .maCfg a b => Sys2Proof.Machine.execMaCfg a b s
  | .maLdb p c g => Sys2Proof.Machine.execMaLdb p c g s
  | .maLdw a b c => Sys2Proof.Machine.execMaLdw a b c s
  | .maZero a => Sys2Proof.Machine.execMaZero a s
  | .maMovTv a r c v => Sys2Proof.Machine.execMaMovTv a r c v s
  | .maMovVt a r c v => Sys2Proof.Machine.execMaMovVt a r c v s
  | .maMovTp a g => Sys2Proof.Machine.execMaMovTp a g s
  | .maMovSum d sc n => Sys2Proof.Machine.execMaMovSum d sc n s
  | .maWait m => Sys2Proof.Machine.execMaWait m s
  | .maSave a => Sys2Proof.Machine.execMaSave a s
  | .maRstr a => Sys2Proof.Machine.execMaRstr a s
  | .cpCopy a d => Sys2Proof.Machine.execCpCopy a d s
  | .cpCopyTs a d => Sys2Proof.Machine.execCpCopyTs a d s
  | .cpCopyRc a b d => Sys2Proof.Machine.execCpCopyRc a b d s
  | .cpGath a b d t => Sys2Proof.Machine.execCpGath a b d t s
  | .cpScat a b d => Sys2Proof.Machine.execCpScat a b d s
  | .cpFill a b d t => Sys2Proof.Machine.execCpFill a b d t s
  | .tsDef a b => Sys2Proof.Machine.execTsDef a b s
  | .tsRel a d => Sys2Proof.Machine.execTsRel a d s
  | .tsStat a d f w => Sys2Proof.Machine.execTsStat a d f w s
  | .barInit a b d sc => Sys2Proof.Machine.execBarInit a b d sc s
  | .barArr a d => Sys2Proof.Machine.execBarArr a d s
  | .barWait a b d => Sys2Proof.Machine.execBarWait a b d s
  | .barArw a d => Sys2Proof.Machine.execBarArw a d s
  | .barExpb a b d => Sys2Proof.Machine.execBarExpb a b d s
  | .barStat a d c => Sys2Proof.Machine.execBarStat a d c s
  | .barExp a d => Sys2Proof.Machine.execBarExp a d s
  | .barUnex a d => Sys2Proof.Machine.execBarUnex a d s
  | .semInit a b d sc => Sys2Proof.Machine.execSemInit a b d sc s
  | .semSet a b d => Sys2Proof.Machine.execSemSet a b d s
  | .semAdd a b d => Sys2Proof.Machine.execSemAdd a b d s
  | .semWge a b d u => Sys2Proof.Machine.execSemWge a b d u s
  | .chCfg d a b => Sys2Proof.Machine.execChCfg d a b s
  | .chReg d a => Sys2Proof.Machine.execChReg d a s
  | .chEos d a => Sys2Proof.Machine.execChEos d a s
  | .chTake d a p => Sys2Proof.Machine.execChTake d a p s
  | .chStat d a => Sys2Proof.Machine.execChStat d a s
  | .fwFu a b d => Sys2Proof.Machine.execFwFu a b d s
  | .fwFwd a b d => Sys2Proof.Machine.execFwFwd a b d s
  | .fwUpd a b d => Sys2Proof.Machine.execFwUpd a b d s
  | .fwOpen a d => Sys2Proof.Machine.execFwOpen a d s
  | .fwClose a d => Sys2Proof.Machine.execFwClose a d s
  | .fwFree a d => Sys2Proof.Machine.execFwFree a d s
  | .fwPage a b d o => Sys2Proof.Machine.execFwPage a b d o s
  | .fwStat a d => Sys2Proof.Machine.execFwStat a d s
  | .fwSnap a d => Sys2Proof.Machine.execFwSnap a d s
  | .fwAvg a b d => Sys2Proof.Machine.execFwAvg a b d s
  | .fwRoll a b d => Sys2Proof.Machine.execFwRoll a b d s
  | .fwMig a b d => Sys2Proof.Machine.execFwMig a b d s
  | .fwLogc a b d => Sys2Proof.Machine.execFwLogc a b d s
  | .fwLogd a b d => Sys2Proof.Machine.execFwLogd a b d s
  | .cxStart a d r => Sys2Proof.Machine.execCxStart a d r s
  | .cxPause a d => Sys2Proof.Machine.execCxPause a d s
  | .cxEnd a d => Sys2Proof.Machine.execCxEnd a d s
  | .cxFork a b d => Sys2Proof.Machine.execCxFork a b d s
  | .cxCancel a b d l => Sys2Proof.Machine.execCxCancel a b d l s
  | .cxSpec a b d => Sys2Proof.Machine.execCxSpec a b d s
  | .cxCommit a b d => Sys2Proof.Machine.execCxCommit a b d s
  | .grBind a b d => Sys2Proof.Machine.execGrBind a b d s
  | .grStep a b d sc => Sys2Proof.Machine.execGrStep a b d sc s
  | .grMask a d => Sys2Proof.Machine.execGrMask a d s
  | .grLatt a b d => Sys2Proof.Machine.execGrLatt a b d s
  | .grSave a b d => Sys2Proof.Machine.execGrSave a b d s
  | .grFork a b d => Sys2Proof.Machine.execGrFork a b d s
  | .grRoll a b d => Sys2Proof.Machine.execGrRoll a b d s
  | .skOpen a d => Sys2Proof.Machine.execSkOpen a d s
  | .skClose a b d f => Sys2Proof.Machine.execSkClose a b d f s
  | .skDraw a d => Sys2Proof.Machine.execSkDraw a d s
  | .ltExp a d => Sys2Proof.Machine.execLtExp a d s
  | .sqCfg a b d => Sys2Proof.Machine.execSqCfg a b d s
  | .sqSend a b d => Sys2Proof.Machine.execSqSend a b d s
  | .sqRecv a b d => Sys2Proof.Machine.execSqRecv a b d s
  | .packageReset => Sys2Proof.Machine.execPackageReset s
  | .powerOff => Sys2Proof.Machine.execPowerOff s
  | .chipletAttestation c ok why => Sys2Proof.Machine.execChipletAttestation c ok why s
  | .flitTagFailure l => Sys2Proof.Machine.execFlitTagFailure l s
  | .keyRolloverStart l => Sys2Proof.Machine.execKeyRolloverStart l s
  | .keyRolloverAck l => Sys2Proof.Machine.execKeyRolloverAck l s
  | .drainMarker l => Sys2Proof.Machine.execDrainMarker l s
  | .rolloverSendStop l => Sys2Proof.Machine.execRolloverSendStop l s
  | .rolloverStopTimeout l => Sys2Proof.Machine.execRolloverStopTimeout l s
  | .dieReadmission die => Sys2Proof.Machine.execDieReadmission die s
  | .routeResend src dst => Sys2Proof.Machine.execRouteResend src dst s
  | .hostLinkDown => Sys2Proof.Machine.execHostLinkDown s
  | .syswr n v => Sys2Proof.Machine.execSyswr n v s
  | .tlbinv kind a b => Sys2Proof.Machine.execTlbinv kind a b s
  | .feat ack lock => Sys2Proof.Machine.execFeat ack lock s
  | .answer task r im retry => Sys2Proof.Machine.execAnswer task r im retry s
  | .lists bases => Sys2Proof.Machine.execLists bases s
  | .route h chip ports assoc => Sys2Proof.Machine.execRoute h chip ports assoc s
  | .preempt task => Sys2Proof.Machine.execPreempt task s
  | .dierst c => Sys2Proof.Machine.execDierst c s
  | .lcs next signed => Sys2Proof.Machine.execLcs next signed s
  | .age => Sys2Proof.Machine.execAge s
  | .attest c => Sys2Proof.Machine.execAttest c s
  | .ageUpdate recs => Sys2Proof.Machine.execAgeUpdate recs s
  | .blockFetch c r => Sys2Proof.Machine.execBlockFetch c r s
  | .lineRequestReturn c im => Sys2Proof.Machine.execLineRequestReturn c im s
  | .requestTableGrant c => Sys2Proof.Machine.execRequestTableGrant c s
  | .storePerformed c r im => Sys2Proof.Machine.execStorePerformed c r im s
  | .atomicAtHome c im => Sys2Proof.Machine.execAtomicAtHome c im s
  | .waitaWake c r => Sys2Proof.Machine.execWaitaWake c r s
  | .waitaTimeout c r => Sys2Proof.Machine.execWaitaTimeout c r s
  | .pageWalkComplete c im => Sys2Proof.Machine.execPageWalkComplete c im s
  | .missTableGrant c => Sys2Proof.Machine.execMissTableGrant c s
  | .cowBreak die im => Sys2Proof.Machine.execCowBreak die im s
  | .pageMigrationComplete die im => Sys2Proof.Machine.execPageMigrationComplete die im s
  | .tlbInvComplete im => Sys2Proof.Machine.execTlbInvComplete im s
  | .l1WrapClearDone c => Sys2Proof.Machine.execL1WrapClearDone c s
  | .vectorStart c => Sys2Proof.Machine.execVectorStart c s
  | .vectorComplete c im => Sys2Proof.Machine.execVectorComplete c im s
  | .matrixStart c im => Sys2Proof.Machine.execMatrixStart c im s
  | .matrixComplete c im => Sys2Proof.Machine.execMatrixComplete c im s
  | .lockClear c im => Sys2Proof.Machine.execLockClear c im s
  | .copyStart c im => Sys2Proof.Machine.execCopyStart c im s
  | .copyPiecePost c im => Sys2Proof.Machine.execCopyPiecePost c im s
  | .copyComplete c im => Sys2Proof.Machine.execCopyComplete c im s
  | .arriveEvent c im => Sys2Proof.Machine.execArriveEvent c im s
  | .bytesEvent c im => Sys2Proof.Machine.execBytesEvent c im s
  | .postEvent c im => Sys2Proof.Machine.execPostEvent c im s
  | .handleResolve c h => Sys2Proof.Machine.execHandleResolve c h s
  | .linkPushLand c im => Sys2Proof.Machine.execLinkPushLand c im s
  | .fwStart c => Sys2Proof.Machine.execFwStart c s
  | .fwComplete c => Sys2Proof.Machine.execFwComplete c s
  | .fwDirectoryResolve c => Sys2Proof.Machine.execFwDirectoryResolve c s
  | .fwPageInDone c => Sys2Proof.Machine.execFwPageInDone c s
  | .fwTransferComplete im => Sys2Proof.Machine.execFwTransferComplete im s
  | .seqStart c im => Sys2Proof.Machine.execSeqStart c im s
  | .seqComplete c im => Sys2Proof.Machine.execSeqComplete c im s
  | .sinkBlockProcess bd row blk => Sys2Proof.Machine.execSinkBlockProcess bd row blk s
  | .sqRecordLand c im => Sys2Proof.Machine.execSqRecordLand c im s
  | .dispatchRound die => Sys2Proof.Machine.execDispatchRound die s
  | .taskFirstIssue task => Sys2Proof.Machine.execTaskFirstIssue task s
  | .preemptEscalate task => Sys2Proof.Machine.execPreemptEscalate task s
  | .taskSave task => Sys2Proof.Machine.execTaskSave task s
  | .taskResume task => Sys2Proof.Machine.execTaskResume task s
  | .taskEnd task => Sys2Proof.Machine.execTaskEnd task s
  | .trapDelivery c => Sys2Proof.Machine.execTrapDelivery c s
  | .hostEventPost => Sys2Proof.Machine.execHostEventPost s
  | .watchdogExpiry c r => Sys2Proof.Machine.execWatchdogExpiry c r s
  | .tWatchdogExpiry c => Sys2Proof.Machine.execTWatchdogExpiry c s
  | .safeCountExpiry c r => Sys2Proof.Machine.execSafeCountExpiry c r s
  | .jmp o => Sys2Proof.Machine.execJmp o s
  | .call o => Sys2Proof.Machine.execCall o s
  | .conditionalBranch c a b o => Sys2Proof.Machine.execConditionalBranch c a b o s
  | .nop => Sys2Proof.Machine.execNop s
  | .nopH16 => Sys2Proof.Machine.execNopH16 s
  | .ret => Sys2Proof.Machine.execRet s
  | .jr a => Sys2Proof.Machine.execJr a s
  | .callr a => Sys2Proof.Machine.execCallr a s
  | .brk c => Sys2Proof.Machine.execBrk c s
  | .csrr d n => Sys2Proof.Machine.execCsrr d n s
  | .csrw a n => Sys2Proof.Machine.execCsrw a n s
  | .add d a b => Sys2Proof.Machine.execAdd d a b s
  | .sub d a b => Sys2Proof.Machine.execSub d a b s
  | .and d a b => Sys2Proof.Machine.execAnd d a b s
  | .or d a b => Sys2Proof.Machine.execOr d a b s
  | .xor d a b => Sys2Proof.Machine.execXor d a b s
  | .andn d a b => Sys2Proof.Machine.execAndn d a b s
  | .min d a b => Sys2Proof.Machine.execMin d a b s
  | .max d a b => Sys2Proof.Machine.execMax d a b s
  | .minn d a b => Sys2Proof.Machine.execMinn d a b s
  | .maxn d a b => Sys2Proof.Machine.execMaxn d a b s
  | .sh1add d a b => Sys2Proof.Machine.execSh1add d a b s
  | .sh2add d a b => Sys2Proof.Machine.execSh2add d a b s
  | .sh3add d a b => Sys2Proof.Machine.execSh3add d a b s
  | .sh4add d a b => Sys2Proof.Machine.execSh4add d a b s
  | .addi d a im => Sys2Proof.Machine.execAddi d a im s
  | .andi d a im => Sys2Proof.Machine.execAndi d a im s
  | .ori d a im => Sys2Proof.Machine.execOri d a im s
  | .slli d a sc => Sys2Proof.Machine.execSlli d a sc s
  | .srli d a sc => Sys2Proof.Machine.execSrli d a sc s
  | .srai d a sc => Sys2Proof.Machine.execSrai d a sc s
  | .rori d a sc => Sys2Proof.Machine.execRori d a sc s
  | .lih d im => Sys2Proof.Machine.execLih d im s
  | .sll d a b => Sys2Proof.Machine.execSll d a b s
  | .srl d a b => Sys2Proof.Machine.execSrl d a b s
  | .sra d a b => Sys2Proof.Machine.execSra d a b s
  | .ror d a b => Sys2Proof.Machine.execRor d a b s
  | .clz d a => Sys2Proof.Machine.execClz d a s
  | .ctz d a => Sys2Proof.Machine.execCtz d a s
  | .popc d a => Sys2Proof.Machine.execPopc d a s
  | .sel d a b => Sys2Proof.Machine.execSel d a b s
  | .seq d a b => Sys2Proof.Machine.execSeq d a b s
  | .sne d a b => Sys2Proof.Machine.execSne d a b s
  | .slt d a b => Sys2Proof.Machine.execSlt d a b s
  | .sge d a b => Sys2Proof.Machine.execSge d a b s
  | .sltn d a b => Sys2Proof.Machine.execSltn d a b s
  | .sgen d a b => Sys2Proof.Machine.execSgen d a b s
  | .extI8 d a => Sys2Proof.Machine.execExtI8 d a s
  | .extI16 d a => Sys2Proof.Machine.execExtI16 d a s
  | .extI32 d a => Sys2Proof.Machine.execExtI32 d a s
  | .extN8 d a => Sys2Proof.Machine.execExtN8 d a s
  | .extN16 d a => Sys2Proof.Machine.execExtN16 d a s
  | .extN32 d a => Sys2Proof.Machine.execExtN32 d a s
  | .mul d a b => Sys2Proof.Machine.execMul d a b s
  | .mulh d a b => Sys2Proof.Machine.execMulh d a b s
  | .mulhn d a b => Sys2Proof.Machine.execMulhn d a b s
  | .div d a b => Sys2Proof.Machine.execDiv d a b s
  | .divn d a b => Sys2Proof.Machine.execDivn d a b s
  | .rem d a b => Sys2Proof.Machine.execRem d a b s
  | .remn d a b => Sys2Proof.Machine.execRemn d a b s
  | .movH16 g b => Sys2Proof.Machine.execMovH16 g b s
  | .liH16 g im => Sys2Proof.Machine.execLiH16 g im s
  | .addiH16 g im => Sys2Proof.Machine.execAddiH16 g im s
  | .addH16 g b => Sys2Proof.Machine.execAddH16 g b s
  | .subH16 g b => Sys2Proof.Machine.execSubH16 g b s
  | .andH16 g b => Sys2Proof.Machine.execAndH16 g b s
  | .orH16 g b => Sys2Proof.Machine.execOrH16 g b s
  | .xorH16 g b => Sys2Proof.Machine.execXorH16 g b s
  | .slliH16 g im => Sys2Proof.Machine.execSlliH16 g im s
  | .srliH16 g im => Sys2Proof.Machine.execSrliH16 g im s
  | .sraiH16 g im => Sys2Proof.Machine.execSraiH16 g im s
  | .mulH16 g b => Sys2Proof.Machine.execMulH16 g b s
  | .ldN8 d a o => Sys2Proof.Machine.execLdN8 d a o s
  | .ldI8 d a o => Sys2Proof.Machine.execLdI8 d a o s
  | .ldN16 d a o => Sys2Proof.Machine.execLdN16 d a o s
  | .ldI16 d a o => Sys2Proof.Machine.execLdI16 d a o s
  | .ldN32 d a o => Sys2Proof.Machine.execLdN32 d a o s
  | .ldI32 d a o => Sys2Proof.Machine.execLdI32 d a o s
  | .ld64 d a o => Sys2Proof.Machine.execLd64 d a o s
  | .st8 sc a im => Sys2Proof.Machine.execSt8 sc a im s
  | .st16 sc a im => Sys2Proof.Machine.execSt16 sc a im s
  | .st32 sc a im => Sys2Proof.Machine.execSt32 sc a im s
  | .st64 sc a im => Sys2Proof.Machine.execSt64 sc a im s
  | .vld g d b => Sys2Proof.Machine.execVld g d b s
  | .vst g d b => Sys2Proof.Machine.execVst g d b s
  | .vldS g d sc b => Sys2Proof.Machine.execVldS g d sc b s
  | .vstS g d sc b => Sys2Proof.Machine.execVstS g d sc b s
  | .vldG g d im b => Sys2Proof.Machine.execVldG g d im b s
  | .vstX g d im b => Sys2Proof.Machine.execVstX g d im b s
  | .vldB g d b => Sys2Proof.Machine.execVldB g d b s
  | .aadd w a b d o sc => Sys2Proof.Machine.execAadd w a b d o sc s
  | .aand w a b d o sc => Sys2Proof.Machine.execAand w a b d o sc s
  | .aor w a b d o sc => Sys2Proof.Machine.execAor w a b d o sc s
  | .axor w a b d o sc => Sys2Proof.Machine.execAxor w a b d o sc s
  | .aminI w a b d o sc => Sys2Proof.Machine.execAminI w a b d o sc s
  | .aminN w a b d o sc => Sys2Proof.Machine.execAminN w a b d o sc s
  | .amaxI w a b d o sc => Sys2Proof.Machine.execAmaxI w a b d o sc s
  | .amaxN w a b d o sc => Sys2Proof.Machine.execAmaxN w a b d o sc s
  | .swap w a b d o sc => Sys2Proof.Machine.execSwap w a b d o sc s
  | .cas64 a b d o sc => Sys2Proof.Machine.execCas64 a b d o sc s
  | .cas128 a b d o sc => Sys2Proof.Machine.execCas128 a b d o sc s
  | .aaddMs w a b d o sc => Sys2Proof.Machine.execAaddMs w a b d o sc s
  | .aandMs w a b d o sc => Sys2Proof.Machine.execAandMs w a b d o sc s
  | .aorMs w a b d o sc => Sys2Proof.Machine.execAorMs w a b d o sc s
  | .axorMs w a b d o sc => Sys2Proof.Machine.execAxorMs w a b d o sc s
  | .aminIMs w a b d o sc => Sys2Proof.Machine.execAminIMs w a b d o sc s
  | .aminNMs w a b d o sc => Sys2Proof.Machine.execAminNMs w a b d o sc s
  | .amaxIMs w a b d o sc => Sys2Proof.Machine.execAmaxIMs w a b d o sc s
  | .amaxNMs w a b d o sc => Sys2Proof.Machine.execAmaxNMs w a b d o sc s
  | .swapMs w a b d o sc => Sys2Proof.Machine.execSwapMs w a b d o sc s
  | .cas64Ms a b d o sc => Sys2Proof.Machine.execCas64Ms a b d o sc s
  | .cas128Ms a b d o sc => Sys2Proof.Machine.execCas128Ms a b d o sc s
  | .pf a b l => Sys2Proof.Machine.execPf a b l s
  | .waita a b d c => Sys2Proof.Machine.execWaita a b d c s
  | .acq sc => Sys2Proof.Machine.execAcq sc s
  | .rel sc => Sys2Proof.Machine.execRel sc s
  | .fen sc => Sys2Proof.Machine.execFen sc s
  | .efen f => Sys2Proof.Machine.execEfen f s
  | .tlbInv a b k sc => Sys2Proof.Machine.execTlbInv a b k sc s
  | .tlbSync => Sys2Proof.Machine.execTlbSync s
  | .pgMig a b d w => Sys2Proof.Machine.execPgMig a b d w s
  | .pgPin a d c => Sys2Proof.Machine.execPgPin a d c s
  | .pgProbe a d => Sys2Proof.Machine.execPgProbe a d s
  | .fcInc a b d => Sys2Proof.Machine.execFcInc a b d s
  | .fcDec a b d => Sys2Proof.Machine.execFcDec a b d s
  | .fcRead a d => Sys2Proof.Machine.execFcRead a d s
  | .tqPush a b d => Sys2Proof.Machine.execTqPush a b d s
  | .tkEnd => Sys2Proof.Machine.execTkEnd s
  | .tkYield a => Sys2Proof.Machine.execTkYield a s
  | .tkCancel a d => Sys2Proof.Machine.execTkCancel a d s
  | .safept c => Sys2Proof.Machine.execSafept c s
  | .trap c => Sys2Proof.Machine.execTrap c s
  | .tret => Sys2Proof.Machine.execTret s
  | .sysRd a d => Sys2Proof.Machine.execSysRd a d s
  | .sysWr a b => Sys2Proof.Machine.execSysWr a b s
  | .engRpl a d => Sys2Proof.Machine.execEngRpl a d s
  | .engDrop a d => Sys2Proof.Machine.execEngDrop a d s
  | .tqCfg a b d => Sys2Proof.Machine.execTqCfg a b d s
  | .tqKill a d => Sys2Proof.Machine.execTqKill a d s
  | .tkPre a d u => Sys2Proof.Machine.execTkPre a d u s
  | .hostWrite pa bytes => Sys2Proof.Machine.execHostWrite pa bytes s
  | .cxlSnoop pa => Sys2Proof.Machine.execCxlSnoop pa s
  | .hostLinkUp => Sys2Proof.Machine.execHostLinkUp s
  | .portLinkChange port assoc up => Sys2Proof.Machine.execPortLinkChange port assoc up s
  | .remoteCopyReceive u => Sys2Proof.Machine.execRemoteCopyReceive u s
  | .semEventLand c im => Sys2Proof.Machine.execSemEventLand c im s
  | .softError place x fixed => Sys2Proof.Machine.execSoftError place x fixed s
  | .l2LineEviction pa => Sys2Proof.Machine.execL2LineEviction pa s
  | .l1LineDrop c line => Sys2Proof.Machine.execL1LineDrop c line s

end Sys2Proof.Machine
end

