-- ==== Sys2Proof/Machine/Precise.lean ====
section
/-! DEFINITION. Reads, releases and watches that an event takes the target away from while they are under way. A fault is precise (R49): the
word that made the access, where it is its thread's last, is taken back and traps; any other access was performed before the event,
which is another order of the same run (R12, R129, R130, R148, R427; log 117). -/
namespace Sys2Proof.Machine

/-- The home die of a line in memory, or its way, is lost in `t` and was not in `s`; a line of T1 or T2 that gets another home was on its
way to the old one (R12, R423). -/
def State.newLoss (s t : State) (c : Fin 64) (pa : Nat) : Option Nat :=
  if (s.lost (dieOf c) pa).isSome then none
  else match t.lost (dieOf c) pa with
    | some d => some d
    | none => if t.cdUp (s.homeDie pa) then none else some 0

/-- Request q brings data, so that it can fail. -/
def Req.isData (q : Req) : Bool :=
  match q.kind with
  | .prefetch _ => false
  | .acquire _ => false
  | _ => true

/-- Why read q can return in `s` and not in `t`. -/
def State.newFault (s t : State) (c : Fin 64) (q : Req) : Option (Nat × Nat) :=
  if (s.readFault c q).isSome then none
  else match t.readFault c q with
    | some x => some x
    | none => if q.pool.isSome then none else (s.newLoss t c q.addr).map fun d => (cDIEX, d)

/-- The reads under way in both states that can no longer return in `t`, each with the cause and detail. -/
def State.newFaults (s t : State) : List (Fin 64 × Req × Nat × Nat) :=
  (List.finRange 64).flatMap fun c => (t.core c).reqs.filterMap fun q =>
    if q.isData && (s.core c).reqs.any (·.id == q.id) then (s.newFault t c q).map fun x => (c, q, x.1, x.2) else none

/-- Store st of thread r of core c leaves the thread's buffer and is performed. -/
def State.storeOut (s : State) (c : Fin 64) (r : Role) (st : Store) : State :=
  (s.upThr c r fun t => { t with stores := t.stores.filter (·.id ≠ st.id) }).storeTake c st

/-- Puts a store that the L1 has taken among others by its order there. -/
def insertSeen (x : Role × Store) : List (Role × Store) → List (Role × Store)
  | [] => [x]
  | y :: t => if x.2.seen.getD 0 < y.2.seen.getD 0 then x :: y :: t else y :: insertSeen x t

/-- The stores of core c in the line of q that the core's L1 has taken (R11, R132), in their order. -/
def Core.seenStores (k : Core) (q : Req) : List (Role × Store) :=
  ([Role.L, .C, .S, .T].flatMap fun r => ((k.thr r).stores.filter fun st =>
    st.pool == none && st.seen.isSome && st.addr / 64 == q.addr / 64).map fun st => (r, st)).foldl (fun l x => insertSeen x l) []

/-- The earlier stores of an atomic's thread to its line, which it follows (R132). -/
def Core.atomicStores (k : Core) (q : Req) : List (Role × Store) :=
  match q.kind with
  | .atomic _ _ _ _ _ _ => ((k.thr q.role).stores.filter fun st =>
      st.pool == none && st.seen.isNone && st.ms == q.ms && decide (st.id < q.id) && st.addr / 64 == q.addr / 64).map fun st => (q.role, st)
  | _ => []

/-- Read q of core c is performed now, behind the stores that go before it. -/
def State.serveNow (s : State) (c : Fin 64) (q : Req) : State :=
  let s1 := if q.pool.isSome then s
    else ((s.core c).seenStores q ++ (s.core c).atomicStores q).foldl (fun (s : State) x => s.storeOut c x.1 x.2) s
  match (s1.core c).reqs.findIdx? (·.id == q.id) with
  | none => s1
  | some i =>
    match q.kind with
    | .atomic _ _ _ _ _ _ => s1.atomicAct c i q
    | _ => s1.serveRead c i q 0

/-- The stores that an open release at .di or wider of thread r of core c covers, and that no route can deliver any more in `t` (R148). -/
def State.lostStores (s t : State) (c : Fin 64) (r : Role) : List Store :=
  let th := s.thr c r
  match th.relUpto, th.relMark with
  | some n, some m =>
    if 3 ≤ m.scope then
      th.stores.filter fun st => decide (st.id < n) && !(s.undeliverable c st) && t.undeliverable c st && (t.thr c r).stores.any (·.id == st.id)
    else []
  | _, _ => []

/-- The threads whose open release has met such a store. -/
def State.lostRels (s t : State) : List (Fin 64 × Role) :=
  (List.finRange 64).flatMap fun c => [Role.L, .C, .S, .T].filterMap fun r =>
    if (s.lostStores t c r).isEmpty then none else some (c, r)

/-- The open release of a thread is its last word (R49). -/
def Thread.atRel (t : Thread) : Bool := t.relMark.any fun m => t.lastIs m.nth

/-- What was performed before an event that has led from `s` to `t`: the reads whose words cannot be taken back, and the stores of releases that
cannot be taken back. -/
def State.before (s t : State) : State :=
  let s1 := ((s.newFaults t).filter fun x => !(s.failable x.1 x.2.1)).foldl (fun (u : State) x => u.serveNow x.1 x.2.1) s
  ((s.lostRels t).filter fun x => !((s.thr x.1 x.2).atRel)).foldl (fun (u : State) x =>
    (s.lostStores t x.1 x.2).foldl (fun (u : State) st => u.storeOut x.1 x.2 st) u) s1

/-- Nothing has to be performed before the event. -/
def State.timely (s t : State) : Bool :=
  ((s.newFaults t).all fun x => s.failable x.1 x.2.1) && (s.lostRels t).all fun x => (s.thr x.1 x.2).atRel

/-- A REL that is its thread's last word executes again, and meets the store that it now cannot see performed (R148). -/
def Core.relAgain (k : Core) (r : Role) : Core :=
  match (k.thr r).relMark with
  | none => k
  | some m =>
    let k1 := k.takeBack r m.word
    k1.setThr r { (k1.thr r) with relUpto := none, relMark := none }

/-- An armed watch whose line has been lost ends: its WAITA meets DIEX (R125, R130). -/
def State.loseWatch (s : State) (w : Watch) (d : Nat) : State :=
  let s1 := { s with watches := s.watches.filter (·.id ≠ w.id) }
  match (s1.thr w.core w.role).stage with
  | .watch id =>
    if id ≠ w.id then s1
    else
      let s2 := s1.upThr w.core w.role fun t => { t with stage := .none }
      if (s2.thr w.core w.role).status = .running ∧ (s2.thr w.core w.role).trap = none then
        s2.trapAt w.core w.role ((s2.thr w.core w.role).faultHere cDIEX d w.va 1)
      else s2
  | _ => s1

/-- What an event that has led from `s` to `t` does to the accesses under way: reads fail, releases execute again, watches end. -/
def State.meet (s t : State) : State :=
  let t1 := (s.newFaults t).foldl (fun (u : State) x =>
    if (u.core x.1).reqs.any (·.id == x.2.1.id) then u.failRead x.1 x.2.1 x.2.2.1 x.2.2.2 else u) t
  let t2 := (s.lostRels t).foldl (fun (u : State) x => if (s.thr x.1 x.2).atRel then u.upCore x.1 fun k => k.relAgain x.2 else u) t1
  (t.watches.filter fun w => w.fired.isNone && s.watches.any (·.id == w.id)).foldl (fun (u : State) w =>
    match s.newLoss t w.core (64 * w.line) with
    | some d => u.loseWatch w d
    | none => u) t2

end Sys2Proof.Machine
end

