-- ==== Sys2Proof/Machine/Issue.lean ====
section
/-! DEFINITION. A turn of the schedule: a thread's turn issues the word its loop buffer holds next (R30, R40, R47); an event's turn
is that event of the opcode table. What can happen in a state is listed for the turns that an empty agenda takes. -/
namespace Sys2Proof.Machine

-- The turns and the decoder build instructions of every constructor, which Lean's compiler cannot (see Decode.lean).
noncomputable section

/-! ## A thread's turn -/

/-- Whether the thread stops here for a pre-emption, and with which STOP code (R389, R396): in a wait, or, when urgent, at any
word boundary; T only when urgent. A wait that an event has granted completes first, and a block fetch does unless it waits on
a BUSY leaf. -/
def Thread.stopsAt (t : Thread) (r : Role) (preempt : Nat) : Option Nat :=
  let granted : Bool := match t.stage with
    | .passed _ _ _ => true
    | .result _ => true
    | .pin _ _ => true
    | _ => false
  if preempt = 0 ∨ granted then none
  else if t.fetch.isSome ∧ t.why ≠ 13 then none
  else if r = .T then (if 2 ≤ preempt then some 2 else none)
  else if t.why ≠ 0 ∧ t.why ≠ 12 then some 1
  else if 2 ≤ preempt then some 2
  else none

/-- Some second half, of the `n` from 65,536 − n on, makes the first half a word. -/
def someHalf (half : Nat) : Nat → Bool
  | 0 => false
  | n + 1 => (match decode32 (half + 65536 * (65535 - n)) with
    | .ok _ => true
    | .error _ => false) || someHalf half n

/-- The form of a word that has a feature bit of its own in its MAJ, by its first half: MX conversions, whose MIN lies in bits 13:11, and the
remote copy (R47, R431). -/
def subForm (maj half : Nat) : Bool :=
  (maj == 29 && (bits half 11 3 == 5 || bits half 11 3 == 6)) || (maj == 36 && bits half 7 5 == 2)

/-- Checks of R47 on a 32-bit word cut off by the end of its block (R40): a check fails only by what stands in the half that is there. -/
def State.cutWord (s : State) (maj half : Nat) : Out :=
  match decode32 half, someHalf half 65536 with
  | .error d, false => s.trap cILL d
  | _, _ =>
    match s.gateFault { maj := maj, sub := subForm maj half } with
    | some (c, d) => s.trap c d
    | none => s.trap cILL 0x0A

/-- Issues the next word of the current thread (R40, R47). -/
def State.issueWord (s : State) (b : Blk) : Out :=
  match decode (b.body.drop s.me.wpos) with
  | .instr i _ => exec i s
  | .ill d _ => s.trap cILL d
  | .cut maj => s.cutWord maj (match b.body.drop s.me.wpos with | h :: _ => h.toNat | [] => 0)
  | .empty => .next (s.upMe fun t => t.advance 0)

/-- The die of a task's cores. -/
def State.taskDie (s : State) (id : Nat) : Option (Fin 4) := (s.task id).bind fun t => t.cores.head?.map dieOf

/-- The core's task waits for the driver with its save half written: it stays frozen (R392). -/
def State.savePaused (s : State) (c : Fin 64) : Bool :=
  match s.task (s.core c).taskid with
  | some t => t.phase == .savef
  | none => false

/-- The core whose engine or thread an event moves. -/
def movedCore : Instr → Option (Fin 64)
  | .waitaWake c _ => some c
  | .waitaTimeout c _ => some c
  | .vectorStart c => some c
  | .vectorComplete c _ => some c
  | .matrixStart c _ => some c
  | .matrixComplete c _ => some c
  | .lockClear c _ => some c
  | .copyStart c _ => some c
  | .copyPiecePost c _ => some c
  | .copyComplete c _ => some c
  | .fwStart c => some c
  | .fwComplete c => some c
  | .fwPageInDone c => some c
  | .seqStart c _ => some c
  | .seqComplete c _ => some c
  | .sqRecordLand c _ => some c
  | .trapDelivery c => some c
  | .watchdogExpiry c _ => some c
  | .tWatchdogExpiry c => some c
  | .safeCountExpiry c _ => some c
  | _ => none

/-- The turn of thread r of core c. -/
def State.issue (s : State) (c : Fin 64) (r : Role) : Out :=
  let s := { s with cur := (c, r) }
  let t := s.me
  if t.status ≠ .running then .next s
  else if t.trap.isSome then .next (if s.savePaused c then s else s.deliverTrap c r)
  else match t.stopsAt r (s.preemptOf c) with
  | some code => .next (s.upMe fun t => t.stop code allLive)
  | none =>
    if t.fetch.isSome then exec (.blockFetch c r) s
    else match t.blk with
    | none => .next s
    | some b => s.issueWord b

/-! ## The schedule when the agenda is empty -/

/-- One event for each index of a list of n entries. -/
def each (n : Nat) (f : Nat → Instr) : List Turn := (List.range n).map fun i => .event (f i)

def roles : List Role := [.L, .C, .S, .T]

/-- What can happen on a core. -/
def State.coreTurns (s : State) (c : Fin 64) : List Turn :=
  let k := s.core c
  (roles.filterMap fun r => if (k.thr r).status = .running then some (.issue c r) else none) ++
  (roles.filterMap fun r => if (k.thr r).status = .running then some (.late c r) else none) ++
  each k.reqs.length (.lineRequestReturn c) ++ each k.reqs.length (.atomicAtHome c) ++
  roles.flatMap (fun r => each (k.thr r).stores.length (.storePerformed c r)) ++
  (roles.filterMap fun r => if (k.thr r).status = .running ∧ (k.thr r).looksAhead.isSome then some (.event (.blockFetch c r)) else none) ++
  (roles.filterMap fun r => match (k.thr r).stage with
    | .watch _ => some (.event (.waitaWake c r))
    | _ => none) ++
  (roles.filterMap fun r => match (k.thr r).stage with
    | .safe => some (.event (.safeCountExpiry c r))
    | _ => none) ++
  each k.walks.length (.pageWalkComplete c) ++ each (min 1 k.reqwait.length) (fun _ => .requestTableGrant c) ++
  each (min 1 k.walkwait.length) (fun _ => .missTableGrant c) ++
  (if k.l1clear then [.event (.l1WrapClearDone c)] else []) ++
  each (min 1 k.vq.length) (fun _ => .vectorStart c) ++ each k.vq.length (.vectorComplete c) ++
  each k.mx.queue.length (.matrixStart c) ++ each k.mx.queue.length (.matrixComplete c) ++
  each k.mx.queue.length (.lockClear c) ++
  each k.cq.length (.copyStart c) ++ each k.cq.length (.copyPiecePost c) ++ each k.cq.length (.copyComplete c) ++
  each k.posts.length (.arriveEvent c) ++ each k.posts.length (.bytesEvent c) ++ each k.posts.length (.postEvent c) ++
  each k.posts.length (.linkPushLand c) ++ each k.posts.length (.semEventLand c) ++
  k.posts.filterMap (fun p => match p.target with
    | .handle h => some (.event (.handleResolve c h))
    | _ => none) ++
  (if k.fwq.isEmpty && k.fwwant.isEmpty then []
   else [.event (.fwDirectoryResolve c), .event (.fwPageInDone c), .event (.fwStart c), .event (.fwComplete c)]) ++
  each k.sq.length (.seqStart c) ++ each k.sq.length (.seqComplete c) ++ each k.sq.length (.sqRecordLand c) ++
  (if roles.any (fun r => (k.thr r).trap.isSome) then [.event (.trapDelivery c)] else [])

/-- What can happen on a die. -/
def State.dieTurns (s : State) (d : Fin 4) : List Turn :=
  [.event (.dispatchRound d)] ++ each (s.die d).moves.length (.cowBreak d) ++
  each (s.die d).moves.length (.pageMigrationComplete d)

/-- What can happen in the open rows of a base die. -/
def State.sinkTurns (s : State) (b : Fin 8) : List Turn :=
  (s.bd b).rows.flatMap fun x => match x.row with
    | some r => each (r.v / 4096 + 1) (.sinkBlockProcess b x.ix)
    | none => []

/-- What can happen in the package, apart from the outside world and the clock. -/
def State.turns (s : State) : List Turn :=
  (List.finRange 64).flatMap s.coreTurns ++ (List.finRange 4).flatMap s.dieTurns ++ (List.finRange 8).flatMap s.sinkTurns ++
  each s.invals.length .tlbInvComplete ++ each s.xfers.length .fwTransferComplete ++
  s.tasks.flatMap (fun t => [.event (.taskFirstIssue t.id), .event (.taskSave t.id), .event (.taskResume t.id),
    .event (.taskEnd t.id)]) ++
  (List.finRange 256).filterMap (fun i =>
    if s.chan[i].drain then some (.event (.routeResend (Fin.ofNat 64 (i.val / 4)) (Fin.ofNat 4 i.val))) else none) ++
  s.snoops.map (fun l => .event (.cxlSnoop (64 * l))) ++ (if s.hostq.isEmpty then [] else [.event .hostEventPost])

/-- The die whose units make accesses of their own in an event, past the checks that threads and engines make of their way. -/
def State.actingDie (s : State) : Instr → Option (Fin 4)
  | .dispatchRound d => some d
  | .cowBreak d _ => some d
  | .pageMigrationComplete d _ => some d
  | .seqStart c _ => some (dieOf c)
  | .seqComplete c _ => some (dieOf c)
  | .fwComplete c => some (dieOf c)
  | .fwDirectoryResolve c => some (dieOf c)
  | .handleResolve c _ => some (dieOf c)
  | .taskFirstIssue id => s.taskDie id
  | .taskSave id => s.taskDie id
  | .taskResume id => s.taskDie id
  | .taskEnd id => s.taskDie id
  | _ => none

/-- A link direction of a compute die has stopped: its sources are held back, and with them the die's own units (R15, R426; log 102). -/
def State.dieStopped (s : State) (d : Fin 4) : Bool := linkDirs.any fun x => linkOf (Fin.ofNat 18 d.val) x && s.links[x].stop

/-- An event does not happen now: its core is frozen by a paused save, or its die is held back. -/
def State.eventHeld (s : State) (e : Instr) : Bool := (movedCore e).any s.savePaused || (s.actingDie e).any s.dieStopped

/-- The state after an event has been met by the accesses under way in `s` (R49, R130; log 117). -/
def State.settled (s : State) : Out → Out
  | .next t => .next (s.meet t)
  | o => o

/-- An event's turn: it occurs in `s`, or after the accesses that must have been performed before it. -/
def State.event (s : State) (e : Instr) : Out :=
  match exec e s with
  | .next t => if s.timely t then .next (s.meet t) else (s.before t).settled (exec e (s.before t))
  | o => o

/-- Runs a turn. -/
def State.turn (s : State) : Turn → Out
  | .issue c r => { s with late := false }.issue c r
  | .late c r => { s with late := true }.issue c r
  | .event e => if s.eventHeld e then .next s else s.event e

/-- A role thread that issues words of a class, T for the privileged ones (R13). -/
def roleFor (maj minor : Nat) : Role :=
  if maj = 17 ∨ (53 ≤ maj ∧ maj ≤ 55) ∨ (maj = 35 ∧ minor ≠ 0) ∨ (maj = 52 ∧ minor = 2) ∨
    (maj = 18 ∧ minor = 1) ∨ maj = 19 then .T
  else if (20 ≤ maj ∧ maj ≤ 35) ∨ (42 ≤ maj ∧ maj ≤ 50) then .C
  else .L

end

end Sys2Proof.Machine
end

