-- ==== Sys2Proof/Machine/Step.lean ====
section
/-! DEFINITION. One step of the machine, and the placing of a word where the next step issues it. -/
namespace Sys2Proof.Machine

-- See Decode.lean: Lean's compiler cannot compile what builds instructions of every constructor.
noncomputable section

/-- One step of the machine: the agenda's first turn, or the next in rotation. -/
def step (s : State) : Host.Outcome State Fault Refusal :=
  match s.agenda with
  | t :: rest => { s with agenda := rest }.turn t
  | [] =>
    match s.turns[s.tick % s.turns.length]? with
    | some t => { s with tick := s.tick + 1 }.turn t
    | none => .next { s with tick := s.tick + 1 }

/-- The state in which the word stands next in the loop buffer of a running thread of core 0, in an entry block of its own, and
the next turn is that thread's (log 3: this stands for the dispatch of a task that holds the word). The core gets a vector
region of 64 registers if it has none. -/
def State.withFetchWord (s : State) (nbits w : Nat) : State :=
  let hs := tableHalves nbits (w % 2 ^ nbits)
  let r : Role := if nbits ≤ 16 then .L else roleFor (fld w 1 6) (fld w 7 5)
  let b : Blk := { hdr := (s.thr 0 r).hdr, head := 0x40000201, body := hs ++ List.replicate (2 - hs.length) 0 }
  let s := s.upThr 0 r fun t =>
    { t with status := .running, blk := some b, reps := 0, wpos := 0, fetch := none, trap := none, why := 0, obj := 0,
             scnt := 0, stage := .none }
  let s := s.upCore 0 fun k => if k.bndv = 0 then { k with bndv := 4, bnds := 4, bndc := 4 } else k
  { s with agenda := .issue 0 r :: s.agenda }

end

end Sys2Proof.Machine
end

