-- ==== Sys2Proof/Safety.lean ====
section
/-! DEFINITION. The words that the statements use: when a word issues, what an instruction leaves alone, and the invariants. -/
namespace Sys2Proof.Machine

/-! ## When a word issues -/

/-- The word passes the checks of R47 that need the state, every g register it reads holds its value (R82), and the safe-point
count lets it retire (R388). -/
structure State.Issues (s : State) (n : Need) (reads : List (Fin 32)) : Prop where
  pass  : s.gateFault n = none
  ready : reads.all s.me.ready = true
  count : s.me.safeDue s.cr = false ∨ n.safe = true

/-- The word has issued, changed its thread by `f`, and retired as n halfwords: nothing else in the machine is different. -/
def State.Retires (s : State) (i : Instr) (n : Nat) (f : Thread → Thread) : Prop :=
  exec i s = .next (s.upMe fun t => (f t).retire n)

/-- Wherever the word issues, it puts into `gD` a value that its rule gives, retires as n halfwords, and changes nothing else. -/
def Gives (i : Instr) (n : Need) (reads : List (Fin 32)) (len : Nat) (d : Fin 32) (rule : Thread → Word → Prop) : Prop :=
  ∀ s : State, s.Issues n reads → ∃ v, rule s.me v ∧ s.Retires i len fun t => t.put d v

/-- A scalar form on operand specs: sources read in order, `f` of their values sent to the destination, nothing else. -/
def Passes (i : Instr) (maj : Nat) (srcs : List Src) (d : Dst) (f : List Word → Word) : Prop :=
  ∀ (s s1 s2 : State) (vs ws : List Word),
    s.Issues { maj := maj, chans := srcs.flatMap srcChan ++ dstChan d } (srcs.flatMap srcRegs) →
    s.srcs srcs = .vals vs s1 → s1.dst d (f vs) = .vals ws s2 →
    exec i s = .next (s2.upMe fun t => t.retire 2)

/-- The same where the rule states the result by a relation to the values of the sources. -/
def PassesBy (i : Instr) (maj : Nat) (srcs : List Src) (d : Dst) (rule : List Word → Word → Prop) : Prop :=
  ∀ (s s1 : State) (vs : List Word), s.Issues { maj := maj, chans := srcs.flatMap srcChan ++ dstChan d } (srcs.flatMap srcRegs) →
    s.srcs srcs = .vals vs s1 →
    ∃ v, rule vs v ∧ ∀ (s2 : State) (ws : List Word), s1.dst d v = .vals ws s2 → exec i s = .next (s2.upMe fun t => t.retire 2)

/-- A rule for one source value, and for two. -/
def by1 (p : Word → Word → Prop) (vs : List Word) (v : Word) : Prop := ∀ x, vs = [x] → p x v

def by2 (p : Word → Word → Word → Prop) (vs : List Word) (v : Word) : Prop := ∀ x y, vs = [x, y] → p x y v

/-! ## Memory forms -/

/-- The frame of a memory word: device memory, the pools, system registers, every other thread, the thread's flags and random
state, the predicates, the matrix side, the tables and the trap registers of every core stay as they are. -/
structure State.Frame (s s' : State) : Prop where
  mem    : s'.mem = s.mem
  sys    : s'.sys = s.sys
  cur    : s'.cur = s.cur
  others : ∀ (k : Fin 64) (r : Role), (k, r) ≠ s.cur → s'.thr k r = s.thr k r
  flags  : s'.me.fpcr = s.me.fpcr ∧ s'.me.rngseed = s.me.rngseed ∧ s'.me.rngctr = s.me.rngctr
  pools  : ∀ k : Fin 64, (s'.core k).pool = (s.core k).pool ∧ (s'.core k).preds = (s.core k).preds ∧ (s'.core k).mx = (s.core k).mx
  tables : ∀ k : Fin 64, (s'.core k).chans = (s.core k).chans ∧ (s'.core k).slots = (s.core k).slots
  traps  : ∀ k : Fin 64, (s'.core k).trapc = (s.core k).trapc ∧ (s'.core k).trapa = (s.core k).trapa ∧
    (s'.core k).trappc = (s.core k).trappc ∧ (s'.core k).trapw = (s.core k).trapw

/-- A scalar load of n bytes (R116): from the own pool at its turn or later (R140), from a line that the L1 hits, or by a request. -/
def LoadRule (i : Fin 32 → Fin 32 → Fin 512 → Instr) (n : Nat) (signed : Bool) : Prop :=
  ∀ (s : State) (d a : Fin 32) (o : Fin 512) (va : Nat), s.Issues { maj := 10 } [a] → s.acqOpen s.cc s.cr = false →
    (va : Int) = ((s.me.get a).toNat + sint 9 o.val * n) % 2 ^ 64 →
    (∀ x, va = 0x00FF000000000000 + x → s.myCore.bndv * 65536 ≤ x → x < s.myCore.bnds * 65536 → x < 0x780000 → va % n = 0 →
      s.poolPoison s.me s.cc s.nextOp x n = false →
      (s.poolLater s.cc x n = false → s.Retires (i d a o) 2 fun t => t.put d
        (if signed then sextW (8 * n) (leNat (s.poolBytes s.cc x n)) else word (leNat (s.poolBytes s.cc x n)))) ∧
      (s.poolLater s.cc x n = true → ∃ s', exec (i d a o) s = .next s' ∧ s.Frame s' ∧ s'.me.g = s.me.g ∧
        (d ≠ 0 → s'.me.own[d] = some s.nextOp) ∧ ∃ q : Req, s'.myCore.reqs = s.myCore.reqs ++ [q] ∧ q.id = s.nextOp ∧ q.role = s.cr ∧
          q.pool = some s.cc ∧ q.addr = x ∧ q.kind = .load (.g d) n signed)) ∧
    (∀ pa e s1 bs, s.site va n .read n none (fun _ => false) = .ok (.dev pa e) s1 → s1.l1Bytes pa n e = some bs →
      (leafL1 e = true → s1.myCore.l1clear = false) →
      exec (i d a o) s = .next (s1.upMe fun t => (t.put d (if signed then sextW (8 * n) (leNat bs) else word (leNat bs))).retire 2)) ∧
    (∀ pa e s1, s.site va n .read n none (fun _ => false) = .ok (.dev pa e) s1 → s1.l1Bytes pa n e = none → s1.room 1 = true →
      (leafL1 e = true → s1.myCore.l1clear = false) →
      ∃ s', exec (i d a o) s = .next s' ∧ s.Frame s' ∧ s'.me.g = s.me.g ∧
        (d ≠ 0 → s'.me.own[d] = some s1.nextOp) ∧
        ∃ q : Req, s'.myCore.reqs = s1.myCore.reqs ++ [q] ∧ q.id = s1.nextOp ∧ q.role = s.cr ∧ q.pool = none ∧ q.addr = pa ∧
          q.kind = .load (.g d) n signed)

/-- A scalar load whose base is any source spec and whose result goes to any destination spec, with a value at the source and room at
the destination (R34, R35, R116): from a pool at its turn or later, from a line that the L1 hits, or by a request that the destination
waits for. -/
def LoadPasses (i : Dst → Src → Fin 512 → Instr) (n : Nat) (signed : Bool) : Prop :=
  ∀ (s s0 s1 s2 t : State) (d : Dst) (a : Src) (o : Fin 512) (v w : Word) (zs : List Word) (va : Nat) (x : Site),
    s.Issues { maj := 10, chans := srcChan a ++ dstChan d } (srcRegs a) → s.acqOpen s.cc s.cr = false →
    s.srcs [a] = .vals [v] s0 → s0.dst d 0 = .vals zs t → (va : Int) = (v.toNat + sint 9 o.val * n) % 2 ^ 64 →
    s.site va n .read n none (fun _ => false) = .ok x s1 → s1.srcs [a] = .vals [w] s2 →
    (∀ bs, (∃ m : Fin 64, x.pool s.cc = some m ∧ s2.poolLater m x.addr n = false ∧ bs = s2.poolBytes m x.addr n) ∨
        (∃ pa e, x = .dev pa e ∧ (leafL1 e = true → s2.myCore.l1clear = false) ∧ s2.l1Bytes pa n e = some bs) →
      ∀ (s3 : State) (ws : List Word), s2.dst d (if signed then sextW (8 * n) (leNat bs) else word (leNat bs)) = .vals ws s3 →
        exec (i d a o) s = .next (s3.upMe fun u => u.retire 2)) ∧
    ((∃ m : Fin 64, x.pool s.cc = some m ∧ s2.poolLater m x.addr n = true) ∨
        (∃ pa e, x = .dev pa e ∧ (leafL1 e = true → s2.myCore.l1clear = false) ∧ s2.l1Bytes pa n e = none ∧ s2.room 1 = true) →
      ∃ (s3 : State) (q : Req), s3.myCore.reqs = s2.myCore.reqs ++ [q] ∧ q.id = s2.nextOp ∧ q.role = s.cr ∧ q.pool = x.pool s.cc ∧
        q.addr = x.addr ∧ q.kind = .load (destOf d) n signed ∧ s3.mem = s2.mem ∧ s3.me = s2.me ∧ s3.myCore.pool = s2.myCore.pool ∧
        s3.myCore.chans = s2.myCore.chans ∧
        ∀ (s4 : State) (ws : List Word), s3.claim d q.id = .vals ws s4 → exec (i d a o) s = .next (s4.upMe fun u => u.retire 2))

/-- A scalar store of the low n bytes of gD whose base is any source spec with a value (R34, R35, R117). -/
def StorePasses (i : Fin 32 → Src → Fin 1024 → Instr) (n : Nat) : Prop :=
  ∀ (s s0 s1 s2 : State) (d : Fin 32) (a : Src) (o : Fin 1024) (v w : Word) (va : Nat) (x : Site),
    s.Issues { maj := 11, chans := srcChan a } (d :: srcRegs a) → s.asyncOpen = false → s.srcs [a] = .vals [v] s0 →
    (va : Int) = (v.toNat + sint 10 o.val * n) % 2 ^ 64 → s.site va n .write n none (fun _ => true) = .ok x s1 →
    s1.siteLocked x va n = false → (x.isDev = true → s1.room 1 = true) → x.dead = false → s1.srcs [a] = .vals [w] s2 →
    ∃ (s' : State) (st : Store), exec (i d a o) s = .next s' ∧ s'.me.stores = s2.me.stores ++ [st] ∧ st.pool = x.pool s.cc ∧
      st.addr = x.addr ∧ st.va = va ∧
      (∀ e, e ∈ st.bytes ↔ ∃ j, j < n ∧ e = (x.addr + j, BitVec.ofNat 8 ((s.me.get d).toNat / 256 ^ j))) ∧
      s'.mem = s2.mem ∧ s'.me.g = s2.me.g ∧ s'.sys = s2.sys ∧
      ∀ k : Fin 64, (s'.core k).pool = (s2.core k).pool ∧ (s'.core k).chans = (s2.core k).chans ∧ (s'.core k).preds = (s2.core k).preds

/-- A scalar store of the low n bytes of gD (R117). -/
def StoreRule (i : Fin 32 → Fin 32 → Fin 1024 → Instr) (n : Nat) : Prop :=
  ∀ (s s1 : State) (d a : Fin 32) (o : Fin 1024) (va : Nat) (x : Site), s.Issues { maj := 11 } [d, a] → s.asyncOpen = false →
    (va : Int) = ((s.me.get a).toNat + sint 10 o.val * n) % 2 ^ 64 →
    s.site va n .write n none (fun _ => true) = .ok x s1 → s1.siteLocked x va n = false → (x.isDev = true → s1.room 1 = true) →
    x.dead = false →
    ∃ s', exec (i d a o) s = .next s' ∧ s.Frame s' ∧ s'.me.g = s.me.g ∧
      ∃ st : Store, s'.me.stores = s.me.stores ++ [st] ∧ st.pool = x.pool s.cc ∧ st.addr = x.addr ∧ st.va = va ∧
        ∀ e, e ∈ st.bytes ↔ ∃ j, j < n ∧ e = (x.addr + j, BitVec.ofNat 8 ((s.me.get d).toNat / 256 ^ j))

/-- A vector load of register vd whose active lanes come from own-pool addresses at its turn (R118, R119). -/
def VloadRule (s : State) (i : Instr) (n : Need) (reads : List (Fin 32)) (g : Guard) (vd : Nat) (idx : List Nat) (addr : Nat → Nat) :
    Prop :=
  ∀ place : Nat → Nat, s.Issues n reads → s.acqOpen s.cc s.cr = false → s.vloading vd = false → idx.any s.vloading = false →
    (∀ l, l < 1024 → guardOn s.myCore.preds g l = true → s.window s.cc s.cr (addr l) .read = some (.ok (.own (place l))) ∧
      addr l % 4 = 0 ∧ s.poolPoison s.me s.cc s.nextOp (place l) 4 = false ∧ s.poolLater s.cc (place l) 4 = false) →
    ∃ s', exec i s = .next s' ∧ s'.me = s.me.retire 2 ∧ s'.mem = s.mem ∧ s'.sys = s.sys ∧
      (∀ (k : Fin 64) (r : Role), (k, r) ≠ s.cur → s'.thr k r = s.thr k r) ∧ s'.myCore.preds = s.myCore.preds ∧
      (∀ l, l < 1024 → guardOn s.myCore.preds g l = true → s'.myCore.lane vd l = leNat (s.poolBytes s.cc (place l) 4)) ∧
      (∀ l, l < 1024 → guardOn s.myCore.preds g l = false → s'.myCore.lane vd l = s.myCore.lane vd l) ∧
      (∀ x, x < 4096 * vd ∨ 4096 * vd + 4096 ≤ x → s'.myCore.pool.get x = s.myCore.pool.get x)

/-- A vector store of register vs whose active lanes go to own-pool addresses (R118, R119). -/
def VstoreRule (s : State) (i : Instr) (n : Need) (reads : List (Fin 32)) (g : Guard) (vs : Nat) (idx : List Nat) (addr : Nat → Nat) :
    Prop :=
  ∀ place : Nat → Nat, s.Issues n reads → s.asyncOpen = false → s.vloading vs = false → idx.any s.vloading = false →
    (∀ l, l < 1024 → guardOn s.myCore.preds g l = true → s.window s.cc s.cr (addr l) .write = some (.ok (.own (place l))) ∧
      addr l % 4 = 0 ∧ reservedService (place l) = false ∧ s.myCore.lockHit s.cr none (place l) 4 = false) →
    ∃ s' new, exec i s = .next s' ∧ s'.me.stores = s.me.stores ++ new ∧ s'.me.g = s.me.g ∧ s.Frame s' ∧ (∀ st ∈ new, st.pool = some s.cc) ∧
      ∀ a b, (∃ st ∈ new, (a, b) ∈ st.bytes) ↔ ∃ l j, l < 1024 ∧ guardOn s.myCore.preds g l = true ∧ j < 4 ∧ a = place l + j ∧
        b = BitVec.ofNat 8 (s.myCore.lane vs l / 256 ^ j)

/-- A vector load whose active lanes pass their checks at any sites: the own pool, a peer window, device memory (R109, R118, R119): a lane
at hand takes its bytes, each other is in one request of its own place; what is not an active lane stays. -/
def VloadSites (s : State) (i : Instr) (n : Need) (reads : List (Fin 32)) (g : Guard) (vd : Nat) (idx : List Nat) (addr : Nat → Nat) :
    Prop :=
  ∀ (xs : List (Nat × Nat × Site)) (s1 : State), s.Issues n reads → s.acqOpen s.cc s.cr = false → s.vloading vd = false →
    idx.any s.vloading = false →
    s.laneSites .read ((activeLanes s.myCore.preds g).map fun l => (l, addr l)) = .ok xs s1 → s1.myCore.l1clear = false →
    s1.room 1024 = true →
    ∃ s' new, exec i s = .next s' ∧ s'.mem = s1.mem ∧ s'.sys = s1.sys ∧ s'.me.g = s1.me.g ∧ s'.me.stores = s1.me.stores ∧
      s'.myCore.reqs = s1.myCore.reqs ++ new ∧ s'.myCore.preds = s1.myCore.preds ∧
      (∀ l va x bs, (l, va, x) ∈ xs → s1.laneNow x = some bs → bs.length = 4 → s'.myCore.lane vd l = leNat bs) ∧
      (∀ l va x, (l, va, x) ∈ xs → s1.laneNow x = none → s'.myCore.lane vd l = s1.myCore.lane vd l ∧
        ∃ q ∈ new, q.role = s.cr ∧ q.pool = x.pool s.cc ∧
          ∃ lanes whole, q.kind = .vload vd lanes whole ∧ (l, x.addr) ∈ lanes) ∧
      (∀ l, l < 1024 → guardOn s.myCore.preds g l = false → s'.myCore.lane vd l = s1.myCore.lane vd l) ∧
      (∀ y, y < 4096 * vd ∨ 4096 * vd + 4096 ≤ y → s'.myCore.pool.get y = s1.myCore.pool.get y) ∧
      ∀ k : Fin 64, k ≠ s.cc → (s'.core k).pool = (s1.core k).pool

/-- A vector store whose active lanes pass their checks at any sites and meet no lock (R109, R118, R119). -/
def VstoreSites (s : State) (i : Instr) (n : Need) (reads : List (Fin 32)) (g : Guard) (vs : Nat) (idx : List Nat) (addr : Nat → Nat) :
    Prop :=
  ∀ (xs : List (Nat × Nat × Site)) (s1 : State), s.Issues n reads → s.asyncOpen = false → s.vloading vs = false →
    idx.any s.vloading = false →
    s.laneSites .write ((activeLanes s.myCore.preds g).map fun l => (l, addr l)) = .ok xs s1 → s1.room 1024 = true →
    (∀ l va x, (l, va, x) ∈ xs → s1.siteLocked x va 4 = false ∧ x.dead = false) →
    ∃ s' new, exec i s = .next s' ∧ s'.me.stores = s1.me.stores ++ new ∧ s'.me.g = s1.me.g ∧ s'.mem = s1.mem ∧ s'.sys = s1.sys ∧
      (∀ k : Fin 64, (s'.core k).pool = (s1.core k).pool ∧ (s'.core k).preds = (s1.core k).preds) ∧
      ∀ m a b, (∃ st ∈ new, st.pool = m ∧ (a, b) ∈ st.bytes) ↔ ∃ l va x j, (l, va, x) ∈ xs ∧ j < 4 ∧ m = x.pool s.cc ∧
        a = x.addr + j ∧ b = BitVec.ofNat 8 (s1.myCore.lane vs l / 256 ^ j)

/-- An atomic form with operation number `op` adds its request (R122): operands `b` and, for a compare, `e`. -/
def AtomicIssue (s : State) (maj op : Nat) (i : Instr) (a _b d : Fin 32) (o : Fin 4) (c : Fin 8) (reads : List (Fin 32)) (bv ev : Nat) :
    Prop :=
  ∀ (s1 : State) (pa e : Nat), s.Issues { maj := maj } reads → s.asyncOpen = false →
    s.window s.cc s.cr (s.me.get a).toNat .atomic = none → (s.me.get a).toNat % atomicWidth op = 0 →
    (2 ≤ o.val → s.release c.val = .go) →
    s.site (s.me.get a).toNat (atomicWidth op) .atomic (atomicWidth op) (some (maj == 14))
      (fun pa => atomicWrites op (s.physNat pa (atomicWidth op)) ev) = .ok (.dev pa e) s1 →
    s1.room 1 = true → leafCow e = false →
    ∃ s', exec i s = .next s' ∧ s.Frame s' ∧ s'.me.g = s.me.g ∧ (d ≠ 0 → s'.me.own[d] = some s1.nextOp) ∧
      ∃ q : Req, s'.myCore.reqs = s1.myCore.reqs ++ [q] ∧ q.id = s1.nextOp ∧ q.role = s.cr ∧ q.addr = pa ∧
        q.kind = .atomic op bv ev d.val c.val (o.val % 2 == 1)

/-- The two widths of a read-modify-write form. -/
def AtomicRule (maj : Nat) (i : Fin 2 → Fin 32 → Fin 32 → Fin 32 → Fin 4 → Fin 8 → Instr) (op : Nat) : Prop :=
  ∀ (s : State) (n : Fin 2) (a b d : Fin 32) (o : Fin 4) (c : Fin 8),
    AtomicIssue s maj (op + n.val) (i n a b d o c) a b d o c [a, b, d] (s.me.get b).toNat (s.me.get d).toNat

/-! ## Vector and matrix forms -/

/-- A vector word that issues past releases and acquires into a queue with room joins it with the g values it names, its
controls and its mixer state, owes its g result, advances RNGCTR when it rounds stochastically, and changes nothing else (R193,
R194, R216). -/
def Queues (i : Instr) (n : Need) (gs : List (Fin 32)) (wg : Option (Fin 32)) (rm : Option Nat) : Prop :=
  ∀ s : State, s.Issues n gs → s.asyncOpen = false → s.myCore.vqFull = false →
    exec i s = .next (({ s with nextOp := s.nextOp + 1 }.upMyCore fun k =>
      { k with vq := k.vq ++ [(⟨s.nextOp, s.cr, i, gs.map s.me.get, s.me.fpcr, s.me.rngseed, s.me.rngctr, none⟩ : VEnt)] }).upMe fun t =>
        (let u := if rm = some 5 ∨ rm = some 7 ∧ bits t.fpcr.toNat 5 3 = 5 then { t with rngctr := t.rngctr + 1 } else t
         match wg with
         | some d => u.owe d s.nextOp
         | none => u).retire 2)

/-- Alone in the queue, with no store or request of the core outstanding, the entry of word `i` starts and completes, and `P`
holds of what it saw, the core before, and the state after. -/
def Finishes (i : Instr) (P : VIn → State → Fin 64 → Role → State → Prop) : Prop :=
  ∀ (s : State) (c : Fin 64) (e : VEnt), (s.core c).vq = [e] → e.op = i → e.out = none → (s.thr c e.role).stores = [] →
    (s.core c).reqs = [] →
    ∃ s1 s2, exec (.vectorStart c) s = .next s1 ∧ exec (.vectorComplete c 0) s1 = .next s2 ∧ (s2.core c).vq = [] ∧
      s2.mem = s.mem ∧ P ⟨s.core c, e.gs, e.fpcr, e.seed, e.ctr⟩ s c e.role s2

/-- The active lanes of register d take f; inactive lanes, other bytes of the pool and the predicates stay. -/
def lanesTake (g : Guard) (d : Nat) (f : VIn → Nat → Nat) (x : VIn) (s : State) (c : Fin 64) (_ : Role) (s' : State) : Prop :=
  (∀ l, l < 1024 → (s'.core c).lane d l = if guardOn (s.core c).preds g l then f x l else (s.core c).lane d l) ∧
  (∀ a, a < 4096 * d ∨ 4096 * d + 4096 ≤ a → (s'.core c).pool.get a = (s.core c).pool.get a) ∧
  (s'.core c).preds = (s.core c).preds

/-- The active lanes of predicate p take f; its other lanes, the other predicates and the pool stay. -/
def predTakes (g : Guard) (p : Fin 12) (f : VIn → Nat → Bool) (x : VIn) (s : State) (c : Fin 64) (_ : Role) (s' : State) : Prop :=
  (∀ l, l < 1024 → ((s'.core c).preds[p]).getLsbD l =
    if guardOn (s.core c).preds g l then f x l else ((s.core c).preds[p]).getLsbD l) ∧
  (∀ q : Fin 12, q ≠ p → (s'.core c).preds[q] = (s.core c).preds[q]) ∧ (s'.core c).pool = (s.core c).pool

/-- The issuer's register d takes v if it still waits for the entry; the pool and the predicates stay. -/
def scalarTakes (d : Fin 32) (v : VIn → Nat → Word) (x : VIn) (s : State) (c : Fin 64) (r : Role) (s' : State) : Prop :=
  (∀ e : VEnt, (s.core c).vq = [e] → d ≠ 0 → (s.thr c r).own[d] = some e.id → (s'.thr c r).get d = v x 0) ∧
  (∀ k : Fin 32, k ≠ d → (s'.thr c r).get k = (s.thr c r).get k) ∧ (s'.core c).pool = (s.core c).pool ∧
  (s'.core c).preds = (s.core c).preds

/-- The active lanes of the n registers from d take codes with flags, place j of lane l that of `f x j l`; the flags of these are ORed into
FPCR of the issuer; inactive lanes, other bytes of the pool and the predicates stay (R192, R194). -/
def regsTake (g : Guard) (d n : Nat) (f : VIn → Nat → Nat → FRes) (x : VIn) (s : State) (c : Fin 64) (r : Role) (s' : State) : Prop :=
  (∀ j l, j < n → l < 1024 → (s'.core c).lane (d + j) l =
    if guardOn (s.core c).preds g l then (f x j l).1 % 2 ^ 32 else (s.core c).lane (d + j) l) ∧
  (∀ a, a < 4096 * d ∨ 4096 * (d + n) ≤ a → (s'.core c).pool.get a = (s.core c).pool.get a) ∧
  (s'.core c).preds = (s.core c).preds ∧
  ∀ k, (s'.thr c r).fpcr.getLsbD k = true ↔ (s.thr c r).fpcr.getLsbD k = true ∨
    k < 5 ∧ ∃ j l, j < n ∧ l < 1024 ∧ guardOn (s.core c).preds g l = true ∧ (f x j l).2.testBit k = true

/-- One register of them. -/
def fregTakes (g : Guard) (d : Nat) (f : VIn → Nat → FRes) : VIn → State → Fin 64 → Role → State → Prop :=
  regsTake g d 1 fun x _ => f x

/-- The lanes on the line of lane l: its row, or its column (R190). -/
def lineOf (col : Bool) (l : Nat) : List Nat :=
  if col then (List.range 16).map fun r => 64 * r + l % 64 else (List.range 64).map fun k => 64 * (l / 64) + k

/-- The tree over the active lanes of the line of l, flushed under FTZ (R211). -/
def reduced (g : Guard) (a : Nat) (col ftz : Bool) (f : Nat → Nat → FRes) (x : VIn) (l : Nat) : FRes :=
  match treeOpt (stepF f) ((lineOf col l).map fun j => if guardOn x.k.preds g j then some (x.lane a j, 0) else none) with
  | some t => flush ftz t
  | none => (0, 0)

/-- The running value over a list, the first one as it is, with the flags of its last step alone (R230). -/
def running (f : Nat → Nat → FRes) : List Nat → Option FRes
  | [] => none
  | v :: t => some (t.foldl (fun s w => f s.1 w) (v, 0))

/-- Place l of a scan along its line: over the active lanes up to it, or with `ex` over those before it, flushed under FTZ (R230). -/
def scanned (g : Guard) (a : Nat) (col ex ftz : Bool) (f : Nat → Nat → FRes) (x : VIn) (l : Nat) : FRes :=
  let before := (((lineOf col l).filter (guardOn x.k.preds g)).takeWhile (· ≠ l)).map (x.lane a)
  let upTo := running f (before ++ [x.lane a l])
  let out := flush ftz (((if ex then running f before else upTo).map (·.1)).getD 0, 0)
  (out.1, out.2 ||| (upTo.map (·.2)).getD 0)

/-- The candidates of the group of lane l that rank above it: a larger key, or the same key in a lower column (R228). -/
def rankOf (key : Nat → Int) (g : Guard) (a gs : Nat) (x : VIn) (l : Nat) : Nat :=
  (List.range gs).countP fun i =>
    let j := l / gs * gs + i
    guardOn x.k.preds g j && (decide (key (x.lane a l) < key (x.lane a j)) || (decide (key (x.lane a j) = key (x.lane a l)) && decide (j < l)))

/-- The places of VTOPK (R229): each of the k best candidates of a group at its rank, value in d and column in d + 1; fillers elsewhere. -/
def topkTakes (key : Nat → Int) (keep : Nat → Nat) (filler : Nat) (g : Guard) (d a k gs : Nat) (x : VIn) (s : State) (c : Fin 64) (r : Role)
    (s' : State) : Prop :=
  (∀ l, l < 1024 → guardOn (s.core c).preds g l = true → rankOf key g a gs x l < k →
    (s'.core c).lane d (l / gs * gs + rankOf key g a gs x l) = keep (x.lane a l) ∧
    (s'.core c).lane (d + 1) (l / gs * gs + rankOf key g a gs x l) = l % 64) ∧
  (∀ l, l < 1024 → min k ((List.range gs).countP fun i => guardOn (s.core c).preds g (l / gs * gs + i)) ≤ l % gs →
    (s'.core c).lane d l = filler ∧ (s'.core c).lane (d + 1) l = 2 ^ 32 - 1) ∧
  (∀ y, y < 4096 * d ∨ 4096 * (d + 2) ≤ y → (s'.core c).pool.get y = (s.core c).pool.get y) ∧
  (s'.core c).preds = (s.core c).preds ∧ (s'.thr c r).fpcr = (s.thr c r).fpcr

/-- A matrix word that issues past releases and acquires, into an engine that is parked when the thread is T, and
neither parked nor frozen when it is another (R255), with
no record or halted MA.MM of the thread to report and room in the queues, joins the matrix queue with the values `gs`, a move also
the vector queue, retires, and changes nothing else (R239, R240). -/
def MatrixJoins (i : Instr) (n : Need) (reads : List (Fin 32)) (ok : State → Prop) (gs : State → List Word) : Prop :=
  ∀ s : State, s.Issues n reads → s.asyncOpen = false → (s.myCore.mx.parked = true ↔ s.cr = .T) → (s.cr = .T ∨ s.myCore.mx.frozen = false) →
    s.myCore.recPending s.cr 1 = false → s.myCore.haltedOf s.cr = none → s.myCore.mx.queue.length < 16 →
    (isMove i = true → s.myCore.vqFull = false) → ok s →
    exec i s = .next (({ s with nextOp := s.nextOp + 1 }.upMyCore fun k =>
      { k with mx := { k.mx with queue := k.mx.queue ++ [(⟨s.nextOp, s.cr, i, gs s, false, false, none, false, [], [], false, 0, none⟩ : MEnt)] },
               vq := if isMove i then k.vq ++ [(⟨s.nextOp, s.cr, i, [], 0, 0, 0, none⟩ : VEnt)] else k.vq }).upMe fun t => t.retire 2)

/-- Entry e, of word `i`, is alone in the matrix queue of core c and has not started, with its engine running, no lock, no
request and no store of its thread outstanding, and a move alone in the vector queue too, with no urgent pre-emption (R196). -/
structure MatrixAlone (i : Instr) (s : State) (c : Fin 64) (e : MEnt) : Prop where
  queue  : (s.core c).mx.queue = [e]
  op     : e.op = i
  fresh  : e.started = false ∧ e.cleared = false ∧ e.halted = none ∧ e.rows = [] ∧ e.done = 0 ∧ e.stop = none
  runs   : (s.core c).mx.frozen = false ∧ (s.core c).mx.parked = false
  stores : (s.thr c e.role).stores = []
  reqs   : (s.core c).reqs = [] ∧ (s.core c).locks = []
  move   : isMove i = true → ∃ v : VEnt, (s.core c).vq = [v] ∧ v.id = e.id ∧ v.op = i ∧ v.role = e.role ∧ v.out = none
  calm   : isMove i = true → s.preemptOf c < 2

/-- Such an entry starts and completes, and `P` holds of the states before and after. -/
def MatrixRuns (i : Instr) (P : State → Fin 64 → MEnt → State → Prop) : Prop :=
  ∀ (s : State) (c : Fin 64) (e : MEnt), MatrixAlone i s c e →
    ∃ s1 s2, exec (.matrixStart c 0) s = .next s1 ∧ exec (.matrixComplete c 0) s1 = .next s2 ∧ (s2.core c).mx.queue = [] ∧
      s2.mem = s.mem ∧ P s c e s2

/-- Element (i, n) of tile a of core c. -/
def State.tile (s : State) (c : Fin 64) (a : Fin 16) (i n : Nat) : Nat := (s.core c).mx.tiles[a].get i n

/-! ## Copy forms -/

/-- A copy form that issues with no record to report, past releases, acquires and its thread's own stores, whose descriptor can be
read at once, past the thread's earlier reads of it and never from the L1, passes its checks and finds room, joins the copy queue with
that descriptor; gD takes the byte count, where the destination's format is known (R271). -/
def CopyJoins (i : Instr) (n : Need) (reads : List (Fin 32)) (a d : Fin 32) (gb : State → Word) : Prop :=
  ∀ (s s1 : State) (x : Site) (e : CEnt), s.Issues n reads → s.myCore.recPending s.cr 0 = false → s.asyncOpen = false →
    s.me.stores = [] → s.site (s.me.get a).toNat 64 .watch 64 none (fun _ => false) = .ok x s1 →
    (∀ q ∈ s.myCore.reqs, q.role = s.cr → q.touches (x.pool s.cc) x.ms x.addr 64 = false) →
    s1.sitePoison x 64 = false → (x.isDev = true → s1.room 1 = true) →
    e = ⟨s1.nextOp, s.cr, i, descOf (s1.siteGet x 64), gb s, s.asid, false, [], 0, [], [], [], none⟩ →
    s1.copyCheck e = none → s.myCore.cq.length < 32 →
    ∃ (s' : State) (v : Word), exec i s = .next s' ∧ s'.myCore.cq = s1.myCore.cq ++ [e] ∧ s'.me = (s1.me.put d v).retire 2 ∧
      (∀ c, s1.copyCount e = some c → v = word c) ∧ s'.mem = s1.mem ∧ (∀ k : Fin 64, (s'.core k).pool = (s1.core k).pool)

/-- The addresses of row r of the source and of the destination of a copy between untyped places (R264). -/
def CEnt.srcRow (e : CEnt) (r : Nat) : Nat := addrAdd e.d.src (if isGath e.op then e.idx.getD r 0 * e.d.sstr else r * e.d.sstr)

def CEnt.dstRow (e : CEnt) (r : Nat) : Nat := addrAdd e.d.dst (if isScat e.op then e.idx.getD r 0 * e.d.dstr else r * e.d.dstr)

/-- A started copy, alone in the queue of core c, that has nothing done, with no lock, record or poison in its way. -/
structure State.CopyRuns (s : State) (c : Fin 64) (e : CEnt) : Prop where
  alone : (s.core c).cq = [e]
  fresh : e.started = true ∧ e.done = 0 ∧ e.ahead = [] ∧ e.bad = [] ∧ e.kept = [] ∧ e.stop = none
  near  : e.slot = none ∧ isRc e.op = false
  free  : (∀ i : Fin 32, (s.core c).recs[i] = none) ∧ (s.core c).locks = [] ∧ (s.core c).ppoison = []
  top   : (s.core c).bnds * 65536 ≤ 0x780000

/-- Its rows of ns source bytes start at the offsets `src` of the data area of the own pool. -/
def State.CopyFrom (s : State) (c : Fin 64) (e : CEnt) (src : Nat → Nat) (ns : Nat) : Prop :=
  e.d.six = 0 ∧ inWindow e.d.src = true ∧ ∀ r, r < e.d.rows → e.srcRow r = 0x00FF000000000000 + src r ∧
    (s.core c).bndv * 65536 ≤ src r ∧ src r + ns ≤ (s.core c).bnds * 65536

/-- Its rows of nd destination bytes start at the offsets `dst` of the data area of the own pool, each within a line. -/
def State.CopyTo (s : State) (c : Fin 64) (e : CEnt) (dst : Nat → Nat) (nd : Nat) : Prop :=
  e.d.dix = 0 ∧ inWindow e.d.dst = true ∧ ∀ r, r < e.d.rows → e.dstRow r = 0x00FF000000000000 + dst r ∧
    (s.core c).bndv * 65536 ≤ dst r ∧ dst r + nd ≤ (s.core c).bnds * 65536 ∧ dst r % 64 + nd ≤ 64

/-- A pool after rows written in order, each from the pool as it then is. -/
def poolRows (rows : Nat) (dst : Nat → Nat) (f : Mem → Nat → List Byte) (p : Mem) : Mem :=
  (List.range rows).foldl (fun p r => p.write (dst r) (f p r)) p

/-- The next piece of entry e finishes it: the own pool becomes p, the byte count n goes to the barrier that the descriptor names, and
device memory stays (R267). -/
def State.CopyWhole (s : State) (c : Fin 64) (e : CEnt) (p : Mem) (n : Nat) : Prop :=
  ∃ s', exec (.copyPiecePost c 0) s = .next s' ∧ s'.mem = s.mem ∧ (s'.core c).cq = [{ e with done := e.d.rows * e.d.len }] ∧
    (tgKind e.d.bar = 0 → (s'.core c).pool = p) ∧
    (∀ i : Fin 32, e.d.bar = 2 ^ 30 + i.val → bits ((s.core c).slotW i) 62 2 = 1 →
      (s'.core c).pool = p.write (0x780000 + 64 * i.val) (leBytes 32 (((s.core c).bslot i).event (.bytes n)).w)) ∧
    (∀ m i, e.d.bar = 2 ^ 31 + m * 2 ^ 26 + i → m < 16 → i < 32 → (s'.core c).pool = p ∧
      (s'.core c).posts = (s.core c).posts ++ [⟨s.nextOp, e.role, .member m i, .bytes n, false⟩])

/-! ## Fast-weight and sequence forms -/

/-- An operand that passes the checks of R309: it names, itself or through the context record, the live state f of this chip, on
this die where the form needs that, and the core has resolved it. -/
def State.fwNames (s : State) (g : Word) (loc : Bool) (f : FwState) : Prop :=
  (g = 0 → s.me.stores = []) ∧ ∃ h, s.fwName s.cc g = .ok h ∧ fhBad h = false ∧ fhChip h = s.chipn ∧
    s.myCore.fwcache.contains h = true ∧ s.fwFind h = some f ∧ (loc = true → fhDie h = dieOf s.cc)

/-- A fast-weight form that issues past releases and acquires with no record to report and passes its checks joins the queue with
its operands, owes its result, and changes nothing else (R309, R312). -/
def FwJoins (i : Instr) (maj : Nat) (reads : List (Fin 32)) (d : Fin 32) (ok : State → FwState → Prop) (gs : State → List Word)
    (desc : State → List Byte) (geo : FwState → List Nat) : Prop :=
  ∀ (s : State) (f : FwState), s.Issues { maj := maj } reads → s.myCore.recPending s.cr 3 = false → s.asyncOpen = false →
    s.myCore.fwq.length < 8 → ok s f →
    exec i s = .next (({ s with nextOp := s.nextOp + 1 }.upMyCore fun k => { k with fwq := k.fwq ++
      [(⟨s.nextOp, s.cr, i, gs s, desc s, s.asid, s.myCore.view.region, geo f, false, [], 0, none, false, [], [], []⟩ : FEnt)] }).upMe
        fun t => (t.owe d s.nextOp).retire 2)

/-- An entry at the head of the queue that has its result leaves it, and the register that still waits for it takes the result. -/
def State.FwEnds (s : State) (c : Fin 64) (e : FEnt) (d : Fin 32) (v : Word) (s' : State) : Prop :=
  (s'.core c).fwq = (s.core c).fwq.filter (·.id ≠ e.id) ∧
    (d ≠ 0 → (s.thr c e.role).own[d] = some e.id → (s'.thr c e.role).get d = v) ∧
    (∀ k : Fin 32, k ≠ d → (s'.thr c e.role).get k = (s.thr c e.role).get k)

/-- A sequence word that issues raises ENG 0x07 while a record of its thread is pending and waits for an open release or acquire;
past those, with sound operands, it waits with WHY 9 while the queue is full, and else, in a state t that its access at issue makes
(`pre`), joins the queue with its operands and owes its result (R342, R345). -/
def SeqJoins (i : Instr) (maj : Nat) (reads : List (Fin 32)) (ok : State → Prop) (gs : State → List Word)
    (desc : State → List Byte) (pre : State → State → Prop) : Prop :=
  ∀ s : State, s.Issues { maj := maj } reads →
    (s.myCore.recPending s.cr 4 = true → exec i s = s.trap cENG 0x07) ∧
    (s.myCore.recPending s.cr 4 = false → s.asyncOpen = true → exec i s = s.block 10 0) ∧
    (s.myCore.recPending s.cr 4 = false → s.asyncOpen = false → ok s →
      (16 ≤ s.myCore.sq.length → exec i s = s.block 9 4) ∧
      (s.myCore.sq.length < 16 → ∀ t, pre s t →
        exec i s = .next (({ t with nextOp := t.nextOp + 1 }.upMyCore fun k => { k with sq := k.sq ++
          [(⟨t.nextOp, t.cr, i, gs s, desc s, t.asid, t.myCore.view.region, false, [], [], none, 0, none⟩ : SEnt)] }).upMe
            fun u => (u.owe (sqGd i) t.nextOp).retire 2)))

/-- The access at issue of a form that clears ready bits: nothing where no grammar is bound, else the bits of `mask` are cleared in the
context's mask area (R355). -/
def clearsReady (ix mask : State → Nat) (s t : State) : Prop :=
  (s.readyAt (ix s) = none ∧ t = s) ∨
    ∃ asid m, s.readyAt (ix s) = some (asid, m) ∧ s.setReady s.cc asid m (mask s) 0 none = .ok t

/-- A sequence word whose context index lies past the table raises TYPE 0x38 (R338). -/
def SeqIndex (i : Instr) (maj : Nat) (reads : List (Fin 32)) (a : Fin 32) : Prop :=
  ∀ s : State, s.Issues { maj := maj } reads → s.myCore.recPending s.cr 4 = false → s.asyncOpen = false →
    s.ctxn ≤ ctxIx (s.me.get a).toNat → exec i s = s.trap cTYPE 0x38

/-- A sequence entry leaves the queue: the register that still waits for it takes the result, and its LOCKs clear in memory. -/
def State.SeqEnds (s : State) (c : Fin 64) (e : SEnt) (v : Word) (s' : State) : Prop :=
  (s'.core c).sq = (s.core c).sq.filter (·.id ≠ e.id) ∧ s'.mem = (s.unlock c e).mem ∧ (s'.core c).pool = (s.core c).pool ∧
    (sqGd e.op ≠ 0 → (s.thr c e.role).own[sqGd e.op] = some e.id → (s'.thr c e.role).get (sqGd e.op) = v) ∧
    (∀ k : Fin 32, k ≠ sqGd e.op → (s'.thr c e.role).get k = (s.thr c e.role).get k)

end Sys2Proof.Machine
end

