-- ==== Sys2Proof/Certificates/Slice0/Obligations.lean ====
section
/-! DEFINITION. The statements for the provers. Each says in its docstring which rules of spec/ it states. -/
open Sys2Proof Sys2Proof.Machine

/-- Wherever ADD, SUB, AND, OR, XOR, ANDN, MIN, MAX, MINN, MAXN, SH1ADD, SH2ADD, SH3ADD or SH4ADD issues on g registers,
exec answers a next state in which gD holds the stated result modulo 2^64 (nothing when D is g0), the word has retired, and
nothing else has changed. Wherever ADDI, ANDI, ORI, SLLI, SRLI, SRAI, RORI or LIH issues on g registers, exec answers a next
state in which gD holds the result with the immediate sign-extended (shift amounts 0 to 63; LIH loads the signed 20 bits
times 1,024), the word has retired, and nothing else has changed. (R80, R92, R93, R94, R98.) -/
def Obligations.ArithmeticForms : Prop :=
  (∀ d a b : Fin 32,
  Gives (.add (.g d) (.g a) (.g b)) { maj := 5 } [a, b] 2 d (fun t v => v.toNat = ((t.get a).toNat + (t.get b).toNat) % 2 ^ 64) ∧
  Gives (.sub (.g d) (.g a) (.g b)) { maj := 5 } [a, b] 2 d (fun t v => v.toNat = ((t.get a).toNat + 2 ^ 64 - (t.get b).toNat) % 2 ^ 64) ∧
  Gives (.and (.g d) (.g a) (.g b)) { maj := 5 } [a, b] 2 d (fun t v => ∀ k, v.getLsbD k = ((t.get a).getLsbD k && (t.get b).getLsbD k)) ∧
  Gives (.or (.g d) (.g a) (.g b)) { maj := 5 } [a, b] 2 d (fun t v => ∀ k, v.getLsbD k = ((t.get a).getLsbD k || (t.get b).getLsbD k)) ∧
  Gives (.xor (.g d) (.g a) (.g b)) { maj := 5 } [a, b] 2 d (fun t v => ∀ k, v.getLsbD k = ((t.get a).getLsbD k != (t.get b).getLsbD k)) ∧
  Gives (.andn (.g d) (.g a) (.g b)) { maj := 5 } [a, b] 2 d (fun t v => ∀ k, k < 64 → v.getLsbD k = ((t.get a).getLsbD k && !(t.get b).getLsbD k)) ∧
  Gives (.min (.g d) (.g a) (.g b)) { maj := 5 } [a, b] 2 d (fun t v => v.toInt = min (t.get a).toInt (t.get b).toInt) ∧
  Gives (.max (.g d) (.g a) (.g b)) { maj := 5 } [a, b] 2 d (fun t v => v.toInt = max (t.get a).toInt (t.get b).toInt) ∧
  Gives (.minn (.g d) (.g a) (.g b)) { maj := 5 } [a, b] 2 d (fun t v => v.toNat = min (t.get a).toNat (t.get b).toNat) ∧
  Gives (.maxn (.g d) (.g a) (.g b)) { maj := 5 } [a, b] 2 d (fun t v => v.toNat = max (t.get a).toNat (t.get b).toNat) ∧
  Gives (.sh1add (.g d) (.g a) (.g b)) { maj := 5 } [a, b] 2 d (fun t v => v.toNat = ((t.get a).toNat + (t.get b).toNat * 2) % 2 ^ 64) ∧
  Gives (.sh2add (.g d) (.g a) (.g b)) { maj := 5 } [a, b] 2 d (fun t v => v.toNat = ((t.get a).toNat + (t.get b).toNat * 4) % 2 ^ 64) ∧
  Gives (.sh3add (.g d) (.g a) (.g b)) { maj := 5 } [a, b] 2 d (fun t v => v.toNat = ((t.get a).toNat + (t.get b).toNat * 8) % 2 ^ 64) ∧
  Gives (.sh4add (.g d) (.g a) (.g b)) { maj := 5 } [a, b] 2 d (fun t v => v.toNat = ((t.get a).toNat + (t.get b).toNat * 16) % 2 ^ 64)) ∧
  (∀ (d a : Fin 32) (x : Fin 1024) (n : Fin 64) (u : Fin 1048576),
  Gives (.addi (.g d) (.g a) x) { maj := 6 } [a] 2 d (fun t v => (v.toNat : Int) = ((t.get a).toNat + sint 10 x.val) % 2 ^ 64) ∧
  Gives (.andi (.g d) (.g a) x) { maj := 6 } [a] 2 d (fun t v => ∀ k, v.getLsbD k = ((t.get a).getLsbD k && (sextW 10 x.val).getLsbD k)) ∧
  Gives (.ori (.g d) (.g a) x) { maj := 6 } [a] 2 d (fun t v => ∀ k, v.getLsbD k = ((t.get a).getLsbD k || (sextW 10 x.val).getLsbD k)) ∧
  Gives (.slli (.g d) (.g a) n) { maj := 6 } [a] 2 d (fun t v => v.toNat = (t.get a).toNat * 2 ^ n.val % 2 ^ 64) ∧
  Gives (.srli (.g d) (.g a) n) { maj := 6 } [a] 2 d (fun t v => v.toNat = (t.get a).toNat / 2 ^ n.val) ∧
  Gives (.srai (.g d) (.g a) n) { maj := 6 } [a] 2 d (fun t v => v.toInt = (t.get a).toInt / 2 ^ n.val) ∧
  Gives (.rori (.g d) (.g a) n) { maj := 6 } [a] 2 d (fun t v => ∀ k, k < 64 → v.getLsbD k = (t.get a).getLsbD ((k + n.val) % 64)) ∧
  Gives (.lih d u) { maj := 7 } [] 2 d (fun _ v => (v.toNat : Int) = sint 20 u.val * 1024 % 2 ^ 64))

/-- Wherever SLL, SRL, SRA, ROR, CLZ, CTZ, POPC, SEQ, SNE, SLT, SGE, SLTN, SGEN, EXT_I8, EXT_I16, EXT_I32, EXT_N8, EXT_N16,
EXT_N32 or SEL issues on g registers, exec answers a next state in which gD holds the result of its row, the word has
retired, and nothing else has changed. SEL reads gD as its condition before it writes it. (R95, R96.) -/
def Obligations.ShiftCountCompare : Prop :=
  ∀ d a b : Fin 32,
  Gives (.sll (.g d) (.g a) (.g b)) { maj := 8 } [a, b] 2 d (fun t v => v.toNat = (t.get a).toNat * 2 ^ ((t.get b).toNat % 64) % 2 ^ 64) ∧
  Gives (.srl (.g d) (.g a) (.g b)) { maj := 8 } [a, b] 2 d (fun t v => v.toNat = (t.get a).toNat / 2 ^ ((t.get b).toNat % 64)) ∧
  Gives (.sra (.g d) (.g a) (.g b)) { maj := 8 } [a, b] 2 d (fun t v => v.toInt = (t.get a).toInt / 2 ^ ((t.get b).toNat % 64)) ∧
  Gives (.ror (.g d) (.g a) (.g b)) { maj := 8 } [a, b] 2 d (fun t v => ∀ k, k < 64 → v.getLsbD k = (t.get a).getLsbD ((k + (t.get b).toNat % 64) % 64)) ∧
  Gives (.clz (.g d) (.g a)) { maj := 8 } [a] 2 d (fun t v => v.toNat ≤ 64 ∧ (∀ k, k < v.toNat → (t.get a).getLsbD (63 - k) = false) ∧ (v.toNat < 64 → (t.get a).getLsbD (63 - v.toNat) = true)) ∧
  Gives (.ctz (.g d) (.g a)) { maj := 8 } [a] 2 d (fun t v => v.toNat ≤ 64 ∧ (∀ k, k < v.toNat → (t.get a).getLsbD k = false) ∧ (v.toNat < 64 → (t.get a).getLsbD v.toNat = true)) ∧
  Gives (.popc (.g d) (.g a)) { maj := 8 } [a] 2 d (fun t v => v.toNat = (List.range 64).countP fun k => (t.get a).getLsbD k) ∧
  Gives (.seq (.g d) (.g a) (.g b)) { maj := 8 } [a, b] 2 d (fun t v => v = if t.get a = t.get b then 1 else 0) ∧
  Gives (.sne (.g d) (.g a) (.g b)) { maj := 8 } [a, b] 2 d (fun t v => v = if t.get a = t.get b then 0 else 1) ∧
  Gives (.slt (.g d) (.g a) (.g b)) { maj := 8 } [a, b] 2 d (fun t v => v = if (t.get a).toInt < (t.get b).toInt then 1 else 0) ∧
  Gives (.sge (.g d) (.g a) (.g b)) { maj := 8 } [a, b] 2 d (fun t v => v = if (t.get b).toInt ≤ (t.get a).toInt then 1 else 0) ∧
  Gives (.sltn (.g d) (.g a) (.g b)) { maj := 8 } [a, b] 2 d (fun t v => v = if (t.get a).toNat < (t.get b).toNat then 1 else 0) ∧
  Gives (.sgen (.g d) (.g a) (.g b)) { maj := 8 } [a, b] 2 d (fun t v => v = if (t.get b).toNat ≤ (t.get a).toNat then 1 else 0) ∧
  Gives (.extI8 (.g d) (.g a)) { maj := 8 } [a] 2 d (fun t v => v.toInt = sint 8 (t.get a).toNat) ∧
  Gives (.extI16 (.g d) (.g a)) { maj := 8 } [a] 2 d (fun t v => v.toInt = sint 16 (t.get a).toNat) ∧
  Gives (.extI32 (.g d) (.g a)) { maj := 8 } [a] 2 d (fun t v => v.toInt = sint 32 (t.get a).toNat) ∧
  Gives (.extN8 (.g d) (.g a)) { maj := 8 } [a] 2 d (fun t v => v.toNat = (t.get a).toNat % 2 ^ 8) ∧
  Gives (.extN16 (.g d) (.g a)) { maj := 8 } [a] 2 d (fun t v => v.toNat = (t.get a).toNat % 2 ^ 16) ∧
  Gives (.extN32 (.g d) (.g a)) { maj := 8 } [a] 2 d (fun t v => v.toNat = (t.get a).toNat % 2 ^ 32) ∧
  Gives (.sel d (.g a) (.g b)) { maj := 8 } [d, a, b] 2 d (fun t v => v = if t.get d = 0 then t.get b else t.get a)

/-- Wherever MUL, MULH, MULHN, DIV, DIVN, REM or REMN issues on g registers, exec answers a next state in which gD holds the
product half, quotient or remainder, with the stated results of a zero divisor and of -2^63 by -1, the word has retired, and
nothing else has changed. (R97.) -/
def Obligations.MultiplyDivide : Prop :=
  ∀ d a b : Fin 32,
  Gives (.mul (.g d) (.g a) (.g b)) { maj := 9 } [a, b] 2 d (fun t v => v.toNat = (t.get a).toNat * (t.get b).toNat % 2 ^ 64) ∧
  Gives (.mulh (.g d) (.g a) (.g b)) { maj := 9 } [a, b] 2 d (fun t v => v.toInt = (t.get a).toInt * (t.get b).toInt / 2 ^ 64) ∧
  Gives (.mulhn (.g d) (.g a) (.g b)) { maj := 9 } [a, b] 2 d (fun t v => v.toNat = (t.get a).toNat * (t.get b).toNat / 2 ^ 64) ∧
  Gives (.div (.g d) (.g a) (.g b)) { maj := 9 } [a, b] 2 d (fun t v => v.toInt = if (t.get b).toInt = 0 then -1 else if (t.get a).toInt = -(2 ^ 63) ∧ (t.get b).toInt = -1 then -(2 ^ 63) else (t.get a).toInt.tdiv (t.get b).toInt) ∧
  Gives (.divn (.g d) (.g a) (.g b)) { maj := 9 } [a, b] 2 d (fun t v => v.toNat = if (t.get b).toNat = 0 then 2 ^ 64 - 1 else (t.get a).toNat / (t.get b).toNat) ∧
  Gives (.rem (.g d) (.g a) (.g b)) { maj := 9 } [a, b] 2 d (fun t v => v.toInt = if (t.get b).toInt = 0 then (t.get a).toInt else if (t.get a).toInt = -(2 ^ 63) ∧ (t.get b).toInt = -1 then 0 else (t.get a).toInt.tmod (t.get b).toInt) ∧
  Gives (.remn (.g d) (.g a) (.g b)) { maj := 9 } [a, b] 2 d (fun t v => v.toNat = if (t.get b).toNat = 0 then (t.get a).toNat else (t.get a).toNat % (t.get b).toNat)

/-- Wherever MOV_H16, LI_H16, ADDI_H16, ADD_H16, SUB_H16, AND_H16, OR_H16, XOR_H16, SLLI_H16, SRLI_H16, SRAI_H16 or MUL_H16
issues, exec answers a next state in which g holds the result of its 32-bit form, one halfword has retired, and nothing else
has changed. (R33.) -/
def Obligations.HalfwordForms : Prop :=
  ∀ (g b : Fin 32) (x : Fin 64),
  Gives (.movH16 g b) { maj := 5 } [b] 1 g (fun t v => v = t.get b) ∧
  Gives (.liH16 g x) { maj := 5 } [] 1 g (fun _ v => v.toInt = sint 6 x.val) ∧
  Gives (.addiH16 g x) { maj := 5 } [g] 1 g (fun t v => (v.toNat : Int) = ((t.get g).toNat + sint 6 x.val) % 2 ^ 64) ∧
  Gives (.addH16 g b) { maj := 5 } [g, b] 1 g (fun t v => v.toNat = ((t.get g).toNat + (t.get b).toNat) % 2 ^ 64) ∧
  Gives (.subH16 g b) { maj := 5 } [g, b] 1 g (fun t v => v.toNat = ((t.get g).toNat + 2 ^ 64 - (t.get b).toNat) % 2 ^ 64) ∧
  Gives (.andH16 g b) { maj := 5 } [g, b] 1 g (fun t v => ∀ k, v.getLsbD k = ((t.get g).getLsbD k && (t.get b).getLsbD k)) ∧
  Gives (.orH16 g b) { maj := 5 } [g, b] 1 g (fun t v => ∀ k, v.getLsbD k = ((t.get g).getLsbD k || (t.get b).getLsbD k)) ∧
  Gives (.xorH16 g b) { maj := 5 } [g, b] 1 g (fun t v => ∀ k, v.getLsbD k = ((t.get g).getLsbD k != (t.get b).getLsbD k)) ∧
  Gives (.mulH16 g b) { maj := 5 } [g, b] 1 g (fun t v => v.toNat = (t.get g).toNat * (t.get b).toNat % 2 ^ 64) ∧
  Gives (.slliH16 g x) { maj := 5 } [g] 1 g (fun t v => v.toNat = (t.get g).toNat * 2 ^ x.val % 2 ^ 64) ∧
  Gives (.srliH16 g x) { maj := 5 } [g] 1 g (fun t v => v.toNat = (t.get g).toNat / 2 ^ x.val) ∧
  Gives (.sraiH16 g x) { maj := 5 } [g] 1 g (fun t v => v.toInt = (t.get g).toInt / 2 ^ x.val)

/-- ADD, SUB, AND, OR, XOR, ANDN, MIN, MAX, MINN, MAXN, SH1ADD to SH4ADD, SLL, SRL, SEQ, SNE, SLT, SGE, SLTN, SGEN, MUL,
DIVN, REMN, EXT_N8, EXT_N16, EXT_N32, ANDI, ADDI, ORI, SLLI, SRLI, SRAI, RORI, SRA, ROR, CLZ, CTZ, POPC, EXT_I8, EXT_I16,
EXT_I32, MULH, MULHN, DIV and REM on any source and destination specs, and SEL on any sources: where the sources can be read
in the order A, B and the destination takes the result, the next state is that of the reads and the write, with the word
retired. (R34, R35, R92.) -/
def Obligations.ChannelOperands : Prop :=
  ∀ (d : Dst) (a b : Src) (x : Fin 1024) (n : Fin 64),
  Passes (.add d a b) 5 [a, b] d (op2 fun x y => x + y) ∧
  Passes (.sub d a b) 5 [a, b] d (op2 fun x y => x - y) ∧
  Passes (.and d a b) 5 [a, b] d (op2 fun x y => x &&& y) ∧
  Passes (.or d a b) 5 [a, b] d (op2 fun x y => x ||| y) ∧
  Passes (.xor d a b) 5 [a, b] d (op2 fun x y => x ^^^ y) ∧
  Passes (.andn d a b) 5 [a, b] d (op2 fun x y => x &&& ~~~y) ∧
  Passes (.min d a b) 5 [a, b] d (op2 fun x y => if x.toInt < y.toInt then x else y) ∧
  Passes (.max d a b) 5 [a, b] d (op2 fun x y => if x.toInt < y.toInt then y else x) ∧
  Passes (.minn d a b) 5 [a, b] d (op2 fun x y => if x < y then x else y) ∧
  Passes (.maxn d a b) 5 [a, b] d (op2 fun x y => if x < y then y else x) ∧
  Passes (.sh1add d a b) 5 [a, b] d (op2 fun x y => x + 2 * y) ∧
  Passes (.sh2add d a b) 5 [a, b] d (op2 fun x y => x + 4 * y) ∧
  Passes (.sh3add d a b) 5 [a, b] d (op2 fun x y => x + 8 * y) ∧
  Passes (.sh4add d a b) 5 [a, b] d (op2 fun x y => x + 16 * y) ∧
  Passes (.sll d a b) 8 [a, b] d (op2 fun x y => x <<< (y.toNat % 64)) ∧
  Passes (.srl d a b) 8 [a, b] d (op2 fun x y => x >>> (y.toNat % 64)) ∧
  Passes (.seq d a b) 8 [a, b] d (op2 fun x y => if x = y then 1 else 0) ∧
  Passes (.sne d a b) 8 [a, b] d (op2 fun x y => if x = y then 0 else 1) ∧
  Passes (.slt d a b) 8 [a, b] d (op2 fun x y => if x.toInt < y.toInt then 1 else 0) ∧
  Passes (.sge d a b) 8 [a, b] d (op2 fun x y => if x.toInt < y.toInt then 0 else 1) ∧
  Passes (.sltn d a b) 8 [a, b] d (op2 fun x y => if x < y then 1 else 0) ∧
  Passes (.sgen d a b) 8 [a, b] d (op2 fun x y => if x < y then 0 else 1) ∧
  Passes (.mul d a b) 9 [a, b] d (op2 fun x y => x * y) ∧
  Passes (.divn d a b) 9 [a, b] d (op2 fun x y => if y = 0 then -1 else x / y) ∧
  Passes (.remn d a b) 9 [a, b] d (op2 fun x y => if y = 0 then x else x % y) ∧
  Passes (.extN8 d a) 8 [a] d (op1 fun x => x &&& 0xFF) ∧
  Passes (.extN16 d a) 8 [a] d (op1 fun x => x &&& 0xFFFF) ∧
  Passes (.extN32 d a) 8 [a] d (op1 fun x => x &&& 0xFFFFFFFF) ∧
  Passes (.andi d a x) 6 [a] d (op1 fun y => y &&& sextW 10 x.val) ∧
  Passes (.addi d a x) 6 [a] d (op1 fun y => y + sextW 10 x.val) ∧
  Passes (.ori d a x) 6 [a] d (op1 fun y => y ||| sextW 10 x.val) ∧
  Passes (.slli d a n) 6 [a] d (op1 fun y => y <<< n.val) ∧
  Passes (.srli d a n) 6 [a] d (op1 fun y => y >>> n.val) ∧
  PassesBy (.srai d a n) 6 [a] d (by1 fun y v => v.toInt = y.toInt / 2 ^ n.val) ∧
  PassesBy (.rori d a n) 6 [a] d (by1 fun y v => ∀ k, k < 64 → v.getLsbD k = y.getLsbD ((k + n.val) % 64)) ∧
  PassesBy (.sra d a b) 8 [a, b] d (by2 fun y z v => v.toInt = y.toInt / 2 ^ (z.toNat % 64)) ∧
  PassesBy (.ror d a b) 8 [a, b] d (by2 fun y z v => ∀ k, k < 64 → v.getLsbD k = y.getLsbD ((k + z.toNat % 64) % 64)) ∧
  PassesBy (.clz d a) 8 [a] d (by1 fun y v => v.toNat ≤ 64 ∧ (∀ k, k < v.toNat → y.getLsbD (63 - k) = false) ∧
    (v.toNat < 64 → y.getLsbD (63 - v.toNat) = true)) ∧
  PassesBy (.ctz d a) 8 [a] d (by1 fun y v => v.toNat ≤ 64 ∧ (∀ k, k < v.toNat → y.getLsbD k = false) ∧
    (v.toNat < 64 → y.getLsbD v.toNat = true)) ∧
  PassesBy (.popc d a) 8 [a] d (by1 fun y v => v.toNat = (List.range 64).countP fun k => y.getLsbD k) ∧
  PassesBy (.extI8 d a) 8 [a] d (by1 fun y v => v.toInt = sint 8 y.toNat) ∧
  PassesBy (.extI16 d a) 8 [a] d (by1 fun y v => v.toInt = sint 16 y.toNat) ∧
  PassesBy (.extI32 d a) 8 [a] d (by1 fun y v => v.toInt = sint 32 y.toNat) ∧
  PassesBy (.mulh d a b) 9 [a, b] d (by2 fun y z v => v.toInt = y.toInt * z.toInt / 2 ^ 64) ∧
  PassesBy (.mulhn d a b) 9 [a, b] d (by2 fun y z v => v.toNat = y.toNat * z.toNat / 2 ^ 64) ∧
  PassesBy (.div d a b) 9 [a, b] d (by2 fun y z v => v.toInt = if z.toInt = 0 then -1
    else if y.toInt = -(2 ^ 63) ∧ z.toInt = -1 then -(2 ^ 63) else y.toInt.tdiv z.toInt) ∧
  PassesBy (.rem d a b) 9 [a, b] d (by2 fun y z v => v.toInt = if z.toInt = 0 then y.toInt
    else if y.toInt = -(2 ^ 63) ∧ z.toInt = -1 then 0 else y.toInt.tmod z.toInt) ∧
  ∀ (e : Fin 32) (s s1 : State) (y z : Word),
    s.Issues { maj := 8, chans := [a, b].flatMap srcChan } (e :: [a, b].flatMap srcRegs) → s.srcs [a, b] = .vals [y, z] s1 →
    exec (.sel e a b) s = .next (s1.upMe fun t => (t.put e (if s.me.get e = 0 then z else y)).retire 2)

/-- ADD with a channel as source A: with a ready value at the head of an own ring it uses that value, a pop removing it and
a peek not; on an empty open ring it blocks with WHY 2, on an empty closed ring it raises CHAN 0x300 + i, on an EOS head
0x200 + i, on a link 0x100 + i, each with nothing else changed; while an acquire is open it waits with WHY 10. ADD with an
own ring as destination: the sum is appended at the tail, its eight bytes written at the ring base plus eight times the
tail, no other channel and no byte of device memory changing; a producer that the ring refuses raises CHAN 0x400 + i; a full
ring blocks with WHY 1, and an open release with WHY 10. (R34, R35, R133, R134, R296, R297, R298.) -/
def Obligations.ChannelAccess : Prop :=
  ((∀ (s : State) (d i b : Fin 32) (e : ChEnt) (t : List ChEnt),
    s.Issues { maj := 5, chans := [i.val] } [b] → s.acqOpen s.cc s.cr = false → (s.myCore.chans[i]).link = false → (s.myCore.chans[i]).ring = e :: t →
    e.eos = none → e.pend = none →
    (∃ v : Word, v = word (s.myCore.pool.nat ((s.myCore.chans[i]).base + 8 * e.pos) 8) + s.me.get b ∧
      exec (.add (.g d) (.peek i) (.g b)) s = .next (s.upMe fun x => (x.put d v).retire 2) ∧
      exec (.add (.g d) (.pop i) (.g b)) s =
        .next ((s.upMyCore fun k => k.setChan i { k.chans[i] with ring := t }).upMe fun x => (x.put d v).retire 2))) ∧
  (∀ (s : State) (d i b : Fin 32), s.Issues { maj := 5, chans := [i.val] } [b] → s.acqOpen s.cc s.cr = false → (s.myCore.chans[i]).link = false →
    (s.myCore.chans[i]).ring = [] →
    exec (.add (.g d) (.pop i) (.g b)) s =
      if (s.myCore.chans[i]).closed then s.trap cCHAN (0x300 + i.val) else .next (s.upMe fun x => { x with why := 2, obj := i.val })) ∧
  (∀ (s : State) (d i b : Fin 32) (e : ChEnt) (t : List ChEnt) (p : Nat),
    s.Issues { maj := 5, chans := [i.val] } [b] → s.acqOpen s.cc s.cr = false → (s.myCore.chans[i]).link = false → (s.myCore.chans[i]).ring = e :: t →
    e.eos = some p → exec (.add (.g d) (.pop i) (.g b)) s = s.trap cCHAN (0x200 + i.val)) ∧
  (∀ (s : State) (d i b : Fin 32), s.Issues { maj := 5, chans := [i.val] } [b] → s.acqOpen s.cc s.cr = false → (s.myCore.chans[i]).link = true →
    exec (.add (.g d) (.pop i) (.g b)) s = s.trap cCHAN (0x100 + i.val)) ∧
  (∀ (s : State) (d i b : Fin 32), s.Issues { maj := 5, chans := [i.val] } [b] → s.acqOpen s.cc s.cr = true →
    exec (.add (.g d) (.pop i) (.g b)) s = s.block 10 0 ∧ exec (.add (.g d) (.peek i) (.g b)) s = s.block 10 0)) ∧
  ((∀ (s : State) (i a b : Fin 32), s.Issues { maj := 5, chans := [i.val] } [a, b] → s.relOpen s.cc s.cr = false → (s.myCore.chans[i]).link = false →
    (s.myCore.chans[i]).refuses (pidOf s.myCore s.cr) = false → (s.myCore.chans[i]).full = false →
    ∃ s', exec (.add (.ch i) (.g a) (.g b)) s = .next s' ∧
      s'.me = s.me.retire 2 ∧ s'.mem = s.mem ∧
      s'.myCore.pool = s.myCore.pool.write ((s.myCore.chans[i]).base + 8 * (s.myCore.chans[i]).tail)
        (leBytes 8 (s.me.get a + s.me.get b).toNat) ∧
      (s'.myCore.chans[i]).ring = (s.myCore.chans[i]).ring ++ [{ pos := (s.myCore.chans[i]).tail, eos := none, pend := none }] ∧
      (s'.myCore.chans[i]).tail = ((s.myCore.chans[i]).tail + 1) % 2 ^ (s.myCore.chans[i]).capl ∧
      ∀ j : Fin 32, j ≠ i → s'.myCore.chans[j] = s.myCore.chans[j]) ∧
  (∀ (s : State) (i a b : Fin 32), s.Issues { maj := 5, chans := [i.val] } [a, b] → s.relOpen s.cc s.cr = false → (s.myCore.chans[i]).link = false →
    (s.myCore.chans[i]).refuses (pidOf s.myCore s.cr) = true →
    exec (.add (.ch i) (.g a) (.g b)) s = s.trap cCHAN (0x400 + i.val)) ∧
  (∀ (s : State) (i a b : Fin 32), s.Issues { maj := 5, chans := [i.val] } [a, b] → s.relOpen s.cc s.cr = false → (s.myCore.chans[i]).link = false →
    (s.myCore.chans[i]).refuses (pidOf s.myCore s.cr) = false → (s.myCore.chans[i]).full = true →
    exec (.add (.ch i) (.g a) (.g b)) s = .next (s.upMe fun x => { x with why := 1, obj := i.val })) ∧
  (∀ (s : State) (i a b : Fin 32), s.Issues { maj := 5, chans := [i.val] } [a, b] → s.relOpen s.cc s.cr = true →
    exec (.add (.ch i) (.g a) (.g b)) s = s.block 10 0))

/-- JMP, CALL and the conditional branch go to P + 2 x OFF modulo 2^64; CALL and CALLR put the header after the calling
block into g31; RET, JR and CALLR go to their register, read before g31 is written, and an odd one raises BTGT 0x03, TRAPA
the word and TRAPPC the target, with no effect; a branch whose condition fails, NOP and NOP_H16 only retire. A transfer ends
the block with a pending fetch of the target and changes nothing else. (R32, R41, R42, R85, R86, R88, R89, R90.) -/
def Obligations.ControlTransfers : Prop :=
  ∀ (s : State) (o : Fin 33554432) (c : Fin 8) (p : Fin 4096) (a b : Fin 32),
  (s.Issues { maj := 1 } [] → ∃ x : Nat, (x : Int) = (s.me.pc + 2 * sint 25 o.val) % 2 ^ 64 ∧
    exec (.jmp o) s = .next (s.upMe fun t => t.transfer x t.pc .jump)) ∧
  (s.Issues { maj := 2 } [] → ∃ x : Nat, (x : Int) = (s.me.pc + 2 * sint 25 o.val) % 2 ^ 64 ∧
    exec (.call o) s = .next (s.upMe fun t => (t.put 31 (word t.nextHdr)).transfer x t.pc .call)) ∧
  (s.Issues { maj := 3 } [a, b] → c.val < 6 → ∃ x : Nat, (x : Int) = (s.me.pc + 2 * sint 12 p.val) % 2 ^ 64 ∧
    exec (.conditionalBranch c a b p) s = .next (s.upMe fun t =>
      if (c.val = 0 ∧ t.get a = t.get b) ∨ (c.val = 1 ∧ t.get a ≠ t.get b) ∨ (c.val = 2 ∧ (t.get a).toInt < (t.get b).toInt) ∨
        (c.val = 3 ∧ (t.get b).toInt ≤ (t.get a).toInt) ∨ (c.val = 4 ∧ (t.get a).toNat < (t.get b).toNat) ∨
        (c.val = 5 ∧ (t.get b).toNat ≤ (t.get a).toNat)
      then t.transfer x t.pc .jump else t.retire 2)) ∧
  (s.Issues { maj := 4 } [31] → exec .ret s =
    if (s.me.get 31).toNat % 2 = 1 then
      .next (s.trapAt s.cc s.cr { s.me.faultHere cBTGT 3 0 0 with trappc := (s.me.get 31).toNat }) else .next (s.upMe fun t => t.transfer (t.get 31).toNat t.pc .jump)) ∧
  (s.Issues { maj := 4 } [a] → exec (.jr a) s =
    if (s.me.get a).toNat % 2 = 1 then
      .next (s.trapAt s.cc s.cr { s.me.faultHere cBTGT 3 0 0 with trappc := (s.me.get a).toNat }) else .next (s.upMe fun t => t.transfer (t.get a).toNat t.pc .jump)) ∧
  (s.Issues { maj := 4 } [a] → exec (.callr a) s =
    if (s.me.get a).toNat % 2 = 1 then
      .next (s.trapAt s.cc s.cr { s.me.faultHere cBTGT 3 0 0 with trappc := (s.me.get a).toNat })
    else .next (s.upMe fun t => (t.put 31 (word t.nextHdr)).transfer (t.get a).toNat t.pc .call)) ∧
  (s.Issues { maj := 4 } [] → s.Retires .nop 2 id) ∧ (s.Issues { maj := 5 } [] → s.Retires .nopH16 1 id)

/-- CSRR of a register marked PRIV raises PRIV outside T, before its operands or the safe-point count are looked at. Any
other CSRR that issues (of FPCR once the floating instructions of the thread are complete) puts the value of that register,
by its number, into gD, retires, and changes nothing else. CSRW to a PRIV register outside T raises PRIV. Otherwise it
retires: RNGSEED and RNGCTR take 32 bits; FPCR takes its fields, keeps RM for a written 6 or 7, and its reserved bits stay
0; BND*, L1GEN, team, context, task, WSR and FEATCAP ignore it, as do FEATACK1 to 3; T writes the 10 bits of TRAPC, TRAPA,
TRAPPC (which TRET then resumes at) and the 32 bits of TRAPW; FEATACK0 changes only while FEATLOCK is 0 and keeps BASE set;
FEATLOCK only ever sets. (R66, R68, R99, R100, R101, R102, R397, R430.) -/
def Obligations.CsrWords : Prop :=
  (∀ (s : State) (d : Fin 32) (n : Fin 128),
  (s.gateFault { maj := 4 } = none → csrPrivR n.val = true → s.cr ≠ .T → exec (.csrr d n) s = s.trap cPRIV 0) ∧
  (s.Issues { maj := 4 } [] → csrPrivR n.val = false ∨ s.cr = .T → (n.val = 0 → s.myCore.vq.any (fun e => e.role == s.cr && floatOp e.op) = false) →
    ∃ v, s.Retires (.csrr d n) 2 (fun t => t.put d v) ∧
      (n.val = 0x00 → v = s.me.fpcr) ∧ (n.val = 0x01 → v.toNat = s.me.rngseed.toNat) ∧ (n.val = 0x02 → v.toNat = s.me.rngctr.toNat) ∧
      (n.val = 0x08 → v = word (s.myCore.bndv * 65536)) ∧ (n.val = 0x09 → v = word (s.myCore.bnds * 65536)) ∧
      (n.val = 0x0A → v = word (s.myCore.bndc * 65536)) ∧ (n.val = 0x0B → v = word s.myCore.l1gen) ∧
      (n.val = 0x10 → v = word s.myCore.teamix) ∧ (n.val = 0x11 → v = word s.myCore.teamsz) ∧ (n.val = 0x12 → v.toNat = s.cc.val) ∧
      (n.val = 0x13 → s.myCore.ctx = none → v = 0x8000000000000000) ∧ (∀ i, n.val = 0x13 → s.myCore.ctx = some i → v = word i) ∧
      (n.val = 0x14 → v = word s.myCore.taskid) ∧ (n.val = 0x18 → v = word s.myCore.wsr) ∧ (n.val = 0x20 → v = s.myCore.trapc) ∧
      (n.val = 0x21 → v = s.myCore.trapa) ∧ (n.val = 0x22 → v = s.myCore.trappc) ∧ (n.val = 0x23 → v = s.myCore.trapw) ∧
      (n.val = 0x30 → v = 0x7FFF) ∧ (n.val = 0x31 ∨ n.val = 0x32 ∨ n.val = 0x33 → v = 0) ∧ (n.val = 0x34 → v = s.featack) ∧
      (n.val = 0x35 ∨ n.val = 0x36 ∨ n.val = 0x37 → v = 0) ∧ (n.val = 0x38 → v.toNat = if s.featlock then 1 else 0))) ∧
  (∀ (s : State) (a : Fin 32) (n : Fin 128),
  (s.gateFault { maj := 4 } = none → csrPrivW n.val = true → s.cr ≠ .T → exec (.csrw a n) s = s.trap cPRIV 0) ∧
  (s.Issues { maj := 4 } [a] → csrPrivW n.val = false ∨ s.cr = .T →
    (n.val = 0x01 → s.Retires (.csrw a n) 2 fun t => { t with rngseed := (t.get a).setWidth 32 }) ∧
    (n.val = 0x02 → s.Retires (.csrw a n) 2 fun t => { t with rngctr := (t.get a).setWidth 32 }) ∧
    (n.val = 0x00 → ∃ w : Word, s.Retires (.csrw a n) 2 (fun t => { t with fpcr := w }) ∧
      (∀ k, (k < 5 ∨ k = 10 ∨ k = 11 ∨ k = 12) → w.getLsbD k = (s.me.get a).getLsbD k) ∧
      (∀ k, 13 ≤ k ∨ k = 8 ∨ k = 9 → w.getLsbD k = false) ∧
      bits w.toNat 5 3 = if 6 ≤ bits (s.me.get a).toNat 5 3 then bits s.me.fpcr.toNat 5 3 else bits (s.me.get a).toNat 5 3) ∧
    (0x08 ≤ n.val ∧ n.val ≤ 0x18 ∨ 0x30 ≤ n.val ∧ n.val ≤ 0x33 ∨ 0x35 ≤ n.val ∧ n.val ≤ 0x37 → s.Retires (.csrw a n) 2 id) ∧
    (n.val = 0x20 → exec (.csrw a n) s = .next ((s.upMyCore fun k => { k with trapc := word (bits (s.me.get a).toNat 0 10) }).upMe fun t => t.retire 2)) ∧
    (n.val = 0x21 → exec (.csrw a n) s = .next ((s.upMyCore fun k => { k with trapa := s.me.get a }).upMe fun t => t.retire 2)) ∧
    (n.val = 0x23 → exec (.csrw a n) s = .next ((s.upMyCore fun k => { k with trapw := word (bits (s.me.get a).toNat 0 32) }).upMe fun t => t.retire 2)) ∧
    (n.val = 0x22 → exec (.csrw a n) s = .next ((s.upMyCore fun k => { k with trappc := s.me.get a, tpcw := true }).upMe fun t => t.retire 2)) ∧
    (n.val = 0x34 → exec (.csrw a n) s = .next ((if s.featlock then s else { s with featack := s.me.get a &&& 0x7FFE ||| 1 }).upMe fun t => t.retire 2)) ∧
    (n.val = 0x38 → exec (.csrw a n) s = .next ((if (s.me.get a).getLsbD 0 then { s with featlock := true } else s).upMe fun t => t.retire 2))))

/-- Where TRAP or BRK issues in L, C or S, every earlier word of the thread is complete (results, loads, stores and vector
work), T is free and the trap is not one for the host, exec answers the state in which T serves the thread: TRAPC holds
cause and thread, TRAPA the word, TRAPPC the word that would have issued next (after a last word the first word of the next
block), TRAPW the code, T fetches TVEC with g1 the frame and g2 the matrix image, the thread waits with WHY 12. Only the 64
frame bytes of the pool change; device memory, system registers and other cores do not. (R44, R49, R84, R91, R394, R395,
R397, R399, R412.) -/
def Obligations.SoftwareTraps : Prop :=
  ∀ (s : State) (code : Fin 1048576) (bc : Fin 16384) (c d : Nat) (i : Instr),
  ((i = .trap code ∧ c = cSYS ∧ d = code.val ∧ s.Issues { maj := 52 } []) ∨
   (i = .brk bc ∧ c = cBRK ∧ d = bc.val ∧ s.Issues { maj := 4 } [])) →
  s.cr ≠ .T → s.me.status = .running → s.quiescent s.cc s.cr = true →
  s.myCore.served = none → s.posting s.cc = false → toHost s.myCore.view c = false →
  ∃ s', exec i s = .next s' ∧
    (s'.core s.cc).served = some s.cr ∧
    (s'.core s.cc).trapc = word (c + 256 * (rix s.cr).val) ∧ (s'.core s.cc).trapa = word s.me.pc ∧
    (s'.core s.cc).trapw = word d ∧
    (s'.core s.cc).trappc = word (match (s.me.retire 2).fetch with | some f => f.target + 4 | none => (s.me.retire 2).pc) ∧
    (s'.thr s.cc .T).status = .running ∧
    (s'.thr s.cc .T).fetch = some { target := s.myCore.view.tvec, src := s.myCore.view.tvec, kind := .entry } ∧
    (s'.thr s.cc .T).get 1 = word (0x00FF000000781000 + 64 * (rix s.cr).val) ∧
    (s'.thr s.cc .T).get 2 = word (s.myCore.view.mimg + 0x200000 * s.cc.val) ∧
    (∀ j : Fin 32, j ≠ 1 → j ≠ 2 → (s'.thr s.cc .T).get j = (s.thr s.cc .T).get j) ∧
    (s'.thr s.cc s.cr).g = s.me.g ∧ (s'.thr s.cc s.cr).why = 12 ∧
    (∀ x, x < 0x781000 + 64 * (rix s.cr).val ∨ 0x781000 + 64 * (rix s.cr).val + 64 ≤ x →
      (s'.core s.cc).pool.get x = s.myCore.pool.get x) ∧
    s'.mem = s.mem ∧ s'.sys = s.sys ∧ ∀ m : Fin 64, m ≠ s.cc → s'.core m = s.core m

/-- Where TRET issues in T while T serves thread r, no image is parked and T has not written TRAPPC: T is idle, nothing is
served, the matrix engine thaws, and r runs again with its registers as they were, refetching its block at the word where it
stopped (or with the fetch that was pending). Memory, the pool, system registers and other cores stay. (R44, R255, R413.) -/
def Obligations.TrapReturn : Prop :=
  ∀ (s : State) (r : Role), s.Issues { maj := 52, priv := true } [] → s.cr = .T → r ≠ .T → s.myCore.served = some r →
  s.myCore.mx.parked = false → s.myCore.tpcw = false →
  ∃ s', exec .tret s = .next s' ∧ (s'.core s.cc).served = none ∧ (s'.core s.cc).mx.frozen = false ∧
    (s'.thr s.cc .T).status = .idle ∧ (s'.thr s.cc .T).g = s.me.g ∧
    (s'.thr s.cc r).status = .running ∧ (s'.thr s.cc r).trap = none ∧ (s'.thr s.cc r).why = 0 ∧
    (s'.thr s.cc r).g = (s.thr s.cc r).g ∧ (s'.thr s.cc r).fpcr = (s.thr s.cc r).fpcr ∧
    ((s.thr s.cc r).fetch = none → (s'.thr s.cc r).fetch =
      some ⟨(s.thr s.cc r).hdr, (s.thr s.cc r).hdr, .resume (s.thr s.cc r).reps (s.thr s.cc r).wpos⟩) ∧
    (∀ f, (s.thr s.cc r).fetch = some f → (s'.thr s.cc r).fetch = some f) ∧
    s'.mem = s.mem ∧ (s'.core s.cc).pool = s.myCore.pool ∧ s'.sys = s.sys ∧ ∀ m : Fin 64, m ≠ s.cc → s'.core m = s.core m

/-- A pending fetch waits for an open acquire of its thread; one that finds its block puts it into the loop buffer: a
transfer or fall-through starts at the first word with the repeat count of the header or of its register, read once, and an
entry header restarts the safe-point count; a resume goes on with the saved repeats and word. A BUSY leaf blocks with WHY
13, a stopped link holds it, a full miss table lets it wait in the order of R177, and an odd target that no buffer holds
raises BTGT 0x03 with TRAPA the transferring word. No register and no memory changes. (R38, R39, R41, R42, R43, R44, R134,
R164, R177.) -/
def Obligations.BlockFetch : Prop :=
  ∀ (s : State) (c : Fin 64) (r : Role) (f : Fetch), (s.thr c r).fetch = some f → (s.thr c r).status = .running → (s.thr c r).trap = none →
  (s.acqOpen c r = true → exec (.blockFetch c r) s = .next s) ∧ (s.acqOpen c r = false →
  (∀ b : Blk, s.findBlock c r (s.thr c r) f = .ok b → (∀ n w, f.kind ≠ .resume n w) →
    (bits b.head.toNat 17 1 = 1 → (s.thr c r).ready (Fin.ofNat 32 (bits b.head.toNat 18 5)) = true) →
    ∃ s', exec (.blockFetch c r) s = .next s' ∧ (s'.thr c r).blk = some b ∧ (s'.thr c r).hdr = b.hdr ∧ (s'.thr c r).wpos = 0 ∧
      (s'.thr c r).fetch = none ∧ (s'.thr c r).g = (s.thr c r).g ∧
      (s'.thr c r).reps = (if bits b.head.toNat 17 1 = 1 then ((s.thr c r).get (Fin.ofNat 32 (bits b.head.toNat 18 5))).toNat
        else bits b.head.toNat 18 12) ∧
      (bits b.head.toNat 30 2 = 1 → r ≠ .T → (s'.thr c r).scnt = 0) ∧ s'.mem = s.mem ∧ s'.sys = s.sys) ∧
  (∀ (b : Blk) (n w : Nat), s.findBlock c r (s.thr c r) f = .ok b → f.kind = .resume n w →
    ∃ s', exec (.blockFetch c r) s = .next s' ∧ (s'.thr c r).blk = some b ∧ (s'.thr c r).reps = n ∧ (s'.thr c r).wpos = w ∧
      (s'.thr c r).fetch = none ∧ (s'.thr c r).g = (s.thr c r).g ∧ s'.mem = s.mem) ∧
  (s.findBlock c r (s.thr c r) f = .busy → exec (.blockFetch c r) s = .next (s.upThr c r fun t => { t with why := 13, obj := 0 })) ∧
  (s.findBlock c r (s.thr c r) f = .held → exec (.blockFetch c r) s = .next s) ∧
  (s.findBlock c r (s.thr c r) f = .miss → exec (.blockFetch c r) s = .next (s.upCore c fun k => k.awaitWalk (.fetch r))) ∧
  (f.target % 2 = 1 → (s.thr c r).holds f = none → exec (.blockFetch c r) s = .next (s.trapAt c r
    { (s.thr c r).faultHere cBTGT 3 0 0 with trapa := f.src, trappc := f.target })))

/-- A scalar load that issues with no acquire open: from an aligned, clean own-pool scratchpad address it puts the
little-endian value that the thread sees there, extended as its name says, into gD and retires with nothing else changed,
or, served later, adds a request that gD waits for; from a device address that passes its checks it does the same with the
bytes of a line that the L1 hits, or adds one request for gD to the request table, gD then waiting for it; no byte of memory
changes. With channels as base and destination, from any site (the own pool, a peer window, device memory) and with a value
at the source and room at the destination, the same: the source is read once, and the destination takes the value or waits
for the request. (R34, R35, R82, R106, R110, R114, R116, R127, R132, R140.) -/
def Obligations.ScalarLoads : Prop :=
  LoadRule (fun d a o => .ldN8 (.g d) (.g a) o) 1 false ∧ LoadRule (fun d a o => .ldI8 (.g d) (.g a) o) 1 true ∧
  LoadRule (fun d a o => .ldN16 (.g d) (.g a) o) 2 false ∧ LoadRule (fun d a o => .ldI16 (.g d) (.g a) o) 2 true ∧
  LoadRule (fun d a o => .ldN32 (.g d) (.g a) o) 4 false ∧ LoadRule (fun d a o => .ldI32 (.g d) (.g a) o) 4 true ∧
  LoadRule (fun d a o => .ld64 (.g d) (.g a) o) 8 false ∧
  LoadPasses .ldN8 1 false ∧ LoadPasses .ldI8 1 true ∧ LoadPasses .ldN16 2 false ∧ LoadPasses .ldI16 2 true ∧
  LoadPasses .ldN32 4 false ∧ LoadPasses .ldI32 4 true ∧ LoadPasses .ld64 8 false

/-- A scalar store that issues past releases and acquires, whose site passes its checks and meets no lock (and finds room
when it is in device memory), appends one store of the low bytes of gD at that site to the buffer of its thread and retires:
the pool, device memory, g registers and every other core stay as they were. With a channel as its base, the base is read
once and the same holds of the state after that read. (R34, R35, R117, R127, R133, R242.) -/
def Obligations.ScalarStores : Prop :=
  StoreRule (fun d a o => .st8 d (.g a) o) 1 ∧ StoreRule (fun d a o => .st16 d (.g a) o) 2 ∧
  StoreRule (fun d a o => .st32 d (.g a) o) 4 ∧ StoreRule (fun d a o => .st64 d (.g a) o) 8 ∧
  StorePasses .st8 1 ∧ StorePasses .st16 2 ∧ StorePasses .st32 4 ∧ StorePasses .st64 8

/-- A buffered store that is not behind an earlier store or read of its thread to one of its bytes through its kind of
mapping, nor a lock that its whole write meets, and in device memory within reach, leaves the buffer and its bytes are
written: a pool store to that pool, a device store to memory. No other pool and no register of any thread changes. The event
numbered 65,536 higher is the core seeing a cached store that hits its L1 in every line before memory has it (R110, R140):
the L1 takes the bytes and the store stays buffered, marked; of any other store it changes nothing. (R110, R117, R132, R133,
R140, R242.) -/
def Obligations.StorePerformed : Prop :=
  ∀ (s : State) (c : Fin 64) (r : Role) (i : Nat) (st : Store), (s.thr c r).stores[i]? = some st →
  (((s.thr c r).stores.take i).any fun x => x.pool == st.pool && x.ms == st.ms && x.bytes.any fun e => st.bytes.any fun f => e.1 == f.1) = false →
  ((s.core c).reqs.any fun q => q.role == r && q.isRead && decide (q.id < st.id) && st.bytes.any fun e => q.touches st.pool st.ms e.1 1) = false →
  s.storeLocked c r st = false → i < 65536 → (s.core c).seenBefore st = false →
  (∀ m : Fin 64, st.pool = some m →
    ∃ s', exec (.storePerformed c r i) s = .next s' ∧ (s'.thr c r).stores = (s.thr c r).stores.eraseIdx i ∧
      (s'.core m).pool = (s.core m).pool.writeCells st.bytes ∧ s'.mem = s.mem ∧ (∀ (k : Fin 64) (q : Role), (s'.thr k q).g = (s.thr k q).g) ∧
      ∀ k : Fin 64, k ≠ m → (s'.core k).pool = (s.core k).pool) ∧
  (st.pool = none → s.lost (dieOf c) st.addr = none → s.tripHeld c st.addr = false →
    ∃ s', exec (.storePerformed c r i) s = .next s' ∧ (s'.thr c r).stores = (s.thr c r).stores.eraseIdx i ∧
      s'.mem = s.mem.writeCells st.bytes ∧ (∀ (k : Fin 64) (q : Role), (s'.thr k q).g = (s.thr k q).g) ∧
      ∀ k : Fin 64, (s'.core k).pool = (s.core k).pool) ∧
  (st.pool = none → s.tripHeld c st.addr = false →
    ∃ s', exec (.storePerformed c r (65536 + i)) s = .next s' ∧ s'.mem = s.mem ∧
      (∀ (k : Fin 64) (q : Role), (s'.thr k q).g = (s.thr k q).g) ∧ (∀ k : Fin 64, (s'.core k).pool = (s.core k).pool) ∧
      (st.ms = false → st.seen = none → (∀ e ∈ st.bytes, ((s.core c).l1hit (e.1 / 64)).isSome = true) →
        (s'.core c).l1 = ((s.core c).l1store st.bytes).l1 ∧ (s'.thr c r).stores = (s.thr c r).stores.map fun x =>
          if x.id = st.id then { x with seen := some s.nextOp } else x) ∧
      (st.ms = true ∨ st.seen ≠ none ∨ (∃ e ∈ st.bytes, (s.core c).l1hit (e.1 / 64) = none) → s' = s))

/-- A vector load that issues, whose active lanes all have aligned, clean addresses in its own pool, retires with each
active lane of vd holding the four bytes at its address (base plus 4 times the lane; rows at a stride; base plus a signed
index lane; one row for all), as the thread sees them. Inactive lanes, every other byte of the pool and device memory are
unchanged. With addresses that pass their checks in any kind of memory (the own pool, peer windows, device memory): each
active lane at hand takes its bytes, and each other one is left for a new request of its place. (R106, R109, R118, R119,
R192.) -/
def Obligations.VectorLoads : Prop :=
  (∀ (g : Guard) (d : Fin 64) (b : Fin 32) (s : State), VloadRule s (.vld g d b) { maj := 12, vregs := d.val + 1 } [b] g d.val [] fun l =>
    ((s.me.get b).toNat + 4 * l) % 2 ^ 64) ∧
  (∀ (g : Guard) (d : Fin 64) (st b : Fin 32) (s : State), VloadRule s (.vldS g d st b) { maj := 12, vregs := d.val + 1 } [b, st] g d.val [] fun l =>
    ((s.me.get b).toNat + l / 64 * (s.me.get st).toNat + 4 * (l % 64)) % 2 ^ 64) ∧
  (∀ (g : Guard) (d vi : Fin 64) (b : Fin 32) (s : State),
    VloadRule s (.vldG g d vi b) { maj := 12, vregs := max (d.val + 1) (vi.val + 1) } [b] g d.val [vi.val] fun l =>
      ((((s.me.get b).toNat : Int) + sint 32 (s.myCore.lane vi.val l)) % 2 ^ 64).toNat) ∧
  (∀ (g : Guard) (d : Fin 64) (b : Fin 32) (s : State), VloadRule s (.vldB g d b) { maj := 12, vregs := d.val + 1 } [b] g d.val [] fun l =>
    ((s.me.get b).toNat + 4 * (l % 64)) % 2 ^ 64) ∧
  (∀ (g : Guard) (d vi : Fin 64) (st b : Fin 32) (s : State),
    VloadSites s (.vld g d b) { maj := 12, vregs := d.val + 1 } [b] g d.val [] (fun l => ((s.me.get b).toNat + 4 * l) % 2 ^ 64) ∧
    VloadSites s (.vldS g d st b) { maj := 12, vregs := d.val + 1 } [b, st] g d.val [] (fun l =>
      ((s.me.get b).toNat + l / 64 * (s.me.get st).toNat + 4 * (l % 64)) % 2 ^ 64) ∧
    VloadSites s (.vldG g d vi b) { maj := 12, vregs := max (d.val + 1) (vi.val + 1) } [b] g d.val [vi.val] (fun l =>
      ((((s.me.get b).toNat : Int) + sint 32 (s.myCore.lane vi.val l)) % 2 ^ 64).toNat) ∧
    VloadSites s (.vldB g d b) { maj := 12, vregs := d.val + 1 } [b] g d.val [] (fun l => ((s.me.get b).toNat + 4 * (l % 64)) % 2 ^ 64))

/-- A vector store that issues, whose active lanes all have aligned addresses in its own pool that it may write and no lock
covers, retires having appended stores whose bytes are exactly those of its active lanes at their addresses; the pool and
device memory are unchanged until they are performed. With addresses in any kind of memory that pass their checks and meet
no lock, the same, each byte in a store to its own pool or memory. (R106, R109, R117, R118, R119, R242.) -/
def Obligations.VectorStores : Prop :=
  (∀ (g : Guard) (d : Fin 64) (b : Fin 32) (s : State), VstoreRule s (.vst g d b) { maj := 12, vregs := d.val + 1 } [b] g d.val [] fun l =>
    ((s.me.get b).toNat + 4 * l) % 2 ^ 64) ∧
  (∀ (g : Guard) (d : Fin 64) (st b : Fin 32) (s : State), VstoreRule s (.vstS g d st b) { maj := 12, vregs := d.val + 1 } [b, st] g d.val [] fun l =>
    ((s.me.get b).toNat + l / 64 * (s.me.get st).toNat + 4 * (l % 64)) % 2 ^ 64) ∧
  (∀ (g : Guard) (d vi : Fin 64) (b : Fin 32) (s : State),
    VstoreRule s (.vstX g d vi b) { maj := 12, vregs := max (d.val + 1) (vi.val + 1) } [b] g d.val [vi.val] fun l =>
      ((((s.me.get b).toNat : Int) + sint 32 (s.myCore.lane vi.val l)) % 2 ^ 64).toNat) ∧
  (∀ (g : Guard) (d vi : Fin 64) (st b : Fin 32) (s : State),
    VstoreSites s (.vst g d b) { maj := 12, vregs := d.val + 1 } [b] g d.val [] (fun l => ((s.me.get b).toNat + 4 * l) % 2 ^ 64) ∧
    VstoreSites s (.vstS g d st b) { maj := 12, vregs := d.val + 1 } [b, st] g d.val [] (fun l =>
      ((s.me.get b).toNat + l / 64 * (s.me.get st).toNat + 4 * (l % 64)) % 2 ^ 64) ∧
    VstoreSites s (.vstX g d vi b) { maj := 12, vregs := max (d.val + 1) (vi.val + 1) } [b] g d.val [vi.val] (fun l =>
      ((((s.me.get b).toNat : Int) + sint 32 (s.myCore.lane vi.val l)) % 2 ^ 64).toNat))

/-- AADD, AAND, AOR, AXOR, AMIN_I, AMIN_N, AMAX_I, AMAX_N, SWAP, CAS_64, CAS_128 and their _MS forms, in both widths: where
the form issues, its address is aligned device memory that passes the checks (memory-side forms on memory-side pages, the
others on other pages), a release it asks for is complete and the request table has room, exec answers a next state with one
request for its operation, operands and order added and gD (the pair for CAS_128) waiting for it. Nothing in memory changes
yet. (R114, R120, R121, R122, R123, R133.) -/
def Obligations.AtomicsIssue : Prop :=
  AtomicRule 13 (fun n a b d o c => .aadd n a b d o c) 0 ∧
  AtomicRule 13 (fun n a b d o c => .aand n a b d o c) 2 ∧
  AtomicRule 13 (fun n a b d o c => .aor n a b d o c) 4 ∧
  AtomicRule 13 (fun n a b d o c => .axor n a b d o c) 6 ∧
  AtomicRule 13 (fun n a b d o c => .aminI n a b d o c) 8 ∧
  AtomicRule 13 (fun n a b d o c => .aminN n a b d o c) 10 ∧
  AtomicRule 13 (fun n a b d o c => .amaxI n a b d o c) 12 ∧
  AtomicRule 13 (fun n a b d o c => .amaxN n a b d o c) 14 ∧
  AtomicRule 13 (fun n a b d o c => .swap n a b d o c) 16 ∧
  AtomicRule 14 (fun n a b d o c => .aaddMs n a b d o c) 0 ∧
  AtomicRule 14 (fun n a b d o c => .aandMs n a b d o c) 2 ∧
  AtomicRule 14 (fun n a b d o c => .aorMs n a b d o c) 4 ∧
  AtomicRule 14 (fun n a b d o c => .axorMs n a b d o c) 6 ∧
  AtomicRule 14 (fun n a b d o c => .aminIMs n a b d o c) 8 ∧
  AtomicRule 14 (fun n a b d o c => .aminNMs n a b d o c) 10 ∧
  AtomicRule 14 (fun n a b d o c => .amaxIMs n a b d o c) 12 ∧
  AtomicRule 14 (fun n a b d o c => .amaxNMs n a b d o c) 14 ∧
  AtomicRule 14 (fun n a b d o c => .swapMs n a b d o c) 16 ∧
  (∀ (s : State) (a b d : Fin 32) (o : Fin 4) (c : Fin 8),
    AtomicIssue s 13 18 (.cas64 a b d o c) a b d o c [a, b, d] (s.me.get b).toNat (s.me.get d).toNat ∧
    AtomicIssue s 14 18 (.cas64Ms a b d o c) a b d o c [a, b, d] (s.me.get b).toNat (s.me.get d).toNat) ∧
  (∀ (s : State) (a : Fin 32) (bp dp : Fin 16) (o : Fin 4) (c : Fin 8) (b d : Fin 32), b.val = 2 * bp.val → d.val = 2 * dp.val →
    AtomicIssue s 13 19 (.cas128 a bp dp o c) a b d o c [a, b, d, b + 1, d + 1]
      ((s.me.get b).toNat + (s.me.get (b + 1)).toNat * 2 ^ 64) ((s.me.get d).toNat + (s.me.get (d + 1)).toNat * 2 ^ 64) ∧
    AtomicIssue s 14 19 (.cas128Ms a bp dp o c) a b d o c [a, b, d, b + 1, d + 1]
      ((s.me.get b).toNat + (s.me.get (b + 1)).toNat * 2 ^ 64) ((s.me.get d).toNat + (s.me.get (d + 1)).toNat * 2 ^ 64))

/-- An atomic request that is not behind an earlier read or store of its thread to one of its bytes through its kind of
mapping, whose line is in reach and clean, performs in one step: memory at its address takes the sum, and, or, xor, minimum,
maximum, exchanged or swapped-on-match value of its width, every other byte staying; gD takes the old value, sign-extended
for the signed 32-bit minimum and maximum, for CAS_128 the pair gD and gD + 1 its low and its high half; the request leaves
the table, or stays for its acquire while an earlier read is outstanding or, at .sy, a snoop is not applied. No pool
changes. (R121, R122, R129, R130, R132, R134, R138.) -/
def Obligations.AtomicAtHome : Prop :=
  ∀ (s : State) (c : Fin 64) (i : Nat) (q : Req) (op b e gd sc : Nat) (acq : Bool),
  (s.core c).reqs[i]? = some q → q.kind = .atomic op b e gd sc acq → op < 20 → s.readHeld c q = false → s.readFault c q = none → s.tripHeld c q.addr = false →
  s.atomicBehind c q = false →
  ∃ s', exec (.atomicAtHome c i) s = .next s' ∧
    (let waits := s.snoopWaits sc || ((s.core c).reqs.eraseIdx i).any fun x => x.role == q.role && x.isRead && decide (x.id < q.id)
     (acq = false ∨ waits = false → (s'.core c).reqs = (s.core c).reqs.eraseIdx i) ∧
     (acq = true → waits = true → (s'.core c).reqs = (s.core c).reqs.set i { q with kind := .acquire sc })) ∧
    (op < 16 → op % 2 = 0 → s'.mem = s.mem.write q.addr (leBytes 4 (let x := s.physNat q.addr 4; let y := b % 2 ^ 32
      if op = 0 then (x + y) % 2 ^ 32 else if op = 2 then x &&& y else if op = 4 then x ||| y else if op = 6 then x ^^^ y
      else if op = 8 then (if sint 32 x < sint 32 y then x else y) else if op = 10 then min x y
      else if op = 12 then (if sint 32 x < sint 32 y then y else x) else max x y))) ∧
    (op < 16 → op % 2 = 1 → s'.mem = s.mem.write q.addr (leBytes 8 (let x := s.physNat q.addr 8; let y := b % 2 ^ 64
      if op = 1 then (x + y) % 2 ^ 64 else if op = 3 then x &&& y else if op = 5 then x ||| y else if op = 7 then x ^^^ y
      else if op = 9 then (if sint 64 x < sint 64 y then x else y) else if op = 11 then min x y
      else if op = 13 then (if sint 64 x < sint 64 y then y else x) else max x y))) ∧
    (op = 16 → s'.mem = s.mem.write q.addr (leBytes 4 b)) ∧ (op = 17 → s'.mem = s.mem.write q.addr (leBytes 8 b)) ∧
    (op = 18 → s'.mem = if s.physNat q.addr 8 = e then s.mem.write q.addr (leBytes 8 b) else s.mem) ∧
    (op = 19 → s'.mem = if s.physNat q.addr 16 = e then s.mem.write q.addr (leBytes 16 b) else s.mem) ∧
    (∀ g : Fin 32, g.val = gd → gd < 31 → (s.thr c q.role).own[g] = some q.id → (s.thr c q.role).own[g + 1] = some q.id → op = 19 →
      (g ≠ 0 → (s'.thr c q.role).get g = word (s.physNat q.addr 16)) ∧ (s'.thr c q.role).get (g + 1) = word (s.physNat q.addr 16 / 2 ^ 64)) ∧
    (∀ g : Fin 32, g.val = gd → g ≠ 0 → (s.thr c q.role).own[g] = some q.id → op < 19 →
      (s'.thr c q.role).get g = if op = 8 ∨ op = 12 then sextW 32 (s.physNat q.addr 4)
        else word (s.physNat q.addr (if op = 18 ∨ op % 2 = 1 then 8 else 4))) ∧
    ∀ k : Fin 64, (s'.core k).pool = (s.core k).pool

/-- A returning load request leaves the table and gD, while it still waits for that request and the thread has no buffered
store, takes the value at the home (of a pool load served late, its value in the pool), extended as the load says; no other
register, no pool and no memory changes. A returning arming read whose comparison holds leaves an armed watch on its line. A
load whose data is poisoned or out of reach by then, and whose word is the last of its thread and has changed nothing, is
taken back: its thread stands at that word again and traps there with the cause and its address (R49). The grants end the
wait of the issuer that has waited longest while there is room; a completed walk, one of the 512 oldest of the die whose
table reads no stopped link holds, leaves the miss table and gives its result to the threads that joined it, in their order;
the wrap clear ends; a dropped L1 line or an evicted L2 line changes no value; PF retires with no register, pool byte or
memory byte changed, and does nothing at all for length 0. (R110, R111, R114, R115, R124, R125, R129, R130, R132, R140,
R176, R177.) -/
def Obligations.MemoryEvents : Prop :=
  ((∀ (s : State) (c : Fin 64) (i : Nat) (q : Req) (d : Fin 32) (n : Nat) (signed : Bool), (s.core c).reqs[i]? = some q →
    q.kind = .load (.g d) n signed → i < 65536 → s.readHeld c q = false → (s.core c).mayReturn q = true → s.readFault c q = none →
    (q.pool = none → s.tripHeld c q.addr = false) →
    ∃ s', exec (.lineRequestReturn c i) s = .next s' ∧ (s'.core c).reqs = (s.core c).reqs.eraseIdx i ∧ s'.mem = s.mem ∧
      (d ≠ 0 → (s.thr c q.role).own[d] = some q.id → (s.thr c q.role).stores = [] →
        (q.pool = none → (s'.thr c q.role).get d = if signed then sextW (8 * n) (s.physNat q.addr n) else word (s.physNat q.addr n)) ∧
        ∀ m : Fin 64, q.pool = some m → (s'.thr c q.role).get d =
          if signed then sextW (8 * n) ((s.core m).pool.nat q.addr n) else word ((s.core m).pool.nat q.addr n)) ∧
      (∀ k : Fin 32, k ≠ d → (s'.thr c q.role).get k = (s.thr c q.role).get k) ∧ (s'.core c).pool = (s.core c).pool) ∧
  (∀ (s : State) (c : Fin 64) (i : Nat) (q : Req) (cmp timed : Bool) (e w : Nat), (s.core c).reqs[i]? = some q →
    q.kind = .arm cmp timed e w → i < 65536 → s.readHeld c q = false → (s.core c).mayReturn q = true → s.readFault c q = none →
    (q.pool = none → s.tripHeld c q.addr = false) → (cmp = false ∨ leNat (s.returned c q q.addr 8) = e) → (s.thr c q.role).stage = .watch w → (∀ x ∈ s.watches, x.id ≠ w) →
    ∃ s', exec (.lineRequestReturn c i) s = .next s' ∧ s'.mem = s.mem ∧
      s'.watches = s.watches ++ [{ id := w, core := c, role := q.role, line := q.addr / 64, va := q.va, timed := timed, fired := none }]) ∧
  (∀ (s : State) (c : Fin 64) (i : Nat) (q : Req) (dst : Dest) (n : Nat) (signed : Bool) (ca d : Nat), (s.core c).reqs[i]? = some q →
    q.kind = .load dst n signed → i < 65536 → s.readHeld c q = false → (s.core c).mayReturn q = true → s.readFault c q = some (ca, d) →
    q.plain = true → (s.thr c q.role).lastIs q.nth = true →
    ∃ (t : State) (p : PTrap), exec (.lineRequestReturn c i) s = .next (t.trapAt c q.role p) ∧
      p.cause = ca ∧ p.detail = d ∧ p.fva = q.va ∧ p.kind = 1 ∧ p.hdr = q.word.hdr ∧ p.reps = q.word.reps ∧ p.wpos = q.word.wpos ∧
      p.trapa = p.trappc ∧ (t.thr c q.role).hdr = q.word.hdr ∧ (t.thr c q.role).wpos = q.word.wpos ∧
      (t.thr c q.role).g = (s.thr c q.role).g ∧ (t.thr c q.role).stores = (s.thr c q.role).stores ∧
      (∀ k : Fin 32, (s.thr c q.role).own[k] = some q.id → (t.thr c q.role).own[k] = none) ∧
      (∀ x ∈ (t.core c).reqs, x.role = q.role → x.nth ≠ q.nth) ∧ (t.core c).pool = (s.core c).pool ∧ t.mem = s.mem)) ∧
  ((∀ (s : State) (c : Fin 64) (r : Role) (t : List Issuer), (s.core c).reqwait = .thr r :: t → s.entries c < 8192 →
    exec (.requestTableGrant c) s = .next (s.upThr c r fun t => { t with why := 0, obj := 0 })) ∧
  (∀ (s : State) (c : Fin 64) (r : Role) (t : List Issuer), (s.core c).walkwait = .thr r :: t → (s.core c).walks.length < 128 →
    exec (.missTableGrant c) s = .next (s.upThr c r fun t => { t with why := 0, obj := 0 })) ∧
  (∀ (s : State) (c : Fin 64) (i : Nat) (w : Walk), (s.core c).walks[i]? = some w →
    s.walksBefore c w.id < 512 → s.walkHeld c w.asid (w.vpage * 4096) = false →
    ∃ s', exec (.pageWalkComplete c i) s = .next s' ∧ (s'.core c).walks = (s.core c).walks.eraseIdx i ∧ s'.mem = s.mem ∧
      (∀ r ∈ w.roles, (s.thr c r).status = .running → (s.thr c r).fetch = none →
        (s'.thr c r).xwalk = some (w.vpage, s.walk (dieOf c) w.asid (w.vpage * 4096), w.roles.takeWhile (· ≠ r))) ∧
      ∀ r : Role, (s'.thr c r).g = (s.thr c r).g) ∧
  (∀ (s : State) (c : Fin 64), exec (.l1WrapClearDone c) s = .next (s.upCore c fun k => { k with l1clear := false })) ∧
  (∀ (s : State) (c : Fin 64) (n : Nat), exec (.l1LineDrop c n) s = .next (s.upCore c fun k => { k with l1 := k.l1.filter (·.line ≠ n) })) ∧
  (∀ (s : State) (pa : Nat), exec (.l2LineEviction pa) s = .next { s with l2own := s.l2own.filter (· ≠ pa / 64) }) ∧
  (∀ (s : State) (a b : Fin 32) (l : Fin 2), s.Issues { maj := 14 } [a, b] →
    ∃ s', exec (.pf a b l) s = .next s' ∧ s'.mem = s.mem ∧ s'.me = s.me.retire 2 ∧ s'.myCore.pool = s.myCore.pool ∧
      (s.me.get b = 0 → s' = s.upMe fun t => t.retire 2)))

/-- WAITA on a device address that passes its checks adds its arming read and blocks with WHY 7; a fired watch ends the wait
with its cause, and the timeout of a timed watch that has not fired with code 1; the WAITA then puts the cause into gD and
WCODE and retires. (R125, R126, R303.) -/
def Obligations.Waita : Prop :=
  (∀ (s s1 : State) (a b d : Fin 32) (c : Fin 2) (pa e : Nat), s.Issues { maj := 14 } [a, b, d] → s.me.stage = .none →
    s.acqOpen s.cc s.cr = false → inWindow (s.me.get a).toNat = false → (c.val = 1 → (s.me.get a).toNat % 8 = 0) →
    s.site (s.me.get a).toNat (if c.val = 1 then 8 else 1) .watch (if c.val = 1 then 8 else 1) none (fun _ => false) = .ok (.dev pa e) s1 →
    (c.val = 1 → s1.readsPoison s1.me (leafBd e) s1.nextOp pa 8 = false) → s1.room 1 = true →
    ∃ s', exec (.waita a b d c) s = .next s' ∧ s'.me.stage = .watch s1.nextOp ∧ s'.me.why = 7 ∧ s'.me.g = s.me.g ∧ s'.mem = s.mem ∧
      ∃ q : Req, s'.myCore.reqs = s1.myCore.reqs ++ [q] ∧ q.addr = pa ∧ q.role = s.cr ∧
        q.kind = .arm (c.val == 1) (s.me.get b != 0) (s.me.get d).toNat s1.nextOp) ∧
  (∀ (s : State) (a b d : Fin 32) (c : Fin 2) (v : Nat), s.Issues { maj := 14 } [a, b, d] → s.me.stage = .result v →
    exec (.waita a b d c) s = .next (s.upMe fun t => { t.put d (word v) with wcode := v }.retire 2)) ∧
  (∀ (s : State) (c : Fin 64) (r : Role) (w : Watch) (v : Nat), (s.thr c r).stage = .watch w.id → w ∈ s.watches → w.core = c → w.role = r →
    w.fired = some v → (∀ x ∈ s.watches, x.id = w.id → x = w) →
    ∃ s', exec (.waitaWake c r) s = .next s' ∧ (s'.thr c r).stage = .result v ∧ (s'.thr c r).why = 0 ∧ s'.mem = s.mem ∧
      s'.watches = s.watches.filter fun x => x.id ≠ w.id) ∧
  (∀ (s : State) (c : Fin 64) (r : Role) (w : Watch), (s.thr c r).stage = .watch w.id → w ∈ s.watches → w.core = c → w.role = r →
    w.timed = true → w.fired = none → (∀ x ∈ s.watches, x.id = w.id → x = w) →
    ∃ s', exec (.waitaTimeout c r) s = .next s' ∧ (s'.thr c r).stage = .result 1 ∧ (s'.thr c r).why = 0 ∧ s'.mem = s.mem)

/-- Wherever VADD_I32, VSUB_I32, VMUL_I32, VMULH_I32, VADDS_I32, VSUBS_I32, VADDS_N32, VSUBS_N32, VADD_F32, VSUB_F32,
VMUL_F32, VFMA_F32, VFMS_F32, VMIN_F32, VMAX_F32, VAND, VOR, VXOR, VANDN, VSLL, VSRL, VSRA, VMOV, VCMP_I32, VCMP_F32, VSEL,
VMIN_I32, VMAX_I32, VMIN_N32, VMAX_N32 issues, no release or acquire of the thread is open and the vector queue has room,
exec answers the state in which the queue holds the word with its captured g values, FPCR, RNGSEED and RNGCTR, the word has
retired, and nothing else has changed. (R193, R194, R199.) -/
def Obligations.VectorIssueLanes : Prop :=
  (∀ (g : Guard) (d : Fin 64) (a : Fin 64) (b : Fin 64),
    Queues (.vaddI32 g d a b) { maj := 20, vregs := vtop [d.val, a.val, b.val] } [] none none) ∧
  (∀ (g : Guard) (d : Fin 64) (a : Fin 64) (b : Fin 64),
    Queues (.vsubI32 g d a b) { maj := 20, vregs := vtop [d.val, a.val, b.val] } [] none none) ∧
  (∀ (g : Guard) (d : Fin 64) (a : Fin 64) (b : Fin 64),
    Queues (.vmulI32 g d a b) { maj := 20, vregs := vtop [d.val, a.val, b.val] } [] none none) ∧
  (∀ (g : Guard) (d : Fin 64) (a : Fin 64) (b : Fin 64),
    Queues (.vmulhI32 g d a b) { maj := 20, vregs := vtop [d.val, a.val, b.val] } [] none none) ∧
  (∀ (g : Guard) (d : Fin 64) (a : Fin 64) (b : Fin 64),
    Queues (.vaddsI32 g d a b) { maj := 20, vregs := vtop [d.val, a.val, b.val] } [] none none) ∧
  (∀ (g : Guard) (d : Fin 64) (a : Fin 64) (b : Fin 64),
    Queues (.vsubsI32 g d a b) { maj := 20, vregs := vtop [d.val, a.val, b.val] } [] none none) ∧
  (∀ (g : Guard) (d : Fin 64) (a : Fin 64) (b : Fin 64),
    Queues (.vaddsN32 g d a b) { maj := 20, vregs := vtop [d.val, a.val, b.val] } [] none none) ∧
  (∀ (g : Guard) (d : Fin 64) (a : Fin 64) (b : Fin 64),
    Queues (.vsubsN32 g d a b) { maj := 20, vregs := vtop [d.val, a.val, b.val] } [] none none) ∧
  (∀ (g : Guard) (d : Fin 64) (a : Fin 64) (b : Fin 64),
    Queues (.vaddF32 g d a b) { maj := 21, vregs := vtop [d.val, a.val, b.val] } [] none none) ∧
  (∀ (g : Guard) (d : Fin 64) (a : Fin 64) (b : Fin 64),
    Queues (.vsubF32 g d a b) { maj := 21, vregs := vtop [d.val, a.val, b.val] } [] none none) ∧
  (∀ (g : Guard) (d : Fin 64) (a : Fin 64) (b : Fin 64),
    Queues (.vmulF32 g d a b) { maj := 21, vregs := vtop [d.val, a.val, b.val] } [] none none) ∧
  (∀ (g : Guard) (d : Fin 64) (a : Fin 64) (b : Fin 64),
    Queues (.vfmaF32 g d a b) { maj := 21, vregs := vtop [d.val, a.val, b.val] } [] none none) ∧
  (∀ (g : Guard) (d : Fin 64) (a : Fin 64) (b : Fin 64),
    Queues (.vfmsF32 g d a b) { maj := 21, vregs := vtop [d.val, a.val, b.val] } [] none none) ∧
  (∀ (g : Guard) (d : Fin 64) (a : Fin 64) (b : Fin 64),
    Queues (.vminF32 g d a b) { maj := 21, vregs := vtop [d.val, a.val, b.val] } [] none none) ∧
  (∀ (g : Guard) (d : Fin 64) (a : Fin 64) (b : Fin 64),
    Queues (.vmaxF32 g d a b) { maj := 21, vregs := vtop [d.val, a.val, b.val] } [] none none) ∧
  (∀ (g : Guard) (d : Fin 64) (a : Fin 64), Queues (.vand g d a) { maj := 22, vregs := vtop [d.val, a.val] } [] none none) ∧
  (∀ (g : Guard) (d : Fin 64) (a : Fin 64), Queues (.vor g d a) { maj := 22, vregs := vtop [d.val, a.val] } [] none none) ∧
  (∀ (g : Guard) (d : Fin 64) (a : Fin 64), Queues (.vxor g d a) { maj := 22, vregs := vtop [d.val, a.val] } [] none none) ∧
  (∀ (g : Guard) (d : Fin 64) (a : Fin 64), Queues (.vandn g d a) { maj := 22, vregs := vtop [d.val, a.val] } [] none none) ∧
  (∀ (g : Guard) (d : Fin 64) (a : Fin 64) (i : Fin 64), Queues (.vsll g d a i) { maj := 22, vregs := vtop [d.val, a.val] } [] none none) ∧
  (∀ (g : Guard) (d : Fin 64) (a : Fin 64) (i : Fin 64), Queues (.vsrl g d a i) { maj := 22, vregs := vtop [d.val, a.val] } [] none none) ∧
  (∀ (g : Guard) (d : Fin 64) (a : Fin 64) (i : Fin 64), Queues (.vsra g d a i) { maj := 22, vregs := vtop [d.val, a.val] } [] none none) ∧
  (∀ (g : Guard) (d : Fin 64) (a : Fin 64), Queues (.vmov g d a) { maj := 22, vregs := vtop [d.val, a.val] } [] none none) ∧
  (∀ (g : Guard) (k : Fin 8) (c : Fin 8) (a : Fin 64) (b : Fin 64),
    Queues (.vcmpI32 g k c a b) { maj := 23, vregs := vtop [a.val, b.val] } [] none none) ∧
  (∀ (g : Guard) (k : Fin 8) (c : Fin 8) (a : Fin 64) (b : Fin 64),
    Queues (.vcmpF32 g k c a b) { maj := 23, vregs := vtop [a.val, b.val] } [] none none) ∧
  (∀ (g : Guard) (d : Fin 64) (a : Fin 64) (b : Fin 64),
    Queues (.vsel g d a b) { maj := 23, vregs := vtop [d.val, a.val, b.val] } [] none none) ∧
  (∀ (g : Guard) (d : Fin 64) (a : Fin 64) (b : Fin 64),
    Queues (.vminI32 g d a b) { maj := 23, vregs := vtop [d.val, a.val, b.val] } [] none none) ∧
  (∀ (g : Guard) (d : Fin 64) (a : Fin 64) (b : Fin 64),
    Queues (.vmaxI32 g d a b) { maj := 23, vregs := vtop [d.val, a.val, b.val] } [] none none) ∧
  (∀ (g : Guard) (d : Fin 64) (a : Fin 64) (b : Fin 64),
    Queues (.vminN32 g d a b) { maj := 23, vregs := vtop [d.val, a.val, b.val] } [] none none) ∧
  (∀ (g : Guard) (d : Fin 64) (a : Fin 64) (b : Fin 64),
    Queues (.vmaxN32 g d a b) { maj := 23, vregs := vtop [d.val, a.val, b.val] } [] none none)

/-- Wherever VROTR_IMM, VROTR_REG, VROTC_IMM, VROTC_REG, VBCR_IMM, VBCR_REG, VBCC_IMM, VBCC_REG, VRSUM_F32, VCSUM_F32,
VRMAX_F32, VCMAX_F32, VRMIN_F32, VCMIN_F32, VRSUM_I32, VCSUM_I32, PAND, POR, PXOR, PANDN, PNEZ, VMOVP, PSET, PFIRST, VLIDX,
VEXT_N32, VEXT_I32, VINS, VBCG, VMOVI, PCNT, PFIND issues, no release or acquire of the thread is open and the vector queue
has room, exec answers the state in which the queue holds the word with its captured g values, FPCR, RNGSEED and RNGCTR, the
word has retired, its g destination, if any, waits for it and nothing else has changed. (R82, R193, R194, R213.) -/
def Obligations.VectorIssueMoves : Prop :=
  (∀ (g : Guard) (d : Fin 64) (a : Fin 64) (i : Fin 64),
    Queues (.vrotrImm g d a i) { maj := 24, vregs := vtop [d.val, a.val] } [] none none) ∧
  (∀ (g : Guard) (d : Fin 64) (a : Fin 64) (sc : Fin 32),
    Queues (.vrotrReg g d a sc) { maj := 24, vregs := vtop [d.val, a.val] } [sc] none none) ∧
  (∀ (g : Guard) (d : Fin 64) (a : Fin 64) (i : Fin 16),
    Queues (.vrotcImm g d a i) { maj := 24, vregs := vtop [d.val, a.val] } [] none none) ∧
  (∀ (g : Guard) (d : Fin 64) (a : Fin 64) (sc : Fin 32),
    Queues (.vrotcReg g d a sc) { maj := 24, vregs := vtop [d.val, a.val] } [sc] none none) ∧
  (∀ (g : Guard) (d : Fin 64) (a : Fin 64) (i : Fin 64),
    Queues (.vbcrImm g d a i) { maj := 24, vregs := vtop [d.val, a.val] } [] none none) ∧
  (∀ (g : Guard) (d : Fin 64) (a : Fin 64) (sc : Fin 32),
    Queues (.vbcrReg g d a sc) { maj := 24, vregs := vtop [d.val, a.val] } [sc] none none) ∧
  (∀ (g : Guard) (d : Fin 64) (a : Fin 64) (i : Fin 16),
    Queues (.vbccImm g d a i) { maj := 24, vregs := vtop [d.val, a.val] } [] none none) ∧
  (∀ (g : Guard) (d : Fin 64) (a : Fin 64) (sc : Fin 32),
    Queues (.vbccReg g d a sc) { maj := 24, vregs := vtop [d.val, a.val] } [sc] none none) ∧
  (∀ (g : Guard) (d : Fin 64) (a : Fin 64), Queues (.vrsumF32 g d a) { maj := 25, vregs := vtop [d.val, a.val] } [] none none) ∧
  (∀ (g : Guard) (d : Fin 64) (a : Fin 64), Queues (.vcsumF32 g d a) { maj := 25, vregs := vtop [d.val, a.val] } [] none none) ∧
  (∀ (g : Guard) (d : Fin 64) (a : Fin 64), Queues (.vrmaxF32 g d a) { maj := 25, vregs := vtop [d.val, a.val] } [] none none) ∧
  (∀ (g : Guard) (d : Fin 64) (a : Fin 64), Queues (.vcmaxF32 g d a) { maj := 25, vregs := vtop [d.val, a.val] } [] none none) ∧
  (∀ (g : Guard) (d : Fin 64) (a : Fin 64), Queues (.vrminF32 g d a) { maj := 25, vregs := vtop [d.val, a.val] } [] none none) ∧
  (∀ (g : Guard) (d : Fin 64) (a : Fin 64), Queues (.vcminF32 g d a) { maj := 25, vregs := vtop [d.val, a.val] } [] none none) ∧
  (∀ (g : Guard) (d : Fin 64) (a : Fin 64), Queues (.vrsumI32 g d a) { maj := 25, vregs := vtop [d.val, a.val] } [] none none) ∧
  (∀ (g : Guard) (d : Fin 64) (a : Fin 64), Queues (.vcsumI32 g d a) { maj := 25, vregs := vtop [d.val, a.val] } [] none none) ∧
  (∀ (g : Guard) (d : Fin 12) (a : Fin 12) (b : Fin 12), Queues (.pand g d a b) { maj := 26 } [] none none) ∧
  (∀ (g : Guard) (d : Fin 12) (a : Fin 12) (b : Fin 12), Queues (.por g d a b) { maj := 26 } [] none none) ∧
  (∀ (g : Guard) (d : Fin 12) (a : Fin 12) (b : Fin 12), Queues (.pxor g d a b) { maj := 26 } [] none none) ∧
  (∀ (g : Guard) (d : Fin 12) (a : Fin 12) (b : Fin 12), Queues (.pandn g d a b) { maj := 26 } [] none none) ∧
  (∀ (g : Guard) (d : Fin 12) (a : Fin 64), Queues (.pnez g d a) { maj := 26, vregs := vtop [a.val] } [] none none) ∧
  (∀ (g : Guard) (d : Fin 64) (a : Fin 12), Queues (.vmovp g d a) { maj := 26, vregs := vtop [d.val] } [] none none) ∧
  (∀ (g : Guard) (d : Fin 12) (i : Fin 2), Queues (.pset g d i) { maj := 26 } [] none none) ∧
  (∀ (g : Guard) (d : Fin 12) (a : Fin 12), Queues (.pfirst g d a) { maj := 26 } [] none none) ∧
  (∀ (g : Guard) (d : Fin 64) (sc : Fin 4), Queues (.vlidx g d sc) { maj := 27, vregs := vtop [d.val] } [] none none) ∧
  (∀ (d : Fin 32) (a : Fin 64) (sc : Fin 32), Queues (.vextN32 d a sc) { maj := 27, vregs := vtop [a.val] } [sc] (some d) none) ∧
  (∀ (d : Fin 32) (a : Fin 64) (sc : Fin 32), Queues (.vextI32 d a sc) { maj := 27, vregs := vtop [a.val] } [sc] (some d) none) ∧
  (∀ (g : Guard) (d : Fin 64) (a : Fin 32) (sc : Fin 32), Queues (.vins g d a sc) { maj := 27, vregs := vtop [d.val] } [a, sc] none none) ∧
  (∀ (g : Guard) (d : Fin 64) (a : Fin 32), Queues (.vbcg g d a) { maj := 27, vregs := vtop [d.val] } [a] none none) ∧
  (∀ (g : Guard) (d : Fin 64) (i : Fin 64), Queues (.vmovi g d i) { maj := 27, vregs := vtop [d.val] } [] none none) ∧
  (∀ (d : Fin 32) (a : Fin 12), Queues (.pcnt d a) { maj := 27 } [] (some d) none) ∧
  (∀ (d : Fin 32) (a : Fin 12), Queues (.pfind d a) { maj := 27 } [] (some d) none)

/-- Wherever VCVT_BF16_F32, VCVT_F16_F32, VCVT_E4M3_F32, VCVT_E5M2_F32, VCVT_F32_BF16, VCVT_F32_F16, VCVT_F32_E4M3,
VCVT_F32_E5M2, VCVT_I32_F32, VCVT_N32_F32, VCVT_F32_I32, VCVT_F32_N32, VRINT_F32, VCVT_MX_F32, VCVT_F32_MX, VEXP_F32,
VEXP2_F32, VLOG2_F32, VRCP_F32, VRSQRT_F32, VSQRT_F32, VTANH_F32, VCMPR, VTOPK_F32, VSCAN_F32, VSCAN_I32, VRAND_N32,
VRAND_F32, VTOPK_I32 issues, no release or acquire of the thread is open and the vector queue has room, exec answers the
state in which the queue holds the word with its captured g values, FPCR, RNGSEED and RNGCTR, the word has retired, RNGCTR
is one higher modulo 2^32 when the rounding in force is stochastic, and nothing else has changed. (R193, R194, R215, R216.)
-/
def Obligations.VectorIssueConvert : Prop :=
  (∀ (g : Guard) (d : Fin 64) (a : Fin 64) (p : Fin 4) (sc : Fin 2) (r : Fin 8),
    Queues (.vcvtBf16F32 g d a p sc r) { maj := 28, vregs := vtop [d.val, a.val + (if p.val = 0 then 0 else if p.val = 1 then 1 else 3)] } [] none (some r.val)) ∧
  (∀ (g : Guard) (d : Fin 64) (a : Fin 64) (p : Fin 4) (sc : Fin 2) (r : Fin 8),
    Queues (.vcvtF16F32 g d a p sc r) { maj := 28, vregs := vtop [d.val, a.val + (if p.val = 0 then 0 else if p.val = 1 then 1 else 3)] } [] none (some r.val)) ∧
  (∀ (g : Guard) (d : Fin 64) (a : Fin 64) (p : Fin 4) (sc : Fin 2) (r : Fin 8),
    Queues (.vcvtE4m3F32 g d a p sc r) { maj := 28, vregs := vtop [d.val, a.val + (if p.val = 0 then 0 else if p.val = 1 then 1 else 3)] } [] none (some r.val)) ∧
  (∀ (g : Guard) (d : Fin 64) (a : Fin 64) (p : Fin 4) (sc : Fin 2) (r : Fin 8),
    Queues (.vcvtE5m2F32 g d a p sc r) { maj := 28, vregs := vtop [d.val, a.val + (if p.val = 0 then 0 else if p.val = 1 then 1 else 3)] } [] none (some r.val)) ∧
  (∀ (g : Guard) (d : Fin 64) (a : Fin 64) (p : Fin 4),
    Queues (.vcvtF32Bf16 g d a p) { maj := 28, vregs := vtop [a.val, d.val + (if p.val = 0 then 0 else if p.val = 1 then 1 else 3)] } [] none none) ∧
  (∀ (g : Guard) (d : Fin 64) (a : Fin 64) (p : Fin 4),
    Queues (.vcvtF32F16 g d a p) { maj := 28, vregs := vtop [a.val, d.val + (if p.val = 0 then 0 else if p.val = 1 then 1 else 3)] } [] none none) ∧
  (∀ (g : Guard) (d : Fin 64) (a : Fin 64) (p : Fin 4),
    Queues (.vcvtF32E4m3 g d a p) { maj := 28, vregs := vtop [a.val, d.val + (if p.val = 0 then 0 else if p.val = 1 then 1 else 3)] } [] none none) ∧
  (∀ (g : Guard) (d : Fin 64) (a : Fin 64) (p : Fin 4),
    Queues (.vcvtF32E5m2 g d a p) { maj := 28, vregs := vtop [a.val, d.val + (if p.val = 0 then 0 else if p.val = 1 then 1 else 3)] } [] none none) ∧
  (∀ (g : Guard) (d : Fin 64) (a : Fin 64) (r : Fin 8),
    Queues (.vcvtI32F32 g d a r) { maj := 29, vregs := vtop [d.val, a.val] } [] none (some r.val)) ∧
  (∀ (g : Guard) (d : Fin 64) (a : Fin 64) (r : Fin 8),
    Queues (.vcvtN32F32 g d a r) { maj := 29, vregs := vtop [d.val, a.val] } [] none (some r.val)) ∧
  (∀ (g : Guard) (d : Fin 64) (a : Fin 64) (r : Fin 8),
    Queues (.vcvtF32I32 g d a r) { maj := 29, vregs := vtop [d.val, a.val] } [] none (some r.val)) ∧
  (∀ (g : Guard) (d : Fin 64) (a : Fin 64) (r : Fin 8),
    Queues (.vcvtF32N32 g d a r) { maj := 29, vregs := vtop [d.val, a.val] } [] none (some r.val)) ∧
  (∀ (g : Guard) (d : Fin 64) (a : Fin 64) (r : Fin 8),
    Queues (.vrintF32 g d a r) { maj := 29, vregs := vtop [d.val, a.val] } [] none (some r.val)) ∧
  (∀ (d : Fin 32) (a : Fin 64) (m : Fin 4) (r : Fin 8),
    Queues (.vcvtMxF32 d a m r) { maj := 29, sub := true, vregs := vtop [a.val, 2 * d.val + 1] } [] none (some r.val)) ∧
  (∀ (g : Guard) (d : Fin 64) (a : Fin 32) (m : Fin 4),
    Queues (.vcvtF32Mx g d a m) { maj := 29, sub := true, vregs := vtop [d.val, 2 * a.val + 1] } [] none none) ∧
  (∀ (g : Guard) (d : Fin 64) (a : Fin 64), Queues (.vexpF32 g d a) { maj := 30, vregs := vtop [d.val, a.val] } [] none none) ∧
  (∀ (g : Guard) (d : Fin 64) (a : Fin 64), Queues (.vexp2F32 g d a) { maj := 30, vregs := vtop [d.val, a.val] } [] none none) ∧
  (∀ (g : Guard) (d : Fin 64) (a : Fin 64), Queues (.vlog2F32 g d a) { maj := 30, vregs := vtop [d.val, a.val] } [] none none) ∧
  (∀ (g : Guard) (d : Fin 64) (a : Fin 64), Queues (.vrcpF32 g d a) { maj := 30, vregs := vtop [d.val, a.val] } [] none none) ∧
  (∀ (g : Guard) (d : Fin 64) (a : Fin 64), Queues (.vrsqrtF32 g d a) { maj := 30, vregs := vtop [d.val, a.val] } [] none none) ∧
  (∀ (g : Guard) (d : Fin 64) (a : Fin 64), Queues (.vsqrtF32 g d a) { maj := 30, vregs := vtop [d.val, a.val] } [] none none) ∧
  (∀ (g : Guard) (d : Fin 64) (a : Fin 64), Queues (.vtanhF32 g d a) { maj := 30, vregs := vtop [d.val, a.val] } [] none none) ∧
  (∀ (g : Guard) (d : Fin 64) (a : Fin 64) (k : Fin 16) (sc : Fin 4),
    Queues (.vcmpr g d a k sc) { maj := 31, vregs := vtop [d.val, a.val] } [] none none) ∧
  (∀ (g : Guard) (d : Fin 32) (a : Fin 64) (k : Fin 16) (sc : Fin 4),
    Queues (.vtopkF32 g d a k sc) { maj := 31, vregs := vtop [a.val, 2 * d.val + 1] } [] none none) ∧
  (∀ (g : Guard) (d : Fin 64) (a : Fin 64) (e : Fin 2) (c : Fin 2),
    Queues (.vscanF32 g d a e c) { maj := 31, vregs := vtop [d.val, a.val] } [] none none) ∧
  (∀ (g : Guard) (d : Fin 64) (a : Fin 64) (e : Fin 2) (c : Fin 2),
    Queues (.vscanI32 g d a e c) { maj := 31, vregs := vtop [d.val, a.val] } [] none none) ∧
  (∀ (g : Guard) (d : Fin 64) (sc : Fin 32), Queues (.vrandN32 g d sc) { maj := 31, vregs := vtop [d.val] } [sc] none none) ∧
  (∀ (g : Guard) (d : Fin 64) (sc : Fin 32), Queues (.vrandF32 g d sc) { maj := 31, vregs := vtop [d.val] } [sc] none none) ∧
  (∀ (g : Guard) (d : Fin 32) (a : Fin 64) (k : Fin 16) (sc : Fin 4),
    Queues (.vtopkI32 g d a k sc) { maj := 31, vregs := vtop [a.val, 2 * d.val + 1] } [] none none)

/-- Alone in the queue, VADD_I32, VSUB_I32, VMUL_I32, VMULH_I32, VADDS_I32, VSUBS_I32, VADDS_N32, VSUBS_N32, VMIN_I32,
VMAX_I32, VMIN_N32 and VMAX_N32 start and complete; each active lane of vd holds the sum, difference, product half,
saturated sum or difference, minimum or maximum of the source lanes; inactive lanes, every other pool byte, the predicates
and device memory are unchanged. Alone in the queue, VAND, VOR, VXOR, VANDN, VSLL, VSRL, VSRA, VMOV, VSEL, VROTR, VROTC,
VBCR and VBCC (immediate and register forms) start and complete; each active lane of vd (every lane for VSEL) holds the
stated function of the source lanes; inactive lanes, every other pool byte, the predicates and device memory are unchanged.
A shift of 32 or more gives zero, or the sign for VSRA. The same of VADD_F32, VSUB_F32, VMUL_F32, VFMA_F32, VFMS_F32,
VMIN_F32, VMAX_F32, the eight reductions and VEXP, VEXP2, VLOG2, VRCP, VRSQRT, VSQRT and VTANH_F32: each active lane holds
the step of R202 or R203 on its lanes (VD the third source), the tree of that step over the active lanes of its row or
column, or the procedure of R76 to R79, under the DAZ, FTZ and RM captured at issue, and the flags of the active lanes are
ORed into FPCR. (R190, R192, R194, R200, R202, R203, R204, R207, R208, R209, R211, R226.) -/
def Obligations.LaneResults : Prop :=
  ((∀ (g : Guard) (d a b : Fin 64), Finishes (.vaddI32 g d a b) (lanesTake g d.val fun x l => ((x.lane a.val l) + (x.lane b.val l)) % 2 ^ 32)) ∧
  (∀ (g : Guard) (d a b : Fin 64), Finishes (.vsubI32 g d a b) (lanesTake g d.val fun x l => (2 ^ 32 + (x.lane a.val l) - (x.lane b.val l)) % 2 ^ 32)) ∧
  (∀ (g : Guard) (d a b : Fin 64), Finishes (.vmulI32 g d a b) (lanesTake g d.val fun x l => (x.lane a.val l) * (x.lane b.val l) % 2 ^ 32)) ∧
  (∀ (g : Guard) (d a b : Fin 64), Finishes (.vmulhI32 g d a b) (lanesTake g d.val fun x l => ofInt 32 (sint 32 (x.lane a.val l) * sint 32 (x.lane b.val l) / 2 ^ 32))) ∧
  (∀ (g : Guard) (d a b : Fin 64), Finishes (.vaddsI32 g d a b) (lanesTake g d.val fun x l => ofInt 32 (max (-2 ^ 31) (min (2 ^ 31 - 1) (sint 32 (x.lane a.val l) + sint 32 (x.lane b.val l)))))) ∧
  (∀ (g : Guard) (d a b : Fin 64), Finishes (.vsubsI32 g d a b) (lanesTake g d.val fun x l => ofInt 32 (max (-2 ^ 31) (min (2 ^ 31 - 1) (sint 32 (x.lane a.val l) - sint 32 (x.lane b.val l)))))) ∧
  (∀ (g : Guard) (d a b : Fin 64), Finishes (.vaddsN32 g d a b) (lanesTake g d.val fun x l => min ((x.lane a.val l) + (x.lane b.val l)) (2 ^ 32 - 1))) ∧
  (∀ (g : Guard) (d a b : Fin 64), Finishes (.vsubsN32 g d a b) (lanesTake g d.val fun x l => (x.lane a.val l) - (x.lane b.val l))) ∧
  (∀ (g : Guard) (d a b : Fin 64), Finishes (.vminI32 g d a b) (lanesTake g d.val fun x l => if sint 32 (x.lane a.val l) ≤ sint 32 (x.lane b.val l) then (x.lane a.val l) else (x.lane b.val l))) ∧
  (∀ (g : Guard) (d a b : Fin 64), Finishes (.vmaxI32 g d a b) (lanesTake g d.val fun x l => if sint 32 (x.lane a.val l) ≤ sint 32 (x.lane b.val l) then (x.lane b.val l) else (x.lane a.val l))) ∧
  (∀ (g : Guard) (d a b : Fin 64), Finishes (.vminN32 g d a b) (lanesTake g d.val fun x l => if (x.lane a.val l) ≤ (x.lane b.val l) then (x.lane a.val l) else (x.lane b.val l))) ∧
  (∀ (g : Guard) (d a b : Fin 64), Finishes (.vmaxN32 g d a b) (lanesTake g d.val fun x l => if (x.lane a.val l) ≤ (x.lane b.val l) then (x.lane b.val l) else (x.lane a.val l)))) ∧
  ((∀ (g : Guard) (d a : Fin 64), Finishes (.vand g d a) (lanesTake g d.val fun x l => (x.lane d.val l) &&& (x.lane a.val l))) ∧
  (∀ (g : Guard) (d a : Fin 64), Finishes (.vor g d a) (lanesTake g d.val fun x l => (x.lane d.val l) ||| (x.lane a.val l))) ∧
  (∀ (g : Guard) (d a : Fin 64), Finishes (.vxor g d a) (lanesTake g d.val fun x l => (x.lane d.val l) ^^^ (x.lane a.val l))) ∧
  (∀ (g : Guard) (d a : Fin 64), Finishes (.vandn g d a) (lanesTake g d.val fun x l => (x.lane d.val l) &&& (2 ^ 32 - 1 - (x.lane a.val l)))) ∧
  (∀ (g : Guard) (d a : Fin 64) (i : Fin 64), Finishes (.vsll g d a i) (lanesTake g d.val fun x l => (x.lane a.val l) * 2 ^ i.val % 2 ^ 32)) ∧
  (∀ (g : Guard) (d a : Fin 64) (i : Fin 64), Finishes (.vsrl g d a i) (lanesTake g d.val fun x l => (x.lane a.val l) / 2 ^ i.val)) ∧
  (∀ (g : Guard) (d a : Fin 64) (i : Fin 64), Finishes (.vsra g d a i) (lanesTake g d.val fun x l => ofInt 32 (sint 32 (x.lane a.val l) / 2 ^ i.val))) ∧
  (∀ (g : Guard) (d a : Fin 64), Finishes (.vmov g d a) (lanesTake g d.val fun x l => (x.lane a.val l))) ∧
  (∀ (g : Guard) (d a b : Fin 64), Finishes (.vsel g d a b) (lanesTake .all d.val fun x l =>
    if guardOn x.k.preds g l then (x.lane a.val l) else (x.lane b.val l))) ∧
  (∀ (g : Guard) (d a : Fin 64) (n : Fin 64), Finishes (.vrotrImm g d a n) (lanesTake g d.val fun x l => x.lane a.val (64 * (l / 64) + (l % 64 + 64 - n.val) % 64))) ∧
  (∀ (g : Guard) (d a : Fin 64) (n : Fin 16), Finishes (.vrotcImm g d a n) (lanesTake g d.val fun x l => x.lane a.val ((l + 1024 - 64 * n.val) % 1024))) ∧
  (∀ (g : Guard) (d a : Fin 64) (n : Fin 64), Finishes (.vbcrImm g d a n) (lanesTake g d.val fun x l => x.lane a.val (64 * (l / 64) + n.val))) ∧
  (∀ (g : Guard) (d a : Fin 64) (n : Fin 16), Finishes (.vbccImm g d a n) (lanesTake g d.val fun x l => x.lane a.val (64 * n.val + l % 64))) ∧
  (∀ (g : Guard) (d a : Fin 64) (r : Fin 32), Finishes (.vrotrReg g d a r) (lanesTake g d.val fun x l => x.lane a.val (64 * (l / 64) + (l % 64 + 64 - x.gv 0 % 64) % 64))) ∧
  (∀ (g : Guard) (d a : Fin 64) (r : Fin 32), Finishes (.vrotcReg g d a r) (lanesTake g d.val fun x l => x.lane a.val ((l + 1024 - 64 * (x.gv 0 % 16)) % 1024))) ∧
  (∀ (g : Guard) (d a : Fin 64) (r : Fin 32), Finishes (.vbcrReg g d a r) (lanesTake g d.val fun x l => x.lane a.val (64 * (l / 64) + x.gv 0 % 64))) ∧
  (∀ (g : Guard) (d a : Fin 64) (r : Fin 32), Finishes (.vbccReg g d a r) (lanesTake g d.val fun x l => x.lane a.val (64 * (x.gv 0 % 16) + l % 64)))) ∧
  ((∀ (g : Guard) (d a b : Fin 64), Finishes (.vaddF32 g d a b) (fregTakes g d.val fun x l => fadd x.ctl (x.lane a.val l) (x.lane b.val l))) ∧
  (∀ (g : Guard) (d a b : Fin 64), Finishes (.vsubF32 g d a b) (fregTakes g d.val fun x l => fsub x.ctl (x.lane a.val l) (x.lane b.val l))) ∧
  (∀ (g : Guard) (d a b : Fin 64), Finishes (.vmulF32 g d a b) (fregTakes g d.val fun x l => fmul x.ctl (x.lane a.val l) (x.lane b.val l))) ∧
  (∀ (g : Guard) (d a b : Fin 64), Finishes (.vfmaF32 g d a b) (fregTakes g d.val fun x l => ffma x.ctl (x.lane a.val l) (x.lane b.val l) (x.lane d.val l))) ∧
  (∀ (g : Guard) (d a b : Fin 64), Finishes (.vfmsF32 g d a b) (fregTakes g d.val fun x l => ffms x.ctl (x.lane a.val l) (x.lane b.val l) (x.lane d.val l))) ∧
  (∀ (g : Guard) (d a b : Fin 64), Finishes (.vminF32 g d a b) (fregTakes g d.val fun x l => (fminmax false x.ctl.daz (x.lane a.val l) (x.lane b.val l), 0))) ∧
  (∀ (g : Guard) (d a b : Fin 64), Finishes (.vmaxF32 g d a b) (fregTakes g d.val fun x l => (fminmax true x.ctl.daz (x.lane a.val l) (x.lane b.val l), 0))) ∧
  (∀ (g : Guard) (d a : Fin 64), Finishes (.vrsumF32 g d a) (fregTakes g d.val fun x => reduced g a.val false x.ctl.ftz (fadd x.ctl) x)) ∧
  (∀ (g : Guard) (d a : Fin 64), Finishes (.vcsumF32 g d a) (fregTakes g d.val fun x => reduced g a.val true x.ctl.ftz (fadd x.ctl) x)) ∧
  (∀ (g : Guard) (d a : Fin 64), Finishes (.vrmaxF32 g d a) (fregTakes g d.val fun x => reduced g a.val false x.ctl.ftz (fun u v => (fminmax true x.ctl.daz u v, 0)) x)) ∧
  (∀ (g : Guard) (d a : Fin 64), Finishes (.vcmaxF32 g d a) (fregTakes g d.val fun x => reduced g a.val true x.ctl.ftz (fun u v => (fminmax true x.ctl.daz u v, 0)) x)) ∧
  (∀ (g : Guard) (d a : Fin 64), Finishes (.vrminF32 g d a) (fregTakes g d.val fun x => reduced g a.val false x.ctl.ftz (fun u v => (fminmax false x.ctl.daz u v, 0)) x)) ∧
  (∀ (g : Guard) (d a : Fin 64), Finishes (.vcminF32 g d a) (fregTakes g d.val fun x => reduced g a.val true x.ctl.ftz (fun u v => (fminmax false x.ctl.daz u v, 0)) x)) ∧
  (∀ (g : Guard) (d a : Fin 64), Finishes (.vrsumI32 g d a) (fregTakes g d.val fun x => reduced g a.val false false (fun u v => ((u + v) % 2 ^ 32, 0)) x)) ∧
  (∀ (g : Guard) (d a : Fin 64), Finishes (.vcsumI32 g d a) (fregTakes g d.val fun x => reduced g a.val true false (fun u v => ((u + v) % 2 ^ 32, 0)) x)) ∧
  (∀ (g : Guard) (d a : Fin 64), Finishes (.vexpF32 g d a) (fregTakes g d.val fun x l => flush x.ctl.ftz (fexp (dazCode x.ctl.daz (x.lane a.val l))))) ∧
  (∀ (g : Guard) (d a : Fin 64), Finishes (.vexp2F32 g d a) (fregTakes g d.val fun x l => flush x.ctl.ftz (fexp2 (dazCode x.ctl.daz (x.lane a.val l))))) ∧
  (∀ (g : Guard) (d a : Fin 64), Finishes (.vlog2F32 g d a) (fregTakes g d.val fun x l => flush x.ctl.ftz (flog2 (dazCode x.ctl.daz (x.lane a.val l))))) ∧
  (∀ (g : Guard) (d a : Fin 64), Finishes (.vrcpF32 g d a) (fregTakes g d.val fun x l => flush x.ctl.ftz (frcp (dazCode x.ctl.daz (x.lane a.val l))))) ∧
  (∀ (g : Guard) (d a : Fin 64), Finishes (.vrsqrtF32 g d a) (fregTakes g d.val fun x l => flush x.ctl.ftz (frsqrt (dazCode x.ctl.daz (x.lane a.val l))))) ∧
  (∀ (g : Guard) (d a : Fin 64), Finishes (.vsqrtF32 g d a) (fregTakes g d.val fun x l => flush x.ctl.ftz (fsqrt (dazCode x.ctl.daz (x.lane a.val l))))) ∧
  (∀ (g : Guard) (d a : Fin 64), Finishes (.vtanhF32 g d a) (fregTakes g d.val fun x l => flush x.ctl.ftz (ftanh (dazCode x.ctl.daz (x.lane a.val l))))))

/-- Alone in the queue, PAND, POR, PXOR, PANDN, PNEZ, PSET, PFIRST, VMOVP, VLIDX, VINS, VBCG, VMOVI, VEXT_N32, VEXT_I32,
PCNT and VCMP_I32 start and complete with the stated active predicate bits, lanes or g value (VCMP_I32: the condition in the
even and its complement in the odd register of the pair); inactive lanes and other registers are unchanged. The same of
VCMP_F32 (a NaN makes .ne and .uo true), PFIND, the narrowings and widenings in lane and packed form, the integer
conversions, VRINT, MX encoding and decoding, VCMPR and VTOPK (a candidate at the number of candidates of its group that
rank above it; fillers elsewhere; every lane written), VSCAN and VRAND, with the flags of the active lanes ORed into FPCR.
By the choice of the model the scale of a block of infinities is 0 (log 128), and a scan copies its first active value as it
is (log 129). (R205, R206, R212, R213, R219, R221, R222, R223, R224, R229, R230, R231.) -/
def Obligations.PredicateResults : Prop :=
  ((∀ (g : Guard) (d a b : Fin 12), Finishes (.pand g d a b) (predTakes g d fun x l =>
    ((x.k.preds[a]).getLsbD l) && ((x.k.preds[b]).getLsbD l))) ∧
  (∀ (g : Guard) (d a b : Fin 12), Finishes (.por g d a b) (predTakes g d fun x l =>
    ((x.k.preds[a]).getLsbD l) || ((x.k.preds[b]).getLsbD l))) ∧
  (∀ (g : Guard) (d a b : Fin 12), Finishes (.pxor g d a b) (predTakes g d fun x l =>
    (((x.k.preds[a]).getLsbD l) ^^ ((x.k.preds[b]).getLsbD l)))) ∧
  (∀ (g : Guard) (d a b : Fin 12), Finishes (.pandn g d a b) (predTakes g d fun x l =>
    ((x.k.preds[a]).getLsbD l) && !((x.k.preds[b]).getLsbD l))) ∧
  (∀ (g : Guard) (d : Fin 12) (a : Fin 64), Finishes (.pnez g d a) (predTakes g d fun x l => decide (x.lane a.val l ≠ 0))) ∧
  (∀ (g : Guard) (d : Fin 12) (v : Fin 2), Finishes (.pset g d v) (predTakes g d fun _ _ => decide (v = 1))) ∧
  (∀ (g : Guard) (d a : Fin 12), Finishes (.pfirst g d a) (predTakes g d fun x l =>
    decide ((x.k.preds[a]).getLsbD l = true ∧ ∀ j : Fin 1024, j.val < l → (x.k.preds[a]).getLsbD j.val = false))) ∧
  (∀ (g : Guard) (d : Fin 64) (a : Fin 12), Finishes (.vmovp g d a) (lanesTake g d.val fun x l =>
    if (x.k.preds[a]).getLsbD l then 2 ^ 32 - 1 else 0)) ∧
  (∀ (g : Guard) (d : Fin 64) (k : Fin 4), Finishes (.vlidx g d k) (lanesTake g d.val fun _ l =>
    if k.val = 0 then l else if k.val = 1 then l / 64 else l % 64)) ∧
  (∀ (g : Guard) (d : Fin 64) (a r : Fin 32), Finishes (.vins g d a r) (lanesTake g d.val fun x l =>
    if l = x.gv 1 % 1024 then x.gv 0 % 2 ^ 32 else x.lane d.val l)) ∧
  (∀ (g : Guard) (d : Fin 64) (a : Fin 32), Finishes (.vbcg g d a) (lanesTake g d.val fun x _ => x.gv 0 % 2 ^ 32)) ∧
  (∀ (g : Guard) (d : Fin 64) (v : Fin 64), Finishes (.vmovi g d v) (lanesTake g d.val fun _ _ => ofInt 32 (sint 6 v.val))) ∧
  (∀ (d : Fin 32) (a : Fin 64) (r : Fin 32), Finishes (.vextN32 d a r) (scalarTakes d fun x _ => word (x.lane a.val (x.gv 0 % 1024)))) ∧
  (∀ (d : Fin 32) (a : Fin 64) (r : Fin 32), Finishes (.vextI32 d a r) (scalarTakes d fun x _ => sextW 32 (x.lane a.val (x.gv 0 % 1024)))) ∧
  (∀ (d : Fin 32) (a : Fin 12), Finishes (.pcnt d a) (scalarTakes d fun x _ =>
    word (Finset.univ.filter fun j : Fin 1024 => (x.k.preds[a]).getLsbD j.val = true).card)) ∧
  (∀ (g : Guard) (p : Fin 8) (c : Fin 8) (a b : Fin 64) (s : State) (k : Fin 64) (e : VEnt), (s.core k).vq = [e] →
    e.op = .vcmpI32 g p c a b → e.out = none → (s.thr k e.role).stores = [] → (s.core k).reqs = [] → c.val < 6 →
    ∃ s1 s2, exec (.vectorStart k) s = .next s1 ∧ exec (.vectorComplete k 0) s1 = .next s2 ∧ (s2.core k).pool = (s.core k).pool ∧
      ∀ l, l < 1024 → ∀ h : 2 * p.val + 1 < 12, guardOn (s.core k).preds g l = true → ∃ t : Bool,
        ((s2.core k).preds[2 * p.val]).getLsbD l = t ∧ ((s2.core k).preds[2 * p.val + 1]).getLsbD l = !t ∧
        (t = true ↔ (c.val = 0 ∧ (s.core k).lane a.val l = (s.core k).lane b.val l) ∨ (c.val = 1 ∧ (s.core k).lane a.val l ≠ (s.core k).lane b.val l) ∨
          (c.val = 2 ∧ sint 32 ((s.core k).lane a.val l) < sint 32 ((s.core k).lane b.val l)) ∨
          (c.val = 3 ∧ sint 32 ((s.core k).lane b.val l) ≤ sint 32 ((s.core k).lane a.val l)) ∨
          (c.val = 4 ∧ (s.core k).lane a.val l < (s.core k).lane b.val l) ∨ (c.val = 5 ∧ (s.core k).lane b.val l ≤ (s.core k).lane a.val l)))) ∧
  ((∀ (g : Guard) (d a : Fin 64) (p : Fin 4) (sc : Fin 2) (r : Fin 8), Finishes (.vcvtBf16F32 g d a p sc r) (fregTakes g d.val fun x l =>
    let parts := (List.range (if p.val = 0 then 1 else if p.val = 1 then 2 else 4)).map fun j => (j, bf16.round (f32.widen (x.lane (a.val + j) l) false)
      (convRm r.val x.fpcr) (convSat r.val sc.val x.fpcr) (mix x.seed.toNat (1024 * j + l) x.ctr.toNat))
    ((parts.map fun e => e.2.1 * 2 ^ (bf16.width * e.1)).sum, orFlags (parts.map fun e => e.2.2)))) ∧
  (∀ (g : Guard) (d a : Fin 64) (p : Fin 4) (sc : Fin 2) (r : Fin 8), Finishes (.vcvtF16F32 g d a p sc r) (fregTakes g d.val fun x l =>
    let parts := (List.range (if p.val = 0 then 1 else if p.val = 1 then 2 else 4)).map fun j => (j, f16.round (f32.widen (x.lane (a.val + j) l) false)
      (convRm r.val x.fpcr) (convSat r.val sc.val x.fpcr) (mix x.seed.toNat (1024 * j + l) x.ctr.toNat))
    ((parts.map fun e => e.2.1 * 2 ^ (f16.width * e.1)).sum, orFlags (parts.map fun e => e.2.2)))) ∧
  (∀ (g : Guard) (d a : Fin 64) (p : Fin 4) (sc : Fin 2) (r : Fin 8), Finishes (.vcvtE4m3F32 g d a p sc r) (fregTakes g d.val fun x l =>
    let parts := (List.range (if p.val = 0 then 1 else if p.val = 1 then 2 else 4)).map fun j => (j, e4m3.round (f32.widen (x.lane (a.val + j) l) false)
      (convRm r.val x.fpcr) (convSat r.val sc.val x.fpcr) (mix x.seed.toNat (1024 * j + l) x.ctr.toNat))
    ((parts.map fun e => e.2.1 * 2 ^ (e4m3.width * e.1)).sum, orFlags (parts.map fun e => e.2.2)))) ∧
  (∀ (g : Guard) (d a : Fin 64) (p : Fin 4) (sc : Fin 2) (r : Fin 8), Finishes (.vcvtE5m2F32 g d a p sc r) (fregTakes g d.val fun x l =>
    let parts := (List.range (if p.val = 0 then 1 else if p.val = 1 then 2 else 4)).map fun j => (j, e5m2.round (f32.widen (x.lane (a.val + j) l) false)
      (convRm r.val x.fpcr) (convSat r.val sc.val x.fpcr) (mix x.seed.toNat (1024 * j + l) x.ctr.toNat))
    ((parts.map fun e => e.2.1 * 2 ^ (e5m2.width * e.1)).sum, orFlags (parts.map fun e => e.2.2)))) ∧
  (∀ (g : Guard) (d a : Fin 64) (p : Fin 4), Finishes (.vcvtF32Bf16 g d a p)
    (regsTake g d.val (if p.val = 0 then 1 else if p.val = 1 then 2 else 4) fun x j l =>
      ((f32.round (bf16.widen (x.lane a.val l / 2 ^ (bf16.width * j) % 2 ^ bf16.width) false) 0 false 0).1, 0))) ∧
  (∀ (g : Guard) (d a : Fin 64) (p : Fin 4), Finishes (.vcvtF32F16 g d a p)
    (regsTake g d.val (if p.val = 0 then 1 else if p.val = 1 then 2 else 4) fun x j l =>
      ((f32.round (f16.widen (x.lane a.val l / 2 ^ (f16.width * j) % 2 ^ f16.width) false) 0 false 0).1, 0))) ∧
  (∀ (g : Guard) (d a : Fin 64) (p : Fin 4), Finishes (.vcvtF32E4m3 g d a p)
    (regsTake g d.val (if p.val = 0 then 1 else if p.val = 1 then 2 else 4) fun x j l =>
      ((f32.round (e4m3.widen (x.lane a.val l / 2 ^ (e4m3.width * j) % 2 ^ e4m3.width) false) 0 false 0).1, 0))) ∧
  (∀ (g : Guard) (d a : Fin 64) (p : Fin 4), Finishes (.vcvtF32E5m2 g d a p)
    (regsTake g d.val (if p.val = 0 then 1 else if p.val = 1 then 2 else 4) fun x j l =>
      ((f32.round (e5m2.widen (x.lane a.val l / 2 ^ (e5m2.width * j) % 2 ^ e5m2.width) false) 0 false 0).1, 0))) ∧
  (∀ (g : Guard) (d a : Fin 64) (r : Fin 8), Finishes (.vcvtI32F32 g d a r) (fregTakes g d.val fun x l =>
    roundInt true 32 (f32.widen (x.lane a.val l) false) (convRm r.val x.fpcr) (mix x.seed.toNat l x.ctr.toNat))) ∧
  (∀ (g : Guard) (d a : Fin 64) (r : Fin 8), Finishes (.vcvtN32F32 g d a r) (fregTakes g d.val fun x l =>
    roundInt false 32 (f32.widen (x.lane a.val l) false) (convRm r.val x.fpcr) (mix x.seed.toNat l x.ctr.toNat))) ∧
  (∀ (g : Guard) (d a : Fin 64) (r : Fin 8), Finishes (.vcvtF32I32 g d a r) (fregTakes g d.val fun x l =>
    f32.round (.fin (decide (sint 32 (x.lane a.val l) < 0)) (sint 32 (x.lane a.val l)).natAbs 0) (convRm r.val x.fpcr) false (mix x.seed.toNat l x.ctr.toNat))) ∧
  (∀ (g : Guard) (d a : Fin 64) (r : Fin 8), Finishes (.vcvtF32N32 g d a r) (fregTakes g d.val fun x l =>
    f32.round (.fin false (x.lane a.val l) 0) (convRm r.val x.fpcr) false (mix x.seed.toNat l x.ctr.toNat))) ∧
  (∀ (g : Guard) (d a : Fin 64) (r : Fin 8), Finishes (.vrintF32 g d a r) (fregTakes g d.val fun x l =>
    rint (x.lane a.val l) (convRm r.val x.fpcr) (mix x.seed.toNat l x.ctr.toNat))) ∧
  (∀ (d : Fin 32) (a : Fin 64) (m : Fin 4) (r : Fin 8), Finishes (.vcvtMxF32 d a m r) (regsTake .all (2 * d.val) 2 fun x j l =>
    let sc := mxScale ((List.range 32).map fun i => f32.widen (x.lane a.val (32 * (l / 32) + i)) false)
    if j = 1 then (sc, 0) else if sc = 0xFF then (0, 0)
    else mxRound (6 + m.val) sc (f32.widen (x.lane a.val l) false) (convRm r.val x.fpcr) (mix x.seed.toNat l x.ctr.toNat))) ∧
  (∀ (g : Guard) (d : Fin 64) (a : Fin 32) (m : Fin 4), Finishes (.vcvtF32Mx g d a m) (fregTakes g d.val fun x l =>
    ((f32.round (mxWiden (6 + m.val) (x.lane (2 * a.val) l) (x.lane (2 * a.val + 1) (32 * (l / 32)) % 256)) 0 false 0).1, 0))) ∧
  (∀ (g : Guard) (d a : Fin 64) (k : Fin 16) (sc : Fin 4), Finishes (.vcmpr g d a k sc) (fregTakes .all d.val fun x l =>
    (if guardOn x.k.preds g l = true ∧ rankOf magKey g a.val (8 * 2 ^ sc.val) x l ≤ k.val then keepF (x.lane a.val l) else 0, 0))) ∧
  (∀ (g : Guard) (d : Fin 32) (a : Fin 64) (k : Fin 16) (sc : Fin 4),
    Finishes (.vtopkF32 g d a k sc) (topkTakes valKey keepF 0xFF800000 g (2 * d.val) a.val (k.val + 1) (8 * 2 ^ sc.val)) ∧
    Finishes (.vtopkI32 g d a k sc) (topkTakes (sint 32) id 0x80000000 g (2 * d.val) a.val (k.val + 1) (8 * 2 ^ sc.val))) ∧
  (∀ (g : Guard) (d a : Fin 64) (e c : Fin 2),
    Finishes (.vscanF32 g d a e c) (fregTakes g d.val fun x => scanned g a.val (c.val == 1) (e.val == 1) x.ctl.ftz (fadd x.ctl) x) ∧
    Finishes (.vscanI32 g d a e c) (fregTakes g d.val fun x =>
      scanned g a.val (c.val == 1) (e.val == 1) false (fun u v => ((u + v) % 2 ^ 32, 0)) x)) ∧
  (∀ (g : Guard) (d : Fin 64) (sc : Fin 32),
    Finishes (.vrandN32 g d sc) (fregTakes g d.val fun x l => (mix x.seed.toNat l (x.gv 0 % 2 ^ 32), 0)) ∧
    Finishes (.vrandF32 g d sc) (fregTakes g d.val fun x l =>
      ((f32.round (.fin false (mix x.seed.toNat l (x.gv 0 % 2 ^ 32) / 256) (-24)) 0 false 0).1, 0))) ∧
  (∀ (d : Fin 32) (a : Fin 12), Finishes (.pfind d a) (scalarTakes d fun x _ =>
    word (((List.range 1024).find? fun l => (x.k.preds[a]).getLsbD l).getD 1024))) ∧
  (∀ (g : Guard) (p c : Fin 8) (a b : Fin 64), 2 * p.val + 1 < 12 → Finishes (.vcmpF32 g p c a b) fun x s k r s' =>
    (s'.core k).pool = (s.core k).pool ∧ (s'.thr k r).fpcr = (s.thr k r).fpcr ∧
    ∀ (l : Nat) (q : Fin 12), l < 1024 → (s'.core k).preds[q].getLsbD l =
      if guardOn (s.core k).preds g l = true ∧ (q.val = 2 * p.val ∨ q.val = 2 * p.val + 1) then
        (let u := f32.widen (x.lane a.val l) x.ctl.daz; let w := f32.widen (x.lane b.val l) x.ctl.daz
         decide (q.val = 2 * p.val) == (if u.isNan = true ∨ w.isNan = true then decide (c.val = 1 ∨ c.val = 6)
           else match c.val with
             | 0 => u.eq w
             | 1 => !(u.eq w)
             | 2 => u.lt w
             | 3 => !(w.lt u)
             | 4 => w.lt u
             | 5 => !(u.lt w)
             | 6 => false
             | _ => true))
      else (s.core k).preds[q].getLsbD l))

/-- VECTOR_START of the first entry not yet started reads its sources and fixes its result when it is ready, and does
nothing while an earlier entry still owes one of its sources; VECTOR_COMPLETE of a started entry does nothing while an
earlier entry still writes one of its destinations, and otherwise removes it from the queue and ORs its flags into FPCR of
its thread. The queue is that which pre-emption and a parked move leave in order. (R193, R194, R196, R213.) -/
def Obligations.VectorOrder : Prop :=
  (∀ (s : State) (c : Fin 64) (before : List VEnt) (e : VEnt), vnext (s.vline c) = some (before, e) → isMove e.op = false →
    (s.vready c before e = true →
      exec (.vectorStart c) s = .next (s.upCore c fun k => k.vstart e.id ((vspec e.op).run (e.input k)))) ∧
    ((∃ p ∈ before, shares (vspec p.op).wv (vspec e.op).rv = true ∨ shares (vspec p.op).wp (vspec e.op).rp = true) →
      exec (.vectorStart c) s = .next s)) ∧
  (∀ (s : State) (c : Fin 64) (i : Nat) (e : VEnt) (o : VOut) (before : List VEnt), (s.core c).vq[i]? = some e → e.out = some o →
    i < 65536 → isMove e.op = false → before = (s.vline c).takeWhile (fun p => p.id != e.id) →
    ((∃ p ∈ before, shares (vspec p.op).wv (vspec e.op).wv = true ∨ shares (vspec p.op).wp (vspec e.op).wp = true) →
      exec (.vectorComplete c i) s = .next s) ∧
    ((∀ p ∈ before, shares (vspec p.op).wv (vspec e.op).wv = false ∧ shares (vspec p.op).wp (vspec e.op).wp = false) →
      ∃ s', exec (.vectorComplete c i) s = .next s' ∧ (s'.core c).vq = (s.core c).vq.eraseIdx i ∧ s'.mem = s.mem ∧
        (s'.thr c e.role).fpcr = (s.thr c e.role).fpcr ||| word (o.flags % 32)))

/-- Wherever one of these words issues into an engine that runs (for T: that is parked) with nothing to report and its
operands are in order, exec answers the state in which the matrix queue (for the moves between tile and register the vector
queue too) holds it with its captured operands, the word has retired, and nothing else has changed. MA.MM whose slot does
not fit raises TYPE 0x20 to 0x23 in that order. (R239, R240, R246, R247, R248, R250.) -/
def Obligations.MatrixIssue : Prop :=
  (∀ (a : Fin 16) (t : Fin 64) (p : Fin 2) (k : Fin 16) (z r : Fin 2), MatrixJoins (.maMm a t p k z r) { maj := 32 } []
    (fun s => slotFmt s.myCore.slots[t].defw = s.myCore.mx.fmta ∧ 0 < slotRows s.myCore.slots[t].defw ∧ slotRows s.myCore.slots[t].defw ≤ 128 ∧
      imageUsed s.myCore.mx.fmta (k.val + 1) ≤ 64 * slotRB s.myCore.slots[t].defw ∧ k.val + 1 ≤ gmax s.myCore.mx.fmta)
    fun s => [s.myCore.slots[t].defw, word s.myCore.mx.fmta, word s.myCore.mx.fmtb]) ∧
  (∀ (p : Fin 2) (c : Fin 2048) (g : Fin 32), MatrixJoins (.maLdb p c g) { maj := 33 } [g]
    (fun _ => True)
    fun s => [word ((c.val + (s.me.get g).toNat) % 2048), word s.myCore.mx.fmtb]) ∧
  (∀ (a b c : Fin 32), MatrixJoins (.maLdw a b c) { maj := 33 } [a, b, c]
    (fun s => 0 < bits (s.me.get b).toNat 19 8 ∧ bits (s.me.get b).toNat 11 8 + bits (s.me.get b).toNat 19 8 ≤ 192 ∧
      bits (s.me.get b).toNat 32 32 % 32 = 0 ∧ (s.me.get c).toNat % 32 = 0 ∧ (s.me.get a).toNat % 4096 = 0)
    fun s => [s.me.get a, s.me.get b, s.me.get c, word s.myCore.mx.fmtb]) ∧
  (∀ (a : Fin 16), MatrixJoins (.maZero a) { maj := 34 } []
    (fun _ => True)
    fun s => []) ∧
  (∀ (a : Fin 16) (r : Fin 8) (c : Fin 4) (v : Fin 64), MatrixJoins (.maMovTv a r c v) { maj := 34, vregs := v.val + 1 } []
    (fun _ => True)
    fun s => []) ∧
  (∀ (a : Fin 16) (r : Fin 8) (c : Fin 4) (v : Fin 64), MatrixJoins (.maMovVt a r c v) { maj := 34, vregs := v.val + 1 } []
    (fun _ => True)
    fun s => []) ∧
  (∀ (a : Fin 16) (g : Fin 32), MatrixJoins (.maMovTp a g) { maj := 34 } [g]
    (fun s => 0x00FF000000000000 + s.myCore.bndv * 65536 ≤ (s.me.get g).toNat ∧
      (s.me.get g).toNat + 98304 ≤ 0x00FF000000000000 + s.myCore.bnds * 65536 ∧ s.myCore.bnds * 65536 ≤ 0x800000 ∧ (s.me.get g).toNat % 64 = 0)
    fun s => [word ((s.me.get g).toNat - 0x00FF000000000000)]) ∧
  (∀ (d a n : Fin 16), MatrixJoins (.maMovSum d a n) { maj := 34 } []
    (fun _ => True)
    fun s => []) ∧
  (∀ (s : State) (a : Fin 16) (t : Fin 64) (p : Fin 2) (k : Fin 16) (z r : Fin 2), s.Issues { maj := 32 } [] → s.asyncOpen = false →
    (s.myCore.mx.parked = true ↔ s.cr = .T) → (s.cr = .T ∨ s.myCore.mx.frozen = false) → s.myCore.recPending s.cr 1 = false →
    s.myCore.haltedOf s.cr = none → ∃ d f rb rows : Nat, d = s.myCore.mx.fmta ∧ f = slotFmt s.myCore.slots[t].defw ∧
      rb = 64 * slotRB s.myCore.slots[t].defw ∧ rows = slotRows s.myCore.slots[t].defw ∧
      (f ≠ d → exec (.maMm a t p k z r) s = s.trap cTYPE 0x20) ∧
      (f = d → rows = 0 ∨ 128 < rows → exec (.maMm a t p k z r) s = s.trap cTYPE 0x21) ∧
      (f = d → 0 < rows → rows ≤ 128 → rb < imageUsed d (k.val + 1) → exec (.maMm a t p k z r) s = s.trap cTYPE 0x22) ∧
      (f = d → 0 < rows → rows ≤ 128 → imageUsed d (k.val + 1) ≤ rb → gmax d < k.val + 1 →
        exec (.maMm a t p k z r) s = s.trap cTYPE 0x23))

/-- MA.CFG with an empty queue sets both formats and empties the planes, else waits; MA.WAIT retires once no queued
instruction writes a tile it names (any, for mask 0), else waits, and raises ENG 0x03 for a fill record only after the last
completion; MA.SAVE whose image pages can all be written leaves the engine parked with its queue in the image, frozen first
where it was not (how far its units came is then free, log 39; entries not started stay as they are), and waits while a move
between tile and register runs; MA.RSTR of an image that some save wrote brings every saved field back, fill records and
moves included, unparked. MA.SAVE while parked and MA.RSTR while not raise ILL 0x0E; so does MA.ZERO that T issues while
nothing is parked, and from another thread MA.ZERO waits while the engine is frozen or parked. (R245, R251, R252, R253,
R254, R255.) -/
def Obligations.MatrixSync : Prop :=
  (∀ (s : State) (a b : Fin 16), s.Issues { maj := 33 } [] → s.asyncOpen = false → (s.myCore.mx.parked = true ↔ s.cr = .T) → (s.cr = .T ∨ s.myCore.mx.frozen = false) →
    s.myCore.recPending s.cr 1 = false → s.myCore.haltedOf s.cr = none →
    exec (.maCfg a b) s = if s.myCore.mx.queue = [] then
      .next ((s.upMyCore fun k => { k with mx := { k.mx with fmta := a.val, fmtb := b.val, planes := Vector.replicate 2 ⟨true, [], false⟩ } }).upMe
        fun t => t.retire 2)
      else .next (s.upMe fun t => { t with why := 10, obj := 0 })) ∧
  (∀ (s : State) (m : Fin 65536), s.Issues { maj := 35 } [] → s.asyncOpen = false → (s.myCore.mx.parked = true ↔ s.cr = .T) → (s.cr = .T ∨ s.myCore.mx.frozen = false) →
    s.myCore.recPending s.cr 1 = false → s.myCore.haltedOf s.cr = none →
    ((∀ e ∈ s.myCore.mx.queue, m.val ≠ 0 ∧ ∀ i ∈ tilesWritten e.op, bits m.val i 1 = 0 ∨ 16 ≤ i) → s.Retires (.maWait m) 2 id) ∧
    ((∃ e ∈ s.myCore.mx.queue, m.val = 0 ∨ ∃ i ∈ tilesWritten e.op, bits m.val i 1 = 1 ∧ i < 16) →
      exec (.maWait m) s = .next (s.upMe fun t => { t with stage := .mwait, why := 10, obj := 0 }))) ∧
  (∀ s : State, s.Issues { maj := 35 } [] → (s.myCore.mx.parked = true ↔ s.cr = .T) → (s.cr = .T ∨ s.myCore.mx.frozen = false) →
    s.me.stage = .mwait → s.myCore.recPending s.cr 1 = true → s.myCore.haltedOf s.cr = none → s.myCore.mx.queue = [] →
    exec (.maWait 0) s = (s.upMe fun t => { t with stage := .none }).trap cENG 3) ∧
  (∀ (s s3 : State) (a : Fin 32), s.Issues { maj := 35, priv := true } [a] → s.asyncOpen = false → s.myCore.mx.parked = false →
    s.myCore.mx.frozen = true → s.myCore.recPending s.cr 1 = false → s.myCore.haltedOf s.cr = none → (s.me.get a).toNat % 4096 = 0 →
    s.me.stores = [] →
    State.saveRun (imageHeader s.myCore s.free) s.free (s.me.get a).toNat (List.range 512) { s with free := s.free + 1 } = (none, s3) →
    ∃ s', exec (.maSave a) s = .next s' ∧ s'.mem = s3.mem ∧ s'.myCore.mx.parked = true ∧ s'.myCore.mx.queue = [] ∧
      s'.myCore.mx.tiles = s3.myCore.mx.tiles ∧ 
      s'.images = ⟨s.free, s.myCore.mx, s.myCore.locks, s.myCore.vq.filter fun v => isMove v.op, s.myCore.fillRecs⟩ :: s3.images ∧
      (∀ l ∈ s'.myCore.locks, l.parked = true) ∧ s'.me = s3.me.retire 2) ∧
  (∀ (s f s3 : State) (a : Fin 32), s.Issues { maj := 35, priv := true } [a] → s.asyncOpen = false → s.myCore.mx.parked = false →
    s.myCore.mx.frozen = false → s.myCore.recPending s.cr 1 = false → s.myCore.haltedOf s.cr = none → (s.me.get a).toNat % 4096 = 0 →
    s.me.stores = [] → f = s.freeze s.cc →
    ((∃ e ∈ s.myCore.mx.queue, isMove e.op = true ∧ e.started = true) → exec (.maSave a) s = .next (s.upMe fun t => { t with why := 10, obj := 0 })) ∧
    f.myCore.mx.frozen = true ∧ ((∀ e ∈ s.myCore.mx.queue, e.started = false) → f = s.upMyCore fun k => { k with
      reqwait := k.reqwait.filter (· ≠ .fill), walkwait := k.walkwait.filter (· ≠ .fill), mx := { k.mx with frozen := true } }) ∧
    ((∀ e ∈ s.myCore.mx.queue, isMove e.op = true → e.started = false) →
      State.saveRun (imageHeader f.myCore f.free) f.free (s.me.get a).toNat (List.range 512) { f with free := f.free + 1 } = (none, s3) →
      ∃ s', exec (.maSave a) s = .next s' ∧ s'.mem = s3.mem ∧ s'.myCore.mx.parked = true ∧ s'.myCore.mx.queue = [] ∧
        s'.myCore.mx.tiles = s3.myCore.mx.tiles ∧
        s'.images = ⟨f.free, f.myCore.mx, f.myCore.locks, f.myCore.vq.filter fun v => isMove v.op, f.myCore.fillRecs⟩ :: s3.images ∧
        (∀ l ∈ s'.myCore.locks, l.parked = true) ∧ s'.me = s3.me.retire 2)) ∧
  (∀ (s s1 : State) (a : Fin 32) (xs : List Site) (x : MImage), s.Issues { maj := 35, priv := true } [a] → s.asyncOpen = false →
    s.myCore.mx.parked = true → s.myCore.recPending s.cr 1 = false → s.myCore.haltedOf s.cr = none → (s.me.get a).toNat % 4096 = 0 →
    s.myCore.mx.queue = [] → s.me.stores = [] → State.loadSites (s.me.get a).toNat (List.range 512) s = .ok (xs, s1) →
    xs.any (fun z => s1.sitePoison z 4096) = false → s1.images.find? (fun y => imageIs (xs.flatMap fun z => s1.siteGet z 4096) y.n) = some x →
    exec (.maRstr a) s = .next ((s1.upMyCore fun k => x.recs.foldl (fun k y => k.putRec y.1 y.2)
      { k with mx := { x.m with frozen := false, parked := false, owed := false }, locks := x.locks,
               vq := x.vq.foldl (fun l v => insertById v l) k.vq }).upMe fun t => t.retire 2)) ∧
  (∀ (s : State) (a : Fin 32), s.Issues { maj := 35, priv := true } [a] → s.asyncOpen = false → s.cr = .T →
    (s.myCore.mx.parked = true → exec (.maSave a) s = s.trap cILL 0x0E) ∧
    (s.myCore.mx.parked = false → exec (.maRstr a) s = s.trap cILL 0x0E)) ∧
  (∀ (s : State) (a : Fin 16), s.Issues { maj := 34 } [] → s.asyncOpen = false →
    (s.cr = .T → s.myCore.mx.parked = false → exec (.maZero a) s = s.trap cILL 0x0E) ∧
    (s.cr ≠ .T → s.myCore.mx.parked = true ∨ s.myCore.mx.frozen = true →
      exec (.maZero a) s = .next (s.upMe fun t => { t with why := 11, obj := 0 })))

/-- Alone in a running engine, MA.ZERO, MA.MOV.TV, MA.MOV.VT, MA.MOV.TP, MA.MOV.SUM and MA.LDB start and complete: the tile
reads zero; the register holds the window; the window holds the register and the rest of the tile stays; the pool holds the
98,304 tile bytes; the tile holds the tree sum of its sources; the plane holds the 192 column images from the store. Other
tiles, planes and bytes are unchanged. (R235, R237, R240, R247, R250.) -/
def Obligations.MatrixMoves : Prop :=
  (∀ a : Fin 16, MatrixRuns (.maZero a) fun s c _ s2 => (∀ i n, s2.tile c a i n = 0) ∧ (s2.core c).mx.tiles[a].poison = false ∧
    (∀ b : Fin 16, b ≠ a → (s2.core c).mx.tiles[b] = (s.core c).mx.tiles[b]) ∧ (s2.core c).pool = (s.core c).pool) ∧
  (∀ (a : Fin 16) (r : Fin 8) (b : Fin 4) (v : Fin 64), b.val < 3 → MatrixRuns (.maMovTv a r b v) fun s c _ s2 =>
    (∀ l, l < 1024 → (s2.core c).lane v.val l = s.tile c a (16 * r.val + l / 64) (64 * b.val + l % 64)) ∧
    (∀ x, x < 4096 * v.val ∨ 4096 * v.val + 4096 ≤ x → (s2.core c).pool.get x = (s.core c).pool.get x) ∧
    (s2.core c).mx.tiles = (s.core c).mx.tiles ∧ (s2.core c).vq = []) ∧
  (∀ (a : Fin 16) (r : Fin 8) (b : Fin 4) (v : Fin 64), b.val < 3 → MatrixRuns (.maMovVt a r b v) fun s c _ s2 =>
    (∀ i n, i < 128 → n < 192 → s2.tile c a i n =
      if i / 16 = r.val ∧ n / 64 = b.val then (s.core c).lane v.val (64 * (i % 16) + n % 64) else s.tile c a i n) ∧
    (∀ b : Fin 16, b ≠ a → (s2.core c).mx.tiles[b] = (s.core c).mx.tiles[b]) ∧ (s2.core c).pool = (s.core c).pool ∧ (s2.core c).vq = []) ∧
  (∀ (a : Fin 16) (g : Fin 32), MatrixRuns (.maMovTp a g) fun s c e s2 =>
    (∀ j, j < 98304 → (s2.core c).pool.get (e.gv 0 + j) = (s.core c).mx.tiles[a].data.get j) ∧
    (∀ x, x < e.gv 0 ∨ e.gv 0 + 98304 ≤ x → (s2.core c).pool.get x = (s.core c).pool.get x) ∧
    (s2.core c).mx.tiles = (s.core c).mx.tiles) ∧
  (∀ d a n : Fin 16, a.val + n.val < 16 → MatrixRuns (.maMovSum d a n) fun s c _ s2 =>
    (∀ i m, i < 128 → m < 192 → s2.tile c d i m =
      ((treeOpt sumStep ((List.range (n.val + 1)).map fun j => some (s.tile c (Fin.ofNat 16 (a.val + j)) i m))).getD 0) % 2 ^ 32) ∧
    (∀ b : Fin 16, b ≠ d → (s2.core c).mx.tiles[b] = (s.core c).mx.tiles[b]) ∧ (s2.core c).pool = (s.core c).pool) ∧
  (∀ (p : Fin 2) (o : Fin 2048) (g : Fin 32), MatrixRuns (.maLdb p o g) fun s c e s2 => (s2.core c).mx.planes[p].empty = false ∧
    (s2.core c).mx.planes[p].cols.length = 192 ∧ (∀ n b, n < 192 → b < imagePB (e.gv 1) →
      (((s2.core c).mx.planes[p].cols.getD n []).getD b 0) = (s.core c).col.get (131072 * n + (64 * e.gv 0 + b) % 131072)) ∧
    (∀ q : Fin 2, q ≠ p → (s2.core c).mx.planes[q] = (s.core c).mx.planes[q]) ∧ (s2.core c).mx.tiles = (s.core c).mx.tiles)

/-- Alone in a running engine, MA.MM waits for its slot to be full, halts on a tag that is not the expected one, and
otherwise locks the rectangle, at LOCK_CLEAR unlocks it (releasing the slot if it says so), and at completion holds in each
element of its rows the accumulation of the row image against the plane column, from the old element or zero; all else
stays. MA.LDW locks its source range while it fills the column store. (R242, R246, R248, R249, R261, R262.) -/
def Obligations.MatrixMultiply : Prop :=
  (∀ (s : State) (c : Fin 64) (e : MEnt) (a : Fin 16) (t : Fin 64) (p : Fin 2) (k : Fin 16) (z r : Fin 2),
    MatrixAlone (.maMm a t p k z r) s c e → slotRows (e.gs.headD 0) ≤ 128 →
    ((s.core c).slots[t].full = true → (s.core c).slots[t].tag = (s.core c).slots[t].exp →
      ∃ s1 s2 s3, exec (.matrixStart c 0) s = .next s1 ∧ exec (.lockClear c 0) s1 = .next s2 ∧ exec (.matrixComplete c 0) s2 = .next s3 ∧
        (s1.core c).locks = [⟨e.id, none, slotBase (e.gs.headD 0), slotLen (e.gs.headD 0), false⟩] ∧ (s2.core c).locks = [] ∧
        (s2.core c).slots[t] = (if r = 1 then (s.core c).slots[t].release else (s.core c).slots[t]) ∧ (s3.core c).mx.queue = [] ∧
        (∀ i n, i < slotRows (e.gs.headD 0) → n < 192 → s3.tile c a i n =
          mmElement (e.gv 1) (e.gv 2) (k.val + 1) (if z = 1 then 0 else s.tile c a i n)
            ((s.core c).slotRow (e.gs.headD 0) (imageUsed (e.gv 1) (k.val + 1)) i)
            (((s.core c).mx.planes[p].images (e.gv 2)).getD n []) % 2 ^ 32) ∧
        (∀ i n, slotRows (e.gs.headD 0) ≤ i → i < 128 → n < 192 → s3.tile c a i n = s.tile c a i n) ∧
        (∀ b : Fin 16, b ≠ a → (s3.core c).mx.tiles[b] = (s.core c).mx.tiles[b]) ∧ (s3.core c).pool = (s.core c).pool ∧ s3.mem = s.mem) ∧
    ((s.core c).slots[t].full = false → exec (.matrixStart c 0) s = .next s) ∧
    ((s.core c).slots[t].full = true → (s.core c).slots[t].tag ≠ (s.core c).slots[t].exp →
      ∃ s1, exec (.matrixStart c 0) s = .next s1 ∧ (s1.core c).slots[t] = (s.core c).slots[t].setHalt true ∧
        (s1.core c).mx.queue = [{ e with halted := some (s.core c).slots[t].tag, told := false }] ∧ (s1.core c).locks = [] ∧ s1.mem = s.mem)) ∧
  (∀ (s : State) (c : Fin 64) (e : MEnt) (a b d : Fin 32) (s2 : State), MatrixAlone (.maLdw a b d) s c e →
    ∃ s1, exec (.matrixStart c 0) s = .next s1 ∧
      (s1.core c).locks = [⟨e.id, some (s.core c).view.asid, e.fillRange.1, e.fillRange.2, false⟩] ∧
      (State.fillRun c { e with started := true } e.fillLen 0 s1 = (s2, e.fillLen, none) →
        ∃ s3 s4, exec (.lockClear c 0) s1 = .next s3 ∧ exec (.matrixComplete c 0) s3 = .next s4 ∧ (s3.core c).locks = (s2.core c).locks.filter (·.op ≠ e.id) ∧
          (s4.core c).col = (s2.core c).col ∧ (s4.core c).mx.tiles = (s2.core c).mx.tiles ∧ s4.mem = s2.mem))

/-- ACQ retires once the reads it orders have returned, and otherwise waits; REL retires with its release open (its scope
and place kept for a store that becomes a record later), ENG 0x01 where a store of the thread left a record; FEN retires
once both halves are done; EFEN retires once no selected asynchronous work of the thread is open, with ENG 0x02 where it
left a record. None changes memory, the pool or a g register. (R133, R134, R147, R148, R149, R150, R151, R152.) -/
def Obligations.OrderingWords : Prop :=
  (∀ (s : State) (k : Fin 8), s.Issues { maj := 15 } [] →
    (k = 0 → s.Retires (.acq k) 2 id ∧ s.Retires (.rel k) 2 id) ∧
    (s.acqWaits k.val = false → exec (.acq k) s = .next ((s.acquired s.cc s.cr k.val).upMe fun t => t.retire 2)) ∧
    (s.acqWaits k.val = true → exec (.acq k) s = .next (s.upMe fun t => { t with why := 10, obj := 0 })) ∧
    (0 < k.val → (3 ≤ k.val → s.storeRecord s.cc s.cr = false ∧ s.storeLost s.cc s.cr = false) → (k.val = 5 → s.hostup = true) →
      ∃ m : RelMark, m.word = s.me.here ∧ m.nth = s.me.issued + 1 ∧ k.val ≤ m.scope ∧
        s.Retires (.rel k) 2 fun t => { t with relUpto := some s.nextOp, relMark := some m }) ∧
    (3 ≤ k.val → s.storeRecord s.cc s.cr = true → exec (.rel k) s = s.trap cENG 1) ∧
    (s.release k.val = .go → s.acqWaits k.val = false → exec (.fen k) s = .next ((s.acquired s.cc s.cr k.val).upMe fun t => t.retire 2)) ∧
    (s.release k.val = .wait → exec (.fen k) s = .next (s.upMe fun t => { t with why := 10, obj := 0 }))) ∧
  (∀ (s : State) (k : Fin 8), (s.acquired s.cc s.cr k.val).mem = s.mem ∧ (s.acquired s.cc s.cr k.val).me.g = s.me.g ∧
    (s.acquired s.cc s.cr k.val).myCore.pool = s.myCore.pool) ∧
  (∀ (s : State) (f : Fin 32), s.Issues { maj := 16 } [] →
    (efenSel f 1 = true → s.myCore.haltedOf s.cr = none) →
    (s.asyncBusy s.cc s.cr (efenSel f) = false → s.myCore.asyncRec s.cr (efenSel f) = false → s.Retires (.efen f) 2 id) ∧
    (s.asyncBusy s.cc s.cr (efenSel f) = false → s.myCore.asyncRec s.cr (efenSel f) = true → exec (.efen f) s = s.trap cENG 2) ∧
    (s.asyncBusy s.cc s.cr (efenSel f) = true → exec (.efen f) s = .next (s.upMe fun t => { t with why := 10, obj := 0 })))

/-- TLB.INV with no store of its thread outstanding posts one invalidation and retires, else waits; TLB_INV_COMPLETE removes
exactly the entries that its kind drops from every TLB of every core in its scope, and is done once no access uses them;
TLB.SYNC waits while an invalidation of its thread is not done, then takes them away and retires. Memory, pools and g
registers stay. PG.PROBE puts the leaf of its address into gD (frame hidden outside T), the code of a window address, or the
level and detail of a PAGE stop, and changes no memory; PG.PIN waits with WHY 13 while the leaf is BUSY and, having set BUSY
itself, while accesses use the leaf (that it sets BUSY only then is the model's choice, log 114); then it puts the old PIN
bit into gD and writes the new one, BUSY clear, into every entry of the leaf's run and nowhere else. On a page that a read
reaches and whose record is in reach, FC.READ puts the count of its first frame into gD; FC.INC adds unless the sum passes
0x0FFFFFFF, FC.DEC subtracts unless it would go below 0, a refused one setting bit 63 and writing nothing; gD takes the old
count, with bit 62 where FC.DEC reaches 0 (that a refused FC.DEC on COUNT 0 leaves bit 62 clear is the model's choice, log
126); only the 4 bytes of the record change. A BUSY leaf is waited for with WHY 13, and a page in T2 raises PAGE 0x08 in
each. (R165, R169, R182, R183, R184, R185, R187, R188.) -/
def Obligations.TranslationWords : Prop :=
  ((∀ (s : State) (a b : Fin 32) (k : Fin 4) (c : Fin 8), s.Issues { maj := 17, priv := true } [a, b] →
    (s.me.stores = [] → exec (.tlbInv a b k c) s = .next ({ s with nextOp := s.nextOp + 1, invals := s.invals ++
      [(⟨s.nextOp, some (s.cc, s.cr), c.val, s.cc.val / 16, s.cc.val, k.val, (s.me.get a).toNat, bits (s.me.get b).toNat 0 12,
        bits (s.me.get b).toNat 16 32, false⟩ : Inval)] }.upMe fun t => t.retire 2)) ∧
    (s.me.stores ≠ [] → exec (.tlbInv a b k c) s = .next (s.upMe fun t => { t with why := 10, obj := 0 }))) ∧
  (∀ s : State, s.Issues { maj := 17, priv := true } [] →
    ((∃ v ∈ s.invals, v.owner = some s.cur ∧ v.done = false) → exec .tlbSync s = .next s) ∧
    ((∀ v ∈ s.invals, v.owner = some s.cur → v.done = true) → ∃ s', exec .tlbSync s = .next s' ∧
      s'.invals = s.invals.filter (fun v => v.owner ≠ some s.cur) ∧ s'.mem = s.mem ∧ s'.me = s.me.retire 2 ∧
      ∀ c : Fin 64, (s'.core c).pool = (s.core c).pool)) ∧
  (∀ (s : State) (i : Nat) (v : Inval), s.invals[i]? = some v →
    ∃ s', exec (.tlbInvComplete i) s = .next s' ∧ s'.mem = s.mem ∧
      (∀ c : Fin 64, v.covers c = true → (s'.core c).ctlb = (s.core c).ctlb.filter (fun t => !(invDrops v.kind v.addr v.asid v.count t)) ∧
        ∀ p : Fin 6, (s'.core c).ptlb[p] = (s.core c).ptlb[p].filter fun t => !(invDrops v.kind v.addr v.asid v.count t)) ∧
      (∀ c : Fin 64, v.covers c = false → (s'.core c).ctlb = (s.core c).ctlb ∧ (s'.core c).ptlb = (s.core c).ptlb) ∧
      (s.using v = true → s'.invals = s.invals) ∧
      (s.using v = false → v.owner ≠ none → s'.invals = s.invals.set i { v with done := true }) ∧
      (s.using v = false → v.owner = none → s'.invals = s.invals.eraseIdx i ∧ s'.reply = some ⟨2, 0, []⟩) ∧
      ∀ (c : Fin 64) (r : Role), (s'.thr c r).g = (s.thr c r).g)) ∧
  ((∀ (s : State) (a d : Fin 32), s.Issues { maj := 18 } [a] → s.acqOpen s.cc s.cr = false →
    (inWindow (s.me.get a).toNat = true → s.Retires (.pgProbe a d) 2 fun t => t.put d 0x8000000000004000) ∧
    (∀ pa e, inWindow (s.me.get a).toNat = false → s.walk (dieOf s.cc) s.asid (s.me.get a).toNat = .leaf pa e →
      ∃ s', exec (.pgProbe a d) s = .next s' ∧
        s'.me = (s.me.put d (word (if s.cr = .T then e else setBits e 20 40 0))).retire 2 ∧ s'.mem = s.mem ∧
        s'.myCore.pool = s.myCore.pool) ∧
    (∀ l x, inWindow (s.me.get a).toNat = false → s.walk (dieOf s.cc) s.asid (s.me.get a).toNat = .stop l cPAGE x → x ≠ 0x0B →
      s.Retires (.pgProbe a d) 2 fun t => t.put d (word (2 ^ 63 + 256 * x + 16 * l)))) ∧
  (∀ (s : State) (a d : Fin 32) (c : Fin 2) (pa e : Nat), s.Issues { maj := 18, priv := true } [a] → s.acqOpen s.cc s.cr = false →
    (∀ p o, s.me.stage ≠ .pin p o) →
    inWindow (s.me.get a).toNat = false → s.walk (dieOf s.cc) s.asid (s.me.get a).toNat = .leaf pa e → leafTier e ≠ 3 →
    (leafBusy e = true → exec (.pgPin a d c) s = .next (s.upMe fun t => { t with why := 13, obj := 0 })) ∧
    (leafBusy e = false → s.leafInUse e = true → ∃ s', exec (.pgPin a d c) s = .next s' ∧ s'.me.stage = .pin pa e ∧ s'.me.why = 13 ∧
      s'.me.g = s.me.g ∧ s'.mem = (s.writeLeaf pa e (setBits e 18 1 1)).mem ∧ ∀ k : Fin 64, (s'.core k).pool = (s.core k).pool) ∧
    (leafBusy e = false → s.leafInUse e = false → ∃ s', exec (.pgPin a d c) s = .next s' ∧
      s'.me = (s.me.put d (if leafPin e then 1 else 0)).retire 2 ∧
      s'.mem = (s.writeLeaf pa e (setBits (setBits e 19 1 (1 - c.val)) 18 1 0)).mem ∧ ∀ k : Fin 64, (s'.core k).pool = (s.core k).pool)) ∧
  (∀ (s : State) (a d : Fin 32) (c : Fin 2) (pa e : Nat), s.Issues { maj := 18, priv := true } [a] → s.me.stage = .pin pa e →
    (s.leafInUse e = true → exec (.pgPin a d c) s = .next (s.upMe fun t => { t with why := 13, obj := 0 })) ∧
    (s.leafInUse e = false → ∃ s', exec (.pgPin a d c) s = .next s' ∧
      s'.me = (s.me.put d (if leafPin e then 1 else 0)).retire 2 ∧
      s'.mem = (s.writeLeaf pa e (setBits (setBits e 19 1 (1 - c.val)) 18 1 0)).mem ∧ ∀ k : Fin 64, (s'.core k).pool = (s.core k).pool)) ∧
  (∀ (s : State) (pa e x n f : Nat), n = runLen (leafSize e) → f = pa / 8 / n * n * 8 →
    (∀ j, j < n → (s.writeLeaf pa e x).physNat (f + 8 * j) 8 = x % 2 ^ 64) ∧
    ∀ a, a < f ∨ f + 8 * n ≤ a → (s.writeLeaf pa e x).mem.get a = s.mem.get a)) ∧
  (∀ (s : State) (a b d : Fin 32) (pa e f va : Nat), s.asyncOpen = false → va = (s.me.get a).toNat → inWindow va = false →
  s.walk (dieOf s.cc) s.asid va = .leaf pa e → f = leafFrame e →
  (leafBusy e = true → (s.Issues { maj := 19, priv := true } [a] → exec (.fcRead a d) s = s.block 13 0) ∧
    (s.Issues { maj := 19, priv := true } [a, b] → exec (.fcInc a b d) s = s.block 13 0 ∧ exec (.fcDec a b d) s = s.block 13 0)) ∧
  (leafBusy e = false → leafAccess .read false e = none → leafTier e = 2 →
    (s.Issues { maj := 19, priv := true } [a] → exec (.fcRead a d) s = s.trapX { cause := cPAGE, detail := 8, va := va, kind := 1 }) ∧
    (s.Issues { maj := 19, priv := true } [a, b] → exec (.fcInc a b d) s = s.trapX { cause := cPAGE, detail := 8, va := va, kind := 1 } ∧
      exec (.fcDec a b d) s = s.trapX { cause := cPAGE, detail := 8, va := va, kind := 1 })) ∧
  (leafBusy e = false → leafAccess .read false e = none → leafTier e ≠ 2 → s.lost (dieOf s.cc) (s.frameRec f) = none →
    (s.Issues { maj := 19, priv := true } [a] → s.Retires (.fcRead a d) 2 fun t => t.put d (word (s.frameCount f))) ∧
    (s.Issues { maj := 19, priv := true } [a, b] →
      (2 ^ 28 ≤ s.frameCount f + (s.me.get b).toNat →
        s.Retires (.fcInc a b d) 2 fun t => t.put d (word (s.frameCount f + 2 ^ 63))) ∧
      (s.frameCount f + (s.me.get b).toNat < 2 ^ 28 → ∃ s', exec (.fcInc a b d) s = .next s' ∧
        s'.me = (s.me.put d (word (s.frameCount f))).retire 2 ∧
        (s.me.get b ≠ 0 → s'.mem = s.mem.write (s.sysBase 1 + 4 * f) (leBytes 4 (s.frameCount f + (s.me.get b).toNat))) ∧
        (s.me.get b = 0 → s'.mem = s.mem)) ∧
      (s.frameCount f < (s.me.get b).toNat →
        s.Retires (.fcDec a b d) 2 fun t => t.put d (word (s.frameCount f + 2 ^ 63))) ∧
      ((s.me.get b).toNat ≤ s.frameCount f → ∃ s', exec (.fcDec a b d) s = .next s' ∧
        s'.me = (s.me.put d (word (s.frameCount f + if (s.me.get b).toNat = s.frameCount f then 2 ^ 62 else 0))).retire 2 ∧
        (s.me.get b ≠ 0 → s'.mem = s.mem.write (s.sysBase 1 + 4 * f) (leBytes 4 (s.frameCount f - (s.me.get b).toNat))) ∧
        (s.me.get b = 0 → s'.mem = s.mem)))))

/-- A copy-on-write break of a page of any size, in two events (log 114, the model's choice; of a page in T2, log 127). Its
first event sets BUSY in the leaf with COUNT read, and takes a frame of the size from the list of the region unless COUNT is
1; with no frame it ends with the SIZE of a COWX. Its second, once no access uses the leaf, clears BUSY and COW: with COUNT
read as 1 alone; else the page is copied and COUNT read again: above 1 it is taken down by 1, the new frame gets COUNT 1 and
the leaf names it with its tier (log 109); at 1 the frame goes back to its list. A break whose frames are out of reach ends,
BUSY clear and its frame given back (log 135, the model's). It waits while the leaf is BUSY for another, and ends where COW
is clear. PG.MIG puts into gD the status of its checks (5, 10, 4, then 6, 9, 1, 2, 7 in the order and with the target frame
of log entries 31 and 32), 3 where a page that moves into T0 from another tier does not fit the frame budget or its list is
empty; else it takes a target frame, charges the region, sets BUSY in the leaf and starts a move, its .w form waiting for
the status. The completion waits while the old frame is used or the reclaim ring has no room, in one event (log 114) copies
the page, moves COUNT to the new frame (1 for a page from T2, log 140), takes the charge of a page that leaves T0 off, and
leaves the leaf not BUSY with the new frame and tier; it ends with status 8 where the walk stops or a frame is out of reach,
BUSY clear and the charge taken back (log 135). The cases of logs 114, 135 and 140 are the model's choice. (R165, R169,
R170, R171, R173, R175, R186, R377.) -/
def Obligations.PagesAndFrames : Prop :=
  (∀ (s : State) (d : Fin 4) (i : Nat) (m : Move) (pa e : Nat), (s.die d).moves[i]? = some m → m.cow = true → m.ended = none →
  s.walk d m.asid m.va = .leaf pa e →
  (m.locked = none → leafCow e = false → ∃ s', exec (.cowBreak d i) s = .next s' ∧ s'.mem = s.mem ∧
    (s'.die d).moves = (s.die d).moves.filter (·.id ≠ m.id)) ∧
  (m.locked = none → leafCow e = true → leafBusy e = true → exec (.cowBreak d i) s = .next s) ∧
  (m.locked = none → leafCow e = true → leafBusy e = false → s.frameCount (leafFrame e) = 1 →
    ∃ s', exec (.cowBreak d i) s = .next s' ∧ s'.mem = (s.writeLeaf pa e (setBits e 18 1 1)).mem ∧
      (s'.die d).moves = (s.die d).moves.map fun x => if x.id = m.id then { x with locked := some 1, frame := 0, tier := leafSize e, pa := pa } else x) ∧
  (∀ f s1, m.locked = none → leafCow e = true → leafBusy e = false → s.frameCount (leafFrame e) ≠ 1 →
    s.takeFrame d (s.cowList d m.region (leafSize e)) = some (f, s1) →
    ∃ s', exec (.cowBreak d i) s = .next s' ∧ s'.mem = (s1.writeLeaf pa e (setBits e 18 1 1)).mem ∧
      (s'.die d).moves = (s.die d).moves.map fun x =>
        if x.id = m.id then { x with locked := some (s.frameCount (leafFrame e)), frame := f, tier := leafSize e, pa := pa } else x) ∧
  (m.locked = none → leafCow e = true → leafBusy e = false → s.frameCount (leafFrame e) ≠ 1 →
    s.takeFrame d (s.cowList d m.region (leafSize e)) = none →
    ∃ s', exec (.cowBreak d i) s = .next s' ∧ s'.mem = s.mem ∧
      (s'.die d).moves = (s.die d).moves.map fun x => if x.id = m.id then { x with ended := some (leafSize e) } else x) ∧
  (∀ c, m.locked = some c → c ≠ 1 → s.lost d (4096 * leafFrame e) ≠ none ∨ s.lost d (4096 * m.frame) ≠ none → ∃ s', exec (.cowBreak d i) s = .next s' ∧
    s'.mem = ((s.giveFrame d (s.cowList d m.region m.tier) m.frame).unbusy m.pa).mem ∧ (s'.die d).moves = (s.die d).moves.filter (·.id ≠ m.id)) ∧
  (∀ c, m.locked = some c → c = 1 ∨ s.lost d (4096 * leafFrame e) = none ∧ s.lost d (4096 * m.frame) = none → s.leafInUse e = true →
    exec (.cowBreak d i) s = .next s) ∧
  (m.locked = some 1 → s.leafInUse e = false → ∃ s', exec (.cowBreak d i) s = .next s' ∧
    s'.mem = (s.writeLeaf pa e (setBits (setBits e 18 1 0) 8 1 0)).mem ∧ (s'.die d).moves = (s.die d).moves.filter (·.id ≠ m.id)) ∧
  (∀ c s1, m.locked = some c → c ≠ 1 → s.lost d (4096 * leafFrame e) = none → s.lost d (4096 * m.frame) = none → s.leafInUse e = false → s1 = s.copyPage (leafFrame e) m.frame (sizeFrames (leafSize e)) →
    (1 < s1.frameCount (leafFrame e) → ∃ s', exec (.cowBreak d i) s = .next s' ∧
      s'.mem = (((s1.setFrameCount (leafFrame e) (s1.frameCount (leafFrame e) - 1)).setFrameCount m.frame 1).writeLeaf pa e
        (setBits (setBits (setBits (setBits e 18 1 0) 8 1 0) 20 40 m.frame) 5 2 (tierOf (4096 * m.frame)))).mem ∧
      (s'.die d).moves = (s.die d).moves.filter (·.id ≠ m.id)) ∧
    (s1.frameCount (leafFrame e) ≤ 1 → ∃ s', exec (.cowBreak d i) s = .next s' ∧
      s'.mem = ((s1.giveFrame d (s1.cowList d m.region (leafSize e)) m.frame).writeLeaf pa e (setBits (setBits e 18 1 0) 8 1 0)).mem ∧
      (s'.die d).moves = (s.die d).moves.filter (·.id ≠ m.id))) ∧
  (∀ f x, (s.setFrameCount f x).mem = s.mem.write (s.sysBase 1 + 4 * f) (leBytes 4 (x % 2 ^ 28))) ∧
  ∀ f g n, (s.copyPage f g n).mem = s.mem.copy (4096 * f) (4096 * g) (4096 * n)) ∧
  ((∀ (s : State) (a b d : Fin 32) (w : Fin 2) (va tier stack : Nat), s.Issues { maj := 18 } [a, b] → (∀ i, s.me.stage ≠ .mig i) →
    s.acqOpen s.cc s.cr = false → va = (s.me.get a).toNat → tier = bits (s.me.get b).toNat 0 2 → stack = bits (s.me.get b).toNat 2 4 →
    (tier = 3 → s.Retires (.pgMig a b d w) 2 fun t => t.put d 5) ∧
    (tier < 3 → (8 ≤ stack ∧ stack ≠ 15) ∨ (tier ≠ 0 ∧ stack ≠ 15) → s.Retires (.pgMig a b d w) 2 fun t => t.put d 10) ∧
    (tier < 3 → stack = 15 ∨ (tier = 0 ∧ stack < 8) →
      (inWindow va = true → s.Retires (.pgMig a b d w) 2 fun t => t.put d 4) ∧
      (∀ l c x, inWindow va = false → s.walk (dieOf s.cc) s.asid va = .stop l c x → s.Retires (.pgMig a b d w) 2 fun t => t.put d 4) ∧
      ∀ pa e st n k, inWindow va = false → s.walk (dieOf s.cc) s.asid va = .leaf pa e → n = sizeFrames (leafSize e) →
        k = (stackOf (leafFrame e * 4096)).val →
        st = (if leafTier e = 3 then 4 else if leafBusy e = true then 6
          else if tier ≠ 0 ∧ (leafMs e = true ∨ leafSk e = true) then 9
          else if leafTier e = tier ∧ (tier = 0 → if stack < 8 then k = stack else k / 2 = (dieOf s.cc).val) then 1
          else if leafPin e = true then 2
          else if leafCow e = true ∧ tierOf (leafFrame e * 4096) ≤ 1 ∧ 1 < s.frameCount (leafFrame e) then 7 else 0) →
        (st ≠ 0 → s.Retires (.pgMig a b d w) 2 fun t => t.put d (word st)) ∧
        (st = 0 → tier = 0 → leafTier e ≠ 0 → fits 6 20 136 n (s.lineage (dieOf s.cc) s.myCore.view.region) = false →
          s.Retires (.pgMig a b d w) 2 fun t => t.put d 3) ∧
        (st = 0 → (tier = 0 → leafTier e ≠ 0 → fits 6 20 136 n (s.lineage (dieOf s.cc) s.myCore.view.region) = true) →
          (s.targetFrame (dieOf s.cc) tier stack = none → s.Retires (.pgMig a b d w) 2 fun t => t.put d 3) ∧
          ∀ f s1, s.targetFrame (dieOf s.cc) tier stack = some (f, s1) →
            ∃ s', exec (.pgMig a b d w) s = .next s' ∧
              (s'.die (dieOf s.cc)).moves = (s.die (dieOf s.cc)).moves ++ [{
                id := s1.nextOp, asid := s.asid, va := va / (4096 * n) * (4096 * n), cow := false, tier := tier, frame := f, locked := none, pa := pa,
                region := s.myCore.view.region, waits := w.val == 1, ended := none }] ∧
              s'.mem = (({ s1 with nextOp := s1.nextOp + 1 }.charge (dieOf s.cc) s.myCore.view.region 136
                (if tier = 0 ∧ leafTier e ≠ 0 then n else 0)).writeLeaf pa e (setBits e 18 1 1)).mem ∧
              (w = 0 → s'.me.get d = 0 ∧ s'.me.why = 0) ∧ (w = 1 → s'.me.stage = .mig s1.nextOp ∧ s'.me.why = 10 ∧ s'.me.g = s.me.g)))) ∧
  (∀ (s : State) (a b d : Fin 32) (w : Fin 2) (k : Fin 4) (m : Move), s.Issues { maj := 18 } [a, b] → s.me.stage = .mig m.id →
    m ∈ (s.die k).moves → (∀ (j : Fin 4), ∀ x ∈ (s.die j).moves, x.id = m.id → j = k ∧ x = m) →
    (m.ended = none → exec (.pgMig a b d w) s = .next (s.upMe fun t => { t with why := 10, obj := 0 })) ∧
    (∀ st, m.ended = some st → ∃ s', exec (.pgMig a b d w) s = .next s' ∧ s'.me = (s.me.put d (word st)).retire 2 ∧ s'.mem = s.mem ∧
      (s'.die k).moves = (s.die k).moves.filter (·.id ≠ m.id))) ∧
  (∀ (s : State) (d : Fin 4) (i : Nat) (m : Move) (ends : Nat → List Move), (s.die d).moves[i]? = some m → m.cow = false → m.ended = none →
    (∀ st, ends st = (s.die d).moves.filterMap fun x => if x.id ≠ m.id then some x else if m.waits then some { x with ended := some st } else none) →
    (∀ l c x, s.walk d m.asid m.va = .stop l c x → ∃ s', exec (.pageMigrationComplete d i) s = .next s' ∧
      s'.mem = ((s.charge d m.region 136 (if m.tier = 0 ∧ leafTier (s.physNat m.pa 8) ≠ 0 then
        -(sizeFrames (leafSize (s.physNat m.pa 8)) : Int) else 0)).unbusy m.pa).mem ∧ (s'.die d).moves = ends 8) ∧
    (∀ pa e, s.walk d m.asid m.va = .leaf pa e →
      (s.lost d (leafFrame e * 4096) ≠ none ∨ s.lost d (m.frame * 4096) ≠ none → ∃ s', exec (.pageMigrationComplete d i) s = .next s' ∧
        s'.mem = ((s.charge d m.region 136 (if m.tier = 0 ∧ leafTier e ≠ 0 then -(sizeFrames (leafSize e) : Int) else 0)).writeLeaf pa e
          (setBits e 18 1 0)).mem ∧ (s'.die d).moves = ends 8) ∧
      (s.lost d (leafFrame e * 4096) = none → s.lost d (m.frame * 4096) = none →
        (s.leafInUse e = true → exec (.pageMigrationComplete d i) s = .next s) ∧
        (s.leafInUse e = false → s.reclaim d (leafFrame e) = none → exec (.pageMigrationComplete d i) s = .next s) ∧
        ∀ s1, s.leafInUse e = false → s.reclaim d (leafFrame e) = some s1 →
          ∃ s' s2, exec (.pageMigrationComplete d i) s = .next s' ∧ (s'.die d).moves = ends 0 ∧
            s2 = (s1.copyPage (leafFrame e) m.frame (sizeFrames (leafSize e))).fire (4096 * leafFrame e) (4096 * sizeFrames (leafSize e)) ∧
            s2.mem = s1.mem.copy (4096 * leafFrame e) (4096 * m.frame) (4096 * sizeFrames (leafSize e)) ∧
            (let c := if tierOf (leafFrame e * 4096) ≤ 1 then s.frameCount (leafFrame e) else 1
             let s3 := if tierOf (leafFrame e * 4096) ≤ 1 then s2.setFrameCount (leafFrame e) 0 else s2
             let s4 := if tierOf (m.frame * 4096) ≤ 1 then s3.setFrameCount m.frame c else s3
             s'.mem = ((s4.charge d m.region 136 (if leafTier e = 0 ∧ m.tier ≠ 0 then -(sizeFrames (leafSize e) : Int) else 0)).writeLeaf pa e
               (setBits (setBits (setBits e 18 1 0) 20 40 m.frame) 5 2 m.tier)).mem) ∧
            (∀ j, j < runLen (leafSize e) → s'.physNat (pa / 8 / runLen (leafSize e) * runLen (leafSize e) * 8 + 8 * j) 8 =
              setBits (setBits (setBits e 18 1 0) 20 40 m.frame) 5 2 m.tier)))))

/-- BAR.INIT writes a MODE 1 word with the given SCOPE, counts, byte mode and standing count, phase 0 and EXPD kept, with gD
0; a configuration that could never complete gives 1, a waited slot 2, with nothing written. SEM.INIT writes a MODE 2 word
with SVAL. BAR.STAT reads the word and its clearing form clears OVRN, ERR and OVL only. (R280, R281, R287, R290, R292.) -/
def Obligations.SlotSetup : Prop :=
  (∀ (s : State) (a b d : Fin 32) (k : Fin 8) (n : Fin 32) (c : Nat), s.Issues { maj := 39 } [a, b] → s.me.stage = .none → s.myCore.postRec s.cr = false →
    n.val = (s.me.get a).toNat % 32 → c = (s.me.get b).toNat →
    (s.myCore.slotWaited n.val = true → s.Retires (.barInit a b d k) 2 fun t => t.put d 2) ∧
    (s.myCore.slotWaited n.val = false → bits c 16 2 = 3 ∨ (bits c 0 16 = 0 ∧ (bits c 16 2 = 0 ∨ (bits c 16 2 = 1 ∧ bits c 32 32 = 0))) →
      s.Retires (.barInit a b d k) 2 fun t => t.put d 1) ∧
    (s.myCore.slotWaited n.val = false → bits c 16 2 < 3 →
      0 < bits c 0 16 ∨ bits c 16 2 = 2 ∨ (bits c 16 2 = 1 ∧ 0 < bits c 32 32) →
      ∃ s' w, exec (.barInit a b d k) s = .next s' ∧ s'.me = (s.me.put d 0).retire 2 ∧ s'.mem = s.mem ∧
        s'.myCore.pool = s.myCore.pool.write (0x780000 + 64 * n.val) (leBytes 32 w) ∧ bits w 62 2 = 1 ∧ bits w 59 3 = k.val ∧
        bits w 64 16 = bits c 0 16 ∧ bits w 80 16 = bits c 0 16 ∧ bits w 57 2 = bits c 16 2 ∧ bits w 56 1 = bits c 18 1 ∧
        bits w 96 32 = bits c 32 32 ∧ bits w 128 64 = (if bits c 16 2 = 1 then bits c 32 32 else 0) ∧
        bits w 53 1 = (if bits c 16 2 = 2 then 0 else 1) ∧ bits w 16 16 = 0 ∧ bits w 54 2 = 0 ∧
        bits w 52 1 = bits (s.myCore.slotW n) 52 1)) ∧
  (∀ (s : State) (a b d : Fin 32) (k : Fin 8) (n : Fin 32), s.Issues { maj := 40 } [a, b] → s.me.stage = .none → s.myCore.postRec s.cr = false →
    n.val = (s.me.get a).toNat % 32 →
    (s.myCore.slotWaited n.val = true → s.Retires (.semInit a b d k) 2 fun t => t.put d 2) ∧
    (s.myCore.slotWaited n.val = false →
      ∃ s' w, exec (.semInit a b d k) s = .next s' ∧ s'.me = (s.me.put d 0).retire 2 ∧ s'.mem = s.mem ∧
        s'.myCore.pool = s.myCore.pool.write (0x780000 + 64 * n.val) (leBytes 32 w) ∧ bits w 62 2 = 2 ∧ bits w 59 3 = k.val ∧
        bits w 192 64 = (s.me.get b).toNat ∧ bits w 52 1 = bits (s.myCore.slotW n) 52 1)) ∧
  (∀ (s : State) (a d : Fin 32) (k : Fin 2) (n : Fin 32), s.Issues { maj := 39 } [a] → s.me.stage = .none → s.myCore.postRec s.cr = false → n.val = (s.me.get a).toNat % 32 →
    (k = 0 → s.Retires (.barStat a d k) 2 fun t => t.put d (word (s.myCore.slotW n))) ∧
    (k = 1 → ∃ s' w, exec (.barStat a d k) s = .next s' ∧ s'.me = (s.me.put d (word (s.myCore.slotW n))).retire 2 ∧ s'.mem = s.mem ∧
      s'.myCore.pool = s.myCore.pool.write (0x780000 + 64 * n.val) (leBytes 32 w) ∧ bits w 51 1 = 0 ∧ bits w 54 2 = 0 ∧
      ∀ i, i < 256 → i ≠ 51 → i ≠ 54 → i ≠ 55 → bits w i 1 = bits (s.myCore.slotW n) i 1))

/-- An arrival at an own slot counts ACNT down, or completes the phase when nothing else is expected (PHASE up by one, ACNT
and the byte count reloaded), gD taking the old PHASE; BAR.EXPB adds to the byte count; a target of another member or a
handle posts an event, with a release at the SCOPE of the slot open where that is not 0 (ENG 0x01 at a scope of .di or wider
while a store of the thread is a record, a wait while one may become a record or, at .sy, while the host link is down); kind
0 raises TYPE 0x2E; BAR.WAIT retires with PHASE once its token has passed and else waits with WHY 3; BAR.ARW arrives and
waits. (R267, R280, R282, R284, R288, R289.) -/
def Obligations.BarrierWords : Prop :=
  (∀ (s : State) (a d : Fin 32) (n : Fin 32), s.Issues { maj := 39 } [a] → s.me.stage = .none → s.myCore.postRec s.cr = false → bits (s.me.get a).toNat 0 32 = 2 ^ 30 + n.val →
    s.asyncOpen = false → s.release (bits (s.myCore.slotW n) 59 3) = .go →
    s.postBehind s.cc s.cr s.nextOp (.member s.myCore.teamix n.val) = false → bits (s.myCore.slotW n) 62 2 = 1 →
    ∃ s', exec (.barArr a d) s = .next s' ∧ s'.me = (s.me.put d (word (bits (s.myCore.slotW n) 16 16))).retire 2 ∧ s'.mem = s.mem ∧
      (1 < bits (s.myCore.slotW n) 80 16 → s'.myCore.pool = s.myCore.pool.write (0x780000 + 64 * n.val)
        (leBytes 32 (setBits (s.myCore.slotW n) 80 16 (bits (s.myCore.slotW n) 80 16 - 1)))) ∧
      (bits (s.myCore.slotW n) 80 16 = 1 → bits (s.myCore.slotW n) 53 1 = 1 → bits (s.myCore.slotW n) 128 64 = 0 →
        s.myCore.ovr[n].cur = false → bits (s'.myCore.slotW n) 16 16 = (bits (s.myCore.slotW n) 16 16 + 1) % 65536 ∧
          bits (s'.myCore.slotW n) 80 16 = bits (s.myCore.slotW n) 64 16 ∧ bits (s'.myCore.slotW n) 51 1 = 0 ∧
          bits (s'.myCore.slotW n) 128 64 = if bits (s.myCore.slotW n) 57 2 = 1 then bits (s.myCore.slotW n) 96 32 else 0) ∧
      (∀ x, x < 0x780000 + 64 * n.val ∨ 0x780000 + 64 * n.val + 32 ≤ x → s'.myCore.pool.get x = s.myCore.pool.get x)) ∧
  (∀ (s : State) (a b d : Fin 32) (n : Fin 32), s.Issues { maj := 39 } [a, b] → s.me.stage = .none → s.myCore.postRec s.cr = false → bits (s.me.get a).toNat 0 32 = 2 ^ 30 + n.val →
    s.postBehind s.cc s.cr s.nextOp (.member s.myCore.teamix n.val) = false → bits (s.myCore.slotW n) 62 2 = 1 →
    bits (s.myCore.slotW n) 57 2 = 2 → 0 < bits (s.myCore.slotW n) 80 16 →
    ∃ s', exec (.barExpb a b d) s = .next s' ∧ s'.me = (s.me.put d 0).retire 2 ∧ s'.mem = s.mem ∧
      bits (s'.myCore.slotW n) 128 64 = (bits (s.myCore.slotW n) 128 64 + bits (s.me.get b).toNat 0 32) % 2 ^ 64 ∧
      bits (s'.myCore.slotW n) 53 1 = 1 ∧ bits (s'.myCore.slotW n) 80 16 = bits (s.myCore.slotW n) 80 16) ∧
  (∀ (s : State) (a d : Fin 32) (h m i : Nat), s.Issues { maj := 39 } [a] → s.me.stage = .none → s.myCore.postRec s.cr = false → s.asyncOpen = false →
    (bits (s.me.get a).toNat 0 32 = 2 * 2 ^ 30 + m * 2 ^ 26 + i → m < s.myCore.teamsz → m < 16 → i < 32 →
      (s.targetScope (bits (s.me.get a).toNat 0 32) = 0 → exec (.barArr a d) s = .next (({ s with nextOp := s.nextOp + 1 }.upMyCore fun k =>
        { k with posts := k.posts ++ [(⟨s.nextOp, s.cr, .member m i, .arrive, false⟩ : Post)] }).upMe fun t => (t.put d 0).retire 2)) ∧
      (3 ≤ s.targetScope (bits (s.me.get a).toNat 0 32) → s.storeRecord s.cc s.cr = true → exec (.barArr a d) s = s.trap cENG 0x01)) ∧
    (∀ tg : Target,
      (bits (s.me.get a).toNat 0 32 = 2 * 2 ^ 30 + m * 2 ^ 26 + i ∧ m < s.myCore.teamsz ∧ m < 16 ∧ i < 32 ∧ tg = .member m i) ∨
      (bits (s.me.get a).toNat 0 32 = 3 * 2 ^ 30 + h * 32 ∧ h < 2 ^ 21 ∧
        ((∀ x ∈ s.myCore.hcache, x.handle ≠ h) ∧ tg = .handle h ∨
         ∃ x, s.myCore.hcache.find? (·.handle == h) = some x ∧ tg = .slot x.task x.teamix x.slot)) →
      (0 < s.targetScope (bits (s.me.get a).toNat 0 32) →
        (3 ≤ s.targetScope (bits (s.me.get a).toNat 0 32) → s.storeRecord s.cc s.cr = false ∧ s.storeLost s.cc s.cr = false) →
        (s.targetScope (bits (s.me.get a).toNat 0 32) = 5 → s.hostup = true) →
        ∃ k : RelMark, s.targetScope (bits (s.me.get a).toNat 0 32) ≤ k.scope ∧ k.word = s.me.here ∧
          exec (.barArr a d) s = .next (({ s with nextOp := s.nextOp + 1 }.upMyCore fun k =>
            { k with posts := k.posts ++ [(⟨s.nextOp, s.cr, tg, .arrive, false⟩ : Post)] }).upMe fun t =>
              ({ t with relUpto := some s.nextOp, relMark := some k }.put d 0).retire 2)) ∧
      (3 ≤ s.targetScope (bits (s.me.get a).toNat 0 32) → s.storeRecord s.cc s.cr = true → exec (.barArr a d) s = s.trap cENG 0x01) ∧
      (3 ≤ s.targetScope (bits (s.me.get a).toNat 0 32) → s.storeRecord s.cc s.cr = false →
        s.storeLost s.cc s.cr = true ∨ s.targetScope (bits (s.me.get a).toNat 0 32) = 5 ∧ s.hostup = false →
        exec (.barArr a d) s = .next (s.upMe fun t => { t with why := 10, obj := 0 }))) ∧
    (bits (s.me.get a).toNat 30 2 = 0 → exec (.barArr a d) s = s.trap cTYPE 0x2E) ∧
    (bits (s.me.get a).toNat 0 32 = 3 * 2 ^ 30 + h * 32 → h < 2 ^ 21 → (∀ x ∈ s.myCore.hcache, x.handle ≠ h) →
      s.targetScope (bits (s.me.get a).toNat 0 32) = 0 → exec (.barArr a d) s = .next (({ s with nextOp := s.nextOp + 1 }.upMyCore fun k =>
        { k with posts := k.posts ++ [(⟨s.nextOp, s.cr, .handle h, .arrive, false⟩ : Post)] }).upMe fun t => (t.put d 0).retire 2))) ∧
  (∀ (s : State) (a b d : Fin 32) (n : Fin 32), s.Issues { maj := 39 } [a, b] → s.me.stage = .none → s.myCore.postRec s.cr = false → n.val = (s.me.get a).toNat % 32 →
    (bits (s.myCore.slotW n) 62 2 ≠ 1 → exec (.barWait a b d) s = s.trap cTYPE 0x2F) ∧
    (bits (s.myCore.slotW n) 62 2 = 1 →
      (passed (bits (s.myCore.slotW n) 16 16) (bits (s.me.get b).toNat 0 16) = true →
        overrunDetail n (s.myCore.bslot n) (bits (s.me.get b).toNat 0 16) = none → s.acqWaits (bits (s.myCore.slotW n) 59 3) = false →
        ∃ s', exec (.barWait a b d) s = .next s' ∧ s'.me = (s.me.put d (word (bits (s.myCore.slotW n) 16 16))).retire 2 ∧
          s'.mem = s.mem ∧ s'.myCore.pool = s.myCore.pool) ∧
      (passed (bits (s.myCore.slotW n) 16 16) (bits (s.me.get b).toNat 0 16) = false →
        exec (.barWait a b d) s = .next (s.upMe fun t => { t with stage := .bwait n.val (bits (s.me.get b).toNat 0 16), why := 3, obj := n.val })))) ∧
  (∀ (s : State) (a d : Fin 32) (n : Fin 32), s.Issues { maj := 39 } [a] → s.me.stage = .none → s.myCore.postRec s.cr = false → n.val = (s.me.get a).toNat % 32 →
    s.asyncOpen = false → s.release (bits (s.myCore.slotW n) 59 3) = .go →
    s.postBehind s.cc s.cr s.nextOp (.member s.myCore.teamix n.val) = false → bits (s.myCore.slotW n) 62 2 = 1 →
    (1 < bits (s.myCore.slotW n) 80 16 → ∃ s', exec (.barArw a d) s = .next s' ∧
      s'.me.stage = .arw n.val (bits (s.myCore.slotW n) 16 16) ∧ s'.me.why = 3 ∧ s'.me.g = s.me.g ∧ s'.mem = s.mem ∧
      bits (s'.myCore.slotW n) 80 16 = bits (s.myCore.slotW n) 80 16 - 1) ∧
    (bits (s.myCore.slotW n) 80 16 = 1 → bits (s.myCore.slotW n) 53 1 = 1 → bits (s.myCore.slotW n) 128 64 = 0 →
      s.myCore.ovr[n].cur = false → s.acqWaits (bits (s.myCore.slotW n) 59 3) = false →
      ∃ s', exec (.barArw a d) s = .next s' ∧
        s'.me = (s.me.put d (word ((bits (s.myCore.slotW n) 16 16 + 1) % 65536))).retire 2 ∧ s'.mem = s.mem))

/-- At an own semaphore slot with no waiter, SEM.SET writes SVAL and SEM.ADD adds with 64-bit saturation, gD taking the old
value and no other byte of the pool changing; SEM.WGE of a threshold not above SVAL puts SVAL into gD and with its
subtracting form lowers SVAL by the threshold; of a higher threshold it joins the queue of waiters with WHY 4. (R280, R292,
R293.) -/
def Obligations.SemaphoreWords : Prop :=
  (∀ (s : State) (a b d : Fin 32) (n : Fin 32), s.Issues { maj := 40 } [a, b] → s.me.stage = .none → s.myCore.postRec s.cr = false → bits (s.me.get a).toNat 0 32 = 2 ^ 30 + n.val →
    s.asyncOpen = false → s.release (bits (s.myCore.slotW n) 59 3) = .go →
    s.postBehind s.cc s.cr s.nextOp (.member s.myCore.teamix n.val) = false → bits (s.myCore.slotW n) 62 2 = 2 → s.myCore.semq = [] →
    (∃ s', exec (.semSet a b d) s = .next s' ∧ s'.me = (s.me.put d (word (bits (s.myCore.slotW n) 192 64))).retire 2 ∧ s'.mem = s.mem ∧
      s'.myCore.pool = s.myCore.pool.write (0x780000 + 64 * n.val) (leBytes 32 (setBits (s.myCore.slotW n) 192 64 (s.me.get b).toNat))) ∧
    (∃ s', exec (.semAdd a b d) s = .next s' ∧ s'.me = (s.me.put d (word (bits (s.myCore.slotW n) 192 64))).retire 2 ∧ s'.mem = s.mem ∧
      s'.myCore.pool = s.myCore.pool.write (0x780000 + 64 * n.val) (leBytes 32 (setBits (s.myCore.slotW n) 192 64
        (ofInt 64 (max (-2 ^ 63) (min (2 ^ 63 - 1) (sint 64 (bits (s.myCore.slotW n) 192 64) + (s.me.get b).toInt)))))))) ∧
  (∀ (s : State) (a b d : Fin 32) (u : Fin 2) (n : Fin 32), s.Issues { maj := 40 } [a, b] → s.me.stage = .none → s.myCore.postRec s.cr = false → n.val = (s.me.get a).toNat % 32 →
    (bits (s.myCore.slotW n) 62 2 ≠ 2 → exec (.semWge a b d u) s = s.trap cTYPE 0x2F) ∧
    (bits (s.myCore.slotW n) 62 2 = 2 → s.myCore.semq = [] →
      ((s.me.get b).toInt ≤ sint 64 (bits (s.myCore.slotW n) 192 64) → s.acqWaits (bits (s.myCore.slotW n) 59 3) = false →
        ∃ s', exec (.semWge a b d u) s = .next s' ∧ s'.me = (s.me.put d (word (bits (s.myCore.slotW n) 192 64))).retire 2 ∧ s'.mem = s.mem ∧
          bits (s'.myCore.slotW n) 192 64 = if u = 1 then
              ofInt 64 (max (-2 ^ 63) (min (2 ^ 63 - 1) (sint 64 (bits (s.myCore.slotW n) 192 64) - (s.me.get b).toInt)))
            else bits (s.myCore.slotW n) 192 64) ∧
      (sint 64 (bits (s.myCore.slotW n) 192 64) < (s.me.get b).toInt →
        ∃ s', exec (.semWge a b d u) s = .next s' ∧ s'.me.stage = .sem n.val ∧ s'.me.why = 4 ∧ s'.me.obj = n.val ∧ s'.me.g = s.me.g ∧
          s'.mem = s.mem ∧ s'.myCore.pool = s.myCore.pool ∧
          s'.myCore.semq = [⟨s.cr, n.val, s.me.get b, u == 1⟩])))

/-- BAR.EXP gives the error code of an unused slot, the handle a slot already has, or a new handle of a free entry of the
directory of its die, with EXPD set in both; BAR.UNEX of a live handle of its own task revokes it (no core keeps it cached)
and clears EXPD, any other gives 1; resolving a live handle aims its posts at the task, member and slot it names and caches
it. (R285, R290.) -/
def Obligations.BarrierHandles : Prop :=
  (∀ (s : State) (a d : Fin 32) (n : Fin 32), s.Issues { maj := 39 } [a] → s.me.stage = .none → s.myCore.postRec s.cr = false → n.val = (s.me.get a).toNat % 32 →
    (bits (s.myCore.slotW n) 62 2 = 0 → s.Retires (.barExp a d) 2 fun t => t.put d 0x8000000000000001) ∧
    (bits (s.myCore.slotW n) 62 2 ≠ 0 → s.dirUp (dieOf s.cc) (dieOf s.cc) = true →
      (∀ h, s.handleOf s.myCore.taskid s.myCore.teamix n.val = some h → ∃ s', exec (.barExp a d) s = .next s' ∧
        s'.me = (s.me.put d (word h)).retire 2 ∧ s'.mem = s.mem ∧ s'.dies = s.dies ∧
        s'.myCore.slotW n = setBits (s.myCore.slotW n) 52 1 1) ∧
      (s.handleOf s.myCore.taskid s.myCore.teamix n.val = none → (s.die (dieOf s.cc)).bhFree = [] →
        s.Retires (.barExp a d) 2 fun t => t.put d 0x8000000000000002) ∧
      (s.handleOf s.myCore.taskid s.myCore.teamix n.val = none → (s.die (dieOf s.cc)).bhFree ≠ [] →
        ∃ s' ix, exec (.barExp a d) s = .next s' ∧ ix ∈ (s.die (dieOf s.cc)).bhFree ∧
          s'.me = (s.me.put d (word ((dieOf s.cc).val * 2 ^ 19 + ix * 128 + (s.die (dieOf s.cc)).bhGen ix))).retire 2 ∧
          (s'.die (dieOf s.cc)).bh = ⟨ix, (s.die (dieOf s.cc)).bhGen ix, some (s.myCore.taskid, s.myCore.teamix, n.val)⟩ ::
            (s.die (dieOf s.cc)).bh.filter (·.ix ≠ ix) ∧ bits (s'.myCore.slotW n) 52 1 = 1))) ∧
  (∀ (s : State) (a d : Fin 32) (h : Nat), s.Issues { maj := 39 } [a] → s.me.stage = .none → s.myCore.postRec s.cr = false → h = bits (s.me.get a).toNat 0 21 →
    (s.handleLive h = none → s.Retires (.barUnex a d) 2 fun t => t.put d 1) ∧
    (∀ t m n, s.handleLive h = some (t, m, n) → t ≠ s.myCore.taskid → s.Retires (.barUnex a d) 2 fun t => t.put d 1) ∧
    (∀ m n, s.handleLive h = some (s.myCore.taskid, m, n) → s.dirUp (dieOf s.cc) (hndDie h) = true →
      ∃ s', exec (.barUnex a d) s = .next s' ∧ s'.me = (s.me.put d 0).retire 2 ∧ s'.handleLive h = none ∧
        (∀ k : Fin 64, s.member s.cc m = some k → bits ((s'.core k).slotW (Fin.ofNat 32 n)) 52 1 = 0) ∧
        ∀ k : Fin 64, ∀ x ∈ (s'.core k).hcache, x.handle ≠ h)) ∧
  (∀ (s : State) (c : Fin 64) (h : Nat), (s.core c).handlePosts h ≠ [] → s.dirUp (dieOf c) (hndDie h) = true →
    ∀ t m n, s.handleLive h = some (t, m, n) → ∃ s', exec (.handleResolve c h) s = .next s' ∧ s'.mem = s.mem ∧
      (s'.core c).posts = (s.core c).posts.map (fun p => if p.target = .handle h then { p with target := .slot t m n } else p) ∧
      ⟨h, t, m, n, s.taskScope t m n⟩ ∈ (s'.core c).hcache ∧ (s'.core c).threads = (s.core c).threads)

/-- A posted event of its kind, for a slot of a member of the task, that may land leaves the queue of posts and takes effect
at that slot of that core in one step; device memory and every g register stay. An event that the mode of the slot does not
take only sets ERR; bytes count the byte count down. (R281, R282, R284, R292.) -/
def Obligations.PostedEvents : Prop :=
  (∀ (s : State) (c e : Fin 64) (i m : Nat) (n : Fin 32) (p : Post), (s.core c).posts[i]? = some p → p.target = .member m n.val →
    s.member c m = some e → s.postMay c p = true → p.kind = .arrive → ((s.core e).semq = [] ∨ bits ((s.core e).slotW n) 62 2 ≠ 2) →
    ∃ s', exec (.arriveEvent c i) s = .next s' ∧ (s'.core c).posts = (s.core c).posts.filter (·.id ≠ p.id) ∧ s'.mem = s.mem ∧
      (s'.core e).pool = (s.core e).pool.write (0x780000 + 64 * n.val) (leBytes 32 (((s.core e).bslot n).event p.kind).w) ∧
      ∀ (k : Fin 64) (r : Role), (s'.thr k r).g = (s.thr k r).g) ∧
  (∀ (s : State) (c e : Fin 64) (i m : Nat) (n : Fin 32) (p : Post), (s.core c).posts[i]? = some p → p.target = .member m n.val →
    s.member c m = some e → s.postMay c p = true → (∃ b, p.kind = .bytes b) → ((s.core e).semq = [] ∨ bits ((s.core e).slotW n) 62 2 ≠ 2) →
    ∃ s', exec (.bytesEvent c i) s = .next s' ∧ (s'.core c).posts = (s.core c).posts.filter (·.id ≠ p.id) ∧ s'.mem = s.mem ∧
      (s'.core e).pool = (s.core e).pool.write (0x780000 + 64 * n.val) (leBytes 32 (((s.core e).bslot n).event p.kind).w) ∧
      ∀ (k : Fin 64) (r : Role), (s'.thr k r).g = (s.thr k r).g) ∧
  (∀ (s : State) (c e : Fin 64) (i m : Nat) (n : Fin 32) (p : Post), (s.core c).posts[i]? = some p → p.target = .member m n.val →
    s.member c m = some e → s.postMay c p = true → (∃ b, p.kind = .expect b) → ((s.core e).semq = [] ∨ bits ((s.core e).slotW n) 62 2 ≠ 2) →
    ∃ s', exec (.postEvent c i) s = .next s' ∧ (s'.core c).posts = (s.core c).posts.filter (·.id ≠ p.id) ∧ s'.mem = s.mem ∧
      (s'.core e).pool = (s.core e).pool.write (0x780000 + 64 * n.val) (leBytes 32 (((s.core e).bslot n).event p.kind).w) ∧
      ∀ (k : Fin 64) (r : Role), (s'.thr k r).g = (s.thr k r).g) ∧
  (∀ (s : State) (c e : Fin 64) (i m : Nat) (n : Fin 32) (p : Post), (s.core c).posts[i]? = some p → p.target = .member m n.val →
    s.member c m = some e → s.postMay c p = true → (∃ v, p.kind = .semSet v ∨ p.kind = .semAdd v) → ((s.core e).semq = [] ∨ bits ((s.core e).slotW n) 62 2 ≠ 2) →
    ∃ s', exec (.semEventLand c i) s = .next s' ∧ (s'.core c).posts = (s.core c).posts.filter (·.id ≠ p.id) ∧ s'.mem = s.mem ∧
      (s'.core e).pool = (s.core e).pool.write (0x780000 + 64 * n.val) (leBytes 32 (((s.core e).bslot n).event p.kind).w) ∧
      ∀ (k : Fin 64) (r : Role), (s'.thr k r).g = (s.thr k r).g) ∧
  (∀ (x : BSlot) (v : Word) (b : Nat), (bits x.w 62 2 ≠ 1 → (x.event .arrive).w = setBits x.w 54 1 1 ∧ (x.event (.bytes b)).w = setBits x.w 54 1 1) ∧
    (bits x.w 62 2 ≠ 2 → (x.event (.semSet v)).w = setBits x.w 54 1 1) ∧
    (bits x.w 62 2 = 1 → bits x.w 57 2 ≠ 0 → bits x.w 80 16 ≠ 0 →
      (x.event (.bytes b)).w = setBits x.w 128 64 (ofInt 64 (sint 64 (bits x.w 128 64) - b))))

/-- CH.CFG of the next number configures an own ring inside the data area or a link to a member, with gD 0 (1 for a member
outside the team, CHAN 0x500 + n for a gap); CH.REG registers the producer; CH.EOS appends its end entry, or waits for room
or a release; on a home ring that is closed, or that refuses or has ended the producer, each gives 1, as CH.CFG does of a
ring that is misplaced or missized; through a link each is posted to the home ring; CH.TAKE gives the head value with 0, an
end entry with 1 + 256 x producer, or 2 on an empty closed ring; CH.STAT gives the status word; a link push joins its home
ring with its value. (R294, R295, R296, R297, R300, R301.) -/
def Obligations.ChannelWords : Prop :=
  (∀ (s : State) (d a b : Fin 32) (n : Fin 32) (c w : Nat), s.Issues { maj := 41 } [a, b] → c = (s.me.get a).toNat → w = (s.me.get b).toNat →
    n.val = bits c 0 5 →
    (s.myCore.chcnt < n.val → exec (.chCfg d a b) s = s.trap cCHAN (0x500 + n.val)) ∧
    (n.val < s.myCore.chcnt → s.myCore.chanWaited n.val = true ∨ s.myCore.chans[n].ring ≠ [] ∨ s.pushing s.cc n.val = true →
      s.Retires (.chCfg d a b) 2 fun t => t.put d 2) ∧
    (n.val ≤ s.myCore.chcnt → (n.val < s.myCore.chcnt → s.myCore.chanWaited n.val = false ∧ s.myCore.chans[n].ring = [] ∧ s.pushing s.cc n.val = false) →
      bits c 9 1 = 0 → 1 ≤ bits c 5 4 → bits c 5 4 ≤ 12 → w % 64 = 0 → s.myCore.bndv * 65536 ≤ w →
      w + 8 * 2 ^ bits c 5 4 ≤ s.myCore.bnds * 65536 → exec (.chCfg d a b) s = .next ((s.upMyCore fun k =>
        { k with chans := k.chans.set n { Chan.reset with base := w, capl := bits c 5 4 }, chcnt := if n.val = k.chcnt then n.val + 1 else k.chcnt }).upMe fun t => (t.put d 0).retire 2)) ∧
    (n.val ≤ s.myCore.chcnt → (n.val < s.myCore.chcnt → s.myCore.chanWaited n.val = false ∧ s.myCore.chans[n].ring = [] ∧ s.pushing s.cc n.val = false) →
      bits c 9 1 = 1 → bits c 10 4 < s.myCore.teamsz → exec (.chCfg d a b) s = .next ((s.upMyCore fun k =>
        { k with chans := k.chans.set n { Chan.reset with link := true, memb := bits c 10 4, rix := bits c 14 5 }, chcnt := if n.val = k.chcnt then n.val + 1 else k.chcnt }).upMe
          fun t => (t.put d 0).retire 2)) ∧
    (n.val ≤ s.myCore.chcnt → (n.val < s.myCore.chcnt → s.myCore.chanWaited n.val = false ∧ s.myCore.chans[n].ring = [] ∧ s.pushing s.cc n.val = false) →
      bits c 9 1 = 1 → s.myCore.teamsz ≤ bits c 10 4 → s.Retires (.chCfg d a b) 2 fun t => t.put d 1) ∧
    (n.val ≤ s.myCore.chcnt → (n.val < s.myCore.chcnt → s.myCore.chanWaited n.val = false ∧ s.myCore.chans[n].ring = [] ∧ s.pushing s.cc n.val = false) →
      bits c 9 1 = 0 → bits c 5 4 = 0 ∨ 12 < bits c 5 4 ∨ w % 64 ≠ 0 ∨ w < s.myCore.bndv * 65536 ∨
        s.myCore.bnds * 65536 < w + 8 * 2 ^ bits c 5 4 → s.Retires (.chCfg d a b) 2 fun t => t.put d 1)) ∧
  (∀ (s : State) (d a n : Fin 32), s.Issues { maj := 41 } [a] → n.val = (s.me.get a).toNat % 32 → s.acqOpen s.cc s.cr = false →
    (s.myCore.chcnt ≤ n.val → exec (.chStat d a) s = s.trap cCHAN n.val ∧ exec (.chReg d a) s = s.trap cCHAN n.val ∧
      exec (.chEos d a) s = s.trap cCHAN n.val) ∧
    (n.val < s.myCore.chcnt → (∃ v : Word, s.Retires (.chStat d a) 2 (fun t => t.put d v) ∧ (v.getLsbD 63 = s.myCore.chans[n].closed) ∧
        (v.getLsbD 62 = s.myCore.chans[n].link) ∧ (v.getLsbD 60 = s.myCore.chans[n].drop) ∧
        bits v.toNat 0 13 = s.myCore.chans[n].ring.length % 8192 ∧ bits v.toNat 32 7 = s.myCore.chans[n].neos % 128) ∧
      (s.myCore.chans[n].link = false → s.myCore.chans[n].closed = false → s.myCore.chans[n].eosm.contains (pidOf s.myCore s.cr) = false →
        exec (.chReg d a) s = .next ((s.upMyCore fun k => k.setChan n { k.chans[n] with
          reg := insertNat (pidOf s.myCore s.cr) k.chans[n].reg }).upMe fun t => (t.put d 0).retire 2)) ∧
      (s.myCore.chans[n].link = false → s.myCore.chans[n].closed = true ∨ s.myCore.chans[n].eosm.contains (pidOf s.myCore s.cr) = true →
        s.Retires (.chReg d a) 2 fun t => t.put d 1) ∧
      (s.myCore.chans[n].link = false → s.relOpen s.cc s.cr = false → s.myCore.chans[n].closed = true ∨
        (s.myCore.chans[n].reg ≠ [] ∧ (s.myCore.chans[n].reg.contains (pidOf s.myCore s.cr) = false ∨
          s.myCore.chans[n].eosm.contains (pidOf s.myCore s.cr) = true)) → s.Retires (.chEos d a) 2 fun t => t.put d 1) ∧
      (s.myCore.chans[n].link = false → s.relOpen s.cc s.cr = false → s.myCore.chans[n].refuses (pidOf s.myCore s.cr) = false →
        s.myCore.chans[n].full = true → exec (.chEos d a) s = .next (s.upMe fun t => { t with why := 1, obj := n.val })) ∧
      (s.relOpen s.cc s.cr = true → exec (.chEos d a) s = .next (s.upMe fun t => { t with why := 10, obj := 0 })) ∧
      (s.myCore.chans[n].link = true → exec (.chReg d a) s = .next (({ s with nextOp := s.nextOp + 1 }.upMyCore fun k =>
        { k with posts := k.posts ++ [(⟨s.nextOp, s.cr, .member s.myCore.chans[n].memb 0,
          .reg s.myCore.chans[n].rix n.val (pidOf s.myCore s.cr), false⟩ : Post)] }).upMe fun t => (t.put d 0).retire 2)) ∧
      (∀ (m : Fin 64) (j : Fin 32), s.myCore.chans[n].link = true → s.relOpen s.cc s.cr = false → s.member s.cc s.myCore.chans[n].memb = some m →
        j.val = s.myCore.chans[n].rix → j.val < (s.core m).chcnt → (s.core m).chans[j].link = false →
        ((s.core m).chans[j].full = true → exec (.chEos d a) s = .next (s.upMe fun t => { t with why := 1, obj := n.val })) ∧
        ((s.core m).chans[j].full = false → ∃ s', exec (.chEos d a) s = .next s' ∧ s'.me = (s.me.put d 0).retire 2 ∧ s'.mem = s.mem ∧
          (s'.core m).chans[j].claims = (s.core m).chans[j].claims + 1 ∧ s'.myCore.posts = s.myCore.posts ++
            [⟨s.nextOp, s.cr, .member s.myCore.chans[n].memb 0, .eos s.myCore.chans[n].rix n.val (pidOf s.myCore s.cr), true⟩])) ∧
      (s.myCore.chans[n].link = false → s.relOpen s.cc s.cr = false → s.myCore.chans[n].refuses (pidOf s.myCore s.cr) = false → s.myCore.chans[n].full = false →
        ∃ s', exec (.chEos d a) s = .next s' ∧ s'.me = (s.me.put d 0).retire 2 ∧ s'.mem = s.mem ∧
          s'.myCore.chans[n].ring = s.myCore.chans[n].ring ++ [⟨s.myCore.chans[n].tail, some (pidOf s.myCore s.cr), none⟩] ∧
          s'.myCore.chans[n].neos = s.myCore.chans[n].neos + 1 ∧ (s.myCore.chans[n].reg = [] → s'.myCore.chans[n].closed = true)))) ∧
  (∀ (s : State) (d : Fin 16) (a : Fin 32) (p : Fin 2), s.Issues { maj := 41, chans := [a.val] } [] → s.acqOpen s.cc s.cr = false → s.myCore.chans[a].link = false →
    (∀ e t, s.myCore.chans[a].ring = e :: t → e.eos = none → e.pend = none → ∃ s', exec (.chTake d a p) s = .next s' ∧
      s'.me = ((s.me.put (Fin.ofNat 32 (2 * d.val)) (word (s.myCore.pool.nat (s.myCore.chans[a].base + 8 * e.pos) 8))).put
        (Fin.ofNat 32 (2 * d.val + 1)) 0).retire 2 ∧ s'.myCore.chans[a].ring = (if p = 1 then t else e :: t) ∧ s'.myCore.pool = s.myCore.pool) ∧
    (∀ e t q, s.myCore.chans[a].ring = e :: t → e.eos = some q → ∃ s', exec (.chTake d a p) s = .next s' ∧
      s'.me = ((s.me.put (Fin.ofNat 32 (2 * d.val)) 0).put (Fin.ofNat 32 (2 * d.val + 1)) (word (1 + q * 256))).retire 2) ∧
    (s.myCore.chans[a].ring = [] → s.myCore.chans[a].closed = true → s.Retires (.chTake d a p) 2 fun t =>
      (t.put (Fin.ofNat 32 (2 * d.val)) 0).put (Fin.ofNat 32 (2 * d.val + 1)) 2) ∧
    (s.myCore.chans[a].ring = [] → s.myCore.chans[a].closed = false →
      exec (.chTake d a p) s = .next (s.upMe fun t => { t with why := 2, obj := a.val }))) ∧
  (∀ (s : State) (c e : Fin 64) (i m l pid id0 : Nat) (r0 : Role) (r : Fin 32) (v : Word) (cl : Bool),
    (s.core c).posts[i]? = some ⟨id0, r0, .member m 0, .push r.val l pid v none, cl⟩ →
    s.member c m = some e → s.pushBehind e r.val id0 = false → r.val < (s.core e).chcnt → (s.core e).chans[r].link = false →
    (s.core e).chans[r].refuses pid = false → (s.core e).chans[r].ring.length + ((s.core e).chans[r].claims - if cl then 1 else 0) < 2 ^ (s.core e).chans[r].capl →
    ∃ s', exec (.linkPushLand c i) s = .next s' ∧ s'.mem = s.mem ∧ (s'.core c).posts = (s.core c).posts.filter (·.id ≠ id0) ∧
      (s'.core e).chans[r].claims = ((s.core e).chans[r].claims - if cl then 1 else 0) ∧
      (s'.core e).chans[r].ring = (s.core e).chans[r].ring ++ [⟨(s.core e).chans[r].tail, none, none⟩] ∧
      (s'.core e).pool = (s.core e).pool.write ((s.core e).chans[r].base + 8 * (s.core e).chans[r].tail) (leBytes 8 v.toNat))

/-- A copy form that issues with nothing to report and passes its checks answers a next state: its descriptor, read from
memory once, joins the copy queue with its operation number; gD takes the number of destination bytes (a free value where
the format of the destination page cannot be known yet); the word retires; no byte of memory or of a pool changes yet.
(R263, R267, R271, R272, R273, R274.) -/
def Obligations.CopyIssue : Prop :=
  (∀ (a d : Fin 32), CopyJoins (.cpCopy a d) { maj := 36 } [a] a d fun _ => 0) ∧
  (∀ (a d : Fin 32), CopyJoins (.cpCopyTs a d) { maj := 36 } [a] a d fun _ => 0) ∧
  (∀ (a b d : Fin 32), CopyJoins (.cpCopyRc a b d) { maj := 36, sub := true } [a, b] a d fun s => s.me.get b) ∧
  (∀ (a b d : Fin 32) (t : Fin 2), CopyJoins (.cpGath a b d t) { maj := 37 } [a, b] a d fun s => s.me.get b) ∧
  (∀ (a b d : Fin 32), CopyJoins (.cpScat a b d) { maj := 37 } [a, b] a d fun s => s.me.get b) ∧
  (∀ (a b d : Fin 32) (t : Fin 2), CopyJoins (.cpFill a b d t) { maj := 37 } [a, b] a d fun s => s.me.get b)

/-- A raw copy of a line part between own-pool places starts, performs and completes: exactly the destination bytes take the
source bytes and the entry leaves the queue. A piece of up to 4,096 bytes between places of the own pool writes its rows in
order, raw or converted element by element: strided rows, rows that a gather or scatter takes by index, a fill, a block of
an MX format, with the byte count at the barrier of the descriptor; an element goes to its index of a typed device page; a
gather or scatter reads its index table as it starts; the completion of a producer sets FULL and its TAG in the slot of its
member; a producer into a full slot does not start; bytes from another chip, translated from die 0, are written where the
page allows it and stay on their way while it is BUSY (both log entry 50). (R257, R260, R264, R265, R266, R267, R268, R269,
R271, R273, R274.) -/
def Obligations.CopyEvents : Prop :=
  (∀ (s : State) (c : Fin 64) (e : CEnt) (src dst : Nat → Nat) (a b d : Fin 32) (n : Nat), s.CopyRuns c e → s.CopyFrom c e src n → s.CopyTo c e dst n →
    e.op = .cpCopy a d ∨ e.op = .cpGath a b d 0 ∨ e.op = .cpScat a b d → e.d.sfmt = 0 → e.d.dfmt = 0 → e.d.len = n → 0 < e.d.rows * n →
    e.d.rows * n ≤ 4096 → s.CopyWhole c e (poolRows e.d.rows dst (fun p r => p.read (src r) n) (s.core c).pool) (e.d.rows * n)) ∧
  (∀ (s : State) (c : Fin 64) (e : CEnt) (dst : Nat → Nat) (a b d : Fin 32) (n : Nat), s.CopyRuns c e → s.CopyTo c e dst n → e.op = .cpFill a b d 0 →
    e.d.dfmt = 0 → e.d.len = n → 0 < e.d.rows * n → e.d.rows * n ≤ 4096 → s.CopyWhole c e
      (poolRows e.d.rows dst (fun _ _ => (List.range n).map fun i => BitVec.ofNat 8 (bits e.gb.toNat (8 * (i % 8)) 8)) (s.core c).pool) (e.d.rows * n)) ∧
  (∀ (s : State) (c : Fin 64) (e : CEnt) (src dst : Nat → Nat) (a b d : Fin 32) (ns nd : Nat), s.CopyRuns c e → s.CopyTo c e dst nd →
    ((1 ≤ e.d.dfmt ∧ e.d.dfmt ≤ 5) ∨ e.d.dfmt = 9 ∨ e.d.dfmt = 10) → nd = fmtBits e.d.dfmt / 8 → e.d.len = 1 → 0 < e.d.rows → e.d.rows ≤ 1024 →
    (s.CopyFrom c e src ns → e.op = .cpCopy a d ∨ e.op = .cpGath a b d 0 ∨ e.op = .cpScat a b d → ((1 ≤ e.d.sfmt ∧ e.d.sfmt ≤ 5) ∨ e.d.sfmt = 9 ∨ e.d.sfmt = 10) → ns = fmtBits e.d.sfmt / 8 →
      s.CopyWhole c e (poolRows e.d.rows dst (fun p r => if e.d.sfmt = e.d.dfmt then p.read (src r) ns else
        leBytes nd (roundFmt e.d.dfmt (widenFmt e.d.sfmt (p.nat (src r) ns) 0) e.d.rm e.d.sat (mix e.d.seed r e.d.ctr))) (s.core c).pool)
        (e.d.rows * nd)) ∧
    (e.op = .cpFill a b d 0 → s.CopyWhole c e (poolRows e.d.rows dst (fun _ r =>
        leBytes nd (roundFmt e.d.dfmt (f32.widen (bits e.gb.toNat 0 32) false) e.d.rm e.d.sat (mix e.d.seed r e.d.ctr))) (s.core c).pool)
        (e.d.rows * nd))) ∧
  (∀ (s : State) (c : Fin 64) (e : CEnt) (x y : Nat) (a d : Fin 32) (l : List Byte), s.CopyRuns c e → e.op = .cpCopy a d → ((1 ≤ e.d.sfmt ∧ e.d.sfmt ≤ 5) ∨ e.d.sfmt = 9 ∨ e.d.sfmt = 10) →
    isMx e.d.dfmt = true → e.d.rows = 1 → e.d.len = 32 → s.CopyFrom c e (fun _ => x) (4 * fmtBits e.d.sfmt) →
    s.CopyTo c e (fun _ => y) (4 * mxW e.d.dfmt) → y % 64 = 0 → y + imageSO e.d.dfmt + 1 ≤ (s.core c).bnds * 65536 →
    l = e.d.encode e.d.dfmt 0 0 ((List.range 32).map fun i =>
      widenFmt e.d.sfmt ((s.core c).pool.nat (x + i * (fmtBits e.d.sfmt / 8)) (fmtBits e.d.sfmt / 8)) 0) →
    s.CopyWhole c e (((s.core c).pool.write y (l.take (4 * mxW e.d.dfmt))).write (y + imageSO e.d.dfmt) (l.drop (4 * mxW e.d.dfmt)))
      (4 * mxW e.d.dfmt + 1)) ∧
  (∀ (s s1 : State) (c : Fin 64) (e : CEnt) (x nd pa lf : Nat) (a d : Fin 32), s.CopyRuns c e → e.op = .cpCopy a d → e.d.sfmt = 1 →
    e.d.rows = 1 → e.d.len = 1 → s.CopyFrom c e (fun _ => x) 4 → e.d.dfmt = 0 ∨ e.d.dfmt = leafFmt lf →
    (1 ≤ leafFmt lf ∧ leafFmt lf ≤ 5) ∨ leafFmt lf = 9 ∨ leafFmt lf = 10 → nd = fmtBits (leafFmt lf) / 8 → e.d.dst % 4096 = 0 →
    e.d.dst < 2 ^ 48 → e.d.dix < 2 ^ 24 → inWindow e.d.dst = false → tgKind e.d.bar = 0 → s.engLeaf c 3 e.asid e.d.dst = .ok lf →
    s.engAt c 3 e.asid (e.d.dst + e.d.dix * nd) .write true = .ok pa lf s1 → s1.roomFor c .copy 1 = true →
    s1.fillLocked c .L (e.d.dst + e.d.dix * nd) pa nd = false → pa % 64 = (e.d.dst + e.d.dix * nd) % 64 →
    ∃ s', exec (.copyPiecePost c 0) s = .next s' ∧ (s'.core c).pool = (s.core c).pool ∧ s'.mem = s.mem.write pa
      (if leafFmt lf = 1 then (s.core c).pool.read x 4 else leBytes nd (roundFmt (leafFmt lf) (widenFmt 1 ((s.core c).pool.nat x 4) 0)
        e.d.rm e.d.sat (mix e.d.seed 0 e.d.ctr)))) ∧
  (∀ (s : State) (c : Fin 64) (e : CEnt) (x : Nat) (a b d : Fin 32) (k : Fin 2), (s.core c).cq = [e] → e.op = .cpGath a b d k ∨ e.op = .cpScat a b d →
    e.started = false → e.idx = [] → e.stop = none → (∀ i : Fin 32, (s.core c).recs[i] = none) → (s.thr c e.role).stores = [] → s.producerWaits c e = false →
    e.gb.toNat = 0x00FF000000000000 + x → (s.core c).bndv * 65536 ≤ x → x + 4 * e.d.rows ≤ (s.core c).bnds * 65536 →
    (s.core c).bnds * 65536 ≤ 0x780000 → ∃ s', exec (.copyStart c 0) s = .next s' ∧ s'.mem = s.mem ∧ (s'.core c).pool = (s.core c).pool ∧
      (s'.core c).cq = [{ e with started := true, idx := (List.range e.d.rows).map fun i => sint 32 ((s.core c).pool.nat (x + 4 * i) 4) }]) ∧
  (∀ (s : State) (c : Fin 64) (e : CEnt) (a d : Fin 32) (x y n : Nat), (s.core c).cq = [e] → e.op = .cpCopy a d → e.started = false →
    e.done = 0 → e.ahead = [] → e.bad = [] → e.kept = [] → e.stop = none → e.d.six = 0 → e.d.dix = 0 → (∀ i : Fin 32, (s.core c).recs[i] = none) → (s.thr c e.role).stores = [] → (s.core c).locks = [] →
    (s.core c).ppoison = [] → e.d.sfmt = 0 → e.d.dfmt = 0 → e.d.rows = 1 → e.d.len = n → 0 < n → x % 64 + n ≤ 64 → y % 64 + n ≤ 64 →
    e.d.src = 0x00FF000000000000 + x → e.d.dst = 0x00FF000000000000 + y → (s.core c).bndv * 65536 ≤ x → (s.core c).bndv * 65536 ≤ y →
    x + n ≤ (s.core c).bnds * 65536 → y + n ≤ (s.core c).bnds * 65536 → (s.core c).bnds * 65536 ≤ 0x780000 → tgKind e.d.bar = 0 →
    ∃ s1 s2 s3, exec (.copyStart c 0) s = .next s1 ∧ exec (.copyPiecePost c 0) s1 = .next s2 ∧ exec (.copyComplete c 0) s2 = .next s3 ∧
      (s1.core c).pool = (s.core c).pool ∧ (s2.core c).pool = (s.core c).pool.write y ((s.core c).pool.read x n) ∧
      (s3.core c).pool = (s2.core c).pool ∧ (s3.core c).cq = [] ∧ s3.mem = s.mem ∧
      ∀ (k : Fin 64) (r : Role), (s3.thr k r).g = (s.thr k r).g) ∧
  (∀ (s : State) (c k : Fin 64) (i m j : Nat) (e : CEnt), (s.core c).cq[i]? = some e → e.slot = some (m, j) → s.member c m = some k →
    e.started = true → e.d.rows * e.d.len ≤ e.done →
    ∃ s', exec (.copyComplete c i) s = .next s' ∧ (s'.core c).cq = (s.core c).cq.filter (·.id ≠ e.id) ∧ s'.mem = s.mem ∧
      ((s'.core k).slots[Fin.ofNat 64 j]).full = true ∧ ((s'.core k).slots[Fin.ofNat 64 j]).tag = e.d.tag % 65536 ∧
      ((s'.core k).slots[Fin.ofNat 64 j]).exp = ((s.core k).slots[Fin.ofNat 64 j]).exp ∧ (s'.core k).pool = (s.core k).pool) ∧
  (∀ (s : State) (c : Fin 64) (i : Nat) (e : CEnt), (s.core c).cq[i]? = some e → e.started = false → s.producerWaits c e = true →
    exec (.copyStart c i) s = .next s) ∧
  (∀ (s : State) (asid va bar pa l : Nat) (bytes : List Byte) (bad : Bool), bytes ≠ [] → va % 4096 + bytes.length ≤ 4096 → inWindow va = false →
    s.walk 0 asid va = .leaf pa l → leafAccess .write true l = none → leafBusy l = false → leafCow l = false →
    s.lost 0 (leafAddr l va) = none → tgKind bar ≠ 3 →
    ∃ s', exec (.remoteCopyReceive (.units asid va bytes bar bad)) s = .next s' ∧ s'.mem = s.mem.write (leafAddr l va) bytes ∧ s'.cores = s.cores) ∧
  (∀ (s : State) (asid va bar pa l : Nat) (bytes : List Byte) (bad : Bool), bytes ≠ [] → va % 4096 + bytes.length ≤ 4096 → inWindow va = false →
    s.walk 0 asid va = .leaf pa l → leafBusy l = true →
    exec (.remoteCopyReceive (.units asid va bytes bar bad)) s = .next s)

/-- TS.DEF of a definition with a reserved field raises TYPE 0x28; a good one is taken with its expected tag, empty and not
halted, once no copy into the slot and no lock on it is left, and waits with WHY 5 before; TS.REL of a full slot empties it
and advances the expected tag (codes 2 undefined, 1 not full); TS.STAT gives the state or the definition, and its waiting
form waits for the slot or raises SCHED on a wrong tag. (R257, R258, R261, R262, R276, R277, R278.) -/
def Obligations.TileSlots : Prop :=
  (∀ (s : State) (a b : Fin 32) (i : Fin 64) (w : Nat), s.Issues { maj := 38 } [a, b] → s.myCore.recPending s.cr 0 = false → i.val = (s.me.get a).toNat % 64 →
    w = (s.me.get b).toNat →
    (11 ≤ bits w 60 4 ∨ bits w 0 6 ≠ 0 ∨ bits w 23 15 ≠ 0 ∨ (bits w 38 10 = 0 ∧ bits w 48 12 ≠ 0) → exec (.tsDef a b) s = s.trap cTYPE 0x28) ∧
    (bits w 60 4 < 11 → bits w 0 6 = 0 → bits w 23 15 = 0 → (bits w 48 12 ≠ 0 → bits w 38 10 ≠ 0 ∧
        s.myCore.bndv * 65536 ≤ 64 * bits w 6 17 ∧ 64 * bits w 6 17 + 64 * bits w 38 10 * bits w 48 12 ≤ s.myCore.bnds * 65536) →
      (s.pend s.cc i.val = false → s.myCore.slotLock i = false → ∃ s', exec (.tsDef a b) s = .next s' ∧ s'.me = s.me.retire 2 ∧ s'.mem = s.mem ∧
        (s'.myCore.slots[i]).defw = s.me.get b ∧ (s'.myCore.slots[i]).exp = bits (s.me.get a).toNat 16 16 ∧
        (s'.myCore.slots[i]).full = false ∧ (s'.myCore.slots[i]).halt = false ∧ s'.myCore.pool = s.myCore.pool ∧
        ∀ j : Fin 64, j ≠ i → s'.myCore.slots[j] = s.myCore.slots[j]) ∧
      (s.pend s.cc i.val = true ∨ s.myCore.slotLock i = true →
        exec (.tsDef a b) s = .next (s.upMe fun t => { t with why := 5, obj := i.val })))) ∧
  (∀ (s : State) (a d : Fin 32) (i : Fin 64), s.Issues { maj := 38 } [a] → s.myCore.recPending s.cr 0 = false → i.val = (s.me.get a).toNat % 64 →
    (bits (s.myCore.slots[i]).defw.toNat 48 12 = 0 → s.Retires (.tsRel a d) 2 fun t => t.put d 2) ∧
    (bits (s.myCore.slots[i]).defw.toNat 48 12 ≠ 0 → (s.myCore.slots[i]).full = false → s.Retires (.tsRel a d) 2 fun t => t.put d 1) ∧
    (bits (s.myCore.slots[i]).defw.toNat 48 12 ≠ 0 → (s.myCore.slots[i]).full = true →
      ∃ s', exec (.tsRel a d) s = .next s' ∧ s'.me = (s.me.put d 0).retire 2 ∧ s'.mem = s.mem ∧ s'.myCore.pool = s.myCore.pool ∧
        (s'.myCore.slots[i]).full = false ∧ (s'.myCore.slots[i]).exp = ((s.myCore.slots[i]).exp + 1) % 65536 ∧
        (s'.myCore.slots[i]).defw = (s.myCore.slots[i]).defw)) ∧
  (∀ (s : State) (a d : Fin 32) (w : Fin 2) (i : Fin 64), s.Issues { maj := 38 } [a] → s.myCore.recPending s.cr 0 = false → i.val = (s.me.get a).toNat % 64 →
    (s.Retires (.tsStat a d 1 w) 2 fun t => t.put d (s.myCore.slots[i]).defw) ∧
    (s.Retires (.tsStat a d 0 0) 2 fun t => t.put d (s.slotState s.cc i)) ∧
    (bits (s.myCore.slots[i]).defw.toNat 48 12 ≠ 0 →
      ((s.myCore.slots[i]).full = false → exec (.tsStat a d 0 1) s = .next (s.upMe fun t => { t with why := 5, obj := i.val })) ∧
      ((s.myCore.slots[i]).full = true → (s.myCore.slots[i]).tag = (s.myCore.slots[i]).exp →
        s.Retires (.tsStat a d 0 1) 2 fun t => t.put d (s.slotState s.cc i)) ∧
      ((s.myCore.slots[i]).full = true → (s.myCore.slots[i]).tag ≠ (s.myCore.slots[i]).exp →
        exec (.tsStat a d 0 1) s = s.trap cSCHED ((s.myCore.slots[i]).tag * 65536 + i.val))))

/-- FW.FU, FW.FWD, FW.UPD, FW.OPEN, FW.CLOSE, FW.FREE, FW.STAT, FW.SNAP, FW.PAGE, FW.MIG, FW.LOGC, FW.LOGD, FW.ROLL and
FW.AVG that issue with nothing to report, whose handles name live states (on this die where the form needs it) and whose
other operands pass their checks, answer the state in which the queue holds them with their operands, gD waits for the
result, the word has retired, and nothing else has changed. FW.STAT that issues raises ENG 0x06 where a fast-weight record
of its thread is pending; otherwise FWH 0x05 for handle 0 with no context, 0x02 for a handle with a reserved bit, 0x03 for
one of another chip, DIEX when its directory cannot be reached, 0x01 for a stale one (FW.CLOSE and FW.FREE likewise), in
this order; DIEX at issue, its place among the FWH codes, and an entry without a state being stale are the choice of log
entry 58. (R307, R308, R309, R312, R321, R322, R328, R330, R333.) -/
def Obligations.FastWeightIssue : Prop :=
  ((∀ (a b d : Fin 32), FwJoins (.fwFu a b d) 42 [a, b] d
    (fun s f => s.fwNames (s.me.get b) true f ∧ s.me.stores = [] ∧
      s.chunkCheck ⟨0, s.cr, .fwFu a b d, [s.me.get a, s.me.get b], s.myCore.pool.read ((s.me.get a).toNat - 0x00FF000000000000) 64, 0, 0, [], false,
        [], 0, none, false, [], [], []⟩ f = none)
    (fun s => [s.me.get a, s.me.get b]) (fun s => s.myCore.pool.read ((s.me.get a).toNat - 0x00FF000000000000) 64) (fun f => f.geoList)) ∧
  (∀ (a b d : Fin 32), FwJoins (.fwFwd a b d) 42 [a, b] d
    (fun s f => s.fwNames (s.me.get b) true f ∧ s.me.stores = [] ∧
      s.chunkCheck ⟨0, s.cr, .fwFwd a b d, [s.me.get a, s.me.get b], s.myCore.pool.read ((s.me.get a).toNat - 0x00FF000000000000) 64, 0, 0, [], false,
        [], 0, none, false, [], [], []⟩ f = none)
    (fun s => [s.me.get a, s.me.get b]) (fun s => s.myCore.pool.read ((s.me.get a).toNat - 0x00FF000000000000) 64) (fun f => f.geoList)) ∧
  (∀ (a b d : Fin 32), FwJoins (.fwUpd a b d) 42 [a, b] d
    (fun s f => s.fwNames (s.me.get b) true f ∧ s.me.stores = [] ∧
      s.chunkCheck ⟨0, s.cr, .fwUpd a b d, [s.me.get a, s.me.get b], s.myCore.pool.read ((s.me.get a).toNat - 0x00FF000000000000) 64, 0, 0, [], false,
        [], 0, none, false, [], [], []⟩ f = none)
    (fun s => [s.me.get a, s.me.get b]) (fun s => s.myCore.pool.read ((s.me.get a).toNat - 0x00FF000000000000) 64) (fun f => f.geoList)) ∧
  (∀ (a d : Fin 32), FwJoins (.fwOpen a d) 43 [a] d
    (fun s _ => (s.me.get a).toNat < 2 ^ 24)
    (fun s => [s.me.get a]) (fun _ => []) (fun _ => [])) ∧
  (∀ (a d : Fin 32), FwJoins (.fwClose a d) 43 [a] d
    (fun s f => s.fwNames (s.me.get a) false f)
    (fun s => [s.me.get a]) (fun _ => []) (fun _ => [])) ∧
  (∀ (a d : Fin 32), FwJoins (.fwFree a d) 43 [a] d
    (fun s f => s.fwNames (s.me.get a) false f)
    (fun s => [s.me.get a]) (fun _ => []) (fun _ => [])) ∧
  (∀ (a d : Fin 32), FwJoins (.fwStat a d) 43 [a] d
    (fun s f => s.fwNames (s.me.get a) false f)
    (fun s => [s.me.get a]) (fun _ => []) (fun _ => [])) ∧
  (∀ (a d : Fin 32), FwJoins (.fwSnap a d) 44 [a] d
    (fun s f => s.fwNames (s.me.get a) true f)
    (fun s => [s.me.get a]) (fun _ => []) (fun _ => [])) ∧
  (∀ (a b d : Fin 32) (o : Fin 8), FwJoins (.fwPage a b d o) 43 (if o.val < 3 then [a] else [a, b]) d
    (fun s f => s.fwNames (s.me.get a) false f ∧ (3 ≤ o.val → (s.me.get b).toNat % 4096 = 0))
    (fun s => [s.me.get a, s.me.get b]) (fun _ => []) (fun _ => [])) ∧
  (∀ (a b d : Fin 32), FwJoins (.fwMig a b d) 44 [a, b] d
    (fun s f => s.fwNames (s.me.get a) false f)
    (fun s => [s.me.get a, s.me.get b]) (fun _ => []) (fun _ => [])) ∧
  (∀ (a b d : Fin 32), FwJoins (.fwLogc a b d) 45 [a, b] d
    (fun s f => s.fwNames (s.me.get a) true f)
    (fun s => [s.me.get a, s.me.get b]) (fun _ => []) (fun _ => [])) ∧
  (∀ (a b d : Fin 32), FwJoins (.fwLogd a b d) 45 [a, b] d
    (fun s f => s.fwNames (s.me.get a) true f)
    (fun s => [s.me.get a, s.me.get b]) (fun _ => []) (fun _ => [])) ∧
  (∀ (a b d : Fin 32), FwJoins (.fwRoll a b d) 44 [a, b] d
    (fun s f => s.fwNames (s.me.get a) true f ∧ ∃ g, s.fwNames (s.me.get b) true g)
    (fun s => [s.me.get a, s.me.get b]) (fun _ => []) (fun _ => [])) ∧
  (∀ (a b d : Fin 32), FwJoins (.fwAvg a b d) 44 [a, b] d
    (fun s _ => s.me.stores = [] ∧ 0 < bits (s.me.get b).toNat 0 5 ∧ bits (s.me.get b).toNat 0 5 ≤ 16 ∧
      s.myCore.scratchCheck [((s.me.get a).toNat, 8 + 16 * bits (s.me.get b).toNat 0 5, 64)] = none ∧
      (∀ i, i < bits (s.me.get b).toNat 0 5 → field (s.myCore.pool.read ((s.me.get a).toNat - 0x00FF000000000000) (8 + 16 * bits (s.me.get b).toNat 0 5)) (16 * i + 20) 4 = 0) ∧
      ∀ i, i ≤ bits (s.me.get b).toNat 0 5 → ∃ g, s.fwNames (word (field (s.myCore.pool.read ((s.me.get a).toNat - 0x00FF000000000000) (8 + 16 * bits (s.me.get b).toNat 0 5)) (if i = 0 then 0 else 16 * i - 8) 8)) true g)
    (fun s => [s.me.get a, s.me.get b]) (fun s => s.myCore.pool.read ((s.me.get a).toNat - 0x00FF000000000000) (8 + 16 * bits (s.me.get b).toNat 0 5)) (fun _ => []))) ∧
  (∀ (s : State) (a d : Fin 32), s.Issues { maj := 43 } [a] →
  (s.myCore.recPending s.cr 3 = true → exec (.fwStat a d) s = s.trap cENG 0x06) ∧
  (s.myCore.recPending s.cr 3 = false → s.asyncOpen = false → ∀ h, h = (s.me.get a).toNat →
    (s.me.get a = 0 → s.me.stores = [] → s.myCore.ctx = none → exec (.fwStat a d) s = s.trapX ⟨cFWH, 5, 0, 0⟩) ∧
    (s.me.get a ≠ 0 →
      (bits h 63 1 = 1 ∨ bits h 15 25 ≠ 0 → exec (.fwStat a d) s = s.trapX ⟨cFWH, 2, 0, 0⟩) ∧
      (bits h 63 1 = 0 → bits h 15 25 = 0 →
        (bits h 40 8 ≠ s.chipn → exec (.fwStat a d) s = s.trapX ⟨cFWH, 3, 0, 0⟩) ∧
        (bits h 40 8 = s.chipn → s.myCore.fwcache.contains h = false → s.fwDirUp (dieOf s.cc) (fhDie h) = false →
          exec (.fwStat a d) s = s.trapX ⟨cDIEX, 0, 0, 0⟩) ∧
        (bits h 40 8 = s.chipn → s.myCore.fwcache.contains h = true → s.fwFind h = none →
          exec (.fwStat a d) s = s.trapX ⟨cFWH, 1, 0, 0⟩ ∧ exec (.fwClose a d) s = s.trapX ⟨cFWH, 1, 0, 0⟩ ∧
          exec (.fwFree a d) s = s.trapX ⟨cFWH, 1, 0, 0⟩)))))

/-- FW.OPEN takes a free entry and slabs and returns its handle, a zero state; FW.STAT returns the status with nothing
changed; FW.FREE ends the state; a chunk form performs its next head by the chunk of R316 on the committed planes, FW.FWD
leaving the state as it was; a settled result goes to the register that waits for it; a resolved handle enters the cache; a
paged state comes in before a form that needs it starts. (R308, R311, R313, R314, R316, R328, R329, R331, R335.) -/
def Obligations.FastWeightEvents : Prop :=
  (∀ (s : State) (c : Fin 64) (e : FEnt) (t : List FEnt) (a d : Fin 32), (s.core c).fwq = e :: t → e.op = .fwOpen a d →
    s.fwReady c = some (e, .ok []) → (∀ x ∈ t, x.id ≠ e.id) → ∀ ix s1 l s2, s.fwPick (dieOf c) = some (ix, s1) →
    s1.takeSlabs (dieOf c) e.region (List.replicate (openState e.ga.toNat e.region).slabCount false) = some (l, s2) →
    ∃ s3 s4 h, exec (.fwStart c) s = .next s3 ∧ exec (.fwComplete c) s3 = .next s4 ∧ s3.FwEnds c e d (word h) s4 ∧
      h = fhWord s.chipn (dieOf c) ix ((s2.die (dieOf c)).fwGen ix) ∧
      s4.fwAt (dieOf c) ix = some ((openState e.ga.toNat e.region).settle l)) ∧
  (∀ (s : State) (c : Fin 64) (e : FEnt) (t : List FEnt) (a d : Fin 32) (h : Nat) (f : FwState), (s.core c).fwq = e :: t →
    s.fwReady c = some (e, .ok [h]) → s.fwFind h = some f → (∀ x ∈ t, x.id ≠ e.id) →
    (e.op = .fwStat a d → ∃ s1 s2, exec (.fwStart c) s = .next s1 ∧ exec (.fwComplete c) s1 = .next s2 ∧
      s.FwEnds c e d (word (s.fwStatus (fhDie h) f (s.fwMoving h))) s2 ∧ s2.dies = s.dies ∧ s2.mem = s.mem) ∧
    (e.op = .fwFree a d → ∃ s1 s2, exec (.fwStart c) s = .next s1 ∧ exec (.fwComplete c) s1 = .next s2 ∧ s1.FwEnds c e d 0 s2 ∧
      s2.fwFind h = none)) ∧
  (∀ (s : State) (c : Fin 64) (e : FEnt) (t : List FEnt) (a b d : Fin 32) (h hd : Nat) (f : FwState), (s.core c).fwq = e :: t →
    e.out = none → e.started = true → e.hs = [h] → s.fwFind h = some f → (e.heads f)[e.head]? = some hd → (∀ x ∈ t, x.id ≠ e.id) →
    e.spec = false →
    (e.op = .fwFu a b d ∨ e.op = .fwUpd a b d → ∃ s', exec (.fwComplete c) s = .next s' ∧
      s'.fwFind h = some (f.setHead hd ((f.head hd).chunk f.geo e.fwr (e.toks (s.core c).pool f.geo hd)).1) ∧
      ((s'.core c).fwq.head?).map (·.head) = some (e.head + 1) ∧ (e.op = .fwUpd a b d → (s'.core c).pool = (s.core c).pool)) ∧
    (e.op = .fwFwd a b d → ∃ s', exec (.fwComplete c) s = .next s' ∧ s'.fwFind h = some f ∧ s'.mem = s.mem ∧
      ((s'.core c).fwq.head?).map (·.head) = some (e.head + 1))) ∧
  (∀ (s : State) (c : Fin 64) (e : FEnt) (t : List FEnt) (v : Word), (s.core c).fwq = e :: t → e.out = some v →
    ∃ s', exec (.fwComplete c) s = .next s' ∧ s.FwEnds c e (fwGd e.op) v s' ∧ s'.mem = s.mem) ∧
  (∀ (s : State) (c : Fin 64) (h : Nat) (t : List Nat), (s.core c).fwwant = h :: t →
    ∃ s', exec (.fwDirectoryResolve c) s = .next s' ∧ (s'.core c).fwcache.head? = some h ∧ (s'.core c).fwwant = t ∧ s'.mem = s.mem) ∧
  (∀ (s s1 : State) (c : Fin 64) (e : FEnt) (h : Nat), s.fwReady c = some (e, .ok [h]) → needsIn e.op = true → s.fwPaged h = true →
    s.fwIn (fhDie h) (fhIx h) = .ok s1 → exec (.fwPageInDone c) s = .next s1 ∧ exec (.fwStart c) s = .next s) ∧
  (∀ (s s1 : State) (i : Nat) (x : Xfer) (f : FwState) (a b d : Fin 32) (h : Nat), s.xfers[i]? = some x → x.lost = false → x.e.hs = [h] → s.fwFind h = some f →
    s.cdUp (Fin.ofNat 4 x.die) = true → x.e.op = .fwPage a b d 2 → s.fwIn (Fin.ofNat 4 x.die) x.ix = .ok s1 →
    ∃ s', exec (.fwTransferComplete i) s = .next s' ∧ s'.dies = s1.dies ∧ s'.xfers = s1.xfers.filter (·.id ≠ x.id))

/-- Each word of MAJ 46 to 50 that issues raises ENG 0x07 while a sequence record of its thread is pending and waits for an
open release or acquire; past those, with its operands sound, it waits with WHY 9, OBJ 4 while the queue is full, and else
joins the queue with its operands and descriptor, owes its result and retires, changing nothing else (GR.MASK and GR.LATT
first clear the ready bits of a bound context, GR.MASK shown to trap where that access faults, log entry 71; SQ.SEND opens a
release). A context index past the table raises TYPE 0x38. (R338, R342, R344, R345, R355, R356, R359, R360, R364, R369,
R370.) -/
def Obligations.SequenceIssue : Prop :=
  (∀ (a d : Fin 32) (r : Fin 2), SeqJoins (.cxStart a d r) 46 [a]
    (fun s => ctxIx (s.me.get a).toNat < s.ctxn)
    (fun s => [s.me.get a]) (fun _ => []) (fun s t => t = s)) ∧
  (∀ (a d : Fin 32), SeqJoins (.cxPause a d) 46 [a]
    (fun s => ctxIx (s.me.get a).toNat < s.ctxn)
    (fun s => [s.me.get a]) (fun _ => []) (fun s t => t = s)) ∧
  (∀ (a d : Fin 32), SeqJoins (.cxEnd a d) 46 [a]
    (fun s => ctxIx (s.me.get a).toNat < s.ctxn)
    (fun s => [s.me.get a]) (fun _ => []) (fun s t => t = s)) ∧
  (∀ (a b d : Fin 32), SeqJoins (.cxFork a b d) 46 [a, b]
    (fun s => ctxIx (s.me.get a).toNat < s.ctxn ∧ ctxIx (s.me.get b).toNat < s.ctxn)
    (fun s => [s.me.get a, s.me.get b]) (fun _ => []) (fun s t => t = s)) ∧
  (∀ (a b d : Fin 32) (l : Fin 2), SeqJoins (.cxCancel a b d l) 46 [a, b]
    (fun s => ctxIx (s.me.get a).toNat < s.ctxn)
    (fun s => [s.me.get a, s.me.get b]) (fun _ => []) (fun s t => t = s)) ∧
  (∀ (a b d : Fin 32), SeqJoins (.cxSpec a b d) 46 [a, b]
    (fun s => ctxIx (s.me.get a).toNat < s.ctxn)
    (fun s => [s.me.get a, s.me.get b]) (fun _ => []) (fun s t => t = s)) ∧
  (∀ (a b d : Fin 32), SeqJoins (.cxCommit a b d) 46 [a, b]
    (fun s => ctxIx (s.me.get a).toNat < s.ctxn)
    (fun s => [s.me.get a, s.me.get b]) (fun _ => []) (fun s t => t = s)) ∧
  (∀ (a b d : Fin 32), SeqJoins (.grBind a b d) 47 [a, b]
    (fun s => ctxIx (s.me.get a).toNat < s.ctxn ∧ s.me.stores = [] ∧ s.myCore.scratchCheck [((s.me.get b).toNat, 64, 64)] = none ∧
      ((s.poolAt (s.me.get b).toNat 64).drop 24).any (· != 0) = false ∧ (field (s.poolAt (s.me.get b).toNat 64) 0 8 = 0 ∨ ((s.recRead s.cc (ctxIx (s.me.get a).toNat)).bind fun r =>
        (s.ctxAsid s.cc r).bind fun asid => gVerify (s.gImage s.cc asid (field (s.poolAt (s.me.get b).toNat 64) 0 8)) (field (s.poolAt (s.me.get b).toNat 64) 0 8)) = .ok 0))
    (fun s => [s.me.get a, s.me.get b]) (fun s => s.poolAt (s.me.get b).toNat 64) (fun s t => t = s)) ∧
  (∀ (a b d : Fin 32) (r : Fin 2), SeqJoins (.grStep a b d r) 47 [a, b]
    (fun s => ctxIx (s.me.get a).toNat < s.ctxn)
    (fun s => [s.me.get a, s.me.get b]) (fun _ => []) (fun s t => t = s)) ∧
  (∀ (a d : Fin 32), SeqJoins (.grMask a d) 47 [a]
    (fun s => ctxIx (s.me.get a).toNat < s.ctxn)
    (fun s => [s.me.get a]) (fun _ => []) (clearsReady (fun s => ctxIx (s.me.get a).toNat) fun _ => 2 ^ 64)) ∧
  (∀ (a b d : Fin 32), SeqJoins (.grLatt a b d) 47 [a, b]
    (fun s => ctxIx (s.me.get a).toNat < s.ctxn ∧ s.me.stores = [] ∧ s.myCore.scratchCheck [((s.me.get b).toNat, 64, 64)] = none ∧
      s.myCore.scratchCheck [(field (s.poolAt (s.me.get b).toNat 64) 8 8, 2048, 4)] = none ∧ latticeRsv (s.poolAt (s.me.get b).toNat 64) = false)
    (fun s => [s.me.get a, s.me.get b]) (fun s => s.poolAt (s.me.get b).toNat 64) (clearsReady (fun s => ctxIx (s.me.get a).toNat) fun _ => allSlots)) ∧
  (∀ (a b d : Fin 32), SeqJoins (.grSave a b d) 47 [a, b]
    (fun s => ctxIx (s.me.get a).toNat < s.ctxn ∧ (s.me.get b).toNat % 64 = 0)
    (fun s => [s.me.get a, s.me.get b]) (fun _ => []) (fun s t => t = s)) ∧
  (∀ (a b d : Fin 32), SeqJoins (.grRoll a b d) 47 [a, b]
    (fun s => ctxIx (s.me.get a).toNat < s.ctxn ∧ (s.me.get b).toNat % 64 = 0)
    (fun s => [s.me.get a, s.me.get b]) (fun _ => []) (fun s t => t = s)) ∧
  (∀ (a b d : Fin 32), SeqJoins (.grFork a b d) 47 [a, b]
    (fun s => ctxIx (s.me.get a).toNat < s.ctxn ∧ ctxIx (s.me.get b).toNat < s.ctxn)
    (fun s => [s.me.get a, s.me.get b]) (fun _ => []) (fun s t => t = s)) ∧
  (∀ (a d : Fin 32), SeqJoins (.skOpen a d) 48 [a]
    (fun s => s.me.stores = [] ∧ s.myCore.scratchCheck [((s.me.get a).toNat, 64, 64)] = none ∧ field (s.poolAt (s.me.get a).toNat 64) 17 1 = 0 ∧
      ((s.poolAt (s.me.get a).toNat 64).drop 20).any (· != 0) = false ∧ (field (s.poolAt (s.me.get a).toNat 64) 16 1 ≤ 64 ∨ field (s.poolAt (s.me.get a).toNat 64) 16 1 = 255) ∧ 0 < field (s.poolAt (s.me.get a).toNat 64) 8 4 ∧
      field (s.poolAt (s.me.get a).toNat 64) 8 4 ≤ 262144 ∧ field (s.poolAt (s.me.get a).toNat 64) 0 8 % 64 = 0 ∧ ctxIx (word (field (s.poolAt (s.me.get a).toNat 64) 12 4)).toNat < s.ctxn)
    (fun s => [s.me.get a]) (fun s => s.poolAt (s.me.get a).toNat 64) (fun s t => t = s)) ∧
  (∀ (a b d : Fin 32) (f : Fin 2), SeqJoins (.skClose a b d f) 48 [a, b]
    (fun s => s.me.stores = [] ∧ s.myCore.scratchCheck [((s.me.get b).toNat, 528, 64)] = none)
    (fun s => [s.me.get a, s.me.get b]) (fun _ => []) (fun s t => t = s)) ∧
  (∀ (a d : Fin 32), SeqJoins (.skDraw a d) 48 [a]
    (fun _ => True)
    (fun s => [s.me.get a]) (fun _ => []) (fun s t => t = s)) ∧
  (∀ (a d : Fin 32), SeqJoins (.ltExp a d) 49 [a]
    (fun s => s.me.stores = [] ∧ s.myCore.scratchCheck [((s.me.get a).toNat, 64, 64)] = none ∧ latticeRsv (s.poolAt (s.me.get a).toNat 64) = false ∧
      s.myCore.scratchCheck [(field (s.poolAt (s.me.get a).toNat 64) 0 8, if field (s.poolAt (s.me.get a).toNat 64) 16 1 = 0 ∨ 64 < field (s.poolAt (s.me.get a).toNat 64) 16 1 then 512 else 8 * field (s.poolAt (s.me.get a).toNat 64) 16 1, 4),
        (field (s.poolAt (s.me.get a).toNat 64) 8 8, 2048, 4)] = none)
    (fun s => [s.me.get a]) (fun s => s.poolAt (s.me.get a).toNat 64) (fun s t => t = s)) ∧
  (∀ (a b d : Fin 32), SeqJoins (.sqCfg a b d) 50 [a, b]
    (fun _ => True)
    (fun s => [s.me.get a, s.me.get b]) (fun _ => []) (fun s t => t = s)) ∧
  (∀ (a b d : Fin 32), SeqJoins (.sqSend a b d) 50 [a, b]
    (fun s => s.me.stores = [] ∧ s.myCore.scratchCheck [((s.me.get a).toNat, 128, 64)] = none ∧ s.storeRecord s.cc s.cr = false)
    (fun s => [s.me.get a, s.me.get b]) (fun _ => []) (fun s t => t = s.openRel 4 false)) ∧
  (∀ (a b d : Fin 32), SeqJoins (.sqRecv a b d) 50 [a, b]
    (fun s => s.me.stores = [] ∧ s.myCore.scratchCheck [((s.me.get a).toNat, 128, 64)] = none)
    (fun s => [s.me.get a, s.me.get b]) (fun _ => []) (fun s t => t = s)) ∧
  (∀ (a b d : Fin 32) (r : Fin 2), SeqIndex (.cxStart a d r) 46 [a] a ∧ SeqIndex (.cxPause a d) 46 [a] a ∧ SeqIndex (.cxEnd a d) 46 [a] a ∧
    SeqIndex (.cxFork a b d) 46 [a, b] a ∧ SeqIndex (.cxCancel a b d r) 46 [a, b] a ∧ SeqIndex (.cxSpec a b d) 46 [a, b] a ∧
    SeqIndex (.cxCommit a b d) 46 [a, b] a ∧ SeqIndex (.grBind a b d) 47 [a, b] a ∧ SeqIndex (.grStep a b d r) 47 [a, b] a ∧
    SeqIndex (.grMask a d) 47 [a] a ∧ SeqIndex (.grLatt a b d) 47 [a, b] a ∧ SeqIndex (.grSave a b d) 47 [a, b] a ∧
    SeqIndex (.grFork a b d) 47 [a, b] a ∧ SeqIndex (.grRoll a b d) 47 [a, b] a) ∧
  (∀ (s : State) (a d : Fin 32) (asid m : Nat) (x : XFault), s.Issues { maj := 47 } [a] → s.myCore.recPending s.cr 4 = false →
    s.asyncOpen = false → ctxIx (s.me.get a).toNat < s.ctxn → s.myCore.sq.length < 16 →
    s.readyAt (ctxIx (s.me.get a).toNat) = some (asid, m) → s.setReady s.cc asid m (2 ^ 64) 0 none = .error (.fault x) →
    exec (.grMask a d) s = s.trapX x)

/-- SEQ_START takes the LOCK of the context and captures its record, or waits while another holds it; SK.OPEN captures the
record of the context that its descriptor names, SK.DRAW that of its open row, SK.CLOSE and SQ.CFG none. SEQ_COMPLETE gives
CX.START, CX.PAUSE, CX.SPEC, CX.COMMIT (with and without grammar), CX.END and CX.CANCEL of a context without a grammar
journal (0x0A with the full effect where a log slab is poisoned: log 149, the model's choice) and CX.FORK their new record
and result or their failure 0x20 to 0x25; GR.SAVE, GR.FORK, LT.EXP, SQ.CFG and SQ.RECV their effect and result or failure;
grammar forms without a binding fail 0x25; SK.CLOSE and SK.DRAW of a quarantined base die fail 0x31, of a stale ticket 0x2D,
and wait for an unprocessed row; SQ.RECV waits on an empty queue, SQ.SEND on a full one. A record lands whole with its SEQ;
a block of a row without mask slot gives its m and s. (R340, R342, R343, R347, R348, R349, R350, R351, R359, R361, R365,
R369.) -/
def Obligations.SequenceEvents : Prop :=
  (∀ (s s1 : State) (c : Fin 64) (e : SEnt) (i x r r1 : Nat), (s.core c).sq[i]? = some e → e.started = false → e.locked = [] → e.stop = none →
    (s.core c).sqBehind (dieOf c).val i e = false → s.storesDone c e.role e.id = true →
    (e.locks = [] → (∃ a b d f, e.op = .skClose a b d f) ∨ (∃ a b d, e.op = .sqCfg a b d) →
      exec (.seqStart c i) s = .next (s.upSq c e.id fun _ => { e with started := true, recs := [] })) ∧
    (e.locks = [] → (∃ a d, e.op = .skOpen a d) → s.recRead c (ctxIx (field e.desc 12 4)) = .ok r →
      exec (.seqStart c i) s = .next (s.upSq c e.id fun _ => { e with started := true, recs := [r] })) ∧
    (∀ q, e.locks = [] → (∃ a d, e.op = .skDraw a d) → s.rowOf e.ga = some q → s.recRead c q.ctx = .ok r →
      exec (.seqStart c i) s = .next (s.upSq c e.id fun _ => { e with started := true, recs := [r] })) ∧
    (e.locks = [x] → s.ctxRead (dieOf c) x = .ok r → (∀ a b d, e.op ≠ .grLatt a b d) →
      (cLOCK r = true → exec (.seqStart c i) s = .next s) ∧
      (cLOCK r = false → s.ctxStore (dieOf c) x [fLOCK] (setBits r 7 1 1) = .ok s1 →
        (s1.upSq c e.id fun _ => { e with locked := [x] }).recRead c x = .ok r1 →
        ∃ s', exec (.seqStart c i) s = .next s' ∧ s'.mem = s1.mem ∧
          (s'.core c).sq = (s.core c).sq.map (fun y => if y.id = e.id then { e with started := true, locked := [x], recs := [r1] } else y)))) ∧
  (∀ (s : State) (c : Fin 64) (e : SEnt) (i r n w : Nat) (a b d : Fin 32) (k : Fin 2), (s.core c).sq[i]? = some e → e.started = true →
    r = e.recOf (ctxIx e.ga) → n = bits e.gb 0 7 → w = bits e.gb 16 16 →
    (e.op = .cxStart a d k →
      (cSTATE r = 3 ∧ k = 0 → ∃ s', exec (.seqComplete c i) s = .next s' ∧ s.SeqEnds c e (fwFail 0x20) s') ∧
      (¬(cSTATE r = 3 ∧ k = 0) → ∀ s1, s.recStore c (ctxIx e.ga) (if k = 1 then [fSTATE, fRESET] else [fSTATE]) (if k = 1 then setRESET (setSTATE r 1) true else setSTATE r 1) = .ok s1 →
        ∃ s', exec (.seqComplete c i) s = .next s' ∧ s1.SeqEnds c e (word (cSTATE r)) s')) ∧
    (e.op = .cxPause a d →
      (cSTATE r = 3 → ∃ s', exec (.seqComplete c i) s = .next s' ∧ s.SeqEnds c e (fwFail 0x20) s') ∧
      (cSTATE r ≠ 3 → ∀ s1, s.recStore c (ctxIx e.ga) [fSTATE] (setSTATE r 2) = .ok s1 →
        ∃ s', exec (.seqComplete c i) s = .next s' ∧ s1.SeqEnds c e (word (cSTATE r)) s')) ∧
    (e.op = .cxSpec a b d →
      (n = 0 → ∃ s', exec (.seqComplete c i) s = .next s' ∧ s.SeqEnds c e (fwFail 0x22) s') ∧
      (0 < n → 64 < cNJ r + n → ∃ s', exec (.seqComplete c i) s = .next s' ∧ s.SeqEnds c e (fwFail 0x21) s') ∧
      (0 < n → cNJ r + n ≤ 64 → ∀ s1, s.recStore c (ctxIx e.ga) (fWIN :: fJournal) (setBits (setJRN r (cJRN r ++ List.replicate n w)) 36 16 (w + 1)) = .ok s1 →
        ∃ s', exec (.seqComplete c i) s = .next s' ∧ s1.SeqEnds c e (word (cNJ r + n)) s')) ∧
    (e.op = .cxCommit a b d → bits e.gb 8 1 = 0 ∨ n = 0 →
      (cNJ r < n → ∃ s', exec (.seqComplete c i) s = .next s' ∧ s.SeqEnds c e (fwFail 0x22) s') ∧
      (n ≤ cNJ r → bits e.gb 7 1 = 1 → 0 < n → (cJRN r).getD (n - 1) 0 ≠ w →
        ∃ s', exec (.seqComplete c i) s = .next s' ∧ s.SeqEnds c e (fwFail 0x23) s') ∧
      (n ≤ cNJ r → bits e.gb 7 1 = 0 ∨ n = 0 ∨ (cJRN r).getD (n - 1) 0 = w → ∀ s1, s.recStore c (ctxIx e.ga) (fCLEN :: fJournal) (setBits (setJRN r ((cJRN r).drop n)) 256 32 (cCLEN r + n)) = .ok s1 →
        ∃ s', exec (.seqComplete c i) s = .next s' ∧ s1.SeqEnds c e (word n) s')) ∧
    (e.op = .grStep a b d k ∨ e.op = .grMask a d ∨ e.op = .grLatt a b d ∨ e.op = .grRoll a b d ∨ e.op = .grSave a b d → cGB r = false →
      ∃ s', exec (.seqComplete c i) s = .next s' ∧ s.SeqEnds c e (fwFail 0x25) s') ∧
    (e.op = .skClose a b d k ∨ e.op = .skDraw a d →
      (s.bdUp (tkBd e.ga) = false → ∃ s', exec (.seqComplete c i) s = .next s' ∧ s.SeqEnds c e (fwFail 0x31) s') ∧
      (s.bdUp (tkBd e.ga) = true → s.cdUp (Fin.ofNat 4 ((tkBd e.ga).val / 2)) = true →
        s.routeUp (dieOf c) (Fin.ofNat 4 ((tkBd e.ga).val / 2)) = true →
        (s.rowOf e.ga = none → ∃ s', exec (.seqComplete c i) s = .next s' ∧ s.SeqEnds c e (fwFail 0x2D) s') ∧
        (∀ q, s.rowOf e.ga = some q → q.canClose = false → exec (.seqComplete c i) s = .next s))) ∧
    (e.op = .sqRecv a b d → (s.specq (dieOf c) (Fin.ofNat 16 (bits e.gb 0 4))).held = 0 → exec (.seqComplete c i) s = .next s) ∧
    (e.op = .sqSend a b d → 64 ≤ (s.specq e.sendTo.1 e.sendTo.2).held + (s.specq e.sendTo.1 e.sendTo.2).flying →
      exec (.seqComplete c i) s = .next s)) ∧
  (∀ (s s1 s2 : State) (c : Fin 64) (e : SEnt) (i r n w x : Nat) (k : Option Nat) (bad : Bool) (keep : List Nat) (a b d : Fin 32) (l : Fin 2),
    (s.core c).sq[i]? = some e → e.started = true → r = e.recOf (ctxIx e.ga) → n = bits e.gb 0 7 → w = bits e.gb 16 16 →
    (e.op = .cxEnd a d ∧ k = none ∨ e.op = .cxCancel a b d l ∧ k = (if l = 1 then none else some (bits e.gb 0 16)) →
      keep = (cJRN r).filter (fun y => k.any fun v => decide (32768 ≤ (y + 65536 - v % 65536) % 65536)) →
      (cHAND r = 0 → s.fwCancel c (cHAND r) k = .ok (.ok (s, false))) ∧
      (s.fwCancel c (cHAND r) k = .ok (.error x) → ∃ s', exec (.seqComplete c i) s = .next s' ∧ s.SeqEnds c e (fwFail x) s') ∧
      (s.fwCancel c (cHAND r) k = .ok (.ok (s1, bad)) → cNGJ r = 0 →
        (s1.abandon (ctxIx e.ga) fun y => k.all fun v => decide ((y + 65536 - v % 65536) % 65536 < 32768)).recStore c (ctxIx e.ga)
          ((if e.op = .cxEnd a d then [fSTATE] else []) ++ fJournal)
          (if e.op = .cxEnd a d then setSTATE (setJRN r keep) 3 else setJRN r keep) = .ok s2 →
        ∃ s', exec (.seqComplete c i) s = .next s' ∧
          s2.SeqEnds c e (if bad then fwFail 0x0A else word ((cJRN r).length - keep.length)) s')) ∧
    (e.op = .cxCommit a b d → bits e.gb 8 1 = 1 → 0 < n →
      (cNJ r < n ∨ cNGJ r < n → ∃ s', exec (.seqComplete c i) s = .next s' ∧ s.SeqEnds c e (fwFail 0x22) s') ∧
      (n ≤ cNJ r → n ≤ cNGJ r →
        (bits e.gb 7 1 = 1 → (cJRN r).getD (n - 1) 0 ≠ w → ∃ s', exec (.seqComplete c i) s = .next s' ∧ s.SeqEnds c e (fwFail 0x23) s') ∧
        ∀ asid g jr, (bits e.gb 7 1 = 1 → (cJRN r).getD (n - 1) 0 = w) → s.ctxAsid c r = .ok asid → s.gLoad c asid r = .ok (g, jr) →
          (bits e.gb 7 1 = 1 → (jr.getD (n - 1) (0, 0)).2 ≠ w → ∃ s', exec (.seqComplete c i) s = .next s' ∧ s.SeqEnds c e (fwFail 0x23) s') ∧
          ∀ h g1 y z, (bits e.gb 7 1 = 1 → (jr.getD (n - 1) (0, 0)).2 = w) → gHdr (s.gImage c asid (cGIMG r)) = .ok h →
            gReplay (s.gImage c asid (cGIMG r)) h g ((jr.take n).map (·.1)) = .ok g1 →
            s.gStoreCfg c asid (setBits (setJRN r ((cJRN r).drop n)) 256 32 (cCLEN r + n)) g1 = .ok y →
            y.1.gStoreJrn c asid y.2 (jr.drop n) = .ok z → z.1.recStore c (ctxIx e.ga) (fNGJ :: fCfg ++ fCLEN :: fJournal) z.2 = .ok s2 →
            ∃ s', exec (.seqComplete c i) s = .next s' ∧ s2.SeqEnds c e (word n) s')) ∧
    (e.op = .grSave a b d → cGB r = true → ∀ asid g jr, s.ctxAsid c r = .ok asid → s.gLoad c asid r = .ok (g, jr) →
      State.pokePages c e.asid (pagePieces 4 e.gb 4672) (saveImage r g jr) s = (s1, .ok ()) →
      ∃ s', exec (.seqComplete c i) s = .next s' ∧ s1.SeqEnds c e 0 s') ∧
    (e.op = .ltExp a d → ∀ m nodes ps bs, m = field e.desc 16 1 → nodes = (List.range m).map (fun j => lNode (field e.desc (64 + 8 * j) 8)) →
      ps = latticePaths nodes → bs = (ps.take 64).flatMap (fun p => latticeRow nodes (ps.take 64) (field e.desc 20 4) p) →
      (latticeBad m nodes = true → ∃ s', exec (.seqComplete c i) s = .next s' ∧ s.SeqEnds c e (fwFail 0x2F) s') ∧
      (latticeBad m nodes = false → ∃ s1 s' : State, exec (.seqComplete c i) s = .next s' ∧
        s1.SeqEnds c e (word (min 64 ps.length + if 64 < ps.length then 256 else 0)) s' ∧ s1.mem = s.mem ∧
        (s1.core c).pool = ((s.core c).pool.write (field e.desc 8 8 - 0x00FF000000000000) bs).write (e.ga - 0x00FF000000000000 + 17)
          (leBytes 1 (min 64 ps.length) ++ leBytes 1 (if 64 < ps.length then 1 else 0)))) ∧
    (e.op = .sqCfg a b d → ∀ q : Fin 16, q = Fin.ofNat 16 e.ga →
      (0 < (s.specq (dieOf c) q).held ∨ 0 < (s.specq (dieOf c) q).flying ∨ s.specBusy (dieOf c) q.val e.id = true →
        ∃ s', exec (.seqComplete c i) s = .next s' ∧ s.SeqEnds c e (fwFail 0x2E) s') ∧
      ((s.specq (dieOf c) q).held = 0 → (s.specq (dieOf c) q).flying = 0 → s.specBusy (dieOf c) q.val e.id = false →
        (e.gb % 8192 ≠ 0 ∨ s.areaSegs c e.asid e.gb 8192 (ringLeaf (dieOf c)) = none →
          ∃ s', exec (.seqComplete c i) s = .next s' ∧ s.SeqEnds c e (fwFail 0x28) s') ∧
        ∀ ps, e.gb % 8192 = 0 → s.areaSegs c e.asid e.gb 8192 (ringLeaf (dieOf c)) = some ps → (oneStack ps).isSome = true →
          ∃ s1 s' : State, exec (.seqComplete c i) s = .next s' ∧ s1.SeqEnds c e 0 s' ∧ s1.mem = s.mem ∧ s1.cores = s.cores ∧
            s1.specq (dieOf c) q = ⟨true, bits e.ga 8 2, ps.map (·.1), 0, 0, 0, 0⟩)) ∧
    (e.op = .sqRecv a b d → ∀ (q : Fin 16) (z : SpecQ) (bs : List Byte), q = Fin.ofNat 16 (bits e.gb 0 4) → z = s.specq (dieOf c) q →
      0 < z.held → s.recvBehind (dieOf c) q.val (e.sent.getD 0) = false → s.specUp (dieOf c) (dieOf c) z = true → bs = s.phys (z.recAt z.head) 128 →
      bits e.gb 8 1 = 0 ∨ field bs 2 1 = bits e.gb 16 8 → s.anyPoison (z.recAt z.head) 128 = false →
      ∃ s1 s' : State, exec (.seqComplete c i) s = .next s' ∧
        s1.SeqEnds c e (word (field bs 0 2 + field bs 4 2 * 65536 + e.dropped % 65536 * 2 ^ 32)) s' ∧ s1.mem = s.mem ∧
        (s1.core c).pool = (s.core c).pool.write (e.ga - 0x00FF000000000000) bs ∧
        s1.specq (dieOf c) q = { z with head := (z.head + 1) % 64, held := z.held - 1 })) ∧
  (∀ (s s1 s2 s3 s4 : State) (c : Fin 64) (e : SEnt) (i p k h x pa ka : Nat) (a b d : Fin 32) (st : List Byte),
    (s.core c).sq[i]? = some e → e.started = true → p = e.recOf (ctxIx e.ga) → k = e.recOf (ctxIx e.gb) →
    (e.op = .cxFork a b d → ∀ no : Prop, (no ↔ ctxIx e.ga = ctxIx e.gb ∨ (cSTATE k ≠ 0 ∧ cSTATE k ≠ 3) ∨ bits k 288 7 ≠ 0 ∨ bits k 556 7 ≠ 0 ∨
        (cCLVL p ≠ 0 ∧ cCLVL k ≠ cCLVL p)) →
      (no → ∃ s', exec (.seqComplete c i) s = .next s' ∧ s.SeqEnds c e (fwFail 0x20) s') ∧
      (¬no → cGB p = true ∧ (cGSTK k = 0 ∨ cMASKA k = 0) → ∃ s', exec (.seqComplete c i) s = .next s' ∧ s.SeqEnds c e (fwFail 0x25) s') ∧
      (¬no → cGB p = false ∨ (cGSTK k ≠ 0 ∧ cMASKA k ≠ 0) → s.ctxAsid c p = .ok pa → s.ctxAsid c k = .ok ka →
        (s.forkSnap c (cHAND p) e.region = .ok (.error x) → ∃ s', exec (.seqComplete c i) s = .next s' ∧ s.SeqEnds c e (fwFail x) s') ∧
        (s.forkSnap c (cHAND p) e.region = .ok (.ok (h, s1)) →
          (cCLVL p ≠ 0 → h = 0 → s1.forkTree (dieOf c) (cCLVL p) (cCNODE p) (cCNODE k) pa (cREGION k) e.sent.isSome = .noFrames →
            ∃ s', exec (.seqComplete c i) s = .next s' ∧ s1.SeqEnds c e (fwFail 0x24) s') ∧
          (cCLVL p = 0 ∧ s2 = s1 ∨
              cCLVL p ≠ 0 ∧ s1.forkTree (dieOf c) (cCLVL p) (cCNODE p) (cCNODE k) pa (cREGION k) e.sent.isSome = .done s2 →
            s2.seqPeek c pa (cGSTK p) (4 * cGSP p) = .ok st → s2.seqPoke c ka (cGSTK k) st = .ok s3 →
            s3.recStore c (ctxIx e.gb) fChild (childRec p k h) = .ok s4 →
            ∃ s', exec (.seqComplete c i) s = .next s' ∧ s4.SeqEnds c e (word h) s')))) ∧
    (e.op = .grFork a b d →
      (cGB p = false ∨ cGB k = false → ∃ s', exec (.seqComplete c i) s = .next s' ∧ s.SeqEnds c e (fwFail 0x25) s') ∧
      (cGB p = true → cGB k = true → bits k 556 7 ≠ 0 → ∃ s', exec (.seqComplete c i) s = .next s' ∧ s.SeqEnds c e (fwFail 0x27) s') ∧
      ∀ g jr y, cGB p = true → cGB k = true → bits k 556 7 = 0 → s.ctxAsid c p = .ok pa → s.ctxAsid c k = .ok ka → s.gLoad c pa p = .ok (g, jr) →
        s.gStoreCfg c ka k g = .ok y → y.1.recStore c (ctxIx e.gb) (fGIMG :: fCfg) (setBits y.2 320 64 (cGIMG p)) = .ok s1 →
        ∃ s', exec (.seqComplete c i) s = .next s' ∧ s1.SeqEnds c e 0 s')) ∧
  (∀ (s : State) (c : Fin 64) (e : SEnt) (i n : Nat) (a b d : Fin 32) (x : SpecQ), (s.core c).sq[i]? = some e → e.op = .sqSend a b d →
    e.sent = some n → e.desc.length = 128 → x = s.specq e.sendTo.1 e.sendTo.2 → s.sendBehind e.sendTo.1 e.sendTo.2 x n = false →
    s.pathHeld c e.sendTo.1 = false → s.specUp (dieOf c) e.sendTo.1 x = true →
    ∃ (s1 s' : State), exec (.sqRecordLand c i) s = .next s' ∧ s1.SeqEnds c e (word n) s' ∧ s1.cores = s.cores ∧
      s1.specq e.sendTo.1 e.sendTo.2 = { x with flying := x.flying - 1, held := x.held + 1 } ∧
      s1.phys (x.recAt (x.head + x.held)) 128 = e.desc.take 4 ++ leBytes 2 n ++ leBytes 2 0 ++ e.desc.drop 8) ∧
  (∀ (s : State) (b : Fin 8) (ix k : Nat) (r : Row) (ys : List Nat), (s.bd b).row ix = some r → ix < 256 → (s.bd b).gen ix < 65536 →
    r.abandoned = false → tClass r.temp ≠ .bad → k < r.blockCount → (∀ x ∈ r.blocks, x.1 ≠ k) → r.hasLanded k = true →
    s.slotReady r = true → s.bdUp b = true → s.cdUp (Fin.ofNat 4 (b.val / 2)) = true → r.slot = none →
    ys = (leLanes (s.segRead r.segs (4 * (4096 * k)) (4 * r.blockLen k))).map (fun x =>
      sinkY (tClass r.temp) (if tClass r.temp = .normal then (frcp r.temp).1 else 0) true x.toNat) →
    ∃ s' r', exec (.sinkBlockProcess b ix k) s = .next s' ∧ (s'.bd b).row ix = some r' ∧ (s'.bd b).gen ix = (s.bd b).gen ix ∧
      r'.blocks = r.blocks ++ [(k, (blockSum ys).1, (blockSum ys).2)] ∧ s'.cores = s.cores ∧ s'.sys = s.sys ∧ s'.tasks = s.tasks)

/-- A round dispatches nothing outside OPERATIONAL or before the bases are written; a first candidate that fits becomes a
task on the lowest-numbered free cores, or ends FAULTED with an event. At the first issue the threads of every member stand
at their entries with g1 the argument copy and all else 0. A late ordinary pre-emption becomes urgent. A save waits until
the task is ready, then leaves its cores free and the task saved, or ended if it was cancelled meanwhile; a fault pauses it
with a SAVEF event and keeps how far it came; a resume gives every core its saved registers, pool and predicates; a task
whose threads have ended and whose engines are idle leaves, NCHUNK of its context one higher, its SIGM ORed into EVF of its
queue and CNOW of its regions lower by its size (where a record cannot be reached the field stays, log 137), unless a store
of an ended thread is a record: ENG 0x01 is raised there. (R81, R142, R383, R384, R385, R389, R391, R392, R393, R404, R408,
R428.) -/
def Obligations.TaskEvents : Prop :=
  (∀ (s s1 s2 : State) (d : Fin 4) (c : Cand) (t : List Cand) (q p : Nat),
    (s.lcs ≠ .operational ∨ s.dispatchReady = false ∨ s.cdUp d = false → exec (.dispatchRound d) s = .next s) ∧
    (s.lcs = .operational → s.dispatchReady = true → s.cdUp d = true → s1 = (s.refreshViews d).sweep d → s1.cands d = c :: t →
      s1.heldCand d (c :: t) = none → c.what = .record q p → (∀ x ∈ c :: t, x.size ≤ (s1.freeCores d).length) →
      s1.takeRecord d q (chainAsid c.chain) c.qcr c.rec_ p = .ok s2 →
      ∃ s', exec (.dispatchRound d) s = .next s' ∧
        ((∃ h ∈ s'.hostq, h.kind = 3 ∧ h.task = s2.nextTask) ∨
         ∃ x ∈ s'.tasks, x.id = s2.nextTask ∧ x.region = c.region ∧ x.queue = q ∧ x.pos = p ∧ x.phase = .formed ∧ x.size = c.size ∧
          x.cores = (s1.freeCores d).take c.size ∧ ∀ k ∈ x.cores, (s'.core k).taskid = x.id ∧ (s'.core k).teamsz = c.size ∧
            (s'.core k).chcnt = 0 ∧ (s'.core k).preds = Vector.replicate 12 0))) ∧
  (∀ (s : State) (id : Nat) (t : Task) (k : Fin 64) (ks : List (Fin 64)), s.task id = some t → t.phase = .formed → t.cores = k :: ks →
    t.ctx = none → ∃ s', exec (.taskFirstIssue id) s = .next s' ∧ s'.task id = some { t with phase := .running } ∧ s'.mem = s.mem ∧
      (∀ j ∈ t.cores, (s'.core j).thr .L = startThread .L (t.entries.getD 0 0) ∧ (s'.core j).thr .C = startThread .C (t.entries.getD 1 0) ∧
        (s'.core j).thr .S = startThread .S (t.entries.getD 2 0) ∧ (s'.core j).pool = (s.core j).pool) ∧
      ∀ j, j ∉ t.cores → s'.core j = s.core j) ∧
  (∀ (r : Role) (n : Nat), (∀ i : Fin 32, (startThread r n).get i = if i = 1 then 0x00FF000000780800 else 0) ∧
    (startThread r n).fpcr = 0 ∧ (startThread r n).rngseed = 0 ∧ (startThread r n).rngctr = 0) ∧
  (∀ (s : State) (id : Nat) (t : Task), s.task id = some t → ∃ s', exec (.preemptEscalate id) s = .next s' ∧
    s'.task id = some (if t.preempt = 1 then { t with preempt := 2 } else t) ∧ s'.mem = s.mem ∧ s'.cores = s.cores) ∧
  (∀ (s s1 : State) (r : SaveRes) (id : Nat) (t : Task) (k : Fin 64) (ks : List (Fin 64)) (bs : List Nat), s.task id = some t → t.phase = .running →
    t.cores = k :: ks →
    (t.preempt = 0 ∨ t.preempt = 3 ∨ s.saveReady t = false → exec (.taskSave id) s = .next s) ∧
    (t.preempt = 1 ∨ t.preempt = 2 → s.saveReady t = true → State.takeBlocks (dieOf k) (t.size - t.blocks.length) s t.blocks = some (bs, s1) →
      r = State.writeBlocks savePages (t.cores.zip bs) t.written 0 s1 →
      (r.stop = none → t.cancel = false → ∃ s', exec (.taskSave id) s = .next s' ∧ s'.tasks.length = s.tasks.length ∧
        (∀ x ∈ s'.tasks, x.id = id → x.phase = .saved ∧ x.cores = [] ∧ x.preempt = 0 ∧ x.blocks = bs ∧ x.saved.length = t.cores.length) ∧
        ∀ j ∈ t.cores, (s'.core j).taskid = 0 ∧ (s'.core j).posts = [] ∧ (s'.core j).reqs = []) ∧
      (r.stop = none → t.cancel = true → ∃ s', exec (.taskSave id) s = .next s' ∧ s'.task id = none) ∧
      (∀ x, r.stop = some (.fault x) → x.cause ≠ cDIEX → ∃ s' y, exec (.taskSave id) s = .next s' ∧ s'.task id = some y ∧ y.phase = .savef ∧
        y.written = r.n ∧ y.blocks = bs ∧ y.cores = t.cores ∧ ∃ h ∈ s'.hostq, h.kind = 2 ∧ h.task = id ∧ h.cause = x.cause))) ∧
  (∀ (s : State) (id : Nat) (t : Task) (k : Fin 64) (ks : List (Fin 64)) (l : List Core), s.task id = some t → t.phase = .resuming →
    t.cores = k :: ks → t.ctx = none → s.readBlocks (dieOf k) savePages (t.saved.zip t.blocks) = .ok l → t.results = [] → t.heldEv = [] →
    t.cores.Nodup → ∃ s', exec (.taskResume id) s = .next s' ∧ (∀ x ∈ s'.tasks, x.id = id → x.phase = .running ∧ x.saved = [] ∧ x.blocks = []) ∧
      ∀ (i : Nat) (j : Fin 64) (n : Core), t.cores[i]? = some j → l[i]? = some n → ∀ r : Role,
        (s'.thr j r).g = (n.thr r).g ∧ (s'.thr j r).fpcr = (n.thr r).fpcr ∧ (s'.core j).pool = n.pool ∧ (s'.core j).preds = n.preds) ∧
  (∀ (s : State) (id : Nat) (t : Task) (k : Fin 64) (ks : List (Fin 64)), s.task id = some t → t.phase = .running → t.cores = k :: ks →
    t.preempt ≠ 3 →
    ((∃ j ∈ t.cores, (s.core j).finished = false) → exec (.taskEnd id) s = .next s) ∧
    ((∀ j ∈ t.cores, (s.core j).finished = true ∧ ((s.core j).thr .T).quietT false = true ∧ s.drained j = true ∧
        (s.core j).enginesIdle = true ∧ (s.core j).sq = []) → s.transfers t = false →
      (s.endRecord t = none → ∃ s', exec (.taskEnd id) s = .next s' ∧ s'.task id = none ∧ (∀ j ∈ t.cores, (s'.core j).taskid = 0 ∧ (s'.core j).chcnt = 0) ∧
        ∀ (s1 : State) (b : List Byte), (t.ctx = none ∧ s1 = s ∨ ∃ i n, t.ctx = some i ∧ s.hwRead (dieOf k) 0 (s.ctxAddr i + 8) 8 = .ok n ∧
            s.hwStore (dieOf k) 0 (s.ctxAddr i + 8) (leBytes 8 ((leNat n + 1) % 2 ^ 64)) = .ok s1) →
          s1.qcrRead (dieOf k) t.queue = .ok b → (∀ j ∈ t.cores, ∀ pa e, (s.thr j .T).stage ≠ .pin pa e) →
          (t.cores.map s.core ++ t.saved).flatMap Core.heldSlabs = [] →
          s'.mem = ((s1.qcrSet (dieOf k) t.queue 32 4 (qEVF b ||| t.sigm)).charge (dieOf k) t.region 128 (-(t.size : Int))).mem) ∧
      (∀ j r, s.endRecord t = some (j, r) → (s.core j).served.isSome = true → ∃ s' p, exec (.taskEnd id) s = .next s' ∧ s'.task id = some t ∧
        (s'.thr j r).trap = some p ∧ p.cause = cENG ∧ p.detail = 0x01 ∧ s'.mem = s.mem)))

/-- A raised trap that can be taken goes to the host (an event, WHY 12) or to T (trap CSRs, g1, TVEC, the frame). A watchdog
in a counted wait raises WATCH at the blocked word with WHY and OBJ; with WDOG 0 or WHY 0 or 12 nothing happens; T halts
under DEBUG and otherwise ends its task FAULTED. A due safe-point count raises SAFE at the word. The oldest host event
enters a ring that has room, at the place TAIL mod CAP of free-running positions (log entry 94), with TAIL and MSI-X vector
2; an unusable or full ring keeps it. (R388, R394, R395, R397, R399, R400, R402, R403, R435.) -/
def Obligations.TrapsAndTimers : Prop :=
  (∀ (s : State) (c : Fin 64) (r : Role) (p : PTrap), r ≠ .T → (∀ q : Role, q ≠ r → (s.thr c q).trap = none) → (s.thr c r).trap = some p →
    s.canTake c r = true →
    (toHost (s.core c).view p.cause = true → ∃ s', exec (.trapDelivery c) s = .next s' ∧ (s'.thr c r).status = .host ∧ (s'.thr c r).why = 12 ∧
      (s'.thr c r).g = (s.thr c r).g ∧ s'.mem = s.mem ∧ ∀ t, s.task (s.core c).taskid = some t →
        ∃ h, s'.hostq = s.hostq ++ [h] ∧ h.kind = 1 ∧ h.task = t.id ∧ h.cause = p.cause ∧ h.detail = p.detail ∧ h.trapa = p.trapa) ∧
    (toHost (s.core c).view p.cause = false → ∃ s', exec (.trapDelivery c) s = .next s' ∧ (s'.core c).served = some r ∧
      (s'.core c).trapc = word (p.cause + 256 * (rix r).val) ∧ (s'.core c).trapa = word p.trapa ∧ (s'.core c).trappc = word p.trappc ∧
      (s'.core c).trapw = word p.detail ∧ (s'.thr c .T).get 1 = word (0x00FF000000781000 + 64 * (rix r).val) ∧
      (s'.thr c .T).fetch = some { target := (s.core c).view.tvec, src := (s.core c).view.tvec, kind := .entry } ∧
      (s'.core c).pool.nat (0x781000 + 64 * (rix r).val) 1 = p.cause % 256 ∧
      (s'.core c).pool.nat (0x781000 + 64 * (rix r).val + 24) 8 = p.detail % 2 ^ 64 ∧ s'.mem = s.mem ∧ s'.hostq = s.hostq)) ∧
  (∀ (s : State) (c : Fin 64), (∀ q : Role, (s.thr c q).trap = none) → exec (.trapDelivery c) s = .next s) ∧
  (∀ (s : State) (c : Fin 64) (r : Role), r ≠ .T → (s.core c).served.isSome = true →
    ((s.core c).view.wdog = 0 ∨ (s.thr c r).why = 0 ∨ (s.thr c r).why = 12 → exec (.watchdogExpiry c r) s = .next s) ∧
    ((s.core c).view.wdog ≠ 0 → (s.thr c r).status = .running → (s.thr c r).trap = none → (s.thr c r).why ≠ 0 → (s.thr c r).why ≠ 12 →
        (∀ pa e, (s.thr c r).stage ≠ .pin pa e) →
      ∃ s' p, exec (.watchdogExpiry c r) s = .next s' ∧ (s'.thr c r).trap = some p ∧ p.cause = 0x0D ∧
        p.detail = (s.thr c r).why % 16 * 4096 + (s.thr c r).obj % 64 ∧ p.trapa = (s.thr c r).pc ∧ p.trappc = (s.thr c r).pc ∧
        (s'.thr c r).g = (s.thr c r).g ∧ (s'.thr c r).wpos = (s.thr c r).wpos ∧ s'.mem = s.mem ∧ (s'.core c).pool = (s.core c).pool) ∧
    ((s.thr c r).stage ≠ .safe → exec (.safeCountExpiry c r) s = .next s) ∧
    (16384 ≤ (s.thr c r).scnt → (s.thr c r).stage = .safe → (s.thr c r).status = .running → (s.thr c r).trap = none →
      ∃ s' p, exec (.safeCountExpiry c r) s = .next s' ∧ (s'.thr c r).trap = some p ∧ p.cause = 0x10 ∧ p.trapa = (s.thr c r).pc ∧
        (s'.thr c r).scnt = (s.thr c r).scnt ∧ (s'.thr c r).g = (s.thr c r).g ∧ s'.mem = s.mem)) ∧
  (∀ (s : State) (c : Fin 64), ((s.core c).view.wdog = 0 → exec (.tWatchdogExpiry c) s = .next s) ∧
    ((s.core c).view.wdog ≠ 0 → (s.thr c .T).status = .running → (s.core c).view.debug = true →
      ∃ s' p, exec (.tWatchdogExpiry c) s = .next s' ∧ (s'.thr c .T).status = .host ∧ (s'.thr c .T).trap = some p ∧ p.cause = 0x0D ∧
        (s'.thr c .T).g = (s.thr c .T).g ∧ s'.mem = s.mem) ∧
    (∀ t, (s.core c).view.wdog ≠ 0 → (s.thr c .T).status = .running → (s.core c).view.debug = false → s.task (s.core c).taskid = some t →
      ∃ s', exec (.tWatchdogExpiry c) s = .next s' ∧ s'.task t.id = none ∧
        ∃ h ∈ s'.hostq, h.kind = 6 ∧ h.task = t.id ∧ h.cause = 0x0D ∧ h.thread = 3)) ∧
  (∀ (s s1 s2 : State) (e : HostEvent) (l : List HostEvent) (d : Fin 4) (b : List Byte), s.hostq = e :: l →
    (s.sysBase 7 = 0 ∨ s.postable e = false → exec .hostEventPost s = .next s) ∧
    (s.sysBase 7 ≠ 0 → s.postable e = true → d = (match e.core with | some c => dieOf c | none => 0) → s.hwRead d 0 (s.sysBase 7) 24 = .ok b →
      (field b 16 8 ≤ field b 8 8 - field b 0 8 → exec .hostEventPost s = .next s) ∧
      (field b 8 8 - field b 0 8 < field b 16 8 → s.hwStore d 0 (s.sysBase 7 + 64 + 64 * (field b 8 8 % field b 16 8)) e.bytes = .ok s1 →
        s1.hwStore d 0 (s.sysBase 7 + 8) (leBytes 8 ((field b 8 8 + 1) % 2 ^ 64)) = .ok s2 →
        ∃ s', exec .hostEventPost s = .next s' ∧ s'.hostq = l ∧ s'.msix[2] = true ∧ s'.mem = s2.mem ∧ s'.cores = s.cores)))

/-- SYS.RD in T puts system register g[GA] bits 7:0 into gD and changes nothing else; SYS.WR in a region with SYS writes
g[GB] into it with reserved bits ignored, leaving the other ten and the thread but for its position as they were; an index
above 0x0A raises ILL 0x03, SYS.WR without SYS raises PRIV with detail 0x01, and either word outside T raises PRIV. (R414.)
-/
def Obligations.SystemRegisters : Prop :=
  (∀ (s : State) (a d : Fin 32) (i : Nat), s.Issues { maj := 53, priv := true } [a] → i = bits (s.me.get a).toNat 0 8 →
    (10 < i → exec (.sysRd a d) s = s.trap cILL 0x03) ∧
    (∀ n : Fin 11, i = n.val → s.Retires (.sysRd a d) 2 fun t => t.put d s.sys[n])) ∧
  (∀ (s : State) (a b : Fin 32) (i : Nat), s.Issues { maj := 53, priv := true } [a, b] → i = bits (s.me.get a).toNat 0 8 →
    (10 < i → exec (.sysWr a b) s = s.trap cILL 0x03) ∧
    (i ≤ 10 → s.myCore.view.sys = false → exec (.sysWr a b) s = s.trap cPRIV 0x01) ∧
    (∀ n : Fin 11, i = n.val → s.myCore.view.sys = true → ∃ s', exec (.sysWr a b) s = .next s' ∧
      s'.sys[n] = s.me.get b &&& (if i = 3 then 0x7FFFF else if i = 8 ∨ i = 9 then 0xFFFF00000 else if i = 10 then 0xFF
        else 0xFFFFFFFFFF000) ∧ (∀ m : Fin 11, m ≠ n → s'.sys[m] = s.sys[m]) ∧ s'.sysset[n] = true ∧
      s'.me = s.me.retire 2)) ∧
  (∀ (s : State) (a b : Fin 32), s.cr ≠ .T → s.gateFault { maj := 53 } = none →
    exec (.sysRd a b) s = s.trap cPRIV 0 ∧ exec (.sysWr a b) s = s.trap cPRIV 0)

/-- TK.PRE in T requests pre-emption of the task g[GA] with result 0 (urgent with .urg; a stronger request stays), returns 1
with nothing changed when the task is already saved and 2 when it is unknown or has ended. A task whose save is paused is
not saved yet, so the answer is 0 (log 87, the model's choice where R392 keeps it on its cores). Registers, memory and other
threads stay as they are. (R389, R392, R417.) -/
def Obligations.TaskPreemption : Prop :=
  (∀ (s : State) (a d : Fin 32) (u : Fin 2) (id : Nat), s.Issues { maj := 55, priv := true } [a] → id = (s.me.get a).toNat →
    (s.task id = none → s.Retires (.tkPre a d u) 2 fun t => t.put d 2) ∧
    (∀ t, s.task id = some t → t.phase = .saved → s.Retires (.tkPre a d u) 2 fun t => t.put d 1) ∧
    (∀ t, s.task id = some t → t.phase ≠ .saved → ∃ s', exec (.tkPre a d u) s = .next s' ∧
      s'.me = (s.me.put d 0).retire 2 ∧ s'.mem = s.mem ∧ s'.sys = s.sys ∧
      s'.task id = some { t with preempt := max t.preempt (if u = 1 then 2 else 1) } ∧
      (∀ n, n ≠ id → s'.task n = s.task n) ∧ ∀ (k : Fin 64) (r : Role), (k, r) ≠ s.cur → s'.thr k r = s.thr k r))

/-- TK.END waits for engine work, raises ENG 0x01 for a store that is a record, and else ends the thread (ILL 0x08 in T);
TK.YIELD requests an ordinary pre-emption and stops at its live mask; SAFEPT restarts the count and stops under a pending
pre-emption with the mask of its CODE; TK.CANCEL asks the running task to stop (0; one already being cancelled too, and one
whose blocks are being saved once the save ends: log 88, the model's choice), or returns 2 for an unknown task, 3 for
another region; ENG.RPL and ENG.DROP free the named records with their number in gD, a replayed copy back in its queue;
TQ.KILL marks DEAD and returns TAIL - HEAD; TQ.CFG returns 2 (a resuming or paused task counts as running: log 86, the
model's choice), 1 or 0 and writes the image; TQ.PUSH returns 0x40 to 0x43 or writes the record and returns its position.
(R386, R388, R389, R405, R407, R408, R409, R410, R411, R415, R416, R418.) -/
def Obligations.SystemWords : Prop :=
  (∀ s : State, s.Issues { maj := 51 } [] →
    (s.cr = .T → exec .tkEnd s = s.trap cILL 0x08) ∧
    (s.cr ≠ .T → s.myCore.haltedOf s.cr = none →
      (s.asyncBusy s.cc s.cr (fun _ => true) = true → exec .tkEnd s = s.block 10 0) ∧
      (s.asyncBusy s.cc s.cr (fun _ => true) = false → s.myCore.asyncRec s.cr (fun _ => true) = false →
        (s.storeRecord s.cc s.cr = true → exec .tkEnd s = s.trap cENG 0x01) ∧
        (s.storeRecord s.cc s.cr = false → s.myCore.posts.any (fun p => p.role == s.cr) = false → s.myCore.postRec s.cr = false →
          exec .tkEnd s = .next (s.upMe fun t => { t.clearWait with scnt := t.scnt + 1, status := .ended }))))) ∧
  (∀ (s : State) (a : Fin 32), s.Issues { maj := 51, safe := true } [a] → s.cr ≠ .T → ∀ t, s.task s.myCore.taskid = some t →
    ∃ s', exec (.tkYield a) s = .next s' ∧ s'.me = { s.me.retire 2 with scnt := 0, status := .stopped 0 (bits (s.me.get a).toNat 1 31 * 2) } ∧
      s'.task s.myCore.taskid = some { t with preempt := max t.preempt 1 } ∧ s'.mem = s.mem) ∧
  (∀ (s : State) (c : Fin 1048576) (m : Nat), s.Issues { maj := 52, safe := true } [] →
    (s.cr = .T → exec (.safept c) s = s.trap cILL 0x08) ∧
    (s.cr ≠ .T → s.preemptOf s.cc = 0 → exec (.safept c) s = .next (s.upMe fun t => { t.retire 2 with scnt := 0 })) ∧
    (s.cr ≠ .T → s.preemptOf s.cc ≠ 0 → m < 2 ^ 32 → (∀ i, i < 32 → bits m i 1 = if i = 0 then 0 else if i < 16 then bits c.val (i - 1) 1
        else if i < 20 then bits c.val 15 1 else if i < 24 then bits c.val 16 1 else if i < 28 then bits c.val 17 1
        else if i < 31 then bits c.val 18 1 else bits c.val 19 1) →
      exec (.safept c) s = .next (s.upMe fun t => { t.retire 2 with scnt := 0, status := .stopped 0 m }))) ∧
  (∀ (s : State) (a d : Fin 32) (g : Nat) (t : Task), s.Issues { maj := 51 } [a] → g = (s.me.get a).toNat → bits g 63 1 = 0 →
    (g ≠ 0 → s.task g = none → s.Retires (.tkCancel a d) 2 fun t => t.put d 2) ∧
    (g = 0 ∨ g = s.myCore.taskid → s.task s.myCore.taskid = some t → t.phase = .running → t.blocks = [] → ∃ s', exec (.tkCancel a d) s = .next s' ∧
      s'.me = s.me.retire 2 ∧ s'.task t.id = some { t with preempt := max t.preempt 3 } ∧ s'.mem = s.mem) ∧
    (g ≠ 0 → g ≠ s.myCore.taskid → s.task g = some t →
      (s.under (dieOf s.cc) t.region s.myCore.view.region = false → s.Retires (.tkCancel a d) 2 fun t => t.put d 3) ∧
      (s.under (dieOf s.cc) t.region s.myCore.view.region = true → t.phase = .running → ∃ s', exec (.tkCancel a d) s = .next s' ∧
        s'.me = (s.me.put d 0).retire 2 ∧ s'.mem = s.mem ∧
        s'.task g = some (if t.blocks = [] then { t with preempt := max t.preempt 3 } else { t with cancel := true })))) ∧
  (∀ (s : State) (a d : Fin 32) (l : List (Fin 32)), s.Issues { maj := 54, priv := true } [a] → s.cr = .T →
    l = (List.finRange 32).filter (fun i => s.myCore.recs[i].isSome && (bits (s.me.get a).toNat 0 32 == 0 || bits (s.me.get a).toNat i.val 1 == 1)) →
    ∃ s1 s2, exec (.engRpl a d) s = .next s1 ∧ exec (.engDrop a d) s = .next s2 ∧
      (d ≠ 0 → s1.me.get d = word l.length ∧ s2.me.get d = word l.length) ∧
      (∀ i ∈ l, s1.myCore.recs[i] = none ∧ s2.myCore.recs[i] = none) ∧
      (∀ i, i ∉ l → s1.myCore.recs[i] = s.myCore.recs[i] ∧ s2.myCore.recs[i] = s.myCore.recs[i]) ∧
      (∀ (i : Fin 32) (e : CEnt) (r : Role) (x : XFault) (b : Bool), l = [i] → s.myCore.recs[i] = some ⟨r, .copy e, x, b⟩ →
        s1.myCore.cq = insertId CEnt.id e s.myCore.cq ∧ s2.myCore.cq = s.myCore.cq)) ∧
  (∀ (s s0 : State) (a d : Fin 32) (q : Nat) (b : List Byte), s.Issues { maj := 55, priv := true } [a] → s.asyncOpen = false →
    q = bits (s.me.get a).toNat 0 14 → s.hwRead (dieOf s.cc) 0 (s.qcr q) 64 = .ok b → s.hwStore (dieOf s.cc) 0 (s.qcr q) b = .ok s0 →
    exec (.tqKill a d) s = .next ((s.qcrSet (dieOf s.cc) q 2 1 2).upMe fun t =>
      (t.put d (word (field b 24 8 + 2 ^ 64 - field b 16 8))).retire 2)) ∧
  (∀ (s s0 : State) (a b d : Fin 32) (q : Nat) (c im : List Byte), s.Issues { maj := 55, priv := true } [a, b] → s.asyncOpen = false →
    s.me.stores = [] → s.myCore.scratchCheck [((s.me.get b).toNat, 64, 64)] = none → im = s.poolAt (s.me.get b).toNat 64 →
    q = bits (s.me.get a).toNat 0 14 → s.hwRead (dieOf s.cc) 0 (s.qcr q) 64 = .ok c → s.hwStore (dieOf s.cc) 0 (s.qcr q) c = .ok s0 →
    (field c 2 1 ≠ 0 ∧ field c 2 1 ≠ 2 ∨ s.queueRuns q = true → s.Retires (.tqCfg a b d) 2 fun t => t.put d 2) ∧
    ((field c 2 1 = 0 ∨ field c 2 1 = 2) → s.queueRuns q = false →
      (field im 4 1 < 4 ∨ 16 < field im 4 1 ∨ 4 ≤ field im 3 1 ∨ field im 5 3 ≠ 0 ∨ field im 40 24 ≠ 0 ∨ field im 8 8 % 4096 ≠ 0 ∨
          4096 ≤ field im 0 2 → s.Retires (.tqCfg a b d) 2 fun t => t.put d 1) ∧
      (4 ≤ field im 4 1 → field im 4 1 ≤ 16 → field im 3 1 < 4 → field im 5 3 = 0 → field im 40 24 = 0 → field im 8 8 % 4096 = 0 →
        field im 0 2 < 4096 → ∃ s', exec (.tqCfg a b d) s = .next s' ∧ s'.me = (s.me.put d 0).retire 2 ∧
          s'.mem = ((((s.qcrSet (dieOf s.cc) q 0 5 (field im 0 2 + 65536 * 1 + 2 ^ 24 * field im 3 1 + 2 ^ 32 * field im 4 1)).qcrSet
            (dieOf s.cc) q 8 8 (field im 8 8)).qcrSet (dieOf s.cc) q 16 16 0).qcrSet (dieOf s.cc) q 32 8 (field im 32 4)).mem))) ∧
  (∀ (s s0 s2 : State) (a b d : Fin 32) (q : Nat) (c r : List Byte), s.Issues { maj := 51 } [a, b] → s.asyncOpen = false →
    s.me.stores = [] → s.myCore.scratchCheck [((s.me.get a).toNat, 128, 64)] = none → s.release 4 = .go → r = s.poolAt (s.me.get a).toNat 128 →
    q = bits (s.me.get b).toNat 0 14 → s.hwRead (dieOf s.cc) 0 (s.qcr q) 64 = .ok c → s.hwStore (dieOf s.cc) 0 (s.qcr q) c = .ok s0 →
    (field c 2 1 ≠ 1 → s.Retires (.tqPush a b d) 2 fun t => t.put d (word (2 ^ 63 + 0x40))) ∧
    (field c 2 1 = 1 → s.under (dieOf s.cc) (field c 0 2) s.myCore.view.region = false →
      s.Retires (.tqPush a b d) 2 fun t => t.put d (word (2 ^ 63 + 0x42))) ∧
    (field c 2 1 = 1 → s.under (dieOf s.cc) (field c 0 2) s.myCore.view.region = true →
      (recForm r = true → s.Retires (.tqPush a b d) 2 fun t => t.put d (word (2 ^ 63 + 0x43))) ∧
      (recForm r = false → 2 ^ field c 4 1 ≤ field c 24 8 - field c 16 8 → s.Retires (.tqPush a b d) 2 fun t => t.put d (word (2 ^ 63 + 0x41))) ∧
      (recForm r = false → field c 24 8 - field c 16 8 < 2 ^ field c 4 1 → 
        (s.qcrSet (dieOf s.cc) q 24 8 ((field c 24 8 + 1) % 2 ^ 64)).ringWrite (chainAsid (s.lineage (dieOf s.cc) (field c 0 2))) c r (field c 24 8) = .ok s2 →
        exec (.tqPush a b d) s = .next (s2.upMe fun t => (t.put d (word (field c 24 8))).retire 2))))

/-- PACKAGE_RESET and POWER_OFF leave the reset cores, dies and registers, memory below T2 zero and the life cycle, and T2
as it was (log entry 96); chiplets are attested group by group at power-up and admitted after the last session, later each
by its own, a compute die only with its vault die, and a failure is reported to the driver; a link direction goes through
failure counts, rollover (key values: log entry 97) and stop, and a stopped sender beyond its time is quarantined with its
links; a wiped die attested again is readmitted, each die on its own (log entry 98); channels resend; the host link, the
ports (4 to 7 of IOD1: log entry 103), ageing records with MSI-X vector 1 where an EOLH falls below 720, soft errors of
seven arrays (a corrected one changes nothing), snoops, and host writes, which wait for a snoop or reach nothing, do what
they say and change nothing else named here. (R12, R27, R29, R139, R420, R421, R422, R425, R426, R427, R434, R437.) -/
def Obligations.PackageEvents : Prop :=
  (∀ s : State, ∃ s', exec .packageReset s = .next s' ∧ s'.cores = State.reset.cores ∧ s'.dies = State.reset.dies ∧ s'.sys = State.reset.sys ∧
    s'.chips = State.reset.chips ∧ s'.tasks = [] ∧ s'.featack = 1 ∧ s'.featlock = false ∧ s'.lcs = s.lcs ∧ s'.hostq = [] ∧
    (∀ a, a < 0x80000000000 → s'.mem.get a = 0) ∧
    (∀ a, 0x80000000000 ≤ a → (∀ l ∈ s.l2own, a / 64 ≠ l) → s'.mem.get a = s.mem.get a)) ∧
  (∀ s : State, ∃ s', exec .powerOff s = .next s' ∧ s'.powered = false ∧ s'.hostup = false ∧ s'.cores = State.reset.cores ∧ s'.sys = State.reset.sys ∧ s'.lcs = s.lcs ∧
    (∀ c : Fin 18, s'.chips[c] = .off) ∧ ∀ a, a < 0x80000000000 → s'.mem.get a = 0) ∧
  (∀ (s : State) (c : Fin 18) (ok : Bool) (why : Nat), s.powered = true → s.lcs ≠ .decommissioned → s.booted = true → s.chips[c] = .quarantined → c ≠ 8 →
    (ok = false → ∃ s' n, exec (.chipletAttestation c ok why) s = .next s' ∧ s'.chips = s.chips ∧ s'.sessions[c] = some (false, why, n) ∧
      s'.reports = s.reports ++ [(c.val, why)]) ∧
    (ok = true → 8 < c.val → ∃ s', exec (.chipletAttestation c ok why) s = .next s' ∧ s'.chips[c] = .admitted) ∧
    (ok = true → c.val < 4 → s.attested (Fin.ofNat 18 (4 + c.val)) = false → ∃ s', exec (.chipletAttestation c ok why) s = .next s' ∧ s'.chips = s.chips) ∧
    (ok = true → c.val < 4 → s.attested (Fin.ofNat 18 (4 + c.val)) = true → s.wiped[c] = false →
      ∃ s', exec (.chipletAttestation c ok why) s = .next s' ∧ s'.chips[c] = .admitted ∧ s'.chips[Fin.ofNat 18 (4 + c.val)] = .admitted)) ∧
  (∀ (s : State) (c : Fin 18) (ok : Bool) (why : Nat), s.powered = true → s.lcs ≠ .decommissioned → s.booted = false → c ≠ 8 →
    (s.sessions[c].isSome = true ∨ s.allHeard (fun x => decide (bootGroup x < bootGroup c)) = false →
      exec (.chipletAttestation c ok why) s = .next s) ∧
    (s.sessions[c] = none → (∀ x : Fin 18, x ≠ 8 → x ≠ c → s.sessions[x].isSome = true) →
      ∃ s', exec (.chipletAttestation c ok why) s = .next s' ∧ s'.booted = true ∧ s'.chips[(8 : Fin 18)] = .admitted ∧
        ∀ x : Fin 18, x ≠ 8 → (s'.chips[x] = .admitted ↔ s'.admits x = true))) ∧
  (∀ (s : State) (l : Fin 40) (x : LinkDir), x = s.links[l] →
    (x.keyed = true → x.fails < 2 → exec (.flitTagFailure l) s = .next (s.setLink l { x with fails := x.fails + 1 })) ∧
    (x.keyed = true → x.roll = .none → exec (.keyRolloverStart l) s = .next (s.setLink l { x with roll := .started })) ∧
    (x.roll = .started → ∃ s', exec (.keyRolloverAck l) s = .next s' ∧ s'.links[l] = { x with roll := .switched, key := s.nextOp, phase := !x.phase, stop := false } ∧
      ∀ m : Fin 40, m ≠ l → s'.links[m] = s.links[m]) ∧
    (x.roll = .switched → exec (.drainMarker l) s = .next (s.setLink l { x with roll := .none })) ∧
    (x.keyed = true → x.roll ≠ .switched → exec (.rolloverSendStop l) s = .next (s.setLink l { x with stop := true })) ∧
    (x.stop = false → exec (.rolloverStopTimeout l) s = .next s) ∧
    (x.stop = true → 10 ≤ (linkEnds l).1.val → ∃ s', exec (.rolloverStopTimeout l) s = .next s' ∧ s'.chips[(linkEnds l).1] = .quarantined ∧
      (∀ m : Fin 40, linkOf (linkEnds l).1 m = true → s'.links[m] = LinkDir.reset) ∧ s'.mem = s.mem ∧ s'.cores = s.cores)) ∧
  (∀ (s : State) (d : Fin 4), (s.wiped[Fin.ofNat 18 d.val] = false → exec (.dieReadmission d) s = .next s) ∧
    (s.wiped[Fin.ofNat 18 d.val] = true → s.attested (Fin.ofNat 18 d.val) = true → s.attested (Fin.ofNat 18 (4 + d.val)) = true →
      ∃ s', exec (.dieReadmission d) s = .next s' ∧ s'.cdUp d = true ∧ s'.wiped[Fin.ofNat 18 d.val] = false ∧ s'.mem = s.mem)) ∧
  (∀ (s : State) (a : Fin 64) (b : Fin 4) (n : Fin 256), n = Fin.ofNat 256 (4 * a.val + b.val) → ∃ s', exec (.routeResend a b) s = .next s' ∧
    s'.chan[n] = { s.chan[n] with drain := false } ∧ ∀ m : Fin 256, m ≠ n → s'.chan[m] = s.chan[m]) ∧
  (∀ s : State, exec .hostLinkDown s = .next { s with hostup := false } ∧ exec .hostLinkUp s = .next { s with hostup := s.powered && s.lcs != .decommissioned }) ∧
  (∀ (s : State) (p : Fin 8) (u : Bool), ∃ s', exec (.portLinkChange p none u) s = .next s' ∧
    s'.ports[p] = (u && s.powered && s.lcs != .decommissioned && (decide (p.val < 4) || s.chipUp 9)) ∧ ∀ q : Fin 8, q ≠ p → s'.ports[q] = s.ports[q]) ∧
  (∀ (s : State) (p : Fin 8) (a : Nat) (u : Bool), ∃ s', exec (.portLinkChange p (some a) u) s = .next s' ∧ s'.ports = s.ports ∧
    s'.mem = s.mem ∧ s'.assocs = if u && s.powered && s.lcs != .decommissioned then insertNat a s.assocs else eraseNat a s.assocs) ∧
  (∀ (s : State) (l : List (BitVec 128)), s.powered = true → ∃ s', exec (.ageUpdate l) s = .next s' ∧
    (∀ i : Fin 18, bits s'.age[i].toNat 96 32 = bits (l.getD i.val 0).toNat 96 32 ∧ bits s'.age[i].toNat 64 20 = 0 ∧
      bits s'.age[i].toNat 0 16 = bits (l.getD i.val 0).toNat 0 16) ∧
    ((∃ i : Fin 18, 720 ≤ bits s.age[i].toNat 96 32 ∧ bits (l.getD i.val 0).toNat 96 32 < 720) → s'.msix[1] = true) ∧
    ((∀ i : Fin 18, bits s.age[i].toNat 96 32 < 720 ∨ 720 ≤ bits (l.getD i.val 0).toNat 96 32) → s'.msix = s.msix) ∧ s'.mem = s.mem) ∧
  (∀ (s : State) (a : Nat) (x : ErrArray), exec (.softError a x true) s = .next s ∧
    (s.powered = true → (x = .mem → tierOf a ≠ 3 → ∃ s', exec (.softError a x false) s = .next s' ∧ s'.poisoned (a / 64) = true ∧ s'.mem = s.mem) ∧
    (∀ c : Fin 64, x = .pool c → a < 0x800000 → ∃ s', exec (.softError a x false) s = .next s' ∧
      (s'.core c).anyPoison a 1 = true ∧ (s'.core c).pool = (s.core c).pool) ∧
    (∀ c : Fin 64, x = .column c → a < 2048 → ∃ s', exec (.softError a x false) s = .next s' ∧ a ∈ (s'.core c).cpoison ∧
      (s'.core c).col = (s.core c).col) ∧
    (∀ (c : Fin 64) (n : Fin 16), x = .tile c → a = n.val → ∃ s', exec (.softError a x false) s = .next s' ∧
      ((s'.core c).mx.tiles[n]).poison = true ∧ ∀ m : Fin 16, m ≠ n → (s'.core c).mx.tiles[m] = (s.core c).mx.tiles[m]) ∧
    (∀ (c : Fin 64) (n : Fin 2), x = .plane c → a = n.val → ∃ s', exec (.softError a x false) s = .next s' ∧
      ((s'.core c).mx.planes[n]).poison = true ∧ ∀ m : Fin 2, m ≠ n → (s'.core c).mx.planes[m] = (s.core c).mx.planes[m]) ∧
    (∀ c : Fin 64, x = .l1 c → ∃ s', exec (.softError a x false) s = .next s' ∧ s'.mem = s.mem ∧
      (s'.core c).l1 = (s.core c).l1.map fun y => if y.line = a / 64 then { y with bad := true } else y) ∧
    (∀ d : Fin 4, x = .slab d → ∃ s', exec (.softError a x false) s = .next s' ∧ (∀ y ∈ (s'.die d).slabs, y.n = a → y.poison = true) ∧
      (s'.die d).fw = (s.die d).fw ∧ s'.mem = s.mem))) ∧
  (∀ (s : State) (a : Nat) (l : List Byte), (s.snoops.contains (a / 64) = true → s.hostw = [] → exec (.cxlSnoop a) s =
      .next { s with snoops := s.snoops.erase (a / 64), l2own := eraseNat (a / 64) s.l2own }) ∧
    (s.snoops = [a / 64] → s.hostw = [(a, l)] → l ≠ [] → a % 64 + l.length ≤ 64 →
      ∃ s', exec (.cxlSnoop a) s = .next s' ∧ s'.snoops = [] ∧ s'.hostw = [] ∧ s'.phys a l.length = l) ∧
    (s.snoops.contains (a / 64) = false → exec (.cxlSnoop a) s = .next { s with snoops := s.snoops ++ [a / 64] })) ∧
  (∀ (s : State) (a : Nat) (l : List Byte), l ≠ [] → tierOf a ≠ 3 → tierOf (a + l.length - 1) = tierOf a →
    ((∃ x ∈ linesOf a l.length, s.hostReaches (64 * x) = false) → exec (.hostWrite a l) s = .next s) ∧
    ((∀ x ∈ linesOf a l.length, s.hostReaches (64 * x) = true) →
      (s.hostWaits a l.length = true → exec (.hostWrite a l) s = .next { s with hostw := s.hostw ++ [(a, l)] }) ∧
      (s.hostWaits a l.length = false → ∃ s', exec (.hostWrite a l) s = .next s' ∧ s'.phys a l.length = l ∧ s'.cores = s.cores ∧
        ∀ x, x < a ∨ a + l.length ≤ x → s'.mem.get x = s.mem.get x)))

/-- A command that runs (the package up and its root die attested, none before it unanswered; log entry 99) writes its
system register, starts an invalidation at .pk, writes FEATACK0 and LOCK while LOCK is 0, resumes the waiting thread of a
running or saved task at its word, that of SYS, BRK and OVRN too, or ends the task with no event of its own (both log 89,
the model's choice), goes on with a paused save or gives it up with the task in place, sets the eleven bases, writes a route
entry, asks an urgent pre-emption, resets CDn with VDn, BDk or IOD1 (busy status 1 while one is still reset), changes the
life cycle along R428 with a package reset, returns the ageing records or a transcript, and answers with status 0; what it
cannot do has a nonzero status and changes nothing else. (R180, R399, R404, R423, R427, R428, R430, R432, R433, R434, R437,
R439.) -/
def Obligations.MailboxCommands : Prop :=
  (∀ (s : State) (n : Nat) (v : Word), s.mailboxUp = true → s.invals.any (·.owner.isNone) = false →
    (∀ i : Fin 11, n = i.val → ∃ s', exec (.syswr n v) s = .next s' ∧ s'.sys[i] = v &&& word (sysMask i.val) ∧
      (∀ m : Fin 11, m ≠ i → s'.sys[m] = s.sys[m]) ∧ s'.reply = some ⟨1, 0, []⟩ ∧ s'.msix[0] = true) ∧
    (11 ≤ n → ∃ s' x, exec (.syswr n v) s = .next s' ∧ s'.sys = s.sys ∧ s'.reply = some ⟨1, x, []⟩ ∧ x ≠ 0)) ∧
  (∀ (s : State) (k : Fin 4) (a b : Word), s.mailboxUp = true → s.invals.any (·.owner.isNone) = false → ∃ s' v, exec (.tlbinv k a b) s = .next s' ∧ s'.invals = s.invals ++ [v] ∧ v.owner = none ∧
    v.scope = 4 ∧ v.kind = k.val ∧ v.addr = a.toNat ∧ v.done = false ∧ s'.reply = s.reply ∧ s'.mem = s.mem) ∧
  (∀ (s : State) (v : Word) (l : Bool), s.mailboxUp = true → s.invals.any (·.owner.isNone) = false →
    (s.featlock = false → ∃ s', exec (.feat v l) s = .next s' ∧ s'.featack = v &&& 0x7FFE ||| 1 ∧ s'.featlock = l ∧ s'.reply = some ⟨3, 0, []⟩) ∧
    (s.featlock = true → ∃ s', exec (.feat v l) s = .next s' ∧ s'.featack = s.featack ∧ s'.featlock = true)) ∧
  (∀ (s : State) (id i : Nat) (r : Role) (t : Task) (c : Fin 64), s.mailboxUp = true → s.invals.any (·.owner.isNone) = false → s.task id = some t → t.phase = .running → t.cores[i]? = some c →
    (s.thr c r).status = .host →
    (∃ s', exec (.answer id r i true) s = .next s' ∧ (s'.thr c r).status = .running ∧ (s'.thr c r).g = (s.thr c r).g ∧
      (s'.thr c r).why = 0 ∧ (∀ p, (s.thr c r).trap = some p →
        (p.cause = cSYS ∨ p.cause = cBRK ∨ p.cause = cOVRN → (s'.thr c r).fetch = some ⟨p.hdr, p.hdr, .resume p.reps p.wpos⟩) ∧
        (p.cause ≠ cSYS → p.cause ≠ cBRK → p.cause ≠ cOVRN → (s.thr c r).fetch = none →
          (s'.thr c r).fetch = some ⟨(s.thr c r).hdr, (s.thr c r).hdr, .resume (s.thr c r).reps (s.thr c r).wpos⟩)) ∧ s'.reply = some ⟨4, 0, []⟩) ∧
    (∃ s', exec (.answer id r i false) s = .next s' ∧ s'.task id = none ∧ s'.hostq.length = s.hostq.length ∧ s'.reply = some ⟨4, 0, []⟩)) ∧
  (∀ (s : State) (id i : Nat) (r : Role) (t : Task), s.mailboxUp = true → s.invals.any (·.owner.isNone) = false → s.task id = some t →
    (t.phase = .savef →
      (∃ s', exec (.answer id r i true) s = .next s' ∧ s'.task id = some { t with phase := .running } ∧ s'.cores = s.cores ∧ s'.reply = some ⟨4, 0, []⟩) ∧
      ∃ s', exec (.answer id r i false) s = .next s' ∧ s'.reply = some ⟨4, 0, []⟩ ∧ s'.hostq = s.hostq ∧
        s'.task id = some { t with phase := .running, preempt := if t.cancel then 3 else 0, blocks := [], written := 0, cancel := false } ∧
        ∀ c ∈ t.cores, ∀ q : Role, (s'.thr c q).g = (s.thr c q).g ∧ (s'.core c).pool = (s.core c).pool ∧
          ∀ a b, (s.thr c q).status = .stopped a b → (s'.thr c q).status = .running) ∧
    (∀ k : Core, t.phase = .saved → t.cores = [] → t.saved[i]? = some k → (k.thr r).status = .host →
      (∃ s', exec (.answer id r i true) s = .next s' ∧ s'.task id = some { t with saved := t.saved.set i (k.retry r) } ∧ s'.cores = s.cores ∧
        s'.reply = some ⟨4, 0, []⟩) ∧
      ∃ s', exec (.answer id r i false) s = .next s' ∧ s'.task id = none ∧ s'.hostq.length = s.hostq.length ∧ s'.reply = some ⟨4, 0, []⟩) ∧
    (∀ c : Fin 64, t.phase = .running → t.cores[i]? = some c → (s.thr c r).status ≠ .host →
      ∃ s' x, exec (.answer id r i true) s = .next s' ∧ s'.cores = s.cores ∧ s'.tasks = s.tasks ∧ s'.reply = some ⟨4, x, []⟩ ∧ x ≠ 0)) ∧
  (∀ (s : State) (l : List Word), s.mailboxUp = true → s.invals.any (·.owner.isNone) = false → l.length = 11 → ∃ s', exec (.lists l) s = .next s' ∧ (∀ i : Fin 11, s'.lists[i] = l.getD i.val 0) ∧
    s'.reply = some ⟨5, 0, []⟩ ∧ s'.mem = s.mem) ∧
  (∀ (s : State) (h c p a : Nat), s.mailboxUp = true → s.invals.any (·.owner.isNone) = false → h < 65536 → ∃ s', exec (.route h c p a) s = .next s' ∧
    s'.routes.find? (·.h == h) = some ⟨h, c % 256, p % 256, a⟩ ∧ (∀ k, k ≠ h → s'.routes.find? (·.h == k) = s.routes.find? (·.h == k)) ∧
    s'.reply = some ⟨6, 0, []⟩) ∧
  (∀ (s : State) (id : Nat) (t : Task), s.mailboxUp = true → s.invals.any (·.owner.isNone) = false → s.task id = some t → t.phase ≠ .saved → ∃ s', exec (.preempt id) s = .next s' ∧
    s'.task id = some { t with preempt := max t.preempt 2 } ∧ s'.reply = some ⟨7, 0, []⟩ ∧ s'.cores = s.cores) ∧
  (∀ (s : State) (c : Fin 18), s.mailboxUp = true → s.invals.any (·.owner.isNone) = false →
    (4 ≤ c.val → c.val < 9 → ∃ s' x, exec (.dierst c) s = .next s' ∧ s'.chips = s.chips ∧ s'.reply = some ⟨8, x, []⟩ ∧ x ≠ 0) ∧
    (c.val < 4 ∨ 9 ≤ c.val → s.wiped[c] = true → ∃ s', exec (.dierst c) s = .next s' ∧ s'.reply = some ⟨8, 1, []⟩ ∧ s'.chips = s.chips ∧ s'.cores = s.cores) ∧
    (9 ≤ c.val → s.wiped[c] = false → ∃ s', exec (.dierst c) s = .next s' ∧ s'.reply = some ⟨8, 0, []⟩ ∧ s'.chips[c] = .quarantined ∧
      s'.wiped[c] = true ∧ s'.mem = s.mem ∧ s'.cores = s.cores) ∧
    (c.val < 4 → s.wiped[c] = false → ∃ s', exec (.dierst c) s = .next s' ∧ s'.reply = some ⟨8, 0, []⟩ ∧ s'.chips[c] = .quarantined ∧
      s'.chips[Fin.ofNat 18 (4 + c.val)] = .quarantined ∧ s'.wiped[c] = true ∧ ∀ k : Fin 64, (dieOf k).val = c.val → s'.core k = Core.reset)) ∧
  (∀ (s : State) (n : Fin 5) (g : Bool), s.mailboxUp = true → s.invals.any (·.owner.isNone) = false →
    (lifeNext s.lcs (lifeOf n) g = true → ∃ s', exec (.lcs n g) s = .next s' ∧ s'.lcs = lifeOf n ∧ s'.tasks = [] ∧ s'.cores = State.reset.cores ∧
      s'.hostq = []) ∧
    (lifeNext s.lcs (lifeOf n) g = false → ∃ s' x, exec (.lcs n g) s = .next s' ∧ s'.lcs = s.lcs ∧ s'.tasks = s.tasks ∧ s'.reply = some ⟨9, x, []⟩ ∧ x ≠ 0)) ∧
  (∀ (o n : LifeCycle) (g : Bool), lifeNext o n g = true ↔ (o = .manufacture ∧ n = .provisioned) ∨ (o = .provisioned ∧ n = .operational) ∨
    (o = .operational ∧ n = .rma) ∨ (o = .rma ∧ n = .provisioned ∧ g = true) ∨ (o = .rma ∧ n = .decommissioned)) ∧
  (∀ s : State, s.mailboxUp = true → s.invals.any (·.owner.isNone) = false → ∃ s', exec .age s = .next s' ∧ s'.reply = some ⟨10, 0, s.age.toList.map BitVec.toNat⟩ ∧ s'.mem = s.mem) ∧
  (∀ (s : State) (c : Fin 18), s.mailboxUp = true → s.invals.any (·.owner.isNone) = false → s.sessions[c] ≠ none → ∃ s' l, exec (.attest c) s = .next s' ∧ s'.reply = some ⟨11, 0, l⟩ ∧ s'.mem = s.mem) ∧
  (∀ (s : State) (n : Nat) (v : Word), s.mailboxUp = false → exec (.syswr n v) s = .next s ∧ exec .age s = .next s)

/-- A vector word that names a register past the BNDV count raises ILL 0x0C before any other of these checks; a word whose
feature is not acknowledged under LOCK raises ILL 0x07, before the class check (ILL 0x08) and the privilege check (PRIV
0x00); a channel number not configured raises CHAN. Past them a word waits for a register that is still owed, and at the
16,385th retirement for its SAFE. A trap raised while T serves another keeps every register, the pool and memory, and names
the word. (R13, R47, R49, R82, R388, R431.) -/
def Obligations.IssueChecks : Prop :=
  (∀ (s : State) (g : Guard) (d a b : Fin 64),
    (s.myCore.bndv * 16 ≤ d.val ∨ s.myCore.bndv * 16 ≤ a.val ∨ s.myCore.bndv * 16 ≤ b.val → exec (.vaddI32 g d a b) s = s.trap cILL 0x0C) ∧
    (d.val < s.myCore.bndv * 16 → a.val < s.myCore.bndv * 16 → b.val < s.myCore.bndv * 16 →
      (s.featlock = true → bits s.featack.toNat 2 1 = 0 → exec (.vaddI32 g d a b) s = s.trap cILL 0x07) ∧
      ((s.featlock = false ∨ bits s.featack.toNat 2 1 = 1) → s.cr = .L ∨ s.cr = .S → exec (.vaddI32 g d a b) s = s.trap cILL 0x08))) ∧
  (∀ (s : State) (d a : Fin 32) (o : Fin 512),
    (s.featlock = true → bits s.featack.toNat 0 1 = 0 → exec (.ld64 (.g d) (.g a) o) s = s.trap cILL 0x07) ∧
    ((s.featlock = false ∨ bits s.featack.toNat 0 1 = 1) → s.cr = .C → exec (.ld64 (.g d) (.g a) o) s = s.trap cILL 0x08)) ∧
  (∀ (s : State) (d a : Fin 32),
    (s.featlock = true → bits s.featack.toNat 14 1 = 0 → exec (.sysRd a d) s = s.trap cILL 0x07) ∧
    ((s.featlock = false ∨ bits s.featack.toNat 14 1 = 1) → s.cr ≠ .T → exec (.sysRd a d) s = s.trap cPRIV 0x00)) ∧
  (∀ (s : State) (c d : Fin 32), (s.featlock = false ∨ bits s.featack.toNat 0 1 = 1) → s.myCore.chcnt ≤ c.val → exec (.add (.g d) (.peek c) (.g 0)) s = s.trap cCHAN c.val ∧
    exec (.add (.g d) (.g 0) (.pop c)) s = s.trap cCHAN c.val ∧ exec (.add (.ch c) (.g 0) (.g 0)) s = s.trap cCHAN c.val) ∧
  (∀ (s : State) (d a : Fin 32) (i : Fin 1024), (s.featlock = false ∨ bits s.featack.toNat 0 1 = 1) →
    (s.me.ready a = false → exec (.addi (.g d) (.g a) i) s = .next s) ∧
    (s.me.ready a = true → s.cr ≠ .T → 16384 ≤ s.me.scnt →
      exec (.addi (.g d) (.g a) i) s = .next (s.upMe fun t => { t with stage := .safe }))) ∧
  (∀ (s : State) (c d : Nat), s.cr ≠ .T → s.myCore.served.isSome = true → ∃ s' p, s.trap c d = .next s' ∧ s'.me.trap = some p ∧ p.cause = c ∧
    p.detail = d ∧ p.trapa = s.me.pc ∧ p.trappc = s.me.pc ∧ p.hdr = s.me.hdr ∧ p.reps = s.me.reps ∧ p.wpos = s.me.wpos ∧
    s'.me.g = s.me.g ∧ s'.me.wpos = s.me.wpos ∧ s'.mem = s.mem ∧ s'.sys = s.sys ∧ s'.myCore.pool = s.myCore.pool)

/-- After reset every chiplet is QUARANTINED with no session held, every system register is 0 and counts as unwritten, only
BASE is acknowledged with LOCK 0, HBM4E reads zero, every LPDDR6 line is poisoned, no link is keyed, the ageing records are
0, no task is on any core. That T2 reads zero where nothing wrote it, and that the life cycle may be OPERATIONAL, are
choices of the model (log 6, log 2). (R27, R404, R422, R429, R430, R434.) -/
def Obligations.ResetState : Prop :=
  (∀ c : Fin 18, State.reset.chips[c] = .quarantined ∧ State.reset.sessions[c] = none) ∧ State.reset.booted = false ∧ State.reset.reports = [] ∧  (∀ i : Fin 11, State.reset.sys[i] = 0 ∧ State.reset.sysset[i] = false) ∧
  State.reset.dispatchReady = false ∧ State.reset.featack = 1 ∧ State.reset.featlock = false ∧ State.reset.tasks = [] ∧
  State.reset.mem.wf = true ∧ (∀ a, State.reset.mem.get a = 0) ∧ (∀ l : Nat, tierOf (64 * l) = 1 → State.reset.poisoned l = true) ∧
  (∀ l : Nat, tierOf (64 * l) = 0 → State.reset.poisoned l = false) ∧ (∀ l : Fin 40, State.reset.links[l].keyed = false) ∧
  (∀ c : Fin 18, State.reset.age[c] = 0) ∧
  ∀ c : Fin 64, (State.reset.core c).taskid = 0 ∧ (State.reset.core c).chcnt = 0 ∧ (State.reset.core c).view.region = 0 ∧
    (State.reset.core c).mx.queue = [] ∧ ∀ r : Role, (State.reset.thr c r).status = .idle

/-- The words of the worked sequence of the control chapter and the example words of pg.probe, vcvt.e4m3.f32, ma.mm, fw.fu
and cx.start decode to those instructions with those operands, and 0x0000 to none. (R33, R85, R94, R98, R185, R219, R249,
R309, R347.) -/
def Obligations.SpecWordsDecode : Prop :=
  decodeTableWord 32 0x3FC0020D = some (.addi (.g 1) (.g 0) 255) ∧ decodeTableWord 16 0xC032 = some (.slliH16 1 48) ∧
  decodeTableWord 32 0x01E0010F = some (.lih 2 0x01E00) ∧ decodeTableWord 16 0x082E = some (.orH16 1 2) ∧
  decodeTableWord 32 0xFFD00C87 = some (.conditionalBranch 1 3 0 0xFFD) ∧ decodeTableWord 32 0x00040209 = some (.brk 1) ∧
  decodeTableWord 32 0x01804125 = some (.pgProbe 4 6) ∧ decodeTableWord 32 0x18421639 = some (.vcvtE4m3F32 .all 8 4 2 1 0) ∧
  decodeTableWord 32 0x00FC29C1 = some (.maMm 3 5 0 15 1 1) ∧ decodeTableWord 32 0x01CC4055 = some (.fwFu 4 6 7) ∧
  decodeTableWord 32 0x0880605D = some (.cxStart 6 2 1) ∧ decodeTableWord 16 0x0000 = none

/-- Where the next turn is that of a running thread with no pending trap that need not stop, a step performs its pending
fetch, or runs exec of the instruction that the halfwords at its position decode to, with that thread current, or raises ILL
with the detail of the check that refuses the word. Where it is that of an event that is not held back and takes the target
from no access under way, a step runs exec of that event. (R30, R38, R40, R47.) -/
def Obligations.StepRunsDecoded : Prop :=
  (∀ (s u : State) (c : Fin 64) (r : Role) (l : Bool) (rest : List Turn), s.agenda = (if l then .late c r else .issue c r) :: rest →
  u = { s with agenda := rest, late := l, cur := (c, r) } → (s.thr c r).status = .running → (s.thr c r).trap = none →
  ((s.thr c r).stopsAt r (s.preemptOf c) = none →
    (∀ f, (s.thr c r).fetch = some f → step s = exec (.blockFetch c r) u) ∧
    (∀ b : Blk, (s.thr c r).fetch = none → (s.thr c r).blk = some b →
      (∀ i n, decode (b.body.drop (s.thr c r).wpos) = .instr i n → step s = exec i u) ∧
      (∀ d n, decode (b.body.drop (s.thr c r).wpos) = .ill d n → step s = u.trap cILL d)))) ∧
  ∀ (s u t : State) (e : Instr) (rest : List Turn), s.agenda = .event e :: rest → u = { s with agenda := rest } →
    (u.eventHeld e = true → step s = .next u) ∧
    (u.eventHeld e = false → exec e u = .next t → u.newFaults t = [] → u.lostRels t = [] → t.watches = [] → step s = .next t)

/-- For every instruction that has a word and passes the checks of the encoding, its encoded word fits 16 or 32 bits and
decodes back to that instruction with all its operands. It says that no bit is dropped, not that a bit is read right. (R30,
R33, R34, R36, R47.) -/
def Obligations.DecodeEncode : Prop :=
  ∀ (i : Instr) (n w : Nat), WellFormed i = true → encode i = some (n, w) → (n = 16 ∨ n = 32) ∧ w < 2 ^ n ∧ decodeTableWord n w = some i

/-- Whatever the state, exec of any instruction of the table and any step of the machine answer a next state: the traps of
the spec are taken, waits leave the thread at its word, and nothing stops the machine. (R14, R49.) -/
def Obligations.StepAnswers : Prop :=
  (∀ (i : Instr) (s : State), ∃ s', exec i s = .next s') ∧ ∀ s : State, ∃ s', step s = .next s'

/-- In every state whose device memory lists strictly rising addresses and no default byte, a step that answers a next state
answers one whose device memory does so again, whichever instruction or event it ran. (R2, R16.) -/
def Obligations.MemoryCanonical : Prop :=
  ∀ s s' : State, s.mem.wf = true → step s = .next s' → s'.mem.wf = true
end

