-- ==== Sys2Proof/Laws/Mem.lean ====
section
/-! SUPPORT. The sparse store: what a read gives after a write, and that every operation keeps the canonical form. -/
namespace Sys2Proof.Machine

/-! ## The canonical form -/

/-- The canonical form, said with list predicates. -/
theorem Mem.wf_iff (m : Mem) : m.wf = true ↔ m.Pairwise (fun x y => x.1 < y.1) ∧ ∀ e ∈ m, e.2 ≠ Mem.dflt := by
  induction m with
  | nil => simp [Mem.wf]
  | cons x t ih =>
    obtain ⟨a, v⟩ := x
    cases t with
    | nil => simp [Mem.wf]
    | cons y t =>
      obtain ⟨b, w⟩ := y
      simp only [Mem.wf, Bool.and_eq_true, decide_eq_true_eq, ih, bne_iff_ne]
      constructor
      · rintro ⟨⟨hab, hv⟩, hp, hd⟩
        refine ⟨List.pairwise_cons.2 ⟨?_, hp⟩, ?_⟩
        · intro e he
          rcases List.mem_cons.1 he with rfl | he
          · exact hab
          · exact Nat.lt_trans hab ((List.pairwise_cons.1 hp).1 e he)
        · intro e he
          rcases List.mem_cons.1 he with rfl | he
          · exact hv
          · exact hd e he
      · rintro ⟨hp, hd⟩
        have h := List.pairwise_cons.1 hp
        exact ⟨⟨h.1 _ (List.mem_cons_self ..), hd _ (List.mem_cons_self ..)⟩, h.2, fun e he => hd e (List.mem_cons_of_mem _ he)⟩

theorem Mem.wf_nil : Mem.wf [] = true := rfl

theorem Mem.wf_filter (m : Mem) (p : Host.Cell → Bool) (h : m.wf = true) : Mem.wf (m.filter p) = true := by
  rw [Mem.wf_iff] at *
  exact ⟨h.1.filter p, fun e he => h.2 e (List.mem_filter.1 he).1⟩

/-- Two canonical stores, one wholly below the other, join to a canonical store. -/
theorem Mem.wf_append (m n : Mem) (hm : m.wf = true) (hn : n.wf = true) (h : ∀ x ∈ m, ∀ y ∈ n, x.1 < y.1) :
    Mem.wf (m ++ n) = true := by
  rw [Mem.wf_iff] at *
  refine ⟨List.pairwise_append.2 ⟨hm.1, hn.1, fun x hx y hy => h x hx y hy⟩, fun e he => ?_⟩
  rcases List.mem_append.1 he with he | he
  · exact hm.2 e he
  · exact hn.2 e he

/-- Entries of a run lie in its bytes and hold what it says. -/
theorem Mem.mem_run (bs : List Byte) : ∀ (a : Nat) (e : Host.Cell), e ∈ Mem.run a bs →
    a ≤ e.1 ∧ e.1 < a + bs.length ∧ e.2 ≠ Mem.dflt := by
  induction bs with
  | nil => intro a e he; simp [Mem.run] at he
  | cons b t ih =>
    intro a e he
    simp only [Mem.run] at he
    split at he
    · have := ih (a + 1) e he
      simp only [List.length_cons]; exact ⟨by omega, by omega, this.2.2⟩
    · rename_i hb
      rcases List.mem_cons.1 he with rfl | he
      · simp only [List.length_cons]; exact ⟨by omega, by omega, hb⟩
      · have := ih (a + 1) e he
        simp only [List.length_cons]; exact ⟨by omega, by omega, this.2.2⟩

theorem Mem.wf_run (bs : List Byte) : ∀ a : Nat, (Mem.run a bs).wf = true := by
  induction bs with
  | nil => intro a; rfl
  | cons b t ih =>
    intro a
    simp only [Mem.run]
    split
    · exact ih _
    · rename_i hb
      have h : Mem.wf ([(a, b)] ++ Mem.run (a + 1) t) = true := by
        refine Mem.wf_append _ _ (by simp [Mem.wf, hb]) (ih _) fun x hx y hy => ?_
        rw [List.mem_singleton] at hx
        have := Mem.mem_run t _ y hy
        subst hx; simp only; omega
      exact h

/-- A write keeps the canonical form. -/
theorem Mem.wf_write (m : Mem) (a : Nat) (bs : List Byte) (h : m.wf = true) : (m.write a bs).wf = true := by
  have h2 : Mem.wf (Mem.run a bs ++ m.filter (fun e => decide (a + bs.length ≤ e.1))) = true := by
    refine Mem.wf_append _ _ (Mem.wf_run _ _) (Mem.wf_filter _ _ h) fun x hx y hy => ?_
    have := Mem.mem_run _ _ x hx
    have hy2 := (List.mem_filter.1 hy).2
    simp only [decide_eq_true_eq] at hy2
    omega
  refine Mem.wf_append _ _ (Mem.wf_filter _ _ h) h2 fun x hx y hy => ?_
  have hx2 := (List.mem_filter.1 hx).2
  simp only [decide_eq_true_eq] at hx2
  rcases List.mem_append.1 hy with hy | hy
  · have := Mem.mem_run _ _ y hy; omega
  · have hy2 := (List.mem_filter.1 hy).2
    simp only [decide_eq_true_eq] at hy2; omega

theorem Mem.wf_set (m : Mem) (a : Nat) (b : Byte) (h : m.wf = true) : (m.set a b).wf = true := Mem.wf_write m a [b] h

theorem Mem.wf_window (m : Mem) (a n : Nat) (h : m.wf = true) : (m.window a n).wf = true := Mem.wf_filter _ _ h

theorem Mem.wf_writeCells (l : List (Nat × Byte)) : ∀ m : Mem, m.wf = true → (m.writeCells l).wf = true := by
  induction l with
  | nil => exact fun _ h => h
  | cons x t ih => exact fun m h => ih _ (Mem.wf_set m x.1 x.2 h)

theorem Mem.wf_blit (m : Mem) (a n : Nat) (src : Mem) (h : m.wf = true) : (m.blit a n src).wf = true := Mem.wf_write _ _ _ h

/-- A store whose entries move by a monotone change of address keeps the canonical form. -/
theorem Mem.wf_map (m : Mem) (f : Nat → Nat) (h : m.wf = true) (hf : ∀ x ∈ m, ∀ y ∈ m, x.1 < y.1 → f x.1 < f y.1) :
    Mem.wf (m.map fun e => (f e.1, e.2)) = true := by
  rw [Mem.wf_iff] at *
  refine ⟨List.pairwise_map.2 (h.1.imp_of_mem fun hx hy hxy => hf _ hx _ hy hxy), fun e he => ?_⟩
  obtain ⟨x, hx, rfl⟩ := List.mem_map.1 he
  exact h.2 x hx

theorem Mem.mem_window {m : Mem} {a n : Nat} {e : Host.Cell} (h : e ∈ m.window a n) : a ≤ e.1 ∧ e.1 < a + n := by
  have := (List.mem_filter.1 h).2
  simpa using this

theorem Mem.wf_slice (m : Mem) (o n : Nat) (h : m.wf = true) : (m.slice o n).wf = true := by
  refine Mem.wf_map _ (fun x => x - o) (Mem.wf_window m o n h) fun x hx y hy hxy => ?_
  have := Mem.mem_window hx
  have := Mem.mem_window hy
  omega

theorem Mem.wf_copy (m : Mem) (a b n : Nat) (h : m.wf = true) : (m.copy a b n).wf = true := by
  have hw : Mem.wf ((Mem.window m a n).map fun e => (e.1 - a + b, e.2)) = true := by
    refine Mem.wf_map _ (fun x => x - a + b) (Mem.wf_window m a n h) fun x hx y hy hxy => ?_
    have := Mem.mem_window hx
    have := Mem.mem_window hy
    omega
  have hin : ∀ e ∈ (Mem.window m a n).map (fun e : Host.Cell => (e.1 - a + b, e.2)), b ≤ e.1 ∧ e.1 < b + n := by
    intro e he
    obtain ⟨x, hx, rfl⟩ := List.mem_map.1 he
    have := Mem.mem_window hx
    simp only; omega
  refine Mem.wf_append _ _ (Mem.wf_filter _ _ h) (Mem.wf_append _ _ hw (Mem.wf_filter _ _ h) ?_) ?_
  · intro x hx y hy
    have := hin x hx
    have hy2 := (List.mem_filter.1 hy).2
    simp only [decide_eq_true_eq] at hy2; omega
  · intro x hx y hy
    have hx2 := (List.mem_filter.1 hx).2
    simp only [decide_eq_true_eq] at hx2
    rcases List.mem_append.1 hy with hy | hy
    · have := hin y hy; omega
    · have hy2 := (List.mem_filter.1 hy).2
      simp only [decide_eq_true_eq] at hy2; omega

/-! ## Reads after writes -/

theorem Mem.get_append_left (m n : Mem) (a : Nat) (h : ∀ e ∈ n, e.1 ≠ a) : Mem.get (m ++ n) a = Mem.get m a := by
  induction m with
  | nil =>
    induction n with
    | nil => rfl
    | cons x t ih =>
      have hx := h x (List.mem_cons_self ..)
      simp only [List.nil_append, Mem.get, if_neg hx]
      exact ih fun e he => h e (List.mem_cons_of_mem _ he)
  | cons x t ih => simp only [List.cons_append, Mem.get, ih]

theorem Mem.get_append_right (m n : Mem) (a : Nat) (h : ∀ e ∈ m, e.1 ≠ a) : Mem.get (m ++ n) a = Mem.get n a := by
  induction m with
  | nil => rfl
  | cons x t ih =>
    have hx := h x (List.mem_cons_self ..)
    simp only [List.cons_append, Mem.get, if_neg hx]
    exact ih fun e he => h e (List.mem_cons_of_mem _ he)

/-- An address that no entry names reads the default. -/
theorem Mem.get_absent (m : Mem) (a : Nat) (h : ∀ e ∈ m, e.1 ≠ a) : Mem.get m a = Mem.dflt := by
  have := Mem.get_append_right m [] a h
  simpa [Mem.get] using this

theorem Mem.get_filter (m : Mem) (p : Host.Cell → Bool) (a : Nat) (hp : ∀ e : Host.Cell, e.1 = a → p e = true) :
    Mem.get (m.filter p) a = Mem.get m a := by
  induction m with
  | nil => rfl
  | cons x t ih =>
    by_cases hx : x.1 = a
    · simp [List.filter, hp x hx, Mem.get, hx]
    · cases hpx : p x <;> simp [List.filter, hpx, Mem.get, hx, ih]

/-- Bytes outside a write read as before. -/
theorem Mem.get_write_out (m : Mem) (a : Nat) (bs : List Byte) (x : Nat) (h : x < a ∨ a + bs.length ≤ x) :
    Mem.get (m.write a bs) x = Mem.get m x := by
  unfold Mem.write
  rcases h with h | h
  · rw [Mem.get_append_left]
    · exact Mem.get_filter _ _ _ fun e he => by simp [he, h]
    · intro e he
      rcases List.mem_append.1 he with he | he
      · have := Mem.mem_run _ _ e he; omega
      · have := (List.mem_filter.1 he).2
        simp only [decide_eq_true_eq] at this; omega
  · rw [Mem.get_append_right, Mem.get_append_right]
    · exact Mem.get_filter _ _ _ fun e he => by simp [he, h]
    · intro e he
      have := Mem.mem_run _ _ e he; omega
    · intro e he
      have := (List.mem_filter.1 he).2
      simp only [decide_eq_true_eq] at this; omega

theorem Mem.get_run (bs : List Byte) : ∀ (a i : Nat), i < bs.length → Mem.get (Mem.run a bs) (a + i) = bs.getD i Mem.dflt := by
  induction bs with
  | nil => intro a i h; simp at h
  | cons b t ih =>
    intro a i h
    cases i with
    | zero =>
      simp only [Mem.run, Nat.add_zero, List.getD_cons_zero]
      split
      · rename_i hb
        rw [Mem.get_absent, hb]
        intro e he
        have := Mem.mem_run t _ e he; omega
      · simp [Mem.get]
    | succ i =>
      have hi : i < t.length := by simpa using h
      have e1 : a + (i + 1) = (a + 1) + i := by omega
      simp only [Mem.run, List.getD_cons_succ]
      split
      · rw [e1]; exact ih _ _ hi
      · have : a ≠ a + (i + 1) := by omega
        simp only [Mem.get, if_neg this]
        rw [e1]; exact ih _ _ hi

/-- The bytes of a write read back. -/
theorem Mem.get_write_in (m : Mem) (a : Nat) (bs : List Byte) (i : Nat) (h : i < bs.length) :
    Mem.get (m.write a bs) (a + i) = bs.getD i Mem.dflt := by
  unfold Mem.write
  rw [Mem.get_append_right, Mem.get_append_left]
  · exact Mem.get_run _ _ _ h
  · intro e he
    have := (List.mem_filter.1 he).2
    simp only [decide_eq_true_eq] at this; omega
  · intro e he
    have := (List.mem_filter.1 he).2
    simp only [decide_eq_true_eq] at this; omega

/-- A window shows its bytes. -/
theorem Mem.get_window (m : Mem) (a n x : Nat) (h : a ≤ x) (h2 : x < a + n) : Mem.get (m.window a n) x = Mem.get m x :=
  Mem.get_filter _ _ _ fun e he => by simp [he, h, h2]

@[simp] theorem Mem.length_read (m : Mem) (a n : Nat) : (m.read a n).length = n := by simp [Mem.read]

/-- Byte i of a read. -/
theorem Mem.getElem_read (m : Mem) (a n i : Nat) (h : i < n) : (m.read a n)[i]'(by simpa using h) = Mem.get m (a + i) := by
  simp only [Mem.read, List.getElem_map, List.getElem_range]
  exact Mem.get_window _ _ _ _ (by omega) (by omega)

/-- Reading n bytes outside a write gives what it gave. -/
theorem Mem.read_write_out (m : Mem) (a : Nat) (bs : List Byte) (x n : Nat) (h : x + n ≤ a ∨ a + bs.length ≤ x) :
    (m.write a bs).read x n = m.read x n := by
  refine List.ext_getElem (by simp) fun i h1 h2 => ?_
  have hi : i < n := by simpa using h1
  rw [Mem.getElem_read _ _ _ _ hi, Mem.getElem_read _ _ _ _ hi]
  exact Mem.get_write_out _ _ _ _ (by omega)

/-- Reading what was written. -/
theorem Mem.read_write_same (m : Mem) (a : Nat) (bs : List Byte) : (m.write a bs).read a bs.length = bs := by
  refine List.ext_getElem (by simp) fun i h1 h2 => ?_
  rw [Mem.getElem_read _ _ _ _ h2, Mem.get_write_in _ _ _ _ h2]
  simp [List.getD, h2]

/-! ## Bytes and numbers -/

@[simp] theorem length_leBytes (n x : Nat) : (leBytes n x).length = n := by
  induction n generalizing x with
  | zero => rfl
  | succ n ih => simp [leBytes, ih]

/-- Little-endian bytes of a number give it back, modulo their width. -/
theorem leNat_leBytes (n x : Nat) : leNat (leBytes n x) = x % 256 ^ n := by
  induction n generalizing x with
  | zero => simp [leBytes, leNat, Nat.mod_one]
  | succ n ih =>
    simp only [leBytes, leNat, ih, BitVec.toNat_ofNat, Nat.pow_succ]
    rw [Nat.mul_comm (256 ^ n) 256, Nat.mod_mul (x := x) (a := 256) (b := 256 ^ n)]

end Sys2Proof.Machine
end

