-- ==== Sys2Proof/Laws/State.lean ====
section
/-! SUPPORT. The parts of a state under the updates of its parts: one lemma per field per update, all by `rfl`, and what a read of a
core, thread or die gives after a write of one. -/
namespace Sys2Proof.Machine

/-! ## Fields of a state -/

@[simp] theorem State.setCore_dies (s : State) (c : Fin 64) (k : Core) : (s.setCore c k).dies = s.dies := rfl
@[simp] theorem State.setCore_bds (s : State) (c : Fin 64) (k : Core) : (s.setCore c k).bds = s.bds := rfl
@[simp] theorem State.setCore_mem (s : State) (c : Fin 64) (k : Core) : (s.setCore c k).mem = s.mem := rfl
@[simp] theorem State.setCore_pflip (s : State) (c : Fin 64) (k : Core) : (s.setCore c k).pflip = s.pflip := rfl
@[simp] theorem State.setCore_l2own (s : State) (c : Fin 64) (k : Core) : (s.setCore c k).l2own = s.l2own := rfl
@[simp] theorem State.setCore_sys (s : State) (c : Fin 64) (k : Core) : (s.setCore c k).sys = s.sys := rfl
@[simp] theorem State.setCore_sysset (s : State) (c : Fin 64) (k : Core) : (s.setCore c k).sysset = s.sysset := rfl
@[simp] theorem State.setCore_rcbs (s : State) (c : Fin 64) (k : Core) : (s.setCore c k).rcbs = s.rcbs := rfl
@[simp] theorem State.setCore_featack (s : State) (c : Fin 64) (k : Core) : (s.setCore c k).featack = s.featack := rfl
@[simp] theorem State.setCore_featlock (s : State) (c : Fin 64) (k : Core) : (s.setCore c k).featlock = s.featlock := rfl
@[simp] theorem State.setCore_tasks (s : State) (c : Fin 64) (k : Core) : (s.setCore c k).tasks = s.tasks := rfl
@[simp] theorem State.setCore_bypass (s : State) (c : Fin 64) (k : Core) : (s.setCore c k).bypass = s.bypass := rfl
@[simp] theorem State.setCore_chips (s : State) (c : Fin 64) (k : Core) : (s.setCore c k).chips = s.chips := rfl
@[simp] theorem State.setCore_lcs (s : State) (c : Fin 64) (k : Core) : (s.setCore c k).lcs = s.lcs := rfl
@[simp] theorem State.setCore_sessions (s : State) (c : Fin 64) (k : Core) : (s.setCore c k).sessions = s.sessions := rfl
@[simp] theorem State.setCore_reports (s : State) (c : Fin 64) (k : Core) : (s.setCore c k).reports = s.reports := rfl
@[simp] theorem State.setCore_booted (s : State) (c : Fin 64) (k : Core) : (s.setCore c k).booted = s.booted := rfl
@[simp] theorem State.setCore_iod1 (s : State) (c : Fin 64) (k : Core) : (s.setCore c k).iod1 = s.iod1 := rfl
@[simp] theorem State.setCore_wiped (s : State) (c : Fin 64) (k : Core) : (s.setCore c k).wiped = s.wiped := rfl
@[simp] theorem State.setCore_powered (s : State) (c : Fin 64) (k : Core) : (s.setCore c k).powered = s.powered := rfl
@[simp] theorem State.setCore_links (s : State) (c : Fin 64) (k : Core) : (s.setCore c k).links = s.links := rfl
@[simp] theorem State.setCore_chan (s : State) (c : Fin 64) (k : Core) : (s.setCore c k).chan = s.chan := rfl
@[simp] theorem State.setCore_hostup (s : State) (c : Fin 64) (k : Core) : (s.setCore c k).hostup = s.hostup := rfl
@[simp] theorem State.setCore_ports (s : State) (c : Fin 64) (k : Core) : (s.setCore c k).ports = s.ports := rfl
@[simp] theorem State.setCore_assocs (s : State) (c : Fin 64) (k : Core) : (s.setCore c k).assocs = s.assocs := rfl
@[simp] theorem State.setCore_routes (s : State) (c : Fin 64) (k : Core) : (s.setCore c k).routes = s.routes := rfl
@[simp] theorem State.setCore_lists (s : State) (c : Fin 64) (k : Core) : (s.setCore c k).lists = s.lists := rfl
@[simp] theorem State.setCore_age (s : State) (c : Fin 64) (k : Core) : (s.setCore c k).age = s.age := rfl
@[simp] theorem State.setCore_bar0 (s : State) (c : Fin 64) (k : Core) : (s.setCore c k).bar0 = s.bar0 := rfl
@[simp] theorem State.setCore_mboxAt (s : State) (c : Fin 64) (k : Core) : (s.setCore c k).mboxAt = s.mboxAt := rfl
@[simp] theorem State.setCore_reply (s : State) (c : Fin 64) (k : Core) : (s.setCore c k).reply = s.reply := rfl
@[simp] theorem State.setCore_msix (s : State) (c : Fin 64) (k : Core) : (s.setCore c k).msix = s.msix := rfl
@[simp] theorem State.setCore_hostq (s : State) (c : Fin 64) (k : Core) : (s.setCore c k).hostq = s.hostq := rfl
@[simp] theorem State.setCore_invals (s : State) (c : Fin 64) (k : Core) : (s.setCore c k).invals = s.invals := rfl
@[simp] theorem State.setCore_watches (s : State) (c : Fin 64) (k : Core) : (s.setCore c k).watches = s.watches := rfl
@[simp] theorem State.setCore_xfers (s : State) (c : Fin 64) (k : Core) : (s.setCore c k).xfers = s.xfers := rfl
@[simp] theorem State.setCore_images (s : State) (c : Fin 64) (k : Core) : (s.setCore c k).images = s.images := rfl
@[simp] theorem State.setCore_snoops (s : State) (c : Fin 64) (k : Core) : (s.setCore c k).snoops = s.snoops := rfl
@[simp] theorem State.setCore_hostw (s : State) (c : Fin 64) (k : Core) : (s.setCore c k).hostw = s.hostw := rfl
@[simp] theorem State.setCore_nextTask (s : State) (c : Fin 64) (k : Core) : (s.setCore c k).nextTask = s.nextTask := rfl
@[simp] theorem State.setCore_nextOp (s : State) (c : Fin 64) (k : Core) : (s.setCore c k).nextOp = s.nextOp := rfl
@[simp] theorem State.setCore_free (s : State) (c : Fin 64) (k : Core) : (s.setCore c k).free = s.free := rfl
@[simp] theorem State.setCore_cur (s : State) (c : Fin 64) (k : Core) : (s.setCore c k).cur = s.cur := rfl
@[simp] theorem State.setCore_late (s : State) (c : Fin 64) (k : Core) : (s.setCore c k).late = s.late := rfl
@[simp] theorem State.setCore_agenda (s : State) (c : Fin 64) (k : Core) : (s.setCore c k).agenda = s.agenda := rfl
@[simp] theorem State.setCore_tick (s : State) (c : Fin 64) (k : Core) : (s.setCore c k).tick = s.tick := rfl

@[simp] theorem State.setThr_dies (s : State) (c : Fin 64) (r : Role) (t : Thread) : (s.setThr c r t).dies = s.dies := rfl
@[simp] theorem State.setThr_bds (s : State) (c : Fin 64) (r : Role) (t : Thread) : (s.setThr c r t).bds = s.bds := rfl
@[simp] theorem State.setThr_mem (s : State) (c : Fin 64) (r : Role) (t : Thread) : (s.setThr c r t).mem = s.mem := rfl
@[simp] theorem State.setThr_pflip (s : State) (c : Fin 64) (r : Role) (t : Thread) : (s.setThr c r t).pflip = s.pflip := rfl
@[simp] theorem State.setThr_l2own (s : State) (c : Fin 64) (r : Role) (t : Thread) : (s.setThr c r t).l2own = s.l2own := rfl
@[simp] theorem State.setThr_sys (s : State) (c : Fin 64) (r : Role) (t : Thread) : (s.setThr c r t).sys = s.sys := rfl
@[simp] theorem State.setThr_sysset (s : State) (c : Fin 64) (r : Role) (t : Thread) : (s.setThr c r t).sysset = s.sysset := rfl
@[simp] theorem State.setThr_rcbs (s : State) (c : Fin 64) (r : Role) (t : Thread) : (s.setThr c r t).rcbs = s.rcbs := rfl
@[simp] theorem State.setThr_featack (s : State) (c : Fin 64) (r : Role) (t : Thread) : (s.setThr c r t).featack = s.featack := rfl
@[simp] theorem State.setThr_featlock (s : State) (c : Fin 64) (r : Role) (t : Thread) : (s.setThr c r t).featlock = s.featlock := rfl
@[simp] theorem State.setThr_tasks (s : State) (c : Fin 64) (r : Role) (t : Thread) : (s.setThr c r t).tasks = s.tasks := rfl
@[simp] theorem State.setThr_bypass (s : State) (c : Fin 64) (r : Role) (t : Thread) : (s.setThr c r t).bypass = s.bypass := rfl
@[simp] theorem State.setThr_chips (s : State) (c : Fin 64) (r : Role) (t : Thread) : (s.setThr c r t).chips = s.chips := rfl
@[simp] theorem State.setThr_lcs (s : State) (c : Fin 64) (r : Role) (t : Thread) : (s.setThr c r t).lcs = s.lcs := rfl
@[simp] theorem State.setThr_sessions (s : State) (c : Fin 64) (r : Role) (t : Thread) : (s.setThr c r t).sessions = s.sessions := rfl
@[simp] theorem State.setThr_reports (s : State) (c : Fin 64) (r : Role) (t : Thread) : (s.setThr c r t).reports = s.reports := rfl
@[simp] theorem State.setThr_booted (s : State) (c : Fin 64) (r : Role) (t : Thread) : (s.setThr c r t).booted = s.booted := rfl
@[simp] theorem State.setThr_iod1 (s : State) (c : Fin 64) (r : Role) (t : Thread) : (s.setThr c r t).iod1 = s.iod1 := rfl
@[simp] theorem State.setThr_wiped (s : State) (c : Fin 64) (r : Role) (t : Thread) : (s.setThr c r t).wiped = s.wiped := rfl
@[simp] theorem State.setThr_powered (s : State) (c : Fin 64) (r : Role) (t : Thread) : (s.setThr c r t).powered = s.powered := rfl
@[simp] theorem State.setThr_links (s : State) (c : Fin 64) (r : Role) (t : Thread) : (s.setThr c r t).links = s.links := rfl
@[simp] theorem State.setThr_chan (s : State) (c : Fin 64) (r : Role) (t : Thread) : (s.setThr c r t).chan = s.chan := rfl
@[simp] theorem State.setThr_hostup (s : State) (c : Fin 64) (r : Role) (t : Thread) : (s.setThr c r t).hostup = s.hostup := rfl
@[simp] theorem State.setThr_ports (s : State) (c : Fin 64) (r : Role) (t : Thread) : (s.setThr c r t).ports = s.ports := rfl
@[simp] theorem State.setThr_assocs (s : State) (c : Fin 64) (r : Role) (t : Thread) : (s.setThr c r t).assocs = s.assocs := rfl
@[simp] theorem State.setThr_routes (s : State) (c : Fin 64) (r : Role) (t : Thread) : (s.setThr c r t).routes = s.routes := rfl
@[simp] theorem State.setThr_lists (s : State) (c : Fin 64) (r : Role) (t : Thread) : (s.setThr c r t).lists = s.lists := rfl
@[simp] theorem State.setThr_age (s : State) (c : Fin 64) (r : Role) (t : Thread) : (s.setThr c r t).age = s.age := rfl
@[simp] theorem State.setThr_bar0 (s : State) (c : Fin 64) (r : Role) (t : Thread) : (s.setThr c r t).bar0 = s.bar0 := rfl
@[simp] theorem State.setThr_mboxAt (s : State) (c : Fin 64) (r : Role) (t : Thread) : (s.setThr c r t).mboxAt = s.mboxAt := rfl
@[simp] theorem State.setThr_reply (s : State) (c : Fin 64) (r : Role) (t : Thread) : (s.setThr c r t).reply = s.reply := rfl
@[simp] theorem State.setThr_msix (s : State) (c : Fin 64) (r : Role) (t : Thread) : (s.setThr c r t).msix = s.msix := rfl
@[simp] theorem State.setThr_hostq (s : State) (c : Fin 64) (r : Role) (t : Thread) : (s.setThr c r t).hostq = s.hostq := rfl
@[simp] theorem State.setThr_invals (s : State) (c : Fin 64) (r : Role) (t : Thread) : (s.setThr c r t).invals = s.invals := rfl
@[simp] theorem State.setThr_watches (s : State) (c : Fin 64) (r : Role) (t : Thread) : (s.setThr c r t).watches = s.watches := rfl
@[simp] theorem State.setThr_xfers (s : State) (c : Fin 64) (r : Role) (t : Thread) : (s.setThr c r t).xfers = s.xfers := rfl
@[simp] theorem State.setThr_images (s : State) (c : Fin 64) (r : Role) (t : Thread) : (s.setThr c r t).images = s.images := rfl
@[simp] theorem State.setThr_snoops (s : State) (c : Fin 64) (r : Role) (t : Thread) : (s.setThr c r t).snoops = s.snoops := rfl
@[simp] theorem State.setThr_hostw (s : State) (c : Fin 64) (r : Role) (t : Thread) : (s.setThr c r t).hostw = s.hostw := rfl
@[simp] theorem State.setThr_nextTask (s : State) (c : Fin 64) (r : Role) (t : Thread) : (s.setThr c r t).nextTask = s.nextTask := rfl
@[simp] theorem State.setThr_nextOp (s : State) (c : Fin 64) (r : Role) (t : Thread) : (s.setThr c r t).nextOp = s.nextOp := rfl
@[simp] theorem State.setThr_free (s : State) (c : Fin 64) (r : Role) (t : Thread) : (s.setThr c r t).free = s.free := rfl
@[simp] theorem State.setThr_cur (s : State) (c : Fin 64) (r : Role) (t : Thread) : (s.setThr c r t).cur = s.cur := rfl
@[simp] theorem State.setThr_late (s : State) (c : Fin 64) (r : Role) (t : Thread) : (s.setThr c r t).late = s.late := rfl
@[simp] theorem State.setThr_agenda (s : State) (c : Fin 64) (r : Role) (t : Thread) : (s.setThr c r t).agenda = s.agenda := rfl
@[simp] theorem State.setThr_tick (s : State) (c : Fin 64) (r : Role) (t : Thread) : (s.setThr c r t).tick = s.tick := rfl

@[simp] theorem State.upCore_dies (s : State) (c : Fin 64) (f : Core → Core) : (s.upCore c f).dies = s.dies := rfl
@[simp] theorem State.upCore_bds (s : State) (c : Fin 64) (f : Core → Core) : (s.upCore c f).bds = s.bds := rfl
@[simp] theorem State.upCore_mem (s : State) (c : Fin 64) (f : Core → Core) : (s.upCore c f).mem = s.mem := rfl
@[simp] theorem State.upCore_pflip (s : State) (c : Fin 64) (f : Core → Core) : (s.upCore c f).pflip = s.pflip := rfl
@[simp] theorem State.upCore_l2own (s : State) (c : Fin 64) (f : Core → Core) : (s.upCore c f).l2own = s.l2own := rfl
@[simp] theorem State.upCore_sys (s : State) (c : Fin 64) (f : Core → Core) : (s.upCore c f).sys = s.sys := rfl
@[simp] theorem State.upCore_sysset (s : State) (c : Fin 64) (f : Core → Core) : (s.upCore c f).sysset = s.sysset := rfl
@[simp] theorem State.upCore_rcbs (s : State) (c : Fin 64) (f : Core → Core) : (s.upCore c f).rcbs = s.rcbs := rfl
@[simp] theorem State.upCore_featack (s : State) (c : Fin 64) (f : Core → Core) : (s.upCore c f).featack = s.featack := rfl
@[simp] theorem State.upCore_featlock (s : State) (c : Fin 64) (f : Core → Core) : (s.upCore c f).featlock = s.featlock := rfl
@[simp] theorem State.upCore_tasks (s : State) (c : Fin 64) (f : Core → Core) : (s.upCore c f).tasks = s.tasks := rfl
@[simp] theorem State.upCore_bypass (s : State) (c : Fin 64) (f : Core → Core) : (s.upCore c f).bypass = s.bypass := rfl
@[simp] theorem State.upCore_chips (s : State) (c : Fin 64) (f : Core → Core) : (s.upCore c f).chips = s.chips := rfl
@[simp] theorem State.upCore_lcs (s : State) (c : Fin 64) (f : Core → Core) : (s.upCore c f).lcs = s.lcs := rfl
@[simp] theorem State.upCore_sessions (s : State) (c : Fin 64) (f : Core → Core) : (s.upCore c f).sessions = s.sessions := rfl
@[simp] theorem State.upCore_reports (s : State) (c : Fin 64) (f : Core → Core) : (s.upCore c f).reports = s.reports := rfl
@[simp] theorem State.upCore_booted (s : State) (c : Fin 64) (f : Core → Core) : (s.upCore c f).booted = s.booted := rfl
@[simp] theorem State.upCore_iod1 (s : State) (c : Fin 64) (f : Core → Core) : (s.upCore c f).iod1 = s.iod1 := rfl
@[simp] theorem State.upCore_wiped (s : State) (c : Fin 64) (f : Core → Core) : (s.upCore c f).wiped = s.wiped := rfl
@[simp] theorem State.upCore_powered (s : State) (c : Fin 64) (f : Core → Core) : (s.upCore c f).powered = s.powered := rfl
@[simp] theorem State.upCore_links (s : State) (c : Fin 64) (f : Core → Core) : (s.upCore c f).links = s.links := rfl
@[simp] theorem State.upCore_chan (s : State) (c : Fin 64) (f : Core → Core) : (s.upCore c f).chan = s.chan := rfl
@[simp] theorem State.upCore_hostup (s : State) (c : Fin 64) (f : Core → Core) : (s.upCore c f).hostup = s.hostup := rfl
@[simp] theorem State.upCore_ports (s : State) (c : Fin 64) (f : Core → Core) : (s.upCore c f).ports = s.ports := rfl
@[simp] theorem State.upCore_assocs (s : State) (c : Fin 64) (f : Core → Core) : (s.upCore c f).assocs = s.assocs := rfl
@[simp] theorem State.upCore_routes (s : State) (c : Fin 64) (f : Core → Core) : (s.upCore c f).routes = s.routes := rfl
@[simp] theorem State.upCore_lists (s : State) (c : Fin 64) (f : Core → Core) : (s.upCore c f).lists = s.lists := rfl
@[simp] theorem State.upCore_age (s : State) (c : Fin 64) (f : Core → Core) : (s.upCore c f).age = s.age := rfl
@[simp] theorem State.upCore_bar0 (s : State) (c : Fin 64) (f : Core → Core) : (s.upCore c f).bar0 = s.bar0 := rfl
@[simp] theorem State.upCore_mboxAt (s : State) (c : Fin 64) (f : Core → Core) : (s.upCore c f).mboxAt = s.mboxAt := rfl
@[simp] theorem State.upCore_reply (s : State) (c : Fin 64) (f : Core → Core) : (s.upCore c f).reply = s.reply := rfl
@[simp] theorem State.upCore_msix (s : State) (c : Fin 64) (f : Core → Core) : (s.upCore c f).msix = s.msix := rfl
@[simp] theorem State.upCore_hostq (s : State) (c : Fin 64) (f : Core → Core) : (s.upCore c f).hostq = s.hostq := rfl
@[simp] theorem State.upCore_invals (s : State) (c : Fin 64) (f : Core → Core) : (s.upCore c f).invals = s.invals := rfl
@[simp] theorem State.upCore_watches (s : State) (c : Fin 64) (f : Core → Core) : (s.upCore c f).watches = s.watches := rfl
@[simp] theorem State.upCore_xfers (s : State) (c : Fin 64) (f : Core → Core) : (s.upCore c f).xfers = s.xfers := rfl
@[simp] theorem State.upCore_images (s : State) (c : Fin 64) (f : Core → Core) : (s.upCore c f).images = s.images := rfl
@[simp] theorem State.upCore_snoops (s : State) (c : Fin 64) (f : Core → Core) : (s.upCore c f).snoops = s.snoops := rfl
@[simp] theorem State.upCore_hostw (s : State) (c : Fin 64) (f : Core → Core) : (s.upCore c f).hostw = s.hostw := rfl
@[simp] theorem State.upCore_nextTask (s : State) (c : Fin 64) (f : Core → Core) : (s.upCore c f).nextTask = s.nextTask := rfl
@[simp] theorem State.upCore_nextOp (s : State) (c : Fin 64) (f : Core → Core) : (s.upCore c f).nextOp = s.nextOp := rfl
@[simp] theorem State.upCore_free (s : State) (c : Fin 64) (f : Core → Core) : (s.upCore c f).free = s.free := rfl
@[simp] theorem State.upCore_cur (s : State) (c : Fin 64) (f : Core → Core) : (s.upCore c f).cur = s.cur := rfl
@[simp] theorem State.upCore_late (s : State) (c : Fin 64) (f : Core → Core) : (s.upCore c f).late = s.late := rfl
@[simp] theorem State.upCore_agenda (s : State) (c : Fin 64) (f : Core → Core) : (s.upCore c f).agenda = s.agenda := rfl
@[simp] theorem State.upCore_tick (s : State) (c : Fin 64) (f : Core → Core) : (s.upCore c f).tick = s.tick := rfl

@[simp] theorem State.upThr_dies (s : State) (c : Fin 64) (r : Role) (f : Thread → Thread) : (s.upThr c r f).dies = s.dies := rfl
@[simp] theorem State.upThr_bds (s : State) (c : Fin 64) (r : Role) (f : Thread → Thread) : (s.upThr c r f).bds = s.bds := rfl
@[simp] theorem State.upThr_mem (s : State) (c : Fin 64) (r : Role) (f : Thread → Thread) : (s.upThr c r f).mem = s.mem := rfl
@[simp] theorem State.upThr_pflip (s : State) (c : Fin 64) (r : Role) (f : Thread → Thread) : (s.upThr c r f).pflip = s.pflip := rfl
@[simp] theorem State.upThr_l2own (s : State) (c : Fin 64) (r : Role) (f : Thread → Thread) : (s.upThr c r f).l2own = s.l2own := rfl
@[simp] theorem State.upThr_sys (s : State) (c : Fin 64) (r : Role) (f : Thread → Thread) : (s.upThr c r f).sys = s.sys := rfl
@[simp] theorem State.upThr_sysset (s : State) (c : Fin 64) (r : Role) (f : Thread → Thread) : (s.upThr c r f).sysset = s.sysset := rfl
@[simp] theorem State.upThr_rcbs (s : State) (c : Fin 64) (r : Role) (f : Thread → Thread) : (s.upThr c r f).rcbs = s.rcbs := rfl
@[simp] theorem State.upThr_featack (s : State) (c : Fin 64) (r : Role) (f : Thread → Thread) : (s.upThr c r f).featack = s.featack := rfl
@[simp] theorem State.upThr_featlock (s : State) (c : Fin 64) (r : Role) (f : Thread → Thread) : (s.upThr c r f).featlock = s.featlock := rfl
@[simp] theorem State.upThr_tasks (s : State) (c : Fin 64) (r : Role) (f : Thread → Thread) : (s.upThr c r f).tasks = s.tasks := rfl
@[simp] theorem State.upThr_bypass (s : State) (c : Fin 64) (r : Role) (f : Thread → Thread) : (s.upThr c r f).bypass = s.bypass := rfl
@[simp] theorem State.upThr_chips (s : State) (c : Fin 64) (r : Role) (f : Thread → Thread) : (s.upThr c r f).chips = s.chips := rfl
@[simp] theorem State.upThr_lcs (s : State) (c : Fin 64) (r : Role) (f : Thread → Thread) : (s.upThr c r f).lcs = s.lcs := rfl
@[simp] theorem State.upThr_sessions (s : State) (c : Fin 64) (r : Role) (f : Thread → Thread) : (s.upThr c r f).sessions = s.sessions := rfl
@[simp] theorem State.upThr_reports (s : State) (c : Fin 64) (r : Role) (f : Thread → Thread) : (s.upThr c r f).reports = s.reports := rfl
@[simp] theorem State.upThr_booted (s : State) (c : Fin 64) (r : Role) (f : Thread → Thread) : (s.upThr c r f).booted = s.booted := rfl
@[simp] theorem State.upThr_iod1 (s : State) (c : Fin 64) (r : Role) (f : Thread → Thread) : (s.upThr c r f).iod1 = s.iod1 := rfl
@[simp] theorem State.upThr_wiped (s : State) (c : Fin 64) (r : Role) (f : Thread → Thread) : (s.upThr c r f).wiped = s.wiped := rfl
@[simp] theorem State.upThr_powered (s : State) (c : Fin 64) (r : Role) (f : Thread → Thread) : (s.upThr c r f).powered = s.powered := rfl
@[simp] theorem State.upThr_links (s : State) (c : Fin 64) (r : Role) (f : Thread → Thread) : (s.upThr c r f).links = s.links := rfl
@[simp] theorem State.upThr_chan (s : State) (c : Fin 64) (r : Role) (f : Thread → Thread) : (s.upThr c r f).chan = s.chan := rfl
@[simp] theorem State.upThr_hostup (s : State) (c : Fin 64) (r : Role) (f : Thread → Thread) : (s.upThr c r f).hostup = s.hostup := rfl
@[simp] theorem State.upThr_ports (s : State) (c : Fin 64) (r : Role) (f : Thread → Thread) : (s.upThr c r f).ports = s.ports := rfl
@[simp] theorem State.upThr_assocs (s : State) (c : Fin 64) (r : Role) (f : Thread → Thread) : (s.upThr c r f).assocs = s.assocs := rfl
@[simp] theorem State.upThr_routes (s : State) (c : Fin 64) (r : Role) (f : Thread → Thread) : (s.upThr c r f).routes = s.routes := rfl
@[simp] theorem State.upThr_lists (s : State) (c : Fin 64) (r : Role) (f : Thread → Thread) : (s.upThr c r f).lists = s.lists := rfl
@[simp] theorem State.upThr_age (s : State) (c : Fin 64) (r : Role) (f : Thread → Thread) : (s.upThr c r f).age = s.age := rfl
@[simp] theorem State.upThr_bar0 (s : State) (c : Fin 64) (r : Role) (f : Thread → Thread) : (s.upThr c r f).bar0 = s.bar0 := rfl
@[simp] theorem State.upThr_mboxAt (s : State) (c : Fin 64) (r : Role) (f : Thread → Thread) : (s.upThr c r f).mboxAt = s.mboxAt := rfl
@[simp] theorem State.upThr_reply (s : State) (c : Fin 64) (r : Role) (f : Thread → Thread) : (s.upThr c r f).reply = s.reply := rfl
@[simp] theorem State.upThr_msix (s : State) (c : Fin 64) (r : Role) (f : Thread → Thread) : (s.upThr c r f).msix = s.msix := rfl
@[simp] theorem State.upThr_hostq (s : State) (c : Fin 64) (r : Role) (f : Thread → Thread) : (s.upThr c r f).hostq = s.hostq := rfl
@[simp] theorem State.upThr_invals (s : State) (c : Fin 64) (r : Role) (f : Thread → Thread) : (s.upThr c r f).invals = s.invals := rfl
@[simp] theorem State.upThr_watches (s : State) (c : Fin 64) (r : Role) (f : Thread → Thread) : (s.upThr c r f).watches = s.watches := rfl
@[simp] theorem State.upThr_xfers (s : State) (c : Fin 64) (r : Role) (f : Thread → Thread) : (s.upThr c r f).xfers = s.xfers := rfl
@[simp] theorem State.upThr_images (s : State) (c : Fin 64) (r : Role) (f : Thread → Thread) : (s.upThr c r f).images = s.images := rfl
@[simp] theorem State.upThr_snoops (s : State) (c : Fin 64) (r : Role) (f : Thread → Thread) : (s.upThr c r f).snoops = s.snoops := rfl
@[simp] theorem State.upThr_hostw (s : State) (c : Fin 64) (r : Role) (f : Thread → Thread) : (s.upThr c r f).hostw = s.hostw := rfl
@[simp] theorem State.upThr_nextTask (s : State) (c : Fin 64) (r : Role) (f : Thread → Thread) : (s.upThr c r f).nextTask = s.nextTask := rfl
@[simp] theorem State.upThr_nextOp (s : State) (c : Fin 64) (r : Role) (f : Thread → Thread) : (s.upThr c r f).nextOp = s.nextOp := rfl
@[simp] theorem State.upThr_free (s : State) (c : Fin 64) (r : Role) (f : Thread → Thread) : (s.upThr c r f).free = s.free := rfl
@[simp] theorem State.upThr_cur (s : State) (c : Fin 64) (r : Role) (f : Thread → Thread) : (s.upThr c r f).cur = s.cur := rfl
@[simp] theorem State.upThr_late (s : State) (c : Fin 64) (r : Role) (f : Thread → Thread) : (s.upThr c r f).late = s.late := rfl
@[simp] theorem State.upThr_agenda (s : State) (c : Fin 64) (r : Role) (f : Thread → Thread) : (s.upThr c r f).agenda = s.agenda := rfl
@[simp] theorem State.upThr_tick (s : State) (c : Fin 64) (r : Role) (f : Thread → Thread) : (s.upThr c r f).tick = s.tick := rfl

@[simp] theorem State.setMe_dies (s : State) (t : Thread) : (s.setMe t).dies = s.dies := rfl
@[simp] theorem State.setMe_bds (s : State) (t : Thread) : (s.setMe t).bds = s.bds := rfl
@[simp] theorem State.setMe_mem (s : State) (t : Thread) : (s.setMe t).mem = s.mem := rfl
@[simp] theorem State.setMe_pflip (s : State) (t : Thread) : (s.setMe t).pflip = s.pflip := rfl
@[simp] theorem State.setMe_l2own (s : State) (t : Thread) : (s.setMe t).l2own = s.l2own := rfl
@[simp] theorem State.setMe_sys (s : State) (t : Thread) : (s.setMe t).sys = s.sys := rfl
@[simp] theorem State.setMe_sysset (s : State) (t : Thread) : (s.setMe t).sysset = s.sysset := rfl
@[simp] theorem State.setMe_rcbs (s : State) (t : Thread) : (s.setMe t).rcbs = s.rcbs := rfl
@[simp] theorem State.setMe_featack (s : State) (t : Thread) : (s.setMe t).featack = s.featack := rfl
@[simp] theorem State.setMe_featlock (s : State) (t : Thread) : (s.setMe t).featlock = s.featlock := rfl
@[simp] theorem State.setMe_tasks (s : State) (t : Thread) : (s.setMe t).tasks = s.tasks := rfl
@[simp] theorem State.setMe_bypass (s : State) (t : Thread) : (s.setMe t).bypass = s.bypass := rfl
@[simp] theorem State.setMe_chips (s : State) (t : Thread) : (s.setMe t).chips = s.chips := rfl
@[simp] theorem State.setMe_lcs (s : State) (t : Thread) : (s.setMe t).lcs = s.lcs := rfl
@[simp] theorem State.setMe_sessions (s : State) (t : Thread) : (s.setMe t).sessions = s.sessions := rfl
@[simp] theorem State.setMe_reports (s : State) (t : Thread) : (s.setMe t).reports = s.reports := rfl
@[simp] theorem State.setMe_booted (s : State) (t : Thread) : (s.setMe t).booted = s.booted := rfl
@[simp] theorem State.setMe_iod1 (s : State) (t : Thread) : (s.setMe t).iod1 = s.iod1 := rfl
@[simp] theorem State.setMe_wiped (s : State) (t : Thread) : (s.setMe t).wiped = s.wiped := rfl
@[simp] theorem State.setMe_powered (s : State) (t : Thread) : (s.setMe t).powered = s.powered := rfl
@[simp] theorem State.setMe_links (s : State) (t : Thread) : (s.setMe t).links = s.links := rfl
@[simp] theorem State.setMe_chan (s : State) (t : Thread) : (s.setMe t).chan = s.chan := rfl
@[simp] theorem State.setMe_hostup (s : State) (t : Thread) : (s.setMe t).hostup = s.hostup := rfl
@[simp] theorem State.setMe_ports (s : State) (t : Thread) : (s.setMe t).ports = s.ports := rfl
@[simp] theorem State.setMe_assocs (s : State) (t : Thread) : (s.setMe t).assocs = s.assocs := rfl
@[simp] theorem State.setMe_routes (s : State) (t : Thread) : (s.setMe t).routes = s.routes := rfl
@[simp] theorem State.setMe_lists (s : State) (t : Thread) : (s.setMe t).lists = s.lists := rfl
@[simp] theorem State.setMe_age (s : State) (t : Thread) : (s.setMe t).age = s.age := rfl
@[simp] theorem State.setMe_bar0 (s : State) (t : Thread) : (s.setMe t).bar0 = s.bar0 := rfl
@[simp] theorem State.setMe_mboxAt (s : State) (t : Thread) : (s.setMe t).mboxAt = s.mboxAt := rfl
@[simp] theorem State.setMe_reply (s : State) (t : Thread) : (s.setMe t).reply = s.reply := rfl
@[simp] theorem State.setMe_msix (s : State) (t : Thread) : (s.setMe t).msix = s.msix := rfl
@[simp] theorem State.setMe_hostq (s : State) (t : Thread) : (s.setMe t).hostq = s.hostq := rfl
@[simp] theorem State.setMe_invals (s : State) (t : Thread) : (s.setMe t).invals = s.invals := rfl
@[simp] theorem State.setMe_watches (s : State) (t : Thread) : (s.setMe t).watches = s.watches := rfl
@[simp] theorem State.setMe_xfers (s : State) (t : Thread) : (s.setMe t).xfers = s.xfers := rfl
@[simp] theorem State.setMe_images (s : State) (t : Thread) : (s.setMe t).images = s.images := rfl
@[simp] theorem State.setMe_snoops (s : State) (t : Thread) : (s.setMe t).snoops = s.snoops := rfl
@[simp] theorem State.setMe_hostw (s : State) (t : Thread) : (s.setMe t).hostw = s.hostw := rfl
@[simp] theorem State.setMe_nextTask (s : State) (t : Thread) : (s.setMe t).nextTask = s.nextTask := rfl
@[simp] theorem State.setMe_nextOp (s : State) (t : Thread) : (s.setMe t).nextOp = s.nextOp := rfl
@[simp] theorem State.setMe_free (s : State) (t : Thread) : (s.setMe t).free = s.free := rfl
@[simp] theorem State.setMe_cur (s : State) (t : Thread) : (s.setMe t).cur = s.cur := rfl
@[simp] theorem State.setMe_late (s : State) (t : Thread) : (s.setMe t).late = s.late := rfl
@[simp] theorem State.setMe_agenda (s : State) (t : Thread) : (s.setMe t).agenda = s.agenda := rfl
@[simp] theorem State.setMe_tick (s : State) (t : Thread) : (s.setMe t).tick = s.tick := rfl

@[simp] theorem State.upMe_dies (s : State) (f : Thread → Thread) : (s.upMe f).dies = s.dies := rfl
@[simp] theorem State.upMe_bds (s : State) (f : Thread → Thread) : (s.upMe f).bds = s.bds := rfl
@[simp] theorem State.upMe_mem (s : State) (f : Thread → Thread) : (s.upMe f).mem = s.mem := rfl
@[simp] theorem State.upMe_pflip (s : State) (f : Thread → Thread) : (s.upMe f).pflip = s.pflip := rfl
@[simp] theorem State.upMe_l2own (s : State) (f : Thread → Thread) : (s.upMe f).l2own = s.l2own := rfl
@[simp] theorem State.upMe_sys (s : State) (f : Thread → Thread) : (s.upMe f).sys = s.sys := rfl
@[simp] theorem State.upMe_sysset (s : State) (f : Thread → Thread) : (s.upMe f).sysset = s.sysset := rfl
@[simp] theorem State.upMe_rcbs (s : State) (f : Thread → Thread) : (s.upMe f).rcbs = s.rcbs := rfl
@[simp] theorem State.upMe_featack (s : State) (f : Thread → Thread) : (s.upMe f).featack = s.featack := rfl
@[simp] theorem State.upMe_featlock (s : State) (f : Thread → Thread) : (s.upMe f).featlock = s.featlock := rfl
@[simp] theorem State.upMe_tasks (s : State) (f : Thread → Thread) : (s.upMe f).tasks = s.tasks := rfl
@[simp] theorem State.upMe_bypass (s : State) (f : Thread → Thread) : (s.upMe f).bypass = s.bypass := rfl
@[simp] theorem State.upMe_chips (s : State) (f : Thread → Thread) : (s.upMe f).chips = s.chips := rfl
@[simp] theorem State.upMe_lcs (s : State) (f : Thread → Thread) : (s.upMe f).lcs = s.lcs := rfl
@[simp] theorem State.upMe_sessions (s : State) (f : Thread → Thread) : (s.upMe f).sessions = s.sessions := rfl
@[simp] theorem State.upMe_reports (s : State) (f : Thread → Thread) : (s.upMe f).reports = s.reports := rfl
@[simp] theorem State.upMe_booted (s : State) (f : Thread → Thread) : (s.upMe f).booted = s.booted := rfl
@[simp] theorem State.upMe_iod1 (s : State) (f : Thread → Thread) : (s.upMe f).iod1 = s.iod1 := rfl
@[simp] theorem State.upMe_wiped (s : State) (f : Thread → Thread) : (s.upMe f).wiped = s.wiped := rfl
@[simp] theorem State.upMe_powered (s : State) (f : Thread → Thread) : (s.upMe f).powered = s.powered := rfl
@[simp] theorem State.upMe_links (s : State) (f : Thread → Thread) : (s.upMe f).links = s.links := rfl
@[simp] theorem State.upMe_chan (s : State) (f : Thread → Thread) : (s.upMe f).chan = s.chan := rfl
@[simp] theorem State.upMe_hostup (s : State) (f : Thread → Thread) : (s.upMe f).hostup = s.hostup := rfl
@[simp] theorem State.upMe_ports (s : State) (f : Thread → Thread) : (s.upMe f).ports = s.ports := rfl
@[simp] theorem State.upMe_assocs (s : State) (f : Thread → Thread) : (s.upMe f).assocs = s.assocs := rfl
@[simp] theorem State.upMe_routes (s : State) (f : Thread → Thread) : (s.upMe f).routes = s.routes := rfl
@[simp] theorem State.upMe_lists (s : State) (f : Thread → Thread) : (s.upMe f).lists = s.lists := rfl
@[simp] theorem State.upMe_age (s : State) (f : Thread → Thread) : (s.upMe f).age = s.age := rfl
@[simp] theorem State.upMe_bar0 (s : State) (f : Thread → Thread) : (s.upMe f).bar0 = s.bar0 := rfl
@[simp] theorem State.upMe_mboxAt (s : State) (f : Thread → Thread) : (s.upMe f).mboxAt = s.mboxAt := rfl
@[simp] theorem State.upMe_reply (s : State) (f : Thread → Thread) : (s.upMe f).reply = s.reply := rfl
@[simp] theorem State.upMe_msix (s : State) (f : Thread → Thread) : (s.upMe f).msix = s.msix := rfl
@[simp] theorem State.upMe_hostq (s : State) (f : Thread → Thread) : (s.upMe f).hostq = s.hostq := rfl
@[simp] theorem State.upMe_invals (s : State) (f : Thread → Thread) : (s.upMe f).invals = s.invals := rfl
@[simp] theorem State.upMe_watches (s : State) (f : Thread → Thread) : (s.upMe f).watches = s.watches := rfl
@[simp] theorem State.upMe_xfers (s : State) (f : Thread → Thread) : (s.upMe f).xfers = s.xfers := rfl
@[simp] theorem State.upMe_images (s : State) (f : Thread → Thread) : (s.upMe f).images = s.images := rfl
@[simp] theorem State.upMe_snoops (s : State) (f : Thread → Thread) : (s.upMe f).snoops = s.snoops := rfl
@[simp] theorem State.upMe_hostw (s : State) (f : Thread → Thread) : (s.upMe f).hostw = s.hostw := rfl
@[simp] theorem State.upMe_nextTask (s : State) (f : Thread → Thread) : (s.upMe f).nextTask = s.nextTask := rfl
@[simp] theorem State.upMe_nextOp (s : State) (f : Thread → Thread) : (s.upMe f).nextOp = s.nextOp := rfl
@[simp] theorem State.upMe_free (s : State) (f : Thread → Thread) : (s.upMe f).free = s.free := rfl
@[simp] theorem State.upMe_cur (s : State) (f : Thread → Thread) : (s.upMe f).cur = s.cur := rfl
@[simp] theorem State.upMe_late (s : State) (f : Thread → Thread) : (s.upMe f).late = s.late := rfl
@[simp] theorem State.upMe_agenda (s : State) (f : Thread → Thread) : (s.upMe f).agenda = s.agenda := rfl
@[simp] theorem State.upMe_tick (s : State) (f : Thread → Thread) : (s.upMe f).tick = s.tick := rfl

@[simp] theorem State.upMyCore_dies (s : State) (f : Core → Core) : (s.upMyCore f).dies = s.dies := rfl
@[simp] theorem State.upMyCore_bds (s : State) (f : Core → Core) : (s.upMyCore f).bds = s.bds := rfl
@[simp] theorem State.upMyCore_mem (s : State) (f : Core → Core) : (s.upMyCore f).mem = s.mem := rfl
@[simp] theorem State.upMyCore_pflip (s : State) (f : Core → Core) : (s.upMyCore f).pflip = s.pflip := rfl
@[simp] theorem State.upMyCore_l2own (s : State) (f : Core → Core) : (s.upMyCore f).l2own = s.l2own := rfl
@[simp] theorem State.upMyCore_sys (s : State) (f : Core → Core) : (s.upMyCore f).sys = s.sys := rfl
@[simp] theorem State.upMyCore_sysset (s : State) (f : Core → Core) : (s.upMyCore f).sysset = s.sysset := rfl
@[simp] theorem State.upMyCore_rcbs (s : State) (f : Core → Core) : (s.upMyCore f).rcbs = s.rcbs := rfl
@[simp] theorem State.upMyCore_featack (s : State) (f : Core → Core) : (s.upMyCore f).featack = s.featack := rfl
@[simp] theorem State.upMyCore_featlock (s : State) (f : Core → Core) : (s.upMyCore f).featlock = s.featlock := rfl
@[simp] theorem State.upMyCore_tasks (s : State) (f : Core → Core) : (s.upMyCore f).tasks = s.tasks := rfl
@[simp] theorem State.upMyCore_bypass (s : State) (f : Core → Core) : (s.upMyCore f).bypass = s.bypass := rfl
@[simp] theorem State.upMyCore_chips (s : State) (f : Core → Core) : (s.upMyCore f).chips = s.chips := rfl
@[simp] theorem State.upMyCore_lcs (s : State) (f : Core → Core) : (s.upMyCore f).lcs = s.lcs := rfl
@[simp] theorem State.upMyCore_sessions (s : State) (f : Core → Core) : (s.upMyCore f).sessions = s.sessions := rfl
@[simp] theorem State.upMyCore_reports (s : State) (f : Core → Core) : (s.upMyCore f).reports = s.reports := rfl
@[simp] theorem State.upMyCore_booted (s : State) (f : Core → Core) : (s.upMyCore f).booted = s.booted := rfl
@[simp] theorem State.upMyCore_iod1 (s : State) (f : Core → Core) : (s.upMyCore f).iod1 = s.iod1 := rfl
@[simp] theorem State.upMyCore_wiped (s : State) (f : Core → Core) : (s.upMyCore f).wiped = s.wiped := rfl
@[simp] theorem State.upMyCore_powered (s : State) (f : Core → Core) : (s.upMyCore f).powered = s.powered := rfl
@[simp] theorem State.upMyCore_links (s : State) (f : Core → Core) : (s.upMyCore f).links = s.links := rfl
@[simp] theorem State.upMyCore_chan (s : State) (f : Core → Core) : (s.upMyCore f).chan = s.chan := rfl
@[simp] theorem State.upMyCore_hostup (s : State) (f : Core → Core) : (s.upMyCore f).hostup = s.hostup := rfl
@[simp] theorem State.upMyCore_ports (s : State) (f : Core → Core) : (s.upMyCore f).ports = s.ports := rfl
@[simp] theorem State.upMyCore_assocs (s : State) (f : Core → Core) : (s.upMyCore f).assocs = s.assocs := rfl
@[simp] theorem State.upMyCore_routes (s : State) (f : Core → Core) : (s.upMyCore f).routes = s.routes := rfl
@[simp] theorem State.upMyCore_lists (s : State) (f : Core → Core) : (s.upMyCore f).lists = s.lists := rfl
@[simp] theorem State.upMyCore_age (s : State) (f : Core → Core) : (s.upMyCore f).age = s.age := rfl
@[simp] theorem State.upMyCore_bar0 (s : State) (f : Core → Core) : (s.upMyCore f).bar0 = s.bar0 := rfl
@[simp] theorem State.upMyCore_mboxAt (s : State) (f : Core → Core) : (s.upMyCore f).mboxAt = s.mboxAt := rfl
@[simp] theorem State.upMyCore_reply (s : State) (f : Core → Core) : (s.upMyCore f).reply = s.reply := rfl
@[simp] theorem State.upMyCore_msix (s : State) (f : Core → Core) : (s.upMyCore f).msix = s.msix := rfl
@[simp] theorem State.upMyCore_hostq (s : State) (f : Core → Core) : (s.upMyCore f).hostq = s.hostq := rfl
@[simp] theorem State.upMyCore_invals (s : State) (f : Core → Core) : (s.upMyCore f).invals = s.invals := rfl
@[simp] theorem State.upMyCore_watches (s : State) (f : Core → Core) : (s.upMyCore f).watches = s.watches := rfl
@[simp] theorem State.upMyCore_xfers (s : State) (f : Core → Core) : (s.upMyCore f).xfers = s.xfers := rfl
@[simp] theorem State.upMyCore_images (s : State) (f : Core → Core) : (s.upMyCore f).images = s.images := rfl
@[simp] theorem State.upMyCore_snoops (s : State) (f : Core → Core) : (s.upMyCore f).snoops = s.snoops := rfl
@[simp] theorem State.upMyCore_hostw (s : State) (f : Core → Core) : (s.upMyCore f).hostw = s.hostw := rfl
@[simp] theorem State.upMyCore_nextTask (s : State) (f : Core → Core) : (s.upMyCore f).nextTask = s.nextTask := rfl
@[simp] theorem State.upMyCore_nextOp (s : State) (f : Core → Core) : (s.upMyCore f).nextOp = s.nextOp := rfl
@[simp] theorem State.upMyCore_free (s : State) (f : Core → Core) : (s.upMyCore f).free = s.free := rfl
@[simp] theorem State.upMyCore_cur (s : State) (f : Core → Core) : (s.upMyCore f).cur = s.cur := rfl
@[simp] theorem State.upMyCore_late (s : State) (f : Core → Core) : (s.upMyCore f).late = s.late := rfl
@[simp] theorem State.upMyCore_agenda (s : State) (f : Core → Core) : (s.upMyCore f).agenda = s.agenda := rfl
@[simp] theorem State.upMyCore_tick (s : State) (f : Core → Core) : (s.upMyCore f).tick = s.tick := rfl

@[simp] theorem State.setDie_cores (s : State) (d : Fin 4) (x : Die) : (s.setDie d x).cores = s.cores := rfl
@[simp] theorem State.setDie_bds (s : State) (d : Fin 4) (x : Die) : (s.setDie d x).bds = s.bds := rfl
@[simp] theorem State.setDie_mem (s : State) (d : Fin 4) (x : Die) : (s.setDie d x).mem = s.mem := rfl
@[simp] theorem State.setDie_pflip (s : State) (d : Fin 4) (x : Die) : (s.setDie d x).pflip = s.pflip := rfl
@[simp] theorem State.setDie_l2own (s : State) (d : Fin 4) (x : Die) : (s.setDie d x).l2own = s.l2own := rfl
@[simp] theorem State.setDie_sys (s : State) (d : Fin 4) (x : Die) : (s.setDie d x).sys = s.sys := rfl
@[simp] theorem State.setDie_sysset (s : State) (d : Fin 4) (x : Die) : (s.setDie d x).sysset = s.sysset := rfl
@[simp] theorem State.setDie_rcbs (s : State) (d : Fin 4) (x : Die) : (s.setDie d x).rcbs = s.rcbs := rfl
@[simp] theorem State.setDie_featack (s : State) (d : Fin 4) (x : Die) : (s.setDie d x).featack = s.featack := rfl
@[simp] theorem State.setDie_featlock (s : State) (d : Fin 4) (x : Die) : (s.setDie d x).featlock = s.featlock := rfl
@[simp] theorem State.setDie_tasks (s : State) (d : Fin 4) (x : Die) : (s.setDie d x).tasks = s.tasks := rfl
@[simp] theorem State.setDie_bypass (s : State) (d : Fin 4) (x : Die) : (s.setDie d x).bypass = s.bypass := rfl
@[simp] theorem State.setDie_chips (s : State) (d : Fin 4) (x : Die) : (s.setDie d x).chips = s.chips := rfl
@[simp] theorem State.setDie_lcs (s : State) (d : Fin 4) (x : Die) : (s.setDie d x).lcs = s.lcs := rfl
@[simp] theorem State.setDie_sessions (s : State) (d : Fin 4) (x : Die) : (s.setDie d x).sessions = s.sessions := rfl
@[simp] theorem State.setDie_reports (s : State) (d : Fin 4) (x : Die) : (s.setDie d x).reports = s.reports := rfl
@[simp] theorem State.setDie_booted (s : State) (d : Fin 4) (x : Die) : (s.setDie d x).booted = s.booted := rfl
@[simp] theorem State.setDie_iod1 (s : State) (d : Fin 4) (x : Die) : (s.setDie d x).iod1 = s.iod1 := rfl
@[simp] theorem State.setDie_wiped (s : State) (d : Fin 4) (x : Die) : (s.setDie d x).wiped = s.wiped := rfl
@[simp] theorem State.setDie_powered (s : State) (d : Fin 4) (x : Die) : (s.setDie d x).powered = s.powered := rfl
@[simp] theorem State.setDie_links (s : State) (d : Fin 4) (x : Die) : (s.setDie d x).links = s.links := rfl
@[simp] theorem State.setDie_chan (s : State) (d : Fin 4) (x : Die) : (s.setDie d x).chan = s.chan := rfl
@[simp] theorem State.setDie_hostup (s : State) (d : Fin 4) (x : Die) : (s.setDie d x).hostup = s.hostup := rfl
@[simp] theorem State.setDie_ports (s : State) (d : Fin 4) (x : Die) : (s.setDie d x).ports = s.ports := rfl
@[simp] theorem State.setDie_assocs (s : State) (d : Fin 4) (x : Die) : (s.setDie d x).assocs = s.assocs := rfl
@[simp] theorem State.setDie_routes (s : State) (d : Fin 4) (x : Die) : (s.setDie d x).routes = s.routes := rfl
@[simp] theorem State.setDie_lists (s : State) (d : Fin 4) (x : Die) : (s.setDie d x).lists = s.lists := rfl
@[simp] theorem State.setDie_age (s : State) (d : Fin 4) (x : Die) : (s.setDie d x).age = s.age := rfl
@[simp] theorem State.setDie_bar0 (s : State) (d : Fin 4) (x : Die) : (s.setDie d x).bar0 = s.bar0 := rfl
@[simp] theorem State.setDie_mboxAt (s : State) (d : Fin 4) (x : Die) : (s.setDie d x).mboxAt = s.mboxAt := rfl
@[simp] theorem State.setDie_reply (s : State) (d : Fin 4) (x : Die) : (s.setDie d x).reply = s.reply := rfl
@[simp] theorem State.setDie_msix (s : State) (d : Fin 4) (x : Die) : (s.setDie d x).msix = s.msix := rfl
@[simp] theorem State.setDie_hostq (s : State) (d : Fin 4) (x : Die) : (s.setDie d x).hostq = s.hostq := rfl
@[simp] theorem State.setDie_invals (s : State) (d : Fin 4) (x : Die) : (s.setDie d x).invals = s.invals := rfl
@[simp] theorem State.setDie_watches (s : State) (d : Fin 4) (x : Die) : (s.setDie d x).watches = s.watches := rfl
@[simp] theorem State.setDie_xfers (s : State) (d : Fin 4) (x : Die) : (s.setDie d x).xfers = s.xfers := rfl
@[simp] theorem State.setDie_images (s : State) (d : Fin 4) (x : Die) : (s.setDie d x).images = s.images := rfl
@[simp] theorem State.setDie_snoops (s : State) (d : Fin 4) (x : Die) : (s.setDie d x).snoops = s.snoops := rfl
@[simp] theorem State.setDie_hostw (s : State) (d : Fin 4) (x : Die) : (s.setDie d x).hostw = s.hostw := rfl
@[simp] theorem State.setDie_nextTask (s : State) (d : Fin 4) (x : Die) : (s.setDie d x).nextTask = s.nextTask := rfl
@[simp] theorem State.setDie_nextOp (s : State) (d : Fin 4) (x : Die) : (s.setDie d x).nextOp = s.nextOp := rfl
@[simp] theorem State.setDie_free (s : State) (d : Fin 4) (x : Die) : (s.setDie d x).free = s.free := rfl
@[simp] theorem State.setDie_cur (s : State) (d : Fin 4) (x : Die) : (s.setDie d x).cur = s.cur := rfl
@[simp] theorem State.setDie_late (s : State) (d : Fin 4) (x : Die) : (s.setDie d x).late = s.late := rfl
@[simp] theorem State.setDie_agenda (s : State) (d : Fin 4) (x : Die) : (s.setDie d x).agenda = s.agenda := rfl
@[simp] theorem State.setDie_tick (s : State) (d : Fin 4) (x : Die) : (s.setDie d x).tick = s.tick := rfl

@[simp] theorem State.setBd_cores (s : State) (b : Fin 8) (x : BaseDie) : (s.setBd b x).cores = s.cores := rfl
@[simp] theorem State.setBd_dies (s : State) (b : Fin 8) (x : BaseDie) : (s.setBd b x).dies = s.dies := rfl
@[simp] theorem State.setBd_mem (s : State) (b : Fin 8) (x : BaseDie) : (s.setBd b x).mem = s.mem := rfl
@[simp] theorem State.setBd_pflip (s : State) (b : Fin 8) (x : BaseDie) : (s.setBd b x).pflip = s.pflip := rfl
@[simp] theorem State.setBd_l2own (s : State) (b : Fin 8) (x : BaseDie) : (s.setBd b x).l2own = s.l2own := rfl
@[simp] theorem State.setBd_sys (s : State) (b : Fin 8) (x : BaseDie) : (s.setBd b x).sys = s.sys := rfl
@[simp] theorem State.setBd_sysset (s : State) (b : Fin 8) (x : BaseDie) : (s.setBd b x).sysset = s.sysset := rfl
@[simp] theorem State.setBd_rcbs (s : State) (b : Fin 8) (x : BaseDie) : (s.setBd b x).rcbs = s.rcbs := rfl
@[simp] theorem State.setBd_featack (s : State) (b : Fin 8) (x : BaseDie) : (s.setBd b x).featack = s.featack := rfl
@[simp] theorem State.setBd_featlock (s : State) (b : Fin 8) (x : BaseDie) : (s.setBd b x).featlock = s.featlock := rfl
@[simp] theorem State.setBd_tasks (s : State) (b : Fin 8) (x : BaseDie) : (s.setBd b x).tasks = s.tasks := rfl
@[simp] theorem State.setBd_bypass (s : State) (b : Fin 8) (x : BaseDie) : (s.setBd b x).bypass = s.bypass := rfl
@[simp] theorem State.setBd_chips (s : State) (b : Fin 8) (x : BaseDie) : (s.setBd b x).chips = s.chips := rfl
@[simp] theorem State.setBd_lcs (s : State) (b : Fin 8) (x : BaseDie) : (s.setBd b x).lcs = s.lcs := rfl
@[simp] theorem State.setBd_sessions (s : State) (b : Fin 8) (x : BaseDie) : (s.setBd b x).sessions = s.sessions := rfl
@[simp] theorem State.setBd_reports (s : State) (b : Fin 8) (x : BaseDie) : (s.setBd b x).reports = s.reports := rfl
@[simp] theorem State.setBd_booted (s : State) (b : Fin 8) (x : BaseDie) : (s.setBd b x).booted = s.booted := rfl
@[simp] theorem State.setBd_iod1 (s : State) (b : Fin 8) (x : BaseDie) : (s.setBd b x).iod1 = s.iod1 := rfl
@[simp] theorem State.setBd_wiped (s : State) (b : Fin 8) (x : BaseDie) : (s.setBd b x).wiped = s.wiped := rfl
@[simp] theorem State.setBd_powered (s : State) (b : Fin 8) (x : BaseDie) : (s.setBd b x).powered = s.powered := rfl
@[simp] theorem State.setBd_links (s : State) (b : Fin 8) (x : BaseDie) : (s.setBd b x).links = s.links := rfl
@[simp] theorem State.setBd_chan (s : State) (b : Fin 8) (x : BaseDie) : (s.setBd b x).chan = s.chan := rfl
@[simp] theorem State.setBd_hostup (s : State) (b : Fin 8) (x : BaseDie) : (s.setBd b x).hostup = s.hostup := rfl
@[simp] theorem State.setBd_ports (s : State) (b : Fin 8) (x : BaseDie) : (s.setBd b x).ports = s.ports := rfl
@[simp] theorem State.setBd_assocs (s : State) (b : Fin 8) (x : BaseDie) : (s.setBd b x).assocs = s.assocs := rfl
@[simp] theorem State.setBd_routes (s : State) (b : Fin 8) (x : BaseDie) : (s.setBd b x).routes = s.routes := rfl
@[simp] theorem State.setBd_lists (s : State) (b : Fin 8) (x : BaseDie) : (s.setBd b x).lists = s.lists := rfl
@[simp] theorem State.setBd_age (s : State) (b : Fin 8) (x : BaseDie) : (s.setBd b x).age = s.age := rfl
@[simp] theorem State.setBd_bar0 (s : State) (b : Fin 8) (x : BaseDie) : (s.setBd b x).bar0 = s.bar0 := rfl
@[simp] theorem State.setBd_mboxAt (s : State) (b : Fin 8) (x : BaseDie) : (s.setBd b x).mboxAt = s.mboxAt := rfl
@[simp] theorem State.setBd_reply (s : State) (b : Fin 8) (x : BaseDie) : (s.setBd b x).reply = s.reply := rfl
@[simp] theorem State.setBd_msix (s : State) (b : Fin 8) (x : BaseDie) : (s.setBd b x).msix = s.msix := rfl
@[simp] theorem State.setBd_hostq (s : State) (b : Fin 8) (x : BaseDie) : (s.setBd b x).hostq = s.hostq := rfl
@[simp] theorem State.setBd_invals (s : State) (b : Fin 8) (x : BaseDie) : (s.setBd b x).invals = s.invals := rfl
@[simp] theorem State.setBd_watches (s : State) (b : Fin 8) (x : BaseDie) : (s.setBd b x).watches = s.watches := rfl
@[simp] theorem State.setBd_xfers (s : State) (b : Fin 8) (x : BaseDie) : (s.setBd b x).xfers = s.xfers := rfl
@[simp] theorem State.setBd_images (s : State) (b : Fin 8) (x : BaseDie) : (s.setBd b x).images = s.images := rfl
@[simp] theorem State.setBd_snoops (s : State) (b : Fin 8) (x : BaseDie) : (s.setBd b x).snoops = s.snoops := rfl
@[simp] theorem State.setBd_hostw (s : State) (b : Fin 8) (x : BaseDie) : (s.setBd b x).hostw = s.hostw := rfl
@[simp] theorem State.setBd_nextTask (s : State) (b : Fin 8) (x : BaseDie) : (s.setBd b x).nextTask = s.nextTask := rfl
@[simp] theorem State.setBd_nextOp (s : State) (b : Fin 8) (x : BaseDie) : (s.setBd b x).nextOp = s.nextOp := rfl
@[simp] theorem State.setBd_free (s : State) (b : Fin 8) (x : BaseDie) : (s.setBd b x).free = s.free := rfl
@[simp] theorem State.setBd_cur (s : State) (b : Fin 8) (x : BaseDie) : (s.setBd b x).cur = s.cur := rfl
@[simp] theorem State.setBd_late (s : State) (b : Fin 8) (x : BaseDie) : (s.setBd b x).late = s.late := rfl
@[simp] theorem State.setBd_agenda (s : State) (b : Fin 8) (x : BaseDie) : (s.setBd b x).agenda = s.agenda := rfl
@[simp] theorem State.setBd_tick (s : State) (b : Fin 8) (x : BaseDie) : (s.setBd b x).tick = s.tick := rfl

/-! ## Fields of a core -/

@[simp] theorem Core.setThr_bndv (k : Core) (r : Role) (t : Thread) : (k.setThr r t).bndv = k.bndv := rfl
@[simp] theorem Core.setThr_bnds (k : Core) (r : Role) (t : Thread) : (k.setThr r t).bnds = k.bnds := rfl
@[simp] theorem Core.setThr_bndc (k : Core) (r : Role) (t : Thread) : (k.setThr r t).bndc = k.bndc := rfl
@[simp] theorem Core.setThr_l1gen (k : Core) (r : Role) (t : Thread) : (k.setThr r t).l1gen = k.l1gen := rfl
@[simp] theorem Core.setThr_l1 (k : Core) (r : Role) (t : Thread) : (k.setThr r t).l1 = k.l1 := rfl
@[simp] theorem Core.setThr_l1clear (k : Core) (r : Role) (t : Thread) : (k.setThr r t).l1clear = k.l1clear := rfl
@[simp] theorem Core.setThr_teamix (k : Core) (r : Role) (t : Thread) : (k.setThr r t).teamix = k.teamix := rfl
@[simp] theorem Core.setThr_teamsz (k : Core) (r : Role) (t : Thread) : (k.setThr r t).teamsz = k.teamsz := rfl
@[simp] theorem Core.setThr_ctx (k : Core) (r : Role) (t : Thread) : (k.setThr r t).ctx = k.ctx := rfl
@[simp] theorem Core.setThr_taskid (k : Core) (r : Role) (t : Thread) : (k.setThr r t).taskid = k.taskid := rfl
@[simp] theorem Core.setThr_view (k : Core) (r : Role) (t : Thread) : (k.setThr r t).view = k.view := rfl
@[simp] theorem Core.setThr_trapc (k : Core) (r : Role) (t : Thread) : (k.setThr r t).trapc = k.trapc := rfl
@[simp] theorem Core.setThr_trapa (k : Core) (r : Role) (t : Thread) : (k.setThr r t).trapa = k.trapa := rfl
@[simp] theorem Core.setThr_trappc (k : Core) (r : Role) (t : Thread) : (k.setThr r t).trappc = k.trappc := rfl
@[simp] theorem Core.setThr_trapw (k : Core) (r : Role) (t : Thread) : (k.setThr r t).trapw = k.trapw := rfl
@[simp] theorem Core.setThr_served (k : Core) (r : Role) (t : Thread) : (k.setThr r t).served = k.served := rfl
@[simp] theorem Core.setThr_tpcw (k : Core) (r : Role) (t : Thread) : (k.setThr r t).tpcw = k.tpcw := rfl
@[simp] theorem Core.setThr_pool (k : Core) (r : Role) (t : Thread) : (k.setThr r t).pool = k.pool := rfl
@[simp] theorem Core.setThr_ppoison (k : Core) (r : Role) (t : Thread) : (k.setThr r t).ppoison = k.ppoison := rfl
@[simp] theorem Core.setThr_preds (k : Core) (r : Role) (t : Thread) : (k.setThr r t).preds = k.preds := rfl
@[simp] theorem Core.setThr_vq (k : Core) (r : Role) (t : Thread) : (k.setThr r t).vq = k.vq := rfl
@[simp] theorem Core.setThr_mx (k : Core) (r : Role) (t : Thread) : (k.setThr r t).mx = k.mx := rfl
@[simp] theorem Core.setThr_col (k : Core) (r : Role) (t : Thread) : (k.setThr r t).col = k.col := rfl
@[simp] theorem Core.setThr_filled (k : Core) (r : Role) (t : Thread) : (k.setThr r t).filled = k.filled := rfl
@[simp] theorem Core.setThr_cpoison (k : Core) (r : Role) (t : Thread) : (k.setThr r t).cpoison = k.cpoison := rfl
@[simp] theorem Core.setThr_locks (k : Core) (r : Role) (t : Thread) : (k.setThr r t).locks = k.locks := rfl
@[simp] theorem Core.setThr_slots (k : Core) (r : Role) (t : Thread) : (k.setThr r t).slots = k.slots := rfl
@[simp] theorem Core.setThr_cq (k : Core) (r : Role) (t : Thread) : (k.setThr r t).cq = k.cq := rfl
@[simp] theorem Core.setThr_chcnt (k : Core) (r : Role) (t : Thread) : (k.setThr r t).chcnt = k.chcnt := rfl
@[simp] theorem Core.setThr_chans (k : Core) (r : Role) (t : Thread) : (k.setThr r t).chans = k.chans := rfl
@[simp] theorem Core.setThr_ovr (k : Core) (r : Role) (t : Thread) : (k.setThr r t).ovr = k.ovr := rfl
@[simp] theorem Core.setThr_semq (k : Core) (r : Role) (t : Thread) : (k.setThr r t).semq = k.semq := rfl
@[simp] theorem Core.setThr_posts (k : Core) (r : Role) (t : Thread) : (k.setThr r t).posts = k.posts := rfl
@[simp] theorem Core.setThr_hcache (k : Core) (r : Role) (t : Thread) : (k.setThr r t).hcache = k.hcache := rfl
@[simp] theorem Core.setThr_fwq (k : Core) (r : Role) (t : Thread) : (k.setThr r t).fwq = k.fwq := rfl
@[simp] theorem Core.setThr_fwcache (k : Core) (r : Role) (t : Thread) : (k.setThr r t).fwcache = k.fwcache := rfl
@[simp] theorem Core.setThr_fwwant (k : Core) (r : Role) (t : Thread) : (k.setThr r t).fwwant = k.fwwant := rfl
@[simp] theorem Core.setThr_sq (k : Core) (r : Role) (t : Thread) : (k.setThr r t).sq = k.sq := rfl
@[simp] theorem Core.setThr_recs (k : Core) (r : Role) (t : Thread) : (k.setThr r t).recs = k.recs := rfl
@[simp] theorem Core.setThr_reqs (k : Core) (r : Role) (t : Thread) : (k.setThr r t).reqs = k.reqs := rfl
@[simp] theorem Core.setThr_reqwait (k : Core) (r : Role) (t : Thread) : (k.setThr r t).reqwait = k.reqwait := rfl
@[simp] theorem Core.setThr_ptlb (k : Core) (r : Role) (t : Thread) : (k.setThr r t).ptlb = k.ptlb := rfl
@[simp] theorem Core.setThr_ctlb (k : Core) (r : Role) (t : Thread) : (k.setThr r t).ctlb = k.ctlb := rfl
@[simp] theorem Core.setThr_walks (k : Core) (r : Role) (t : Thread) : (k.setThr r t).walks = k.walks := rfl
@[simp] theorem Core.setThr_walkwait (k : Core) (r : Role) (t : Thread) : (k.setThr r t).walkwait = k.walkwait := rfl

/-! ## Fields of a thread -/

@[simp] theorem Thread.put_fpcr (t : Thread) (i : Fin 32) (v : Word) : (t.put i v).fpcr = t.fpcr := by unfold Thread.put; split <;> rfl
@[simp] theorem Thread.put_rngseed (t : Thread) (i : Fin 32) (v : Word) : (t.put i v).rngseed = t.rngseed := by unfold Thread.put; split <;> rfl
@[simp] theorem Thread.put_rngctr (t : Thread) (i : Fin 32) (v : Word) : (t.put i v).rngctr = t.rngctr := by unfold Thread.put; split <;> rfl
@[simp] theorem Thread.put_hdr (t : Thread) (i : Fin 32) (v : Word) : (t.put i v).hdr = t.hdr := by unfold Thread.put; split <;> rfl
@[simp] theorem Thread.put_blk (t : Thread) (i : Fin 32) (v : Word) : (t.put i v).blk = t.blk := by unfold Thread.put; split <;> rfl
@[simp] theorem Thread.put_reps (t : Thread) (i : Fin 32) (v : Word) : (t.put i v).reps = t.reps := by unfold Thread.put; split <;> rfl
@[simp] theorem Thread.put_wpos (t : Thread) (i : Fin 32) (v : Word) : (t.put i v).wpos = t.wpos := by unfold Thread.put; split <;> rfl
@[simp] theorem Thread.put_fetch (t : Thread) (i : Fin 32) (v : Word) : (t.put i v).fetch = t.fetch := by unfold Thread.put; split <;> rfl
@[simp] theorem Thread.put_trap (t : Thread) (i : Fin 32) (v : Word) : (t.put i v).trap = t.trap := by unfold Thread.put; split <;> rfl
@[simp] theorem Thread.put_status (t : Thread) (i : Fin 32) (v : Word) : (t.put i v).status = t.status := by unfold Thread.put; split <;> rfl
@[simp] theorem Thread.put_why (t : Thread) (i : Fin 32) (v : Word) : (t.put i v).why = t.why := by unfold Thread.put; split <;> rfl
@[simp] theorem Thread.put_obj (t : Thread) (i : Fin 32) (v : Word) : (t.put i v).obj = t.obj := by unfold Thread.put; split <;> rfl
@[simp] theorem Thread.put_wcode (t : Thread) (i : Fin 32) (v : Word) : (t.put i v).wcode = t.wcode := by unfold Thread.put; split <;> rfl
@[simp] theorem Thread.put_scnt (t : Thread) (i : Fin 32) (v : Word) : (t.put i v).scnt = t.scnt := by unfold Thread.put; split <;> rfl
@[simp] theorem Thread.put_stage (t : Thread) (i : Fin 32) (v : Word) : (t.put i v).stage = t.stage := by unfold Thread.put; split <;> rfl
@[simp] theorem Thread.put_xwalk (t : Thread) (i : Fin 32) (v : Word) : (t.put i v).xwalk = t.xwalk := by unfold Thread.put; split <;> rfl
@[simp] theorem Thread.put_stores (t : Thread) (i : Fin 32) (v : Word) : (t.put i v).stores = t.stores := by unfold Thread.put; split <;> rfl
@[simp] theorem Thread.put_relUpto (t : Thread) (i : Fin 32) (v : Word) : (t.put i v).relUpto = t.relUpto := by unfold Thread.put; split <;> rfl
@[simp] theorem Thread.put_relMark (t : Thread) (i : Fin 32) (v : Word) : (t.put i v).relMark = t.relMark := by unfold Thread.put; split <;> rfl
@[simp] theorem Thread.put_issued (t : Thread) (i : Fin 32) (v : Word) : (t.put i v).issued = t.issued := by unfold Thread.put; split <;> rfl
@[simp] theorem Thread.put_ahead (t : Thread) (i : Fin 32) (v : Word) : (t.put i v).ahead = t.ahead := by unfold Thread.put; split <;> rfl
@[simp] theorem Thread.put_sysAcq (t : Thread) (i : Fin 32) (v : Word) : (t.put i v).sysAcq = t.sysAcq := by unfold Thread.put; split <;> rfl
@[simp] theorem Thread.owe_g (t : Thread) (i : Fin 32) (n : Nat) : (t.owe i n).g = t.g := by unfold Thread.owe; split <;> rfl
@[simp] theorem Thread.owe_fpcr (t : Thread) (i : Fin 32) (n : Nat) : (t.owe i n).fpcr = t.fpcr := by unfold Thread.owe; split <;> rfl
@[simp] theorem Thread.owe_rngseed (t : Thread) (i : Fin 32) (n : Nat) : (t.owe i n).rngseed = t.rngseed := by unfold Thread.owe; split <;> rfl
@[simp] theorem Thread.owe_rngctr (t : Thread) (i : Fin 32) (n : Nat) : (t.owe i n).rngctr = t.rngctr := by unfold Thread.owe; split <;> rfl
@[simp] theorem Thread.owe_hdr (t : Thread) (i : Fin 32) (n : Nat) : (t.owe i n).hdr = t.hdr := by unfold Thread.owe; split <;> rfl
@[simp] theorem Thread.owe_blk (t : Thread) (i : Fin 32) (n : Nat) : (t.owe i n).blk = t.blk := by unfold Thread.owe; split <;> rfl
@[simp] theorem Thread.owe_reps (t : Thread) (i : Fin 32) (n : Nat) : (t.owe i n).reps = t.reps := by unfold Thread.owe; split <;> rfl
@[simp] theorem Thread.owe_wpos (t : Thread) (i : Fin 32) (n : Nat) : (t.owe i n).wpos = t.wpos := by unfold Thread.owe; split <;> rfl
@[simp] theorem Thread.owe_fetch (t : Thread) (i : Fin 32) (n : Nat) : (t.owe i n).fetch = t.fetch := by unfold Thread.owe; split <;> rfl
@[simp] theorem Thread.owe_trap (t : Thread) (i : Fin 32) (n : Nat) : (t.owe i n).trap = t.trap := by unfold Thread.owe; split <;> rfl
@[simp] theorem Thread.owe_status (t : Thread) (i : Fin 32) (n : Nat) : (t.owe i n).status = t.status := by unfold Thread.owe; split <;> rfl
@[simp] theorem Thread.owe_why (t : Thread) (i : Fin 32) (n : Nat) : (t.owe i n).why = t.why := by unfold Thread.owe; split <;> rfl
@[simp] theorem Thread.owe_obj (t : Thread) (i : Fin 32) (n : Nat) : (t.owe i n).obj = t.obj := by unfold Thread.owe; split <;> rfl
@[simp] theorem Thread.owe_wcode (t : Thread) (i : Fin 32) (n : Nat) : (t.owe i n).wcode = t.wcode := by unfold Thread.owe; split <;> rfl
@[simp] theorem Thread.owe_scnt (t : Thread) (i : Fin 32) (n : Nat) : (t.owe i n).scnt = t.scnt := by unfold Thread.owe; split <;> rfl
@[simp] theorem Thread.owe_stage (t : Thread) (i : Fin 32) (n : Nat) : (t.owe i n).stage = t.stage := by unfold Thread.owe; split <;> rfl
@[simp] theorem Thread.owe_xwalk (t : Thread) (i : Fin 32) (n : Nat) : (t.owe i n).xwalk = t.xwalk := by unfold Thread.owe; split <;> rfl
@[simp] theorem Thread.owe_stores (t : Thread) (i : Fin 32) (n : Nat) : (t.owe i n).stores = t.stores := by unfold Thread.owe; split <;> rfl
@[simp] theorem Thread.owe_relUpto (t : Thread) (i : Fin 32) (n : Nat) : (t.owe i n).relUpto = t.relUpto := by unfold Thread.owe; split <;> rfl
@[simp] theorem Thread.owe_relMark (t : Thread) (i : Fin 32) (n : Nat) : (t.owe i n).relMark = t.relMark := by unfold Thread.owe; split <;> rfl
@[simp] theorem Thread.owe_issued (t : Thread) (i : Fin 32) (n : Nat) : (t.owe i n).issued = t.issued := by unfold Thread.owe; split <;> rfl
@[simp] theorem Thread.owe_ahead (t : Thread) (i : Fin 32) (n : Nat) : (t.owe i n).ahead = t.ahead := by unfold Thread.owe; split <;> rfl
@[simp] theorem Thread.owe_sysAcq (t : Thread) (i : Fin 32) (n : Nat) : (t.owe i n).sysAcq = t.sysAcq := by unfold Thread.owe; split <;> rfl
@[simp] theorem Thread.advance_g (t : Thread) (n : Nat) : (t.advance n).g = t.g := by unfold Thread.advance; cases t.blk <;> simp only <;> split <;> (try split) <;> rfl
@[simp] theorem Thread.advance_own (t : Thread) (n : Nat) : (t.advance n).own = t.own := by unfold Thread.advance; cases t.blk <;> simp only <;> split <;> (try split) <;> rfl
@[simp] theorem Thread.advance_fpcr (t : Thread) (n : Nat) : (t.advance n).fpcr = t.fpcr := by unfold Thread.advance; cases t.blk <;> simp only <;> split <;> (try split) <;> rfl
@[simp] theorem Thread.advance_rngseed (t : Thread) (n : Nat) : (t.advance n).rngseed = t.rngseed := by unfold Thread.advance; cases t.blk <;> simp only <;> split <;> (try split) <;> rfl
@[simp] theorem Thread.advance_rngctr (t : Thread) (n : Nat) : (t.advance n).rngctr = t.rngctr := by unfold Thread.advance; cases t.blk <;> simp only <;> split <;> (try split) <;> rfl
@[simp] theorem Thread.advance_hdr (t : Thread) (n : Nat) : (t.advance n).hdr = t.hdr := by unfold Thread.advance; cases t.blk <;> simp only <;> split <;> (try split) <;> rfl
@[simp] theorem Thread.advance_blk (t : Thread) (n : Nat) : (t.advance n).blk = t.blk := by unfold Thread.advance; cases t.blk <;> simp only <;> split <;> (try split) <;> rfl
@[simp] theorem Thread.advance_trap (t : Thread) (n : Nat) : (t.advance n).trap = t.trap := by unfold Thread.advance; cases t.blk <;> simp only <;> split <;> (try split) <;> rfl
@[simp] theorem Thread.advance_status (t : Thread) (n : Nat) : (t.advance n).status = t.status := by unfold Thread.advance; cases t.blk <;> simp only <;> split <;> (try split) <;> rfl
@[simp] theorem Thread.advance_why (t : Thread) (n : Nat) : (t.advance n).why = t.why := by unfold Thread.advance; cases t.blk <;> simp only <;> split <;> (try split) <;> rfl
@[simp] theorem Thread.advance_obj (t : Thread) (n : Nat) : (t.advance n).obj = t.obj := by unfold Thread.advance; cases t.blk <;> simp only <;> split <;> (try split) <;> rfl
@[simp] theorem Thread.advance_wcode (t : Thread) (n : Nat) : (t.advance n).wcode = t.wcode := by unfold Thread.advance; cases t.blk <;> simp only <;> split <;> (try split) <;> rfl
@[simp] theorem Thread.advance_scnt (t : Thread) (n : Nat) : (t.advance n).scnt = t.scnt := by unfold Thread.advance; cases t.blk <;> simp only <;> split <;> (try split) <;> rfl
@[simp] theorem Thread.advance_stage (t : Thread) (n : Nat) : (t.advance n).stage = t.stage := by unfold Thread.advance; cases t.blk <;> simp only <;> split <;> (try split) <;> rfl
@[simp] theorem Thread.advance_xwalk (t : Thread) (n : Nat) : (t.advance n).xwalk = t.xwalk := by unfold Thread.advance; cases t.blk <;> simp only <;> split <;> (try split) <;> rfl
@[simp] theorem Thread.advance_stores (t : Thread) (n : Nat) : (t.advance n).stores = t.stores := by unfold Thread.advance; cases t.blk <;> simp only <;> split <;> (try split) <;> rfl
@[simp] theorem Thread.advance_relUpto (t : Thread) (n : Nat) : (t.advance n).relUpto = t.relUpto := by unfold Thread.advance; cases t.blk <;> simp only <;> split <;> (try split) <;> rfl
@[simp] theorem Thread.advance_relMark (t : Thread) (n : Nat) : (t.advance n).relMark = t.relMark := by unfold Thread.advance; cases t.blk <;> simp only <;> split <;> (try split) <;> rfl
@[simp] theorem Thread.advance_issued (t : Thread) (n : Nat) : (t.advance n).issued = t.issued := by unfold Thread.advance; cases t.blk <;> simp only <;> split <;> (try split) <;> rfl
@[simp] theorem Thread.advance_ahead (t : Thread) (n : Nat) : (t.advance n).ahead = t.ahead := by unfold Thread.advance; cases t.blk <;> simp only <;> split <;> (try split) <;> rfl
@[simp] theorem Thread.advance_sysAcq (t : Thread) (n : Nat) : (t.advance n).sysAcq = t.sysAcq := by unfold Thread.advance; cases t.blk <;> simp only <;> split <;> (try split) <;> rfl
@[simp] theorem Thread.clearWait_g (t : Thread) : t.clearWait.g = t.g := rfl
@[simp] theorem Thread.clearWait_own (t : Thread) : t.clearWait.own = t.own := rfl
@[simp] theorem Thread.clearWait_fpcr (t : Thread) : t.clearWait.fpcr = t.fpcr := rfl
@[simp] theorem Thread.clearWait_rngseed (t : Thread) : t.clearWait.rngseed = t.rngseed := rfl
@[simp] theorem Thread.clearWait_rngctr (t : Thread) : t.clearWait.rngctr = t.rngctr := rfl
@[simp] theorem Thread.clearWait_hdr (t : Thread) : t.clearWait.hdr = t.hdr := rfl
@[simp] theorem Thread.clearWait_blk (t : Thread) : t.clearWait.blk = t.blk := rfl
@[simp] theorem Thread.clearWait_reps (t : Thread) : t.clearWait.reps = t.reps := rfl
@[simp] theorem Thread.clearWait_wpos (t : Thread) : t.clearWait.wpos = t.wpos := rfl
@[simp] theorem Thread.clearWait_fetch (t : Thread) : t.clearWait.fetch = t.fetch := rfl
@[simp] theorem Thread.clearWait_trap (t : Thread) : t.clearWait.trap = t.trap := rfl
@[simp] theorem Thread.clearWait_status (t : Thread) : t.clearWait.status = t.status := rfl
@[simp] theorem Thread.clearWait_wcode (t : Thread) : t.clearWait.wcode = t.wcode := rfl
@[simp] theorem Thread.clearWait_scnt (t : Thread) : t.clearWait.scnt = t.scnt := rfl
@[simp] theorem Thread.clearWait_stores (t : Thread) : t.clearWait.stores = t.stores := rfl
@[simp] theorem Thread.clearWait_relUpto (t : Thread) : t.clearWait.relUpto = t.relUpto := rfl
@[simp] theorem Thread.clearWait_relMark (t : Thread) : t.clearWait.relMark = t.relMark := rfl
@[simp] theorem Thread.clearWait_issued (t : Thread) : t.clearWait.issued = t.issued := rfl
@[simp] theorem Thread.clearWait_ahead (t : Thread) : t.clearWait.ahead = t.ahead := rfl
@[simp] theorem Thread.clearWait_sysAcq (t : Thread) : t.clearWait.sysAcq = t.sysAcq := rfl
@[simp] theorem Thread.retire_g (t : Thread) (n : Nat) : (t.retire n).g = t.g := by simp [Thread.retire]
@[simp] theorem Thread.retire_own (t : Thread) (n : Nat) : (t.retire n).own = t.own := by simp [Thread.retire]
@[simp] theorem Thread.retire_fpcr (t : Thread) (n : Nat) : (t.retire n).fpcr = t.fpcr := by simp [Thread.retire]
@[simp] theorem Thread.retire_rngseed (t : Thread) (n : Nat) : (t.retire n).rngseed = t.rngseed := by simp [Thread.retire]
@[simp] theorem Thread.retire_rngctr (t : Thread) (n : Nat) : (t.retire n).rngctr = t.rngctr := by simp [Thread.retire]
@[simp] theorem Thread.retire_hdr (t : Thread) (n : Nat) : (t.retire n).hdr = t.hdr := by simp [Thread.retire]
@[simp] theorem Thread.retire_blk (t : Thread) (n : Nat) : (t.retire n).blk = t.blk := by simp [Thread.retire]
@[simp] theorem Thread.retire_trap (t : Thread) (n : Nat) : (t.retire n).trap = t.trap := by simp [Thread.retire]
@[simp] theorem Thread.retire_status (t : Thread) (n : Nat) : (t.retire n).status = t.status := by simp [Thread.retire]
@[simp] theorem Thread.retire_wcode (t : Thread) (n : Nat) : (t.retire n).wcode = t.wcode := by simp [Thread.retire]
@[simp] theorem Thread.retire_stores (t : Thread) (n : Nat) : (t.retire n).stores = t.stores := by simp [Thread.retire]
@[simp] theorem Thread.retire_relUpto (t : Thread) (n : Nat) : (t.retire n).relUpto = t.relUpto := by simp [Thread.retire]
@[simp] theorem Thread.retire_relMark (t : Thread) (n : Nat) : (t.retire n).relMark = t.relMark := by simp [Thread.retire]
@[simp] theorem Thread.retire_ahead (t : Thread) (n : Nat) : (t.retire n).ahead = t.ahead := by simp [Thread.retire]
@[simp] theorem Thread.retire_sysAcq (t : Thread) (n : Nat) : (t.retire n).sysAcq = t.sysAcq := by simp [Thread.retire]
@[simp] theorem Thread.transfer_g (t : Thread) (a b : Nat) (k : FetchKind) : (t.transfer a b k).g = t.g := rfl
@[simp] theorem Thread.transfer_own (t : Thread) (a b : Nat) (k : FetchKind) : (t.transfer a b k).own = t.own := rfl
@[simp] theorem Thread.transfer_fpcr (t : Thread) (a b : Nat) (k : FetchKind) : (t.transfer a b k).fpcr = t.fpcr := rfl
@[simp] theorem Thread.transfer_rngseed (t : Thread) (a b : Nat) (k : FetchKind) : (t.transfer a b k).rngseed = t.rngseed := rfl
@[simp] theorem Thread.transfer_rngctr (t : Thread) (a b : Nat) (k : FetchKind) : (t.transfer a b k).rngctr = t.rngctr := rfl
@[simp] theorem Thread.transfer_hdr (t : Thread) (a b : Nat) (k : FetchKind) : (t.transfer a b k).hdr = t.hdr := rfl
@[simp] theorem Thread.transfer_blk (t : Thread) (a b : Nat) (k : FetchKind) : (t.transfer a b k).blk = t.blk := rfl
@[simp] theorem Thread.transfer_reps (t : Thread) (a b : Nat) (k : FetchKind) : (t.transfer a b k).reps = t.reps := rfl
@[simp] theorem Thread.transfer_wpos (t : Thread) (a b : Nat) (k : FetchKind) : (t.transfer a b k).wpos = t.wpos := rfl
@[simp] theorem Thread.transfer_trap (t : Thread) (a b : Nat) (k : FetchKind) : (t.transfer a b k).trap = t.trap := rfl
@[simp] theorem Thread.transfer_status (t : Thread) (a b : Nat) (k : FetchKind) : (t.transfer a b k).status = t.status := rfl
@[simp] theorem Thread.transfer_wcode (t : Thread) (a b : Nat) (k : FetchKind) : (t.transfer a b k).wcode = t.wcode := rfl
@[simp] theorem Thread.transfer_stores (t : Thread) (a b : Nat) (k : FetchKind) : (t.transfer a b k).stores = t.stores := rfl
@[simp] theorem Thread.transfer_relUpto (t : Thread) (a b : Nat) (k : FetchKind) : (t.transfer a b k).relUpto = t.relUpto := rfl
@[simp] theorem Thread.transfer_relMark (t : Thread) (a b : Nat) (k : FetchKind) : (t.transfer a b k).relMark = t.relMark := rfl
@[simp] theorem Thread.transfer_ahead (t : Thread) (a b : Nat) (k : FetchKind) : (t.transfer a b k).ahead = none := rfl
@[simp] theorem Thread.transfer_sysAcq (t : Thread) (a b : Nat) (k : FetchKind) : (t.transfer a b k).sysAcq = t.sysAcq := rfl

@[simp] theorem Thread.retire_scnt (t : Thread) (n : Nat) : (t.retire n).scnt = t.scnt + 1 := rfl
@[simp] theorem Thread.retire_issued (t : Thread) (n : Nat) : (t.retire n).issued = t.issued + 1 := rfl
@[simp] theorem Thread.transfer_issued (t : Thread) (a b : Nat) (k : FetchKind) : (t.transfer a b k).issued = t.issued + 1 := rfl

/-! ## A part after a write of a part -/

@[simp] theorem roleOf_rix (r : Role) : roleOf (rix r) = r := by cases r <;> rfl

@[simp] theorem State.core_setCore (s : State) (c : Fin 64) (k : Core) : (s.setCore c k).core c = k := by
  simp [State.core, State.setCore]

theorem State.core_setCore_ne (s : State) {c d : Fin 64} (k : Core) (h : d ≠ c) : (s.setCore c k).core d = s.core d := by
  have h' : (c : Nat) ≠ d := fun e => h (Fin.ext e.symm)
  simp [State.core, State.setCore, h']

@[simp] theorem State.core_upCore (s : State) (c : Fin 64) (f : Core → Core) : (s.upCore c f).core c = f (s.core c) := by
  simp [State.upCore]

@[simp] theorem Core.thr_setThr (k : Core) (r : Role) (t : Thread) : (k.setThr r t).thr r = t := by
  simp [Core.thr, Core.setThr]

theorem Core.thr_setThr_ne (k : Core) {q r : Role} (t : Thread) (h : q ≠ r) : (k.setThr r t).thr q = k.thr q := by
  cases q <;> cases r <;> first | exact absurd rfl h | simp [Core.thr, Core.setThr, rix]

@[simp] theorem Core.setThr_setThr (k : Core) (r : Role) (t u : Thread) : (k.setThr r t).setThr r u = k.setThr r u := by
  simp [Core.setThr]

@[simp] theorem State.setCore_setCore (s : State) (c : Fin 64) (k l : Core) : (s.setCore c k).setCore c l = s.setCore c l := by
  simp [State.setCore]

@[simp] theorem State.thr_setThr (s : State) (c : Fin 64) (r : Role) (t : Thread) : (s.setThr c r t).thr c r = t := by
  simp [State.thr, State.setThr]

@[simp] theorem State.thr_upThr (s : State) (c : Fin 64) (r : Role) (f : Thread → Thread) :
    (s.upThr c r f).thr c r = f (s.thr c r) := by simp [State.upThr]

@[simp] theorem State.core_setThr (s : State) (c : Fin 64) (r : Role) (t : Thread) :
    (s.setThr c r t).core c = (s.core c).setThr r t := by simp [State.setThr]

@[simp] theorem State.setThr_setThr (s : State) (c : Fin 64) (r : Role) (t u : Thread) :
    (s.setThr c r t).setThr c r u = s.setThr c r u := by simp [State.setThr]

@[simp] theorem State.die_setDie (s : State) (d : Fin 4) (x : Die) : (s.setDie d x).die d = x := by simp [State.die, State.setDie]

@[simp] theorem State.bd_setBd (s : State) (b : Fin 8) (x : BaseDie) : (s.setBd b x).bd b = x := by simp [State.bd, State.setBd]

/-! ## The current thread -/

@[simp] theorem State.cc_upMe (s : State) (f : Thread → Thread) : (s.upMe f).cc = s.cc := rfl
@[simp] theorem State.cr_upMe (s : State) (f : Thread → Thread) : (s.upMe f).cr = s.cr := rfl
@[simp] theorem State.cc_upMyCore (s : State) (f : Core → Core) : (s.upMyCore f).cc = s.cc := rfl
@[simp] theorem State.cr_upMyCore (s : State) (f : Core → Core) : (s.upMyCore f).cr = s.cr := rfl

@[simp] theorem State.me_upMe (s : State) (f : Thread → Thread) : (s.upMe f).me = f s.me := by
  simp [State.me, State.upMe, State.setMe, State.cc, State.cr]

@[simp] theorem State.myCore_upMyCore (s : State) (f : Core → Core) : (s.upMyCore f).myCore = f s.myCore := by
  simp [State.myCore, State.upMyCore, State.cc]

/-- A change of the core that leaves its threads alone leaves the current thread alone. -/
theorem State.me_upMyCore (s : State) (f : Core → Core) (h : (f s.myCore).threads = s.myCore.threads) :
    (s.upMyCore f).me = s.me := by
  have e : (s.upMyCore f).me = (f s.myCore).thr s.cr := by
    simp [State.me, State.thr, State.upMyCore, State.cc, State.cr, State.myCore]
  rw [e]
  show (f s.myCore).threads[rix s.cr] = s.myCore.threads[rix s.cr]
  rw [h]

@[simp] theorem State.myCore_upMe (s : State) (f : Thread → Thread) : (s.upMe f).myCore = s.myCore.setThr s.cr (f s.me) := by
  simp [State.myCore, State.upMe, State.setMe, State.cc]

theorem State.core_upMe_ne (s : State) (f : Thread → Thread) {c : Fin 64} (h : c ≠ s.cc) : (s.upMe f).core c = s.core c :=
  State.core_setCore_ne s _ h

theorem State.core_upCore_ne (s : State) {c d : Fin 64} (f : Core → Core) (h : d ≠ c) : (s.upCore c f).core d = s.core d :=
  State.core_setCore_ne s _ h

theorem State.thr_upThr_ne (s : State) {c : Fin 64} {q r : Role} (f : Thread → Thread) (h : q ≠ r) :
    (s.upThr c r f).thr c q = s.thr c q := by
  simp only [State.upThr, State.setThr, State.thr, State.core_setCore]
  exact Core.thr_setThr_ne _ _ h

@[simp] theorem State.upMe_upMe (s : State) (f g : Thread → Thread) : (s.upMe f).upMe g = s.upMe fun t => g (f t) := by
  have h : (s.upMe f).me = f s.me := State.me_upMe s f
  simp only [State.upMe, State.setMe] at *
  show (s.setThr s.cc s.cr (f s.me)).setThr s.cc s.cr (g (s.setThr s.cc s.cr (f s.me)).me) = _
  rw [h]; simp

end Sys2Proof.Machine
end

