-- ==== Sys2Proof/Laws/Ops.lean ====
section
/-! SUPPORT. What the shared operations of the control core can do, said once each. -/
namespace Sys2Proof.Machine

/-- A word that issues runs its effect. -/
theorem State.gate_issues {s : State} {n : Need} {reads : List (Fin 32)} (h : s.Issues n reads) (go : Unit → Out) :
    s.gate n reads go = go () := by
  have hc : (s.me.safeDue s.cr && !n.safe) = false := by
    rcases h.count with h | h <;> simp [h]
  simp [State.gate, h.pass, h.ready, hc]

/-- A word that a check refuses traps with the check's cause and detail. -/
theorem State.gate_fault {s : State} {n : Need} {reads : List (Fin 32)} {c d : Nat} (h : s.gateFault n = some (c, d))
    (go : Unit → Out) : s.gate n reads go = s.trap c d := by
  simp [State.gate, h]

/-- Everything the gate can do: a trap, a wait with nothing changed, the mark of a due safe point, or the effect. -/
theorem State.gate_cases (s : State) (n : Need) (reads : List (Fin 32)) (go : Unit → Out) :
    (∃ c d, s.gateFault n = some (c, d) ∧ s.gate n reads go = s.trap c d) ∨
    (s.gateFault n = none ∧ reads.all s.me.ready = false ∧ s.gate n reads go = .next s) ∨
    (s.gateFault n = none ∧ s.me.safeDue s.cr = true ∧ n.safe = false ∧
      s.gate n reads go = .next (s.upMe fun t => { t with stage := .safe })) ∨
    (s.Issues n reads ∧ s.gate n reads go = go ()) := by
  cases hg : s.gateFault n with
  | some cd => exact .inl ⟨cd.1, cd.2, rfl, by simp [State.gate, hg]⟩
  | none =>
    cases hr : reads.all s.me.ready with
    | false => exact .inr (.inl ⟨rfl, rfl, by simp [State.gate, hg, hr, State.hold]⟩)
    | true =>
      cases hd : s.me.safeDue s.cr with
      | false =>
        have h : s.Issues n reads := ⟨hg, hr, .inl hd⟩
        exact .inr (.inr (.inr ⟨h, State.gate_issues h go⟩))
      | true =>
        cases hs : n.safe with
        | false => exact .inr (.inr (.inl ⟨rfl, rfl, rfl, by simp [State.gate, hg, hr, hd, hs]⟩))
        | true =>
          have h : s.Issues n reads := ⟨hg, hr, .inr hs⟩
          exact .inr (.inr (.inr ⟨h, State.gate_issues h go⟩))

/-- The gate answers a next state when the effect does. -/
theorem State.gate_next {s : State} {n : Need} {reads : List (Fin 32)} {go : Unit → Out} (h : ∃ t, go () = .next t) :
    ∃ t, s.gate n reads go = .next t := by
  rcases s.gate_cases n reads go with ⟨c, d, -, e⟩ | ⟨-, -, e⟩ | ⟨-, -, -, e⟩ | ⟨-, e⟩ <;> rw [e]
  · exact ⟨_, rfl⟩
  · exact ⟨_, rfl⟩
  · exact ⟨_, rfl⟩
  · exact h

theorem State.done_eq (s : State) (n : Nat) : s.done n = .next (s.upMe fun t => t.retire n) := rfl

theorem State.block_eq (s : State) (w o : Nat) : s.block w o = .next (s.upMe fun t => { t with why := w, obj := o }) := rfl

/-- g0 reads zero (R80). -/
theorem Thread.get_zero (t : Thread) : t.get 0 = 0 := rfl

theorem Thread.get_put_same (t : Thread) (i : Fin 32) (v : Word) (h : i ≠ 0) : (t.put i v).get i = v := by
  simp [Thread.get, Thread.put, h]

theorem Thread.get_put_ne (t : Thread) (i j : Fin 32) (v : Word) (h : j ≠ i) : (t.put i v).get j = t.get j := by
  have h' : (i : Nat) ≠ j := fun e => h (Fin.ext e.symm)
  unfold Thread.get Thread.put
  split
  · rfl
  · split
    · rfl
    · simp [h']

/-- A write to g0 is discarded (R80). -/
theorem Thread.put_zero (t : Thread) (v : Word) : t.put 0 v = t := rfl

end Sys2Proof.Machine
end

