-- ==== Sys2Proof/Laws/PerInstr.lean ====
section
/-! SUPPORT. A statement about every constructor of Instr, made per constructor: its word fits the size the opcode table gives. -/
namespace Sys2Proof.Laws.Fits

/-- A word of an instruction fits the size the opcode table gives it: 16 or 32 bits. -/
def Statement (i : Instr) : Prop := ∀ n w, encode i = some (n, w) → (n = 16 ∨ n = 32) ∧ w < 2 ^ n

theorem srcBits_lt (x : Src) : srcBits x < 128 := by cases x <;> simp only [srcBits] <;> omega
theorem dstBits_lt (x : Dst) : dstBits x < 64 := by cases x <;> simp only [dstBits] <;> omega
theorem guardBits_lt (x : Guard) : guardBits x < 16 := by cases x <;> simp only [guardBits] <;> omega

theorem of16 {x n w : Nat} (h : some (16, x) = some (n, w)) (hx : x < 65536) : (n = 16 ∨ n = 32) ∧ w < 2 ^ n := by
  simp only [Option.some.injEq, Prod.mk.injEq] at h
  obtain ⟨rfl, rfl⟩ := h
  exact ⟨.inl rfl, hx⟩

theorem of32 {x n w : Nat} (h : some (32, x) = some (n, w)) (hx : x < 4294967296) : (n = 16 ∨ n = 32) ∧ w < 2 ^ n := by
  simp only [Option.some.injEq, Prod.mk.injEq] at h
  obtain ⟨rfl, rfl⟩ := h
  exact ⟨.inr rfl, hx⟩

theorem vaddI32 (g : Guard) (d : Fin 64) (a : Fin 64) (b : Fin 64) : Statement (.vaddI32 g d a b) :=
  fun _ _ h => of32 h (by have := guardBits_lt g; omega)

theorem vsubI32 (g : Guard) (d : Fin 64) (a : Fin 64) (b : Fin 64) : Statement (.vsubI32 g d a b) :=
  fun _ _ h => of32 h (by have := guardBits_lt g; omega)

theorem vmulI32 (g : Guard) (d : Fin 64) (a : Fin 64) (b : Fin 64) : Statement (.vmulI32 g d a b) :=
  fun _ _ h => of32 h (by have := guardBits_lt g; omega)

theorem vmulhI32 (g : Guard) (d : Fin 64) (a : Fin 64) (b : Fin 64) : Statement (.vmulhI32 g d a b) :=
  fun _ _ h => of32 h (by have := guardBits_lt g; omega)

theorem vaddsI32 (g : Guard) (d : Fin 64) (a : Fin 64) (b : Fin 64) : Statement (.vaddsI32 g d a b) :=
  fun _ _ h => of32 h (by have := guardBits_lt g; omega)

theorem vsubsI32 (g : Guard) (d : Fin 64) (a : Fin 64) (b : Fin 64) : Statement (.vsubsI32 g d a b) :=
  fun _ _ h => of32 h (by have := guardBits_lt g; omega)

theorem vaddsN32 (g : Guard) (d : Fin 64) (a : Fin 64) (b : Fin 64) : Statement (.vaddsN32 g d a b) :=
  fun _ _ h => of32 h (by have := guardBits_lt g; omega)

theorem vsubsN32 (g : Guard) (d : Fin 64) (a : Fin 64) (b : Fin 64) : Statement (.vsubsN32 g d a b) :=
  fun _ _ h => of32 h (by have := guardBits_lt g; omega)

theorem vaddF32 (g : Guard) (d : Fin 64) (a : Fin 64) (b : Fin 64) : Statement (.vaddF32 g d a b) :=
  fun _ _ h => of32 h (by have := guardBits_lt g; omega)

theorem vsubF32 (g : Guard) (d : Fin 64) (a : Fin 64) (b : Fin 64) : Statement (.vsubF32 g d a b) :=
  fun _ _ h => of32 h (by have := guardBits_lt g; omega)

theorem vmulF32 (g : Guard) (d : Fin 64) (a : Fin 64) (b : Fin 64) : Statement (.vmulF32 g d a b) :=
  fun _ _ h => of32 h (by have := guardBits_lt g; omega)

theorem vfmaF32 (g : Guard) (d : Fin 64) (a : Fin 64) (b : Fin 64) : Statement (.vfmaF32 g d a b) :=
  fun _ _ h => of32 h (by have := guardBits_lt g; omega)

theorem vfmsF32 (g : Guard) (d : Fin 64) (a : Fin 64) (b : Fin 64) : Statement (.vfmsF32 g d a b) :=
  fun _ _ h => of32 h (by have := guardBits_lt g; omega)

theorem vminF32 (g : Guard) (d : Fin 64) (a : Fin 64) (b : Fin 64) : Statement (.vminF32 g d a b) :=
  fun _ _ h => of32 h (by have := guardBits_lt g; omega)

theorem vmaxF32 (g : Guard) (d : Fin 64) (a : Fin 64) (b : Fin 64) : Statement (.vmaxF32 g d a b) :=
  fun _ _ h => of32 h (by have := guardBits_lt g; omega)

theorem vand (g : Guard) (d : Fin 64) (a : Fin 64) : Statement (.vand g d a) :=
  fun _ _ h => of32 h (by have := guardBits_lt g; omega)

theorem vor (g : Guard) (d : Fin 64) (a : Fin 64) : Statement (.vor g d a) := fun _ _ h => of32 h (by have := guardBits_lt g; omega)

theorem vxor (g : Guard) (d : Fin 64) (a : Fin 64) : Statement (.vxor g d a) :=
  fun _ _ h => of32 h (by have := guardBits_lt g; omega)

theorem vandn (g : Guard) (d : Fin 64) (a : Fin 64) : Statement (.vandn g d a) :=
  fun _ _ h => of32 h (by have := guardBits_lt g; omega)

theorem vsll (g : Guard) (d : Fin 64) (a : Fin 64) (i : Fin 64) : Statement (.vsll g d a i) :=
  fun _ _ h => of32 h (by have := guardBits_lt g; omega)

theorem vsrl (g : Guard) (d : Fin 64) (a : Fin 64) (i : Fin 64) : Statement (.vsrl g d a i) :=
  fun _ _ h => of32 h (by have := guardBits_lt g; omega)

theorem vsra (g : Guard) (d : Fin 64) (a : Fin 64) (i : Fin 64) : Statement (.vsra g d a i) :=
  fun _ _ h => of32 h (by have := guardBits_lt g; omega)

theorem vmov (g : Guard) (d : Fin 64) (a : Fin 64) : Statement (.vmov g d a) :=
  fun _ _ h => of32 h (by have := guardBits_lt g; omega)

theorem vcmpI32 (g : Guard) (k : Fin 8) (c : Fin 8) (a : Fin 64) (b : Fin 64) : Statement (.vcmpI32 g k c a b) :=
  fun _ _ h => of32 h (by have := guardBits_lt g; omega)

theorem vcmpF32 (g : Guard) (k : Fin 8) (c : Fin 8) (a : Fin 64) (b : Fin 64) : Statement (.vcmpF32 g k c a b) :=
  fun _ _ h => of32 h (by have := guardBits_lt g; omega)

theorem vsel (g : Guard) (d : Fin 64) (a : Fin 64) (b : Fin 64) : Statement (.vsel g d a b) :=
  fun _ _ h => of32 h (by have := guardBits_lt g; omega)

theorem vminI32 (g : Guard) (d : Fin 64) (a : Fin 64) (b : Fin 64) : Statement (.vminI32 g d a b) :=
  fun _ _ h => of32 h (by have := guardBits_lt g; omega)

theorem vmaxI32 (g : Guard) (d : Fin 64) (a : Fin 64) (b : Fin 64) : Statement (.vmaxI32 g d a b) :=
  fun _ _ h => of32 h (by have := guardBits_lt g; omega)

theorem vminN32 (g : Guard) (d : Fin 64) (a : Fin 64) (b : Fin 64) : Statement (.vminN32 g d a b) :=
  fun _ _ h => of32 h (by have := guardBits_lt g; omega)

theorem vmaxN32 (g : Guard) (d : Fin 64) (a : Fin 64) (b : Fin 64) : Statement (.vmaxN32 g d a b) :=
  fun _ _ h => of32 h (by have := guardBits_lt g; omega)

theorem vrotrImm (g : Guard) (d : Fin 64) (a : Fin 64) (i : Fin 64) : Statement (.vrotrImm g d a i) :=
  fun _ _ h => of32 h (by have := guardBits_lt g; omega)

theorem vrotrReg (g : Guard) (d : Fin 64) (a : Fin 64) (s : Fin 32) : Statement (.vrotrReg g d a s) :=
  fun _ _ h => of32 h (by have := guardBits_lt g; omega)

theorem vrotcImm (g : Guard) (d : Fin 64) (a : Fin 64) (i : Fin 16) : Statement (.vrotcImm g d a i) :=
  fun _ _ h => of32 h (by have := guardBits_lt g; omega)

theorem vrotcReg (g : Guard) (d : Fin 64) (a : Fin 64) (s : Fin 32) : Statement (.vrotcReg g d a s) :=
  fun _ _ h => of32 h (by have := guardBits_lt g; omega)

theorem vbcrImm (g : Guard) (d : Fin 64) (a : Fin 64) (i : Fin 64) : Statement (.vbcrImm g d a i) :=
  fun _ _ h => of32 h (by have := guardBits_lt g; omega)

theorem vbcrReg (g : Guard) (d : Fin 64) (a : Fin 64) (s : Fin 32) : Statement (.vbcrReg g d a s) :=
  fun _ _ h => of32 h (by have := guardBits_lt g; omega)

theorem vbccImm (g : Guard) (d : Fin 64) (a : Fin 64) (i : Fin 16) : Statement (.vbccImm g d a i) :=
  fun _ _ h => of32 h (by have := guardBits_lt g; omega)

theorem vbccReg (g : Guard) (d : Fin 64) (a : Fin 64) (s : Fin 32) : Statement (.vbccReg g d a s) :=
  fun _ _ h => of32 h (by have := guardBits_lt g; omega)

theorem vrsumF32 (g : Guard) (d : Fin 64) (a : Fin 64) : Statement (.vrsumF32 g d a) :=
  fun _ _ h => of32 h (by have := guardBits_lt g; omega)

theorem vcsumF32 (g : Guard) (d : Fin 64) (a : Fin 64) : Statement (.vcsumF32 g d a) :=
  fun _ _ h => of32 h (by have := guardBits_lt g; omega)

theorem vrmaxF32 (g : Guard) (d : Fin 64) (a : Fin 64) : Statement (.vrmaxF32 g d a) :=
  fun _ _ h => of32 h (by have := guardBits_lt g; omega)

theorem vcmaxF32 (g : Guard) (d : Fin 64) (a : Fin 64) : Statement (.vcmaxF32 g d a) :=
  fun _ _ h => of32 h (by have := guardBits_lt g; omega)

theorem vrminF32 (g : Guard) (d : Fin 64) (a : Fin 64) : Statement (.vrminF32 g d a) :=
  fun _ _ h => of32 h (by have := guardBits_lt g; omega)

theorem vcminF32 (g : Guard) (d : Fin 64) (a : Fin 64) : Statement (.vcminF32 g d a) :=
  fun _ _ h => of32 h (by have := guardBits_lt g; omega)

theorem vrsumI32 (g : Guard) (d : Fin 64) (a : Fin 64) : Statement (.vrsumI32 g d a) :=
  fun _ _ h => of32 h (by have := guardBits_lt g; omega)

theorem vcsumI32 (g : Guard) (d : Fin 64) (a : Fin 64) : Statement (.vcsumI32 g d a) :=
  fun _ _ h => of32 h (by have := guardBits_lt g; omega)

theorem pand (g : Guard) (d : Fin 12) (a : Fin 12) (b : Fin 12) : Statement (.pand g d a b) :=
  fun _ _ h => of32 h (by have := guardBits_lt g; omega)

theorem por (g : Guard) (d : Fin 12) (a : Fin 12) (b : Fin 12) : Statement (.por g d a b) :=
  fun _ _ h => of32 h (by have := guardBits_lt g; omega)

theorem pxor (g : Guard) (d : Fin 12) (a : Fin 12) (b : Fin 12) : Statement (.pxor g d a b) :=
  fun _ _ h => of32 h (by have := guardBits_lt g; omega)

theorem pandn (g : Guard) (d : Fin 12) (a : Fin 12) (b : Fin 12) : Statement (.pandn g d a b) :=
  fun _ _ h => of32 h (by have := guardBits_lt g; omega)

theorem pnez (g : Guard) (d : Fin 12) (a : Fin 64) : Statement (.pnez g d a) :=
  fun _ _ h => of32 h (by have := guardBits_lt g; omega)

theorem vmovp (g : Guard) (d : Fin 64) (a : Fin 12) : Statement (.vmovp g d a) :=
  fun _ _ h => of32 h (by have := guardBits_lt g; omega)

theorem pset (g : Guard) (d : Fin 12) (i : Fin 2) : Statement (.pset g d i) :=
  fun _ _ h => of32 h (by have := guardBits_lt g; omega)

theorem pfirst (g : Guard) (d : Fin 12) (a : Fin 12) : Statement (.pfirst g d a) :=
  fun _ _ h => of32 h (by have := guardBits_lt g; omega)

theorem vlidx (g : Guard) (d : Fin 64) (s : Fin 4) : Statement (.vlidx g d s) :=
  fun _ _ h => of32 h (by have := guardBits_lt g; omega)

theorem vextN32 (d : Fin 32) (a : Fin 64) (s : Fin 32) : Statement (.vextN32 d a s) := fun _ _ h => of32 h (by omega)

theorem vextI32 (d : Fin 32) (a : Fin 64) (s : Fin 32) : Statement (.vextI32 d a s) := fun _ _ h => of32 h (by omega)

theorem vins (g : Guard) (d : Fin 64) (a : Fin 32) (s : Fin 32) : Statement (.vins g d a s) :=
  fun _ _ h => of32 h (by have := guardBits_lt g; omega)

theorem vbcg (g : Guard) (d : Fin 64) (a : Fin 32) : Statement (.vbcg g d a) :=
  fun _ _ h => of32 h (by have := guardBits_lt g; omega)

theorem vmovi (g : Guard) (d : Fin 64) (i : Fin 64) : Statement (.vmovi g d i) :=
  fun _ _ h => of32 h (by have := guardBits_lt g; omega)

theorem pcnt (d : Fin 32) (a : Fin 12) : Statement (.pcnt d a) := fun _ _ h => of32 h (by omega)

theorem pfind (d : Fin 32) (a : Fin 12) : Statement (.pfind d a) := fun _ _ h => of32 h (by omega)

theorem vcvtBf16F32 (g : Guard) (d : Fin 64) (a : Fin 64) (p : Fin 4) (s : Fin 2) (r : Fin 8) : Statement (.vcvtBf16F32 g d a p s r) :=
  fun _ _ h => of32 h (by have := guardBits_lt g; omega)

theorem vcvtF16F32 (g : Guard) (d : Fin 64) (a : Fin 64) (p : Fin 4) (s : Fin 2) (r : Fin 8) : Statement (.vcvtF16F32 g d a p s r) :=
  fun _ _ h => of32 h (by have := guardBits_lt g; omega)

theorem vcvtE4m3F32 (g : Guard) (d : Fin 64) (a : Fin 64) (p : Fin 4) (s : Fin 2) (r : Fin 8) : Statement (.vcvtE4m3F32 g d a p s r) :=
  fun _ _ h => of32 h (by have := guardBits_lt g; omega)

theorem vcvtE5m2F32 (g : Guard) (d : Fin 64) (a : Fin 64) (p : Fin 4) (s : Fin 2) (r : Fin 8) : Statement (.vcvtE5m2F32 g d a p s r) :=
  fun _ _ h => of32 h (by have := guardBits_lt g; omega)

theorem vcvtF32Bf16 (g : Guard) (d : Fin 64) (a : Fin 64) (p : Fin 4) : Statement (.vcvtF32Bf16 g d a p) :=
  fun _ _ h => of32 h (by have := guardBits_lt g; omega)

theorem vcvtF32F16 (g : Guard) (d : Fin 64) (a : Fin 64) (p : Fin 4) : Statement (.vcvtF32F16 g d a p) :=
  fun _ _ h => of32 h (by have := guardBits_lt g; omega)

theorem vcvtF32E4m3 (g : Guard) (d : Fin 64) (a : Fin 64) (p : Fin 4) : Statement (.vcvtF32E4m3 g d a p) :=
  fun _ _ h => of32 h (by have := guardBits_lt g; omega)

theorem vcvtF32E5m2 (g : Guard) (d : Fin 64) (a : Fin 64) (p : Fin 4) : Statement (.vcvtF32E5m2 g d a p) :=
  fun _ _ h => of32 h (by have := guardBits_lt g; omega)

theorem vcvtI32F32 (g : Guard) (d : Fin 64) (a : Fin 64) (r : Fin 8) : Statement (.vcvtI32F32 g d a r) :=
  fun _ _ h => of32 h (by have := guardBits_lt g; omega)

theorem vcvtN32F32 (g : Guard) (d : Fin 64) (a : Fin 64) (r : Fin 8) : Statement (.vcvtN32F32 g d a r) :=
  fun _ _ h => of32 h (by have := guardBits_lt g; omega)

theorem vcvtF32I32 (g : Guard) (d : Fin 64) (a : Fin 64) (r : Fin 8) : Statement (.vcvtF32I32 g d a r) :=
  fun _ _ h => of32 h (by have := guardBits_lt g; omega)

theorem vcvtF32N32 (g : Guard) (d : Fin 64) (a : Fin 64) (r : Fin 8) : Statement (.vcvtF32N32 g d a r) :=
  fun _ _ h => of32 h (by have := guardBits_lt g; omega)

theorem vrintF32 (g : Guard) (d : Fin 64) (a : Fin 64) (r : Fin 8) : Statement (.vrintF32 g d a r) :=
  fun _ _ h => of32 h (by have := guardBits_lt g; omega)

theorem vcvtMxF32 (d : Fin 32) (a : Fin 64) (m : Fin 4) (r : Fin 8) : Statement (.vcvtMxF32 d a m r) :=
  fun _ _ h => of32 h (by omega)

theorem vcvtF32Mx (g : Guard) (d : Fin 64) (a : Fin 32) (m : Fin 4) : Statement (.vcvtF32Mx g d a m) :=
  fun _ _ h => of32 h (by have := guardBits_lt g; omega)

theorem vexpF32 (g : Guard) (d : Fin 64) (a : Fin 64) : Statement (.vexpF32 g d a) :=
  fun _ _ h => of32 h (by have := guardBits_lt g; omega)

theorem vexp2F32 (g : Guard) (d : Fin 64) (a : Fin 64) : Statement (.vexp2F32 g d a) :=
  fun _ _ h => of32 h (by have := guardBits_lt g; omega)

theorem vlog2F32 (g : Guard) (d : Fin 64) (a : Fin 64) : Statement (.vlog2F32 g d a) :=
  fun _ _ h => of32 h (by have := guardBits_lt g; omega)

theorem vrcpF32 (g : Guard) (d : Fin 64) (a : Fin 64) : Statement (.vrcpF32 g d a) :=
  fun _ _ h => of32 h (by have := guardBits_lt g; omega)

theorem vrsqrtF32 (g : Guard) (d : Fin 64) (a : Fin 64) : Statement (.vrsqrtF32 g d a) :=
  fun _ _ h => of32 h (by have := guardBits_lt g; omega)

theorem vsqrtF32 (g : Guard) (d : Fin 64) (a : Fin 64) : Statement (.vsqrtF32 g d a) :=
  fun _ _ h => of32 h (by have := guardBits_lt g; omega)

theorem vtanhF32 (g : Guard) (d : Fin 64) (a : Fin 64) : Statement (.vtanhF32 g d a) :=
  fun _ _ h => of32 h (by have := guardBits_lt g; omega)

theorem vcmpr (g : Guard) (d : Fin 64) (a : Fin 64) (k : Fin 16) (s : Fin 4) : Statement (.vcmpr g d a k s) :=
  fun _ _ h => of32 h (by have := guardBits_lt g; omega)

theorem vtopkF32 (g : Guard) (d : Fin 32) (a : Fin 64) (k : Fin 16) (s : Fin 4) : Statement (.vtopkF32 g d a k s) :=
  fun _ _ h => of32 h (by have := guardBits_lt g; omega)

theorem vscanF32 (g : Guard) (d : Fin 64) (a : Fin 64) (e : Fin 2) (c : Fin 2) : Statement (.vscanF32 g d a e c) :=
  fun _ _ h => of32 h (by have := guardBits_lt g; omega)

theorem vscanI32 (g : Guard) (d : Fin 64) (a : Fin 64) (e : Fin 2) (c : Fin 2) : Statement (.vscanI32 g d a e c) :=
  fun _ _ h => of32 h (by have := guardBits_lt g; omega)

theorem vrandN32 (g : Guard) (d : Fin 64) (s : Fin 32) : Statement (.vrandN32 g d s) :=
  fun _ _ h => of32 h (by have := guardBits_lt g; omega)

theorem vrandF32 (g : Guard) (d : Fin 64) (s : Fin 32) : Statement (.vrandF32 g d s) :=
  fun _ _ h => of32 h (by have := guardBits_lt g; omega)

theorem vtopkI32 (g : Guard) (d : Fin 32) (a : Fin 64) (k : Fin 16) (s : Fin 4) : Statement (.vtopkI32 g d a k s) :=
  fun _ _ h => of32 h (by have := guardBits_lt g; omega)

theorem maMm (a : Fin 16) (t : Fin 64) (p : Fin 2) (k : Fin 16) (z : Fin 2) (r : Fin 2) : Statement (.maMm a t p k z r) :=
  fun _ _ h => of32 h (by omega)

theorem maCfg (a : Fin 16) (b : Fin 16) : Statement (.maCfg a b) := fun _ _ h => of32 h (by omega)

theorem maLdb (p : Fin 2) (c : Fin 2048) (g : Fin 32) : Statement (.maLdb p c g) := fun _ _ h => of32 h (by omega)

theorem maLdw (a : Fin 32) (b : Fin 32) (c : Fin 32) : Statement (.maLdw a b c) := fun _ _ h => of32 h (by omega)

theorem maZero (a : Fin 16) : Statement (.maZero a) := fun _ _ h => of32 h (by omega)

theorem maMovTv (a : Fin 16) (r : Fin 8) (c : Fin 4) (v : Fin 64) : Statement (.maMovTv a r c v) := fun _ _ h => of32 h (by omega)

theorem maMovVt (a : Fin 16) (r : Fin 8) (c : Fin 4) (v : Fin 64) : Statement (.maMovVt a r c v) := fun _ _ h => of32 h (by omega)

theorem maMovTp (a : Fin 16) (g : Fin 32) : Statement (.maMovTp a g) := fun _ _ h => of32 h (by omega)

theorem maMovSum (d : Fin 16) (s : Fin 16) (n : Fin 16) : Statement (.maMovSum d s n) := fun _ _ h => of32 h (by omega)

theorem maWait (m : Fin 65536) : Statement (.maWait m) := fun _ _ h => of32 h (by omega)

theorem maSave (a : Fin 32) : Statement (.maSave a) := fun _ _ h => of32 h (by omega)

theorem maRstr (a : Fin 32) : Statement (.maRstr a) := fun _ _ h => of32 h (by omega)

theorem cpCopy (a : Fin 32) (d : Fin 32) : Statement (.cpCopy a d) := fun _ _ h => of32 h (by omega)

theorem cpCopyTs (a : Fin 32) (d : Fin 32) : Statement (.cpCopyTs a d) := fun _ _ h => of32 h (by omega)

theorem cpCopyRc (a : Fin 32) (b : Fin 32) (d : Fin 32) : Statement (.cpCopyRc a b d) := fun _ _ h => of32 h (by omega)

theorem cpGath (a : Fin 32) (b : Fin 32) (d : Fin 32) (t : Fin 2) : Statement (.cpGath a b d t) := fun _ _ h => of32 h (by omega)

theorem cpScat (a : Fin 32) (b : Fin 32) (d : Fin 32) : Statement (.cpScat a b d) := fun _ _ h => of32 h (by omega)

theorem cpFill (a : Fin 32) (b : Fin 32) (d : Fin 32) (t : Fin 2) : Statement (.cpFill a b d t) := fun _ _ h => of32 h (by omega)

theorem tsDef (a : Fin 32) (b : Fin 32) : Statement (.tsDef a b) := fun _ _ h => of32 h (by omega)

theorem tsRel (a : Fin 32) (d : Fin 32) : Statement (.tsRel a d) := fun _ _ h => of32 h (by omega)

theorem tsStat (a : Fin 32) (d : Fin 32) (f : Fin 2) (w : Fin 2) : Statement (.tsStat a d f w) := fun _ _ h => of32 h (by omega)

theorem barInit (a : Fin 32) (b : Fin 32) (d : Fin 32) (s : Fin 8) : Statement (.barInit a b d s) := fun _ _ h => of32 h (by omega)

theorem barArr (a : Fin 32) (d : Fin 32) : Statement (.barArr a d) := fun _ _ h => of32 h (by omega)

theorem barWait (a : Fin 32) (b : Fin 32) (d : Fin 32) : Statement (.barWait a b d) := fun _ _ h => of32 h (by omega)

theorem barArw (a : Fin 32) (d : Fin 32) : Statement (.barArw a d) := fun _ _ h => of32 h (by omega)

theorem barExpb (a : Fin 32) (b : Fin 32) (d : Fin 32) : Statement (.barExpb a b d) := fun _ _ h => of32 h (by omega)

theorem barStat (a : Fin 32) (d : Fin 32) (c : Fin 2) : Statement (.barStat a d c) := fun _ _ h => of32 h (by omega)

theorem barExp (a : Fin 32) (d : Fin 32) : Statement (.barExp a d) := fun _ _ h => of32 h (by omega)

theorem barUnex (a : Fin 32) (d : Fin 32) : Statement (.barUnex a d) := fun _ _ h => of32 h (by omega)

theorem semInit (a : Fin 32) (b : Fin 32) (d : Fin 32) (s : Fin 8) : Statement (.semInit a b d s) := fun _ _ h => of32 h (by omega)

theorem semSet (a : Fin 32) (b : Fin 32) (d : Fin 32) : Statement (.semSet a b d) := fun _ _ h => of32 h (by omega)

theorem semAdd (a : Fin 32) (b : Fin 32) (d : Fin 32) : Statement (.semAdd a b d) := fun _ _ h => of32 h (by omega)

theorem semWge (a : Fin 32) (b : Fin 32) (d : Fin 32) (u : Fin 2) : Statement (.semWge a b d u) := fun _ _ h => of32 h (by omega)

theorem chCfg (d : Fin 32) (a : Fin 32) (b : Fin 32) : Statement (.chCfg d a b) := fun _ _ h => of32 h (by omega)

theorem chReg (d : Fin 32) (a : Fin 32) : Statement (.chReg d a) := fun _ _ h => of32 h (by omega)

theorem chEos (d : Fin 32) (a : Fin 32) : Statement (.chEos d a) := fun _ _ h => of32 h (by omega)

theorem chTake (d : Fin 16) (a : Fin 32) (p : Fin 2) : Statement (.chTake d a p) := fun _ _ h => of32 h (by omega)

theorem chStat (d : Fin 32) (a : Fin 32) : Statement (.chStat d a) := fun _ _ h => of32 h (by omega)

theorem fwFu (a : Fin 32) (b : Fin 32) (d : Fin 32) : Statement (.fwFu a b d) := fun _ _ h => of32 h (by omega)

theorem fwFwd (a : Fin 32) (b : Fin 32) (d : Fin 32) : Statement (.fwFwd a b d) := fun _ _ h => of32 h (by omega)

theorem fwUpd (a : Fin 32) (b : Fin 32) (d : Fin 32) : Statement (.fwUpd a b d) := fun _ _ h => of32 h (by omega)

theorem fwOpen (a : Fin 32) (d : Fin 32) : Statement (.fwOpen a d) := fun _ _ h => of32 h (by omega)

theorem fwClose (a : Fin 32) (d : Fin 32) : Statement (.fwClose a d) := fun _ _ h => of32 h (by omega)

theorem fwFree (a : Fin 32) (d : Fin 32) : Statement (.fwFree a d) := fun _ _ h => of32 h (by omega)

theorem fwPage (a : Fin 32) (b : Fin 32) (d : Fin 32) (o : Fin 8) : Statement (.fwPage a b d o) := fun _ _ h => of32 h (by omega)

theorem fwStat (a : Fin 32) (d : Fin 32) : Statement (.fwStat a d) := fun _ _ h => of32 h (by omega)

theorem fwSnap (a : Fin 32) (d : Fin 32) : Statement (.fwSnap a d) := fun _ _ h => of32 h (by omega)

theorem fwAvg (a : Fin 32) (b : Fin 32) (d : Fin 32) : Statement (.fwAvg a b d) := fun _ _ h => of32 h (by omega)

theorem fwRoll (a : Fin 32) (b : Fin 32) (d : Fin 32) : Statement (.fwRoll a b d) := fun _ _ h => of32 h (by omega)

theorem fwMig (a : Fin 32) (b : Fin 32) (d : Fin 32) : Statement (.fwMig a b d) := fun _ _ h => of32 h (by omega)

theorem fwLogc (a : Fin 32) (b : Fin 32) (d : Fin 32) : Statement (.fwLogc a b d) := fun _ _ h => of32 h (by omega)

theorem fwLogd (a : Fin 32) (b : Fin 32) (d : Fin 32) : Statement (.fwLogd a b d) := fun _ _ h => of32 h (by omega)

theorem cxStart (a : Fin 32) (d : Fin 32) (r : Fin 2) : Statement (.cxStart a d r) := fun _ _ h => of32 h (by omega)

theorem cxPause (a : Fin 32) (d : Fin 32) : Statement (.cxPause a d) := fun _ _ h => of32 h (by omega)

theorem cxEnd (a : Fin 32) (d : Fin 32) : Statement (.cxEnd a d) := fun _ _ h => of32 h (by omega)

theorem cxFork (a : Fin 32) (b : Fin 32) (d : Fin 32) : Statement (.cxFork a b d) := fun _ _ h => of32 h (by omega)

theorem cxCancel (a : Fin 32) (b : Fin 32) (d : Fin 32) (l : Fin 2) : Statement (.cxCancel a b d l) :=
  fun _ _ h => of32 h (by omega)

theorem cxSpec (a : Fin 32) (b : Fin 32) (d : Fin 32) : Statement (.cxSpec a b d) := fun _ _ h => of32 h (by omega)

theorem cxCommit (a : Fin 32) (b : Fin 32) (d : Fin 32) : Statement (.cxCommit a b d) := fun _ _ h => of32 h (by omega)

theorem grBind (a : Fin 32) (b : Fin 32) (d : Fin 32) : Statement (.grBind a b d) := fun _ _ h => of32 h (by omega)

theorem grStep (a : Fin 32) (b : Fin 32) (d : Fin 32) (s : Fin 2) : Statement (.grStep a b d s) := fun _ _ h => of32 h (by omega)

theorem grMask (a : Fin 32) (d : Fin 32) : Statement (.grMask a d) := fun _ _ h => of32 h (by omega)

theorem grLatt (a : Fin 32) (b : Fin 32) (d : Fin 32) : Statement (.grLatt a b d) := fun _ _ h => of32 h (by omega)

theorem grSave (a : Fin 32) (b : Fin 32) (d : Fin 32) : Statement (.grSave a b d) := fun _ _ h => of32 h (by omega)

theorem grFork (a : Fin 32) (b : Fin 32) (d : Fin 32) : Statement (.grFork a b d) := fun _ _ h => of32 h (by omega)

theorem grRoll (a : Fin 32) (b : Fin 32) (d : Fin 32) : Statement (.grRoll a b d) := fun _ _ h => of32 h (by omega)

theorem skOpen (a : Fin 32) (d : Fin 32) : Statement (.skOpen a d) := fun _ _ h => of32 h (by omega)

theorem skClose (a : Fin 32) (b : Fin 32) (d : Fin 32) (f : Fin 2) : Statement (.skClose a b d f) := fun _ _ h => of32 h (by omega)

theorem skDraw (a : Fin 32) (d : Fin 32) : Statement (.skDraw a d) := fun _ _ h => of32 h (by omega)

theorem ltExp (a : Fin 32) (d : Fin 32) : Statement (.ltExp a d) := fun _ _ h => of32 h (by omega)

theorem sqCfg (a : Fin 32) (b : Fin 32) (d : Fin 32) : Statement (.sqCfg a b d) := fun _ _ h => of32 h (by omega)

theorem sqSend (a : Fin 32) (b : Fin 32) (d : Fin 32) : Statement (.sqSend a b d) := fun _ _ h => of32 h (by omega)

theorem sqRecv (a : Fin 32) (b : Fin 32) (d : Fin 32) : Statement (.sqRecv a b d) := fun _ _ h => of32 h (by omega)

theorem packageReset : Statement (.packageReset) := nofun

theorem powerOff : Statement (.powerOff) := nofun

theorem chipletAttestation (c : Fin 18) (ok : Bool) (why : Nat) : Statement (.chipletAttestation c ok why) := nofun

theorem flitTagFailure (l : Fin 40) : Statement (.flitTagFailure l) := nofun

theorem keyRolloverStart (l : Fin 40) : Statement (.keyRolloverStart l) := nofun

theorem keyRolloverAck (l : Fin 40) : Statement (.keyRolloverAck l) := nofun

theorem drainMarker (l : Fin 40) : Statement (.drainMarker l) := nofun

theorem rolloverSendStop (l : Fin 40) : Statement (.rolloverSendStop l) := nofun

theorem rolloverStopTimeout (l : Fin 40) : Statement (.rolloverStopTimeout l) := nofun

theorem dieReadmission (die : Fin 4) : Statement (.dieReadmission die) := nofun

theorem routeResend (src : Fin 64) (dst : Fin 4) : Statement (.routeResend src dst) := nofun

theorem hostLinkDown : Statement (.hostLinkDown) := nofun

theorem syswr (n : Nat) (v : BitVec 64) : Statement (.syswr n v) := nofun

theorem tlbinv (kind : Fin 4) (a : BitVec 64) (b : BitVec 64) : Statement (.tlbinv kind a b) := nofun

theorem feat (ack : BitVec 64) (lock : Bool) : Statement (.feat ack lock) := nofun

theorem answer (task : Nat) (r : Role) (i : Nat) (retry : Bool) : Statement (.answer task r i retry) := nofun

theorem lists (bases : List (BitVec 64)) : Statement (.lists bases) := nofun

theorem route (h : Nat) (chip : Nat) (ports : Nat) (assoc : Nat) : Statement (.route h chip ports assoc) := nofun

theorem preempt (task : Nat) : Statement (.preempt task) := nofun

theorem dierst (c : Fin 18) : Statement (.dierst c) := nofun

theorem lcs (next : Fin 5) (signed : Bool) : Statement (.lcs next signed) := nofun

theorem age : Statement (.age) := nofun

theorem attest (c : Fin 18) : Statement (.attest c) := nofun

theorem ageUpdate (recs : List (BitVec 128)) : Statement (.ageUpdate recs) := nofun

theorem blockFetch (c : Fin 64) (r : Role) : Statement (.blockFetch c r) := nofun

theorem lineRequestReturn (c : Fin 64) (i : Nat) : Statement (.lineRequestReturn c i) := nofun

theorem requestTableGrant (c : Fin 64) : Statement (.requestTableGrant c) := nofun

theorem storePerformed (c : Fin 64) (r : Role) (i : Nat) : Statement (.storePerformed c r i) := nofun

theorem atomicAtHome (c : Fin 64) (i : Nat) : Statement (.atomicAtHome c i) := nofun

theorem waitaWake (c : Fin 64) (r : Role) : Statement (.waitaWake c r) := nofun

theorem waitaTimeout (c : Fin 64) (r : Role) : Statement (.waitaTimeout c r) := nofun

theorem pageWalkComplete (c : Fin 64) (i : Nat) : Statement (.pageWalkComplete c i) := nofun

theorem missTableGrant (c : Fin 64) : Statement (.missTableGrant c) := nofun

theorem cowBreak (die : Fin 4) (i : Nat) : Statement (.cowBreak die i) := nofun

theorem pageMigrationComplete (die : Fin 4) (i : Nat) : Statement (.pageMigrationComplete die i) := nofun

theorem tlbInvComplete (i : Nat) : Statement (.tlbInvComplete i) := nofun

theorem l1WrapClearDone (c : Fin 64) : Statement (.l1WrapClearDone c) := nofun

theorem vectorStart (c : Fin 64) : Statement (.vectorStart c) := nofun

theorem vectorComplete (c : Fin 64) (i : Nat) : Statement (.vectorComplete c i) := nofun

theorem matrixStart (c : Fin 64) (i : Nat) : Statement (.matrixStart c i) := nofun

theorem matrixComplete (c : Fin 64) (i : Nat) : Statement (.matrixComplete c i) := nofun

theorem lockClear (c : Fin 64) (i : Nat) : Statement (.lockClear c i) := nofun

theorem copyStart (c : Fin 64) (i : Nat) : Statement (.copyStart c i) := nofun

theorem copyPiecePost (c : Fin 64) (i : Nat) : Statement (.copyPiecePost c i) := nofun

theorem copyComplete (c : Fin 64) (i : Nat) : Statement (.copyComplete c i) := nofun

theorem arriveEvent (c : Fin 64) (i : Nat) : Statement (.arriveEvent c i) := nofun

theorem bytesEvent (c : Fin 64) (i : Nat) : Statement (.bytesEvent c i) := nofun

theorem postEvent (c : Fin 64) (i : Nat) : Statement (.postEvent c i) := nofun

theorem handleResolve (c : Fin 64) (h : Nat) : Statement (.handleResolve c h) := nofun

theorem linkPushLand (c : Fin 64) (i : Nat) : Statement (.linkPushLand c i) := nofun

theorem fwStart (c : Fin 64) : Statement (.fwStart c) := nofun

theorem fwComplete (c : Fin 64) : Statement (.fwComplete c) := nofun

theorem fwDirectoryResolve (c : Fin 64) : Statement (.fwDirectoryResolve c) := nofun

theorem fwPageInDone (c : Fin 64) : Statement (.fwPageInDone c) := nofun

theorem fwTransferComplete (i : Nat) : Statement (.fwTransferComplete i) := nofun

theorem seqStart (c : Fin 64) (i : Nat) : Statement (.seqStart c i) := nofun

theorem seqComplete (c : Fin 64) (i : Nat) : Statement (.seqComplete c i) := nofun

theorem sinkBlockProcess (bd : Fin 8) (row : Nat) (blk : Nat) : Statement (.sinkBlockProcess bd row blk) := nofun

theorem sqRecordLand (c : Fin 64) (i : Nat) : Statement (.sqRecordLand c i) := nofun

theorem dispatchRound (die : Fin 4) : Statement (.dispatchRound die) := nofun

theorem taskFirstIssue (task : Nat) : Statement (.taskFirstIssue task) := nofun

theorem preemptEscalate (task : Nat) : Statement (.preemptEscalate task) := nofun

theorem taskSave (task : Nat) : Statement (.taskSave task) := nofun

theorem taskResume (task : Nat) : Statement (.taskResume task) := nofun

theorem taskEnd (task : Nat) : Statement (.taskEnd task) := nofun

theorem trapDelivery (c : Fin 64) : Statement (.trapDelivery c) := nofun

theorem hostEventPost : Statement (.hostEventPost) := nofun

theorem watchdogExpiry (c : Fin 64) (r : Role) : Statement (.watchdogExpiry c r) := nofun

theorem tWatchdogExpiry (c : Fin 64) : Statement (.tWatchdogExpiry c) := nofun

theorem safeCountExpiry (c : Fin 64) (r : Role) : Statement (.safeCountExpiry c r) := nofun

theorem jmp (o : Fin 33554432) : Statement (.jmp o) := fun _ _ h => of32 h (by omega)

theorem call (o : Fin 33554432) : Statement (.call o) := fun _ _ h => of32 h (by omega)

theorem conditionalBranch (c : Fin 8) (a : Fin 32) (b : Fin 32) (o : Fin 4096) : Statement (.conditionalBranch c a b o) :=
  fun _ _ h => of32 h (by omega)

theorem nop : Statement (.nop) := fun _ _ h => of32 h (by decide)

theorem nopH16 : Statement (.nopH16) := fun _ _ h => of16 h (by decide)

theorem ret : Statement (.ret) := fun _ _ h => of32 h (by decide)

theorem jr (a : Fin 32) : Statement (.jr a) := fun _ _ h => of32 h (by omega)

theorem callr (a : Fin 32) : Statement (.callr a) := fun _ _ h => of32 h (by omega)

theorem brk (c : Fin 16384) : Statement (.brk c) := fun _ _ h => of32 h (by omega)

theorem csrr (d : Fin 32) (n : Fin 128) : Statement (.csrr d n) := fun _ _ h => of32 h (by omega)

theorem csrw (a : Fin 32) (n : Fin 128) : Statement (.csrw a n) := fun _ _ h => of32 h (by omega)

theorem add (d : Dst) (a : Src) (b : Src) : Statement (.add d a b) :=
  fun _ _ h => of32 h (by have := dstBits_lt d; have := srcBits_lt a; have := srcBits_lt b; omega)

theorem sub (d : Dst) (a : Src) (b : Src) : Statement (.sub d a b) :=
  fun _ _ h => of32 h (by have := dstBits_lt d; have := srcBits_lt a; have := srcBits_lt b; omega)

theorem and (d : Dst) (a : Src) (b : Src) : Statement (.and d a b) :=
  fun _ _ h => of32 h (by have := dstBits_lt d; have := srcBits_lt a; have := srcBits_lt b; omega)

theorem or (d : Dst) (a : Src) (b : Src) : Statement (.or d a b) :=
  fun _ _ h => of32 h (by have := dstBits_lt d; have := srcBits_lt a; have := srcBits_lt b; omega)

theorem xor (d : Dst) (a : Src) (b : Src) : Statement (.xor d a b) :=
  fun _ _ h => of32 h (by have := dstBits_lt d; have := srcBits_lt a; have := srcBits_lt b; omega)

theorem andn (d : Dst) (a : Src) (b : Src) : Statement (.andn d a b) :=
  fun _ _ h => of32 h (by have := dstBits_lt d; have := srcBits_lt a; have := srcBits_lt b; omega)

theorem min (d : Dst) (a : Src) (b : Src) : Statement (.min d a b) :=
  fun _ _ h => of32 h (by have := dstBits_lt d; have := srcBits_lt a; have := srcBits_lt b; omega)

theorem max (d : Dst) (a : Src) (b : Src) : Statement (.max d a b) :=
  fun _ _ h => of32 h (by have := dstBits_lt d; have := srcBits_lt a; have := srcBits_lt b; omega)

theorem minn (d : Dst) (a : Src) (b : Src) : Statement (.minn d a b) :=
  fun _ _ h => of32 h (by have := dstBits_lt d; have := srcBits_lt a; have := srcBits_lt b; omega)

theorem maxn (d : Dst) (a : Src) (b : Src) : Statement (.maxn d a b) :=
  fun _ _ h => of32 h (by have := dstBits_lt d; have := srcBits_lt a; have := srcBits_lt b; omega)

theorem sh1add (d : Dst) (a : Src) (b : Src) : Statement (.sh1add d a b) :=
  fun _ _ h => of32 h (by have := dstBits_lt d; have := srcBits_lt a; have := srcBits_lt b; omega)

theorem sh2add (d : Dst) (a : Src) (b : Src) : Statement (.sh2add d a b) :=
  fun _ _ h => of32 h (by have := dstBits_lt d; have := srcBits_lt a; have := srcBits_lt b; omega)

theorem sh3add (d : Dst) (a : Src) (b : Src) : Statement (.sh3add d a b) :=
  fun _ _ h => of32 h (by have := dstBits_lt d; have := srcBits_lt a; have := srcBits_lt b; omega)

theorem sh4add (d : Dst) (a : Src) (b : Src) : Statement (.sh4add d a b) :=
  fun _ _ h => of32 h (by have := dstBits_lt d; have := srcBits_lt a; have := srcBits_lt b; omega)

theorem addi (d : Dst) (a : Src) (i : Fin 1024) : Statement (.addi d a i) :=
  fun _ _ h => of32 h (by have := dstBits_lt d; have := srcBits_lt a; omega)

theorem andi (d : Dst) (a : Src) (i : Fin 1024) : Statement (.andi d a i) :=
  fun _ _ h => of32 h (by have := dstBits_lt d; have := srcBits_lt a; omega)

theorem ori (d : Dst) (a : Src) (i : Fin 1024) : Statement (.ori d a i) :=
  fun _ _ h => of32 h (by have := dstBits_lt d; have := srcBits_lt a; omega)

theorem slli (d : Dst) (a : Src) (s : Fin 64) : Statement (.slli d a s) :=
  fun _ _ h => of32 h (by have := dstBits_lt d; have := srcBits_lt a; omega)

theorem srli (d : Dst) (a : Src) (s : Fin 64) : Statement (.srli d a s) :=
  fun _ _ h => of32 h (by have := dstBits_lt d; have := srcBits_lt a; omega)

theorem srai (d : Dst) (a : Src) (s : Fin 64) : Statement (.srai d a s) :=
  fun _ _ h => of32 h (by have := dstBits_lt d; have := srcBits_lt a; omega)

theorem rori (d : Dst) (a : Src) (s : Fin 64) : Statement (.rori d a s) :=
  fun _ _ h => of32 h (by have := dstBits_lt d; have := srcBits_lt a; omega)

theorem lih (d : Fin 32) (i : Fin 1048576) : Statement (.lih d i) := fun _ _ h => of32 h (by omega)

theorem sll (d : Dst) (a : Src) (b : Src) : Statement (.sll d a b) :=
  fun _ _ h => of32 h (by have := dstBits_lt d; have := srcBits_lt a; have := srcBits_lt b; omega)

theorem srl (d : Dst) (a : Src) (b : Src) : Statement (.srl d a b) :=
  fun _ _ h => of32 h (by have := dstBits_lt d; have := srcBits_lt a; have := srcBits_lt b; omega)

theorem sra (d : Dst) (a : Src) (b : Src) : Statement (.sra d a b) :=
  fun _ _ h => of32 h (by have := dstBits_lt d; have := srcBits_lt a; have := srcBits_lt b; omega)

theorem ror (d : Dst) (a : Src) (b : Src) : Statement (.ror d a b) :=
  fun _ _ h => of32 h (by have := dstBits_lt d; have := srcBits_lt a; have := srcBits_lt b; omega)

theorem clz (d : Dst) (a : Src) : Statement (.clz d a) := fun _ _ h => of32 h (by have := dstBits_lt d; have := srcBits_lt a; omega)

theorem ctz (d : Dst) (a : Src) : Statement (.ctz d a) := fun _ _ h => of32 h (by have := dstBits_lt d; have := srcBits_lt a; omega)

theorem popc (d : Dst) (a : Src) : Statement (.popc d a) :=
  fun _ _ h => of32 h (by have := dstBits_lt d; have := srcBits_lt a; omega)

theorem sel (d : Fin 32) (a : Src) (b : Src) : Statement (.sel d a b) :=
  fun _ _ h => of32 h (by have := srcBits_lt a; have := srcBits_lt b; omega)

theorem seq (d : Dst) (a : Src) (b : Src) : Statement (.seq d a b) :=
  fun _ _ h => of32 h (by have := dstBits_lt d; have := srcBits_lt a; have := srcBits_lt b; omega)

theorem sne (d : Dst) (a : Src) (b : Src) : Statement (.sne d a b) :=
  fun _ _ h => of32 h (by have := dstBits_lt d; have := srcBits_lt a; have := srcBits_lt b; omega)

theorem slt (d : Dst) (a : Src) (b : Src) : Statement (.slt d a b) :=
  fun _ _ h => of32 h (by have := dstBits_lt d; have := srcBits_lt a; have := srcBits_lt b; omega)

theorem sge (d : Dst) (a : Src) (b : Src) : Statement (.sge d a b) :=
  fun _ _ h => of32 h (by have := dstBits_lt d; have := srcBits_lt a; have := srcBits_lt b; omega)

theorem sltn (d : Dst) (a : Src) (b : Src) : Statement (.sltn d a b) :=
  fun _ _ h => of32 h (by have := dstBits_lt d; have := srcBits_lt a; have := srcBits_lt b; omega)

theorem sgen (d : Dst) (a : Src) (b : Src) : Statement (.sgen d a b) :=
  fun _ _ h => of32 h (by have := dstBits_lt d; have := srcBits_lt a; have := srcBits_lt b; omega)

theorem extI8 (d : Dst) (a : Src) : Statement (.extI8 d a) :=
  fun _ _ h => of32 h (by have := dstBits_lt d; have := srcBits_lt a; omega)

theorem extI16 (d : Dst) (a : Src) : Statement (.extI16 d a) :=
  fun _ _ h => of32 h (by have := dstBits_lt d; have := srcBits_lt a; omega)

theorem extI32 (d : Dst) (a : Src) : Statement (.extI32 d a) :=
  fun _ _ h => of32 h (by have := dstBits_lt d; have := srcBits_lt a; omega)

theorem extN8 (d : Dst) (a : Src) : Statement (.extN8 d a) :=
  fun _ _ h => of32 h (by have := dstBits_lt d; have := srcBits_lt a; omega)

theorem extN16 (d : Dst) (a : Src) : Statement (.extN16 d a) :=
  fun _ _ h => of32 h (by have := dstBits_lt d; have := srcBits_lt a; omega)

theorem extN32 (d : Dst) (a : Src) : Statement (.extN32 d a) :=
  fun _ _ h => of32 h (by have := dstBits_lt d; have := srcBits_lt a; omega)

theorem mul (d : Dst) (a : Src) (b : Src) : Statement (.mul d a b) :=
  fun _ _ h => of32 h (by have := dstBits_lt d; have := srcBits_lt a; have := srcBits_lt b; omega)

theorem mulh (d : Dst) (a : Src) (b : Src) : Statement (.mulh d a b) :=
  fun _ _ h => of32 h (by have := dstBits_lt d; have := srcBits_lt a; have := srcBits_lt b; omega)

theorem mulhn (d : Dst) (a : Src) (b : Src) : Statement (.mulhn d a b) :=
  fun _ _ h => of32 h (by have := dstBits_lt d; have := srcBits_lt a; have := srcBits_lt b; omega)

theorem div (d : Dst) (a : Src) (b : Src) : Statement (.div d a b) :=
  fun _ _ h => of32 h (by have := dstBits_lt d; have := srcBits_lt a; have := srcBits_lt b; omega)

theorem divn (d : Dst) (a : Src) (b : Src) : Statement (.divn d a b) :=
  fun _ _ h => of32 h (by have := dstBits_lt d; have := srcBits_lt a; have := srcBits_lt b; omega)

theorem rem (d : Dst) (a : Src) (b : Src) : Statement (.rem d a b) :=
  fun _ _ h => of32 h (by have := dstBits_lt d; have := srcBits_lt a; have := srcBits_lt b; omega)

theorem remn (d : Dst) (a : Src) (b : Src) : Statement (.remn d a b) :=
  fun _ _ h => of32 h (by have := dstBits_lt d; have := srcBits_lt a; have := srcBits_lt b; omega)

theorem movH16 (g : Fin 32) (b : Fin 32) : Statement (.movH16 g b) := fun _ _ h => of16 h (by omega)

theorem liH16 (g : Fin 32) (i : Fin 64) : Statement (.liH16 g i) := fun _ _ h => of16 h (by omega)

theorem addiH16 (g : Fin 32) (i : Fin 64) : Statement (.addiH16 g i) := fun _ _ h => of16 h (by omega)

theorem addH16 (g : Fin 32) (b : Fin 32) : Statement (.addH16 g b) := fun _ _ h => of16 h (by omega)

theorem subH16 (g : Fin 32) (b : Fin 32) : Statement (.subH16 g b) := fun _ _ h => of16 h (by omega)

theorem andH16 (g : Fin 32) (b : Fin 32) : Statement (.andH16 g b) := fun _ _ h => of16 h (by omega)

theorem orH16 (g : Fin 32) (b : Fin 32) : Statement (.orH16 g b) := fun _ _ h => of16 h (by omega)

theorem xorH16 (g : Fin 32) (b : Fin 32) : Statement (.xorH16 g b) := fun _ _ h => of16 h (by omega)

theorem slliH16 (g : Fin 32) (i : Fin 64) : Statement (.slliH16 g i) := fun _ _ h => of16 h (by omega)

theorem srliH16 (g : Fin 32) (i : Fin 64) : Statement (.srliH16 g i) := fun _ _ h => of16 h (by omega)

theorem sraiH16 (g : Fin 32) (i : Fin 64) : Statement (.sraiH16 g i) := fun _ _ h => of16 h (by omega)

theorem mulH16 (g : Fin 32) (b : Fin 32) : Statement (.mulH16 g b) := fun _ _ h => of16 h (by omega)

theorem ldN8 (d : Dst) (a : Src) (o : Fin 512) : Statement (.ldN8 d a o) :=
  fun _ _ h => of32 h (by have := dstBits_lt d; have := srcBits_lt a; omega)

theorem ldI8 (d : Dst) (a : Src) (o : Fin 512) : Statement (.ldI8 d a o) :=
  fun _ _ h => of32 h (by have := dstBits_lt d; have := srcBits_lt a; omega)

theorem ldN16 (d : Dst) (a : Src) (o : Fin 512) : Statement (.ldN16 d a o) :=
  fun _ _ h => of32 h (by have := dstBits_lt d; have := srcBits_lt a; omega)

theorem ldI16 (d : Dst) (a : Src) (o : Fin 512) : Statement (.ldI16 d a o) :=
  fun _ _ h => of32 h (by have := dstBits_lt d; have := srcBits_lt a; omega)

theorem ldN32 (d : Dst) (a : Src) (o : Fin 512) : Statement (.ldN32 d a o) :=
  fun _ _ h => of32 h (by have := dstBits_lt d; have := srcBits_lt a; omega)

theorem ldI32 (d : Dst) (a : Src) (o : Fin 512) : Statement (.ldI32 d a o) :=
  fun _ _ h => of32 h (by have := dstBits_lt d; have := srcBits_lt a; omega)

theorem ld64 (d : Dst) (a : Src) (o : Fin 512) : Statement (.ld64 d a o) :=
  fun _ _ h => of32 h (by have := dstBits_lt d; have := srcBits_lt a; omega)

theorem st8 (s : Fin 32) (a : Src) (i : Fin 1024) : Statement (.st8 s a i) := fun _ _ h => of32 h (by have := srcBits_lt a; omega)

theorem st16 (s : Fin 32) (a : Src) (i : Fin 1024) : Statement (.st16 s a i) := fun _ _ h => of32 h (by have := srcBits_lt a; omega)

theorem st32 (s : Fin 32) (a : Src) (i : Fin 1024) : Statement (.st32 s a i) := fun _ _ h => of32 h (by have := srcBits_lt a; omega)

theorem st64 (s : Fin 32) (a : Src) (i : Fin 1024) : Statement (.st64 s a i) := fun _ _ h => of32 h (by have := srcBits_lt a; omega)

theorem vld (g : Guard) (d : Fin 64) (b : Fin 32) : Statement (.vld g d b) := fun _ _ h => of32 h (by have := guardBits_lt g; omega)

theorem vst (g : Guard) (d : Fin 64) (b : Fin 32) : Statement (.vst g d b) := fun _ _ h => of32 h (by have := guardBits_lt g; omega)

theorem vldS (g : Guard) (d : Fin 64) (s : Fin 32) (b : Fin 32) : Statement (.vldS g d s b) :=
  fun _ _ h => of32 h (by have := guardBits_lt g; omega)

theorem vstS (g : Guard) (d : Fin 64) (s : Fin 32) (b : Fin 32) : Statement (.vstS g d s b) :=
  fun _ _ h => of32 h (by have := guardBits_lt g; omega)

theorem vldG (g : Guard) (d : Fin 64) (i : Fin 64) (b : Fin 32) : Statement (.vldG g d i b) :=
  fun _ _ h => of32 h (by have := guardBits_lt g; omega)

theorem vstX (g : Guard) (d : Fin 64) (i : Fin 64) (b : Fin 32) : Statement (.vstX g d i b) :=
  fun _ _ h => of32 h (by have := guardBits_lt g; omega)

theorem vldB (g : Guard) (d : Fin 64) (b : Fin 32) : Statement (.vldB g d b) :=
  fun _ _ h => of32 h (by have := guardBits_lt g; omega)

theorem aadd (w : Fin 2) (a : Fin 32) (b : Fin 32) (d : Fin 32) (o : Fin 4) (s : Fin 8) : Statement (.aadd w a b d o s) :=
  fun _ _ h => of32 h (by omega)

theorem aand (w : Fin 2) (a : Fin 32) (b : Fin 32) (d : Fin 32) (o : Fin 4) (s : Fin 8) : Statement (.aand w a b d o s) :=
  fun _ _ h => of32 h (by omega)

theorem aor (w : Fin 2) (a : Fin 32) (b : Fin 32) (d : Fin 32) (o : Fin 4) (s : Fin 8) : Statement (.aor w a b d o s) :=
  fun _ _ h => of32 h (by omega)

theorem axor (w : Fin 2) (a : Fin 32) (b : Fin 32) (d : Fin 32) (o : Fin 4) (s : Fin 8) : Statement (.axor w a b d o s) :=
  fun _ _ h => of32 h (by omega)

theorem aminI (w : Fin 2) (a : Fin 32) (b : Fin 32) (d : Fin 32) (o : Fin 4) (s : Fin 8) : Statement (.aminI w a b d o s) :=
  fun _ _ h => of32 h (by omega)

theorem aminN (w : Fin 2) (a : Fin 32) (b : Fin 32) (d : Fin 32) (o : Fin 4) (s : Fin 8) : Statement (.aminN w a b d o s) :=
  fun _ _ h => of32 h (by omega)

theorem amaxI (w : Fin 2) (a : Fin 32) (b : Fin 32) (d : Fin 32) (o : Fin 4) (s : Fin 8) : Statement (.amaxI w a b d o s) :=
  fun _ _ h => of32 h (by omega)

theorem amaxN (w : Fin 2) (a : Fin 32) (b : Fin 32) (d : Fin 32) (o : Fin 4) (s : Fin 8) : Statement (.amaxN w a b d o s) :=
  fun _ _ h => of32 h (by omega)

theorem swap (w : Fin 2) (a : Fin 32) (b : Fin 32) (d : Fin 32) (o : Fin 4) (s : Fin 8) : Statement (.swap w a b d o s) :=
  fun _ _ h => of32 h (by omega)

theorem cas64 (a : Fin 32) (b : Fin 32) (d : Fin 32) (o : Fin 4) (s : Fin 8) : Statement (.cas64 a b d o s) :=
  fun _ _ h => of32 h (by omega)

theorem cas128 (a : Fin 32) (b : Fin 16) (d : Fin 16) (o : Fin 4) (s : Fin 8) : Statement (.cas128 a b d o s) :=
  fun _ _ h => of32 h (by omega)

theorem aaddMs (w : Fin 2) (a : Fin 32) (b : Fin 32) (d : Fin 32) (o : Fin 4) (s : Fin 8) : Statement (.aaddMs w a b d o s) :=
  fun _ _ h => of32 h (by omega)

theorem aandMs (w : Fin 2) (a : Fin 32) (b : Fin 32) (d : Fin 32) (o : Fin 4) (s : Fin 8) : Statement (.aandMs w a b d o s) :=
  fun _ _ h => of32 h (by omega)

theorem aorMs (w : Fin 2) (a : Fin 32) (b : Fin 32) (d : Fin 32) (o : Fin 4) (s : Fin 8) : Statement (.aorMs w a b d o s) :=
  fun _ _ h => of32 h (by omega)

theorem axorMs (w : Fin 2) (a : Fin 32) (b : Fin 32) (d : Fin 32) (o : Fin 4) (s : Fin 8) : Statement (.axorMs w a b d o s) :=
  fun _ _ h => of32 h (by omega)

theorem aminIMs (w : Fin 2) (a : Fin 32) (b : Fin 32) (d : Fin 32) (o : Fin 4) (s : Fin 8) : Statement (.aminIMs w a b d o s) :=
  fun _ _ h => of32 h (by omega)

theorem aminNMs (w : Fin 2) (a : Fin 32) (b : Fin 32) (d : Fin 32) (o : Fin 4) (s : Fin 8) : Statement (.aminNMs w a b d o s) :=
  fun _ _ h => of32 h (by omega)

theorem amaxIMs (w : Fin 2) (a : Fin 32) (b : Fin 32) (d : Fin 32) (o : Fin 4) (s : Fin 8) : Statement (.amaxIMs w a b d o s) :=
  fun _ _ h => of32 h (by omega)

theorem amaxNMs (w : Fin 2) (a : Fin 32) (b : Fin 32) (d : Fin 32) (o : Fin 4) (s : Fin 8) : Statement (.amaxNMs w a b d o s) :=
  fun _ _ h => of32 h (by omega)

theorem swapMs (w : Fin 2) (a : Fin 32) (b : Fin 32) (d : Fin 32) (o : Fin 4) (s : Fin 8) : Statement (.swapMs w a b d o s) :=
  fun _ _ h => of32 h (by omega)

theorem cas64Ms (a : Fin 32) (b : Fin 32) (d : Fin 32) (o : Fin 4) (s : Fin 8) : Statement (.cas64Ms a b d o s) :=
  fun _ _ h => of32 h (by omega)

theorem cas128Ms (a : Fin 32) (b : Fin 16) (d : Fin 16) (o : Fin 4) (s : Fin 8) : Statement (.cas128Ms a b d o s) :=
  fun _ _ h => of32 h (by omega)

theorem pf (a : Fin 32) (b : Fin 32) (l : Fin 2) : Statement (.pf a b l) := fun _ _ h => of32 h (by omega)

theorem waita (a : Fin 32) (b : Fin 32) (d : Fin 32) (c : Fin 2) : Statement (.waita a b d c) := fun _ _ h => of32 h (by omega)

theorem acq (s : Fin 8) : Statement (.acq s) := fun _ _ h => of32 h (by omega)

theorem rel (s : Fin 8) : Statement (.rel s) := fun _ _ h => of32 h (by omega)

theorem fen (s : Fin 8) : Statement (.fen s) := fun _ _ h => of32 h (by omega)

theorem efen (f : Fin 32) : Statement (.efen f) := fun _ _ h => of32 h (by omega)

theorem tlbInv (a : Fin 32) (b : Fin 32) (k : Fin 4) (s : Fin 8) : Statement (.tlbInv a b k s) := fun _ _ h => of32 h (by omega)

theorem tlbSync : Statement (.tlbSync) := fun _ _ h => of32 h (by decide)

theorem pgMig (a : Fin 32) (b : Fin 32) (d : Fin 32) (w : Fin 2) : Statement (.pgMig a b d w) := fun _ _ h => of32 h (by omega)

theorem pgPin (a : Fin 32) (d : Fin 32) (c : Fin 2) : Statement (.pgPin a d c) := fun _ _ h => of32 h (by omega)

theorem pgProbe (a : Fin 32) (d : Fin 32) : Statement (.pgProbe a d) := fun _ _ h => of32 h (by omega)

theorem fcInc (a : Fin 32) (b : Fin 32) (d : Fin 32) : Statement (.fcInc a b d) := fun _ _ h => of32 h (by omega)

theorem fcDec (a : Fin 32) (b : Fin 32) (d : Fin 32) : Statement (.fcDec a b d) := fun _ _ h => of32 h (by omega)

theorem fcRead (a : Fin 32) (d : Fin 32) : Statement (.fcRead a d) := fun _ _ h => of32 h (by omega)

theorem tqPush (a : Fin 32) (b : Fin 32) (d : Fin 32) : Statement (.tqPush a b d) := fun _ _ h => of32 h (by omega)

theorem tkEnd : Statement (.tkEnd) := fun _ _ h => of32 h (by decide)

theorem tkYield (a : Fin 32) : Statement (.tkYield a) := fun _ _ h => of32 h (by omega)

theorem tkCancel (a : Fin 32) (d : Fin 32) : Statement (.tkCancel a d) := fun _ _ h => of32 h (by omega)

theorem safept (c : Fin 1048576) : Statement (.safept c) := fun _ _ h => of32 h (by omega)

theorem trap (c : Fin 1048576) : Statement (.trap c) := fun _ _ h => of32 h (by omega)

theorem tret : Statement (.tret) := fun _ _ h => of32 h (by decide)

theorem sysRd (a : Fin 32) (d : Fin 32) : Statement (.sysRd a d) := fun _ _ h => of32 h (by omega)

theorem sysWr (a : Fin 32) (b : Fin 32) : Statement (.sysWr a b) := fun _ _ h => of32 h (by omega)

theorem engRpl (a : Fin 32) (d : Fin 32) : Statement (.engRpl a d) := fun _ _ h => of32 h (by omega)

theorem engDrop (a : Fin 32) (d : Fin 32) : Statement (.engDrop a d) := fun _ _ h => of32 h (by omega)

theorem tqCfg (a : Fin 32) (b : Fin 32) (d : Fin 32) : Statement (.tqCfg a b d) := fun _ _ h => of32 h (by omega)

theorem tqKill (a : Fin 32) (d : Fin 32) : Statement (.tqKill a d) := fun _ _ h => of32 h (by omega)

theorem tkPre (a : Fin 32) (d : Fin 32) (u : Fin 2) : Statement (.tkPre a d u) := fun _ _ h => of32 h (by omega)

theorem hostWrite (pa : Nat) (bytes : List (BitVec 8)) : Statement (.hostWrite pa bytes) := nofun

theorem cxlSnoop (pa : Nat) : Statement (.cxlSnoop pa) := nofun

theorem hostLinkUp : Statement (.hostLinkUp) := nofun

theorem portLinkChange (port : Fin 8) (assoc : Option Nat) (up : Bool) : Statement (.portLinkChange port assoc up) := nofun

theorem remoteCopyReceive (u : FarUnit) : Statement (.remoteCopyReceive u) :=
  nofun

theorem semEventLand (c : Fin 64) (i : Nat) : Statement (.semEventLand c i) := nofun

theorem softError (place : Nat) (x : ErrArray) (fixed : Bool) : Statement (.softError place x fixed) := nofun

theorem l2LineEviction (pa : Nat) : Statement (.l2LineEviction pa) := nofun

theorem l1LineDrop (c : Fin 64) (line : Nat) : Statement (.l1LineDrop c line) := nofun

end Sys2Proof.Laws.Fits
end

