-- ==== Sys2Proof/Tests/Slice0.lean ====
section
/-! SUPPORT. Tests on fixed values: ill-formed terms, words written out from the spec's encodings, a witness of the hypotheses of
each statement, and a few single steps. -/
namespace Sys2Proof.Tests
open Sys2Proof Sys2Proof.Machine

/-! ## Ill-formed terms: one for each check of WellFormed -/

/-- Reserved conditions and CSR numbers (R86, R99). -/
theorem test_ill_control : WellFormed (.conditionalBranch 6 0 0 0) = false ∧ WellFormed (.csrr 1 3) = false ∧
    WellFormed (.csrw 1 0x39) = false := by decide

/-- Sixteen-bit forms with g = 0 (R33). -/
theorem test_ill_halfword : WellFormed (.movH16 0 1) = false ∧ WellFormed (.liH16 0 1) = false ∧ WellFormed (.addiH16 0 1) = false ∧
    WellFormed (.addH16 0 1) = false ∧ WellFormed (.subH16 0 1) = false ∧ WellFormed (.andH16 0 1) = false ∧
    WellFormed (.orH16 0 1) = false ∧ WellFormed (.xorH16 0 1) = false ∧ WellFormed (.slliH16 0 1) = false ∧
    WellFormed (.srliH16 0 1) = false ∧ WellFormed (.sraiH16 0 1) = false ∧ WellFormed (.mulH16 0 1) = false := by decide

/-- Atomic scopes, and the pair of a 128-bit compare (R120, R121). -/
theorem test_ill_atomics : WellFormed (.aadd 0 1 2 3 1 6) = false ∧ WellFormed (.aand 0 1 2 3 0 1) = false ∧
    WellFormed (.aor 0 1 2 3 1 6) = false ∧ WellFormed (.axor 0 1 2 3 0 2) = false ∧ WellFormed (.aminI 0 1 2 3 1 7) = false ∧
    WellFormed (.aminN 0 1 2 3 0 3) = false ∧ WellFormed (.amaxI 0 1 2 3 2 6) = false ∧ WellFormed (.amaxN 0 1 2 3 0 4) = false ∧
    WellFormed (.swap 0 1 2 3 3 6) = false ∧ WellFormed (.cas64 1 2 3 0 5) = false ∧ WellFormed (.cas128 1 2 0 0 0) = false ∧
    WellFormed (.cas128 1 2 3 1 6) = false := by decide

/-- The same of the memory-side forms (R123). -/
theorem test_ill_memory_side : WellFormed (.aaddMs 0 1 2 3 1 6) = false ∧ WellFormed (.aandMs 0 1 2 3 0 1) = false ∧
    WellFormed (.aorMs 0 1 2 3 1 6) = false ∧ WellFormed (.axorMs 0 1 2 3 0 2) = false ∧ WellFormed (.aminIMs 0 1 2 3 1 7) = false ∧
    WellFormed (.aminNMs 0 1 2 3 0 3) = false ∧ WellFormed (.amaxIMs 0 1 2 3 2 6) = false ∧ WellFormed (.amaxNMs 0 1 2 3 0 4) = false ∧
    WellFormed (.swapMs 0 1 2 3 3 6) = false ∧ WellFormed (.cas64Ms 1 2 3 0 5) = false ∧ WellFormed (.cas128Ms 1 2 0 0 0) = false := by
  decide

/-- Scopes of the fences, of TLB.INV, and of barrier and semaphore slots (R135, R184, R286, R291). -/
theorem test_ill_scopes : WellFormed (.acq 6) = false ∧ WellFormed (.rel 7) = false ∧ WellFormed (.fen 6) = false ∧
    WellFormed (.tlbInv 1 2 0 2) = false ∧ WellFormed (.barInit 1 2 3 0) = false ∧ WellFormed (.semInit 1 2 3 6) = false := by decide

/-- Compare, select and lane-index fields (R205, R206, R212). -/
theorem test_ill_lanes : WellFormed (.vcmpI32 .all 6 0 1 2) = false ∧ WellFormed (.vcmpI32 .all 0 6 1 2) = false ∧
    WellFormed (.vcmpF32 .all 6 0 1 2) = false ∧ WellFormed (.vsel .all 1 2 3) = false ∧ WellFormed (.vlidx .all 1 3) = false := by decide

/-- Narrowing and widening forms: part, saturation with stochastic rounding by FPCR, group register, rounding (R217 to R220). -/
theorem test_ill_convert : WellFormed (.vcvtBf16F32 .all 1 2 2 0 0) = false ∧ WellFormed (.vcvtF16F32 .all 1 3 1 0 0) = false ∧
    WellFormed (.vcvtE4m3F32 .all 1 4 2 1 7) = false ∧ WellFormed (.vcvtE5m2F32 .all 1 6 2 0 0) = false ∧
    WellFormed (.vcvtF32Bf16 .all 1 2 1) = false ∧ WellFormed (.vcvtF32F16 .all 2 2 3) = false ∧
    WellFormed (.vcvtF32E4m3 .all 4 2 1) = false ∧ WellFormed (.vcvtF32E5m2 .all 6 2 2) = false := by decide

/-- Rounding 6 and MX format 3 (R214, R221, R222, R223). -/
theorem test_ill_rounding : WellFormed (.vcvtI32F32 .all 1 2 6) = false ∧ WellFormed (.vcvtN32F32 .all 1 2 6) = false ∧
    WellFormed (.vcvtF32I32 .all 1 2 6) = false ∧ WellFormed (.vcvtF32N32 .all 1 2 6) = false ∧
    WellFormed (.vrintF32 .all 1 2 6) = false ∧ WellFormed (.vcvtMxF32 1 2 3 0) = false ∧ WellFormed (.vcvtMxF32 1 2 0 6) = false ∧
    WellFormed (.vcvtF32Mx .all 1 2 3) = false ∧ WellFormed (.vcmpr .all 1 2 8 0) = false ∧
    WellFormed (.vtopkF32 .all 1 2 15 0) = false ∧ WellFormed (.vtopkI32 .all 1 2 8 0) = false := by decide

/-- Matrix, slot, channel and paging fields (R233, R245, R250, R251, R260, R299, R335). -/
theorem test_ill_engines : WellFormed (.maCfg 4 2) = false ∧ WellFormed (.maMovTv 1 0 3 2) = false ∧ WellFormed (.maMovVt 1 0 3 2) = false ∧
    WellFormed (.maMovSum 1 8 8) = false ∧ WellFormed (.maMovSum 1 8 0) = false ∧ WellFormed (.tsStat 1 2 1 1) = false ∧
    WellFormed (.chTake 0 1 0) = false ∧ WellFormed (.fwPage 1 2 3 5) = false ∧ WellFormed (.fwPage 1 2 3 0) = false := by decide

/-! ## Decoding: words written out from the spec's encodings, a few of each family -/

/-- Programs of section 17 of the spec: scalar and sixteen-bit words (R30, R33, R34). -/
theorem test_decode_scalar : decodeTableWord 32 0x3FC0020D = some (.addi (.g 1) (.g 0) 255) ∧
    decodeTableWord 16 0x1464 = some (.liH16 3 5) ∧ decodeTableWord 16 0xFC66 = some (.addiH16 3 63) ∧
    decodeTableWord 16 0x04A6 = some (.addiH16 5 1) ∧ decodeTableWord 16 0x14C8 = some (.addH16 6 5) ∧
    decodeTableWord 16 0x001C = some .nopH16 ∧ decodeTableWord 32 0x00000009 = some .nop ∧
    decodeTableWord 32 0x01E0010F = some (.lih 2 0x1E00) := by decide

/-- Branch and software break (R86, R91). -/
theorem test_decode_control : decodeTableWord 32 0xFFD00C87 = some (.conditionalBranch 1 3 0 0xFFD) ∧
    decodeTableWord 32 0x00040209 = some (.brk 1) := by decide

/-- Memory and table words, fences of the engines (R115, R138, R141, R184, R186, R187). -/
theorem test_decode_memory : decodeTableWord 32 0x01804125 = some (.pgProbe 4 6) ∧ decodeTableWord 32 0x09CA4025 = some (.pgMig 4 5 7 1) ∧
    decodeTableWord 32 0x000000A3 = some .tlbSync ∧ decodeTableWord 32 0x02004127 = some (.fcRead 4 8) ∧
    decodeTableWord 32 0x800A4023 = some (.tlbInv 4 5 0 4) := by decide

theorem test_decode_efen : decodeTableWord 32 0x00000021 = some (.efen 0) ∧ decodeTableWord 32 0x08000021 = some (.efen 1) ∧
    decodeTableWord 32 0x30000021 = some (.efen 6) := by decide

/-- Conversions, top-k and compress (R217, R218, R223, R225, R226). -/
theorem test_decode_convert : decodeTableWord 32 0x18421639 = some (.vcvtE4m3F32 .all 8 4 2 1 0) ∧
    decodeTableWord 32 0x08833639 = some (.vcvtF32E4m3 .all 12 8 2) ∧ decodeTableWord 32 0x00352E3B = some (.vcvtMxF32 10 3 0 0) ∧
    decodeTableWord 32 0x08228E3F = some (.vtopkF32 .all 5 2 2 0) ∧ decodeTableWord 32 0x0821863F = some (.vcmpr .all 6 2 2 0) := by decide

/-- Matrix words (R245 to R252). -/
theorem test_decode_matrix : decodeTableWord 32 0x00FC29C1 = some (.maMm 3 5 0 15 1 1) ∧
    decodeTableWord 32 0x00C52143 = some (.maLdw 4 5 6) ∧ decodeTableWord 32 0x000088C3 = some (.maLdb 1 8 0) ∧
    decodeTableWord 32 0x008018C5 = some (.maMovTv 3 0 0 8) ∧ decodeTableWord 32 0x00022043 = some (.maCfg 4 4) ∧
    decodeTableWord 32 0x00004047 = some (.maWait 8) := by decide

/-- Fast-weight words (R311 to R329). -/
theorem test_decode_fast_weight : decodeTableWord 32 0x01CC4055 = some (.fwFu 4 6 7) ∧ decodeTableWord 32 0x01805057 = some (.fwOpen 5 6) ∧
    decodeTableWord 32 0x02406059 = some (.fwSnap 6 9) ∧ decodeTableWord 32 0x0212605B = some (.fwLogc 6 9 8) ∧
    decodeTableWord 32 0x021460DB = some (.fwLogd 6 10 8) := by decide

/-- Sequence words (R343 to R370). -/
theorem test_decode_sequence : decodeTableWord 32 0x0880605D = some (.cxStart 6 2 1) ∧ decodeTableWord 32 0x014E61DD = some (.cxFork 6 7 5) ∧
    decodeTableWord 32 0x0212625D = some (.cxCancel 6 9 8 0) ∧ decodeTableWord 32 0x029661DF = some (.grLatt 6 11 10) ∧
    decodeTableWord 32 0x01005063 = some (.ltExp 5 4) ∧ decodeTableWord 32 0x031CD0E1 = some (.skClose 13 14 12 0) ∧
    decodeTableWord 32 0x03C0C161 = some (.skDraw 12 15) ∧ decodeTableWord 32 0x024A4165 = some (.sqRecv 4 5 9) := by decide

/-- Words that R47 refuses: a zero word, a reserved class, a reserved field, a stripped operand. -/
theorem test_decode_refuses : decodeTableWord 16 0x0000 = none ∧ decodeTableWord 32 0x0000007F = none ∧
    decodeTableWord 32 0x80000009 = none ∧ decodeTableWord 32 0x0000000F = some (.lih 0 0) := by decide

/-! ## States for the witnesses -/

/-- The hypotheses of a word's issue, as a computation. -/
def issuesB (s : State) (n : Need) (reads : List (Fin 32)) : Bool :=
  s.gateFault n == none && reads.all s.me.ready && (!(s.me.safeDue s.cr) || n.safe)

theorem issues_of {s : State} {n : Need} {reads : List (Fin 32)} (h : issuesB s n reads = true) : s.Issues n reads := by
  simp only [issuesB, Bool.and_eq_true, Bool.or_eq_true, Bool.not_eq_true', beq_iff_eq] at h
  exact ⟨h.1.1, h.1.2, h.2⟩

def okB (r : SiteRes) (p : Site → State → Bool) : Bool :=
  match r with
  | .ok x s => p x s
  | _ => false

theorem site_ok {r : SiteRes} {p : Site → State → Bool} (h : okB r p = true) : ∃ x s, r = .ok x s ∧ p x s = true := by
  unfold okB at h; split at h
  · exact ⟨_, _, rfl, h⟩
  · cases h

def exB {E A : Type} (r : Except E A) (p : A → Bool) : Bool :=
  match r with
  | .ok x => p x
  | .error _ => false

theorem ex_ok {E A : Type} {r : Except E A} {p : A → Bool} (h : exB r p = true) : ∃ x, r = .ok x ∧ p x = true := by
  unfold exB at h; split at h
  · exact ⟨_, rfl, h⟩
  · cases h

def srcB (r : SrcRes) (p : List Word → State → Bool) : Bool :=
  match r with
  | .vals v s => p v s
  | _ => false

theorem src_ok {r : SrcRes} {p : List Word → State → Bool} (h : srcB r p = true) : ∃ v s, r = .vals v s ∧ p v s = true := by
  unfold srcB at h; split at h
  · exact ⟨_, _, rfl, h⟩
  · cases h

def optB {A : Type} (r : Option A) (p : A → Bool) : Bool :=
  match r with
  | some x => p x
  | none => false

theorem opt_ok {A : Type} {r : Option A} {p : A → Bool} (h : optB r p = true) : ∃ x, r = some x ∧ p x = true := by
  unfold optB at h; split at h
  · exact ⟨_, rfl, h⟩
  · cases h

def leafB (r : WalkRes) (p : Nat → Nat → Bool) : Bool :=
  match r with
  | .leaf a e => p a e
  | _ => false

theorem leaf_ok {r : WalkRes} {p : Nat → Nat → Bool} (h : leafB r p = true) : ∃ a e, r = .leaf a e ∧ p a e = true := by
  unfold leafB at h; split at h
  · exact ⟨_, _, rfl, h⟩
  · cases h

def stopB (r : WalkRes) (p : Nat → Nat → Nat → Bool) : Bool :=
  match r with
  | .stop l c d => p l c d
  | _ => false

theorem stop_ok {r : WalkRes} {p : Nat → Nat → Nat → Bool} (h : stopB r p = true) : ∃ l c d, r = .stop l c d ∧ p l c d = true := by
  unfold stopB at h; split at h
  · exact ⟨_, _, _, rfl, h⟩
  · cases h

/-- Tables: address space 0 maps the first gibibyte onto itself, and at 0x4000_0000 a memory-side page (frame 0x100), a
copy-on-write one (0x101), a BUSY one (0x102), a plain one (0x103) and an executable one (0x104) of T0; the sixth is cold. -/
def tables : Mem :=
  ([(0x1000, 0x200001), (0x2000, 0x300001), (0x3000, 0x400001), (0x4000, 0x1F + 10 * 2 ^ 14), (0x4008, 0x500001),
    (0x5000, 0x600001), (0x6000, 0x1000008F), (0x6008, 0x1010010F), (0x6010, 0x1024001F), (0x6018, 0x1030000F),
    (0x6020, 0x1040001F), (0x6028, 0x6F), (0x8000, 0x0000004000000201)] : List (Nat × Nat)).foldl
    (fun m x => m.write x.1 (leBytes 8 x.2)) []

/-- A thread in a block at 0x8000 whose word is a NOP. -/
def thread1 : Thread :=
  { Thread.reset with status := .running, hdr := 0x8000, blk := some ⟨0x8000, 0x40000201, [9, 0]⟩ }

/-- Core 0 with 64 vector registers, all channels configured, task 1 of one member, and four running threads. -/
def core1 : Core :=
  { Core.reset with
    bndv := 4, bnds := 0x78, bndc := 0x78, chcnt := 32, teamsz := 1, taskid := 1, threads := Vector.replicate 4 thread1,
    view := { View.none with tvec := 0x8000, mimg := 0x800000, wdog := 1 } }

/-- The package admitted, with `tables`, `k` as core 0, thread `r` of it the current one, and task 1 on it. -/
def machine (r : Role) (k : Core) : State :=
  { State.reset with
    mem := tables, sys := State.reset.sys.set 0 0x1000, chips := Vector.replicate 18 .admitted, nextTask := 2, nextOp := 20,
    cores := State.reset.cores.set 0 k, cur := (0, r),
    tasks := [⟨1, 0, 0, 0, none, 0, 1, 0, [], .running, [0], 0, 0, 0, 0, false, [], [], [], [], []⟩] }

/-- Thread r runs with these g registers. -/
def running (r : Role) (g : List (Fin 32 × Word)) : State :=
  (machine r core1).upMe fun t => g.foldl (fun t x => t.put x.1 x.2) t

/-! ## Witnesses: for each statement with hypotheses, states and operands that meet them -/

theorem witness_ArithmeticForms : (running .L []).Issues { maj := 5 } [1, 2] ∧ (running .L []).Issues { maj := 6 } [31] ∧
    (running .S []).Issues { maj := 7 } [] :=
  ⟨issues_of (by decide), issues_of (by decide), issues_of (by decide)⟩

theorem witness_ShiftCountCompare : (running .C []).Issues { maj := 8 } [3, 1, 2] := issues_of (by decide)

theorem witness_MultiplyDivide : (running .T [(1, 0x8000000000000000), (2, -1)]).Issues { maj := 9 } [1, 2] := issues_of (by decide)

theorem witness_HalfwordForms : (running .L []).Issues { maj := 5 } [1, 0] := issues_of (by decide)

/-- Channel 0 holds a value, 1 is empty, 2 closed, 3 at an EOS, 4 a link, 5 full; 6 has registered another producer. -/
def chanState : State :=
  machine .L { core1 with
    chans := ((((((core1.chans.set 0 { Chan.reset with base := 0x40000, capl := 2, ring := [⟨1, none, none⟩] }).set 1
      { Chan.reset with base := 0x40100, capl := 2 }).set 2 { Chan.reset with closed := true }).set 3
      { Chan.reset with ring := [⟨0, some 4, none⟩] }).set 4 { Chan.reset with link := true }).set 5
      { Chan.reset with ring := [⟨0, none, none⟩] }).set 6 { Chan.reset with reg := [9] } }

theorem witness_ChannelOperands : chanState.Issues { maj := 5, chans := [.pop 0, .g 2].flatMap srcChan ++ dstChan (.ch 1) } ([.pop 0, .g 2].flatMap srcRegs) ∧
    ∃ vs s1, chanState.srcs [.pop 0, .g 2] = .vals vs s1 ∧ srcB (s1.dst (.ch 1) (op2 (fun x y => x + y) vs)) (fun _ _ => true) = true :=
  ⟨issues_of (by decide), src_ok (by decide)⟩

theorem witness_ChannelAccess : chanState.Issues { maj := 5, chans := [0] } [2] ∧ chanState.Issues { maj := 5, chans := [6] } [1, 2] ∧
    (∃ e t, chanState.myCore.chans[0].ring = e :: t ∧ e.eos = none ∧ e.pend = none) ∧
    chanState.myCore.chans[1].ring = [] ∧ chanState.myCore.chans[2].closed = true ∧
    (∃ e t, chanState.myCore.chans[3].ring = e :: t ∧ e.eos = some 4) ∧ chanState.myCore.chans[4].link = true ∧
    (chanState.myCore.chans[1].refuses 0 = false ∧ chanState.myCore.chans[1].full = false) ∧
    chanState.myCore.chans[6].refuses (pidOf chanState.myCore .L) = true ∧
    chanState.myCore.chans[5].refuses 0 = false ∧ chanState.myCore.chans[5].full = true :=
  ⟨issues_of (by decide), issues_of (by decide), ⟨_, _, rfl, rfl, rfl⟩, by decide, by decide, ⟨_, _, rfl, rfl⟩, by decide, by decide,
    by decide, by decide, by decide⟩

theorem witness_ControlTransfers : (running .L []).Issues { maj := 1 } [] ∧ (running .L []).Issues { maj := 2 } [] ∧
    (running .L []).Issues { maj := 3 } [1, 2] ∧ (running .L [(31, 0x2001)]).Issues { maj := 4 } [31] ∧
    (running .L []).Issues { maj := 5 } [] :=
  ⟨issues_of (by decide), issues_of (by decide), issues_of (by decide), issues_of (by decide), issues_of (by decide)⟩

theorem witness_CsrWords : (running .L [(1, 0xFF)]).Issues { maj := 4 } [1] ∧ csrPrivR 0x20 = true ∧ csrPrivR 0x00 = false ∧
    csrPrivW 0x22 = true ∧ csrPrivW 0x01 = false ∧ (running .T []).cr = .T ∧
    (running .L []).myCore.vq.any (fun e => e.role == .L && floatOp e.op) = false :=
  ⟨issues_of (by decide), by decide, by decide, by decide, by decide, by decide, by decide⟩

theorem witness_SoftwareTraps : (running .C []).Issues { maj := 52 } [] ∧ (running .S []).Issues { maj := 4 } [] ∧
    (running .C []).me.settled = true ∧ (running .C []).myCore.served = none ∧ (running .C []).posting 0 = false ∧
    toHost (running .C []).myCore.view cSYS = false ∧ toHost (running .C []).myCore.view cBRK = false ∧
    (running .C []).myCore.vq.all (fun e => e.role != .C) = true :=
  ⟨issues_of (by decide), issues_of (by decide), by decide, by decide, by decide, by decide, by decide, by decide⟩

/-- T serves C. -/
def serving : State := machine .T { core1 with served := some .C }

theorem witness_TrapReturn : serving.Issues { maj := 52, priv := true } [] ∧ serving.cr = .T ∧ serving.myCore.served = some .C ∧
    serving.myCore.mx.parked = false ∧ serving.myCore.tpcw = false :=
  ⟨issues_of (by decide), by decide, by decide, by decide, by decide⟩

/-- L fetches from `a`. -/
def fetching (a : Nat) (k : FetchKind) : State :=
  (machine .L core1).upMe fun t => { t with fetch := some ⟨a, 0x7000, k⟩, blk := none }

def blockB (r : BlockRes) : Nat :=
  match r with
  | .ok _ => 0
  | .busy => 1
  | .bad _ _ _ _ => 2
  | .held => 3
  | .miss => 4

theorem block_ok {r : BlockRes} (h : blockB r = 0) : ∃ b, r = .ok b := by
  cases r <;> first | exact ⟨_, rfl⟩ | cases h

theorem block_busy {r : BlockRes} (h : blockB r = 1) : r = .busy := by
  cases r <;> first | rfl | cases h

theorem block_held {r : BlockRes} (h : blockB r = 3) : r = .held := by
  cases r <;> first | rfl | cases h

theorem block_miss {r : BlockRes} (h : blockB r = 4) : r = .miss := by
  cases r <;> first | rfl | cases h

/-- The sender of the link direction from CD0 to BD0 has stopped (R426). -/
def linkStopped (s : State) : State := { s with links := s.links.set 24 { LinkDir.reset with stop := true } }

/-- The miss table of core 0 is full of other walks. -/
def missing (s : State) : State := s.upCore 0 fun k => { k with walks := List.replicate 128 ⟨1, 1, 5, [.S]⟩ }

theorem witness_BlockFetch :
    (∃ b, (fetching 0x8000 .jump).findBlock 0 .L ((fetching 0x8000 .jump).thr 0 .L) ⟨0x8000, 0x7000, .jump⟩ = .ok b) ∧
    (∃ b, (fetching 0x8000 (.resume 2 1)).findBlock 0 .L ((fetching 0x8000 (.resume 2 1)).thr 0 .L) ⟨0x8000, 0x7000, .resume 2 1⟩ = .ok b) ∧
    (fetching 0x40002000 .fall).findBlock 0 .L ((fetching 0x40002000 .fall).thr 0 .L) ⟨0x40002000, 0x7000, .fall⟩ = .busy ∧
    (linkStopped (fetching 0x8000 .jump)).findBlock 0 .L ((linkStopped (fetching 0x8000 .jump)).thr 0 .L) ⟨0x8000, 0x7000, .jump⟩ = .held ∧
    (missing (fetching 0x8000 .jump)).findBlock 0 .L ((missing (fetching 0x8000 .jump)).thr 0 .L) ⟨0x8000, 0x7000, .jump⟩ = .miss ∧
    (fetching 0x8000 .jump).acqOpen 0 .L = false ∧
    ((fetching 0x8000 .jump).upCore 0 fun k => { k with
      reqs := [⟨5, .L, 0x9000, none, 0x9000, 1, ⟨0x8000, 0, 0⟩, 0, true, 0, true, false, .acquire 2⟩] }).acqOpen 0 .L = true ∧
    ((fetching 0x8001 .jump).thr 0 .L).holds ⟨0x8001, 0x7000, .jump⟩ = none :=
  ⟨block_ok (by decide), block_ok (by decide), block_busy (by decide), block_held (by decide), block_miss (by decide +kernel), by decide,
    by decide, by decide⟩

/-- L runs with the page of 0x8000 in its TLB, and its line 0x8100 in the L1. -/
def loading (g : List (Fin 32 × Word)) : State :=
  ((running .L g).upMyCore fun k => { k with bndc := 0x79 }).upMyCore fun k =>
    { k.fillTlb 0 0x8000 (0x1F + 10 * 2 ^ 14) with l1 := [⟨0x204, 0, List.replicate 64 7, false⟩] }

theorem witness_ScalarLoads :
    (loading [(1, 0x00FF000000040008)]).Issues { maj := 10 } [1] ∧
    ((((loading [(1, 0x00FF000000040008)]).me.get 1).toNat + sint 9 0x1FF * 8) % 2 ^ 64 = (0x00FF000000000000 + 0x40000 : Int) ∧
      (loading []).myCore.bndv * 65536 ≤ 0x40000 ∧ 0x40000 < (loading []).myCore.bnds * 65536 ∧
      (loading []).poolPoison (loading []).me 0 20 0x40000 8 = false ∧ (loading []).nextOp = 20 ∧ (loading []).poolLater 0 0x40000 8 = false ∧
      ({ loading [] with late := true } : State).poolLater 0 0x40000 8 = true ∧ (loading []).acqOpen 0 .L = false) ∧
    (∃ x s1, (loading [(1, 0x8100)]).site 0x8100 8 .read 8 none (fun _ => false) = .ok x s1 ∧
      (match x with | .dev pa e => (s1.l1Bytes pa 8 e).isSome && !s1.myCore.l1clear | _ => false) = true) ∧
    (∃ x s1, (loading [(1, 0x8200)]).site 0x8200 4 .read 4 none (fun _ => false) = .ok x s1 ∧
      (match x with | .dev pa e => (s1.l1Bytes pa 4 e).isNone && !s1.myCore.l1clear && s1.room 1 | _ => false) = true) :=
  ⟨issues_of (by decide), by decide, site_ok (by decide), site_ok (by decide)⟩

theorem witness_ScalarStores : (loading [(1, 0x00FF00000077FFF8), (2, 5)]).Issues { maj := 11 } [2, 1] ∧ (loading []).asyncOpen = false ∧
    (∃ x s1, (loading []).site 0x00FF00000077FFF8 8 .write 8 none (fun _ => true) = .ok x s1 ∧
      (!(s1.siteLocked x 0x00FF00000077FFF8 8) && !x.isDev && !x.dead) = true) ∧
    (∃ x s1, (loading []).site 0x8FF8 8 .write 8 none (fun _ => true) = .ok x s1 ∧
      (!(s1.siteLocked x 0x8FF8 8) && x.isDev && s1.room 1 && !x.dead) = true) :=
  ⟨issues_of (by decide), by decide, site_ok (by decide), site_ok (by decide)⟩

/-- A store to the own pool and a later one to memory are buffered. -/
def storing : State :=
  (machine .L core1).upMe fun t =>
    { t with stores := [⟨3, 0x40000, some 0, [(0x40000, 1)], false, 0x00FF000000040000, 1, 3, none⟩, ⟨4, 0x9000, none, [(0x9000, 2)], false, 0x9000, 1, 4, none⟩] }

theorem witness_StorePerformed : (∃ st, (storing.thr 0 .L).stores[0]? = some st ∧ st.pool = some 0 ∧ storing.storeLocked 0 .L st = false ∧
      ((storing.core 0).reqs.any fun q => q.role == .L && q.isRead && decide (q.id < st.id) && st.bytes.any fun e => q.touches st.pool st.ms e.1 1) = false) ∧
    (∃ st, (storing.thr 0 .L).stores[1]? = some st ∧ st.pool = none ∧ storing.lost (dieOf 0) st.addr = none ∧
      storing.tripHeld 0 st.addr = false ∧ storing.storeLocked 0 .L st = false ∧
      (((storing.thr 0 .L).stores.take 1).any fun x => x.pool == st.pool && x.ms == st.ms && x.bytes.any fun e => st.bytes.any fun f => e.1 == f.1) = false ∧
      ((storing.core 0).reqs.any fun q => q.role == .L && q.isRead && decide (q.id < st.id) && st.bytes.any fun e => q.touches st.pool st.ms e.1 1) = false) :=
  ⟨⟨_, rfl, by decide⟩, ⟨_, rfl, by decide⟩⟩

/-- L runs; lane 0 alone is in predicate 0. -/
def oneLane (g : List (Fin 32 × Word)) : State := (running .L g).upMyCore fun k => { k with preds := k.preds.set 0 1 }

theorem witness_VectorLoads : (oneLane [(1, 0x00FF000000040000)]).Issues { maj := 12, vregs := 64 } [1] ∧
    (oneLane []).acqOpen 0 .L = false ∧ (oneLane []).vloading 63 = false ∧
    (oneLane []).window 0 .L 0x00FF000000040000 .read = some (.ok (.own 0x40000)) ∧ (oneLane []).poolPoison (oneLane []).me 0 20 0x40000 4 = false ∧
    (oneLane []).nextOp = 20 ∧ (oneLane []).poolLater 0 0x40000 4 = false ∧
    ∀ l : Fin 1024, guardOn (oneLane []).myCore.preds (.p 0) l.val = true → l = 0 :=
  ⟨issues_of (by decide), by decide, by decide, by decide, by decide, by decide, by decide, by decide +kernel⟩

theorem witness_VectorStores : (oneLane [(1, 0x00FF000000040000)]).Issues { maj := 12, vregs := 1 } [1] ∧ (oneLane []).asyncOpen = false ∧
    (oneLane []).window 0 .L 0x00FF000000040000 .write = some (.ok (.own 0x40000)) ∧ reservedService 0x40000 = false ∧
    (oneLane []).myCore.lockHit .L none 0x40000 4 = false ∧ (oneLane []).vloading 0 = false :=
  ⟨issues_of (by decide), by decide, by decide, by decide, by decide, by decide⟩

/-- L runs with a plain and a memory-side page in its TLB. -/
def atomicState (g : List (Fin 32 × Word)) : State :=
  (running .L g).upMyCore fun k =>
    { k with ctlb := [tlbEnt 0 0x40003000 0x1030000F, tlbEnt 0 0x40000000 0x1000008F] }

theorem witness_AtomicsIssue : (atomicState [(2, 0x40003010)]).Issues { maj := 13 } [2, 3, 4] ∧
    (atomicState [(2, 0x40000010)]).Issues { maj := 14 } [2, 4, 6, 5, 7] ∧ (atomicState []).asyncOpen = false ∧
    (atomicState []).release 4 = .go ∧ (atomicState []).window 0 .L 0x40003010 .atomic = none ∧
    (∃ x s1, (atomicState []).site 0x40003010 4 .atomic 4 (some false) (fun _ => true) = .ok x s1 ∧
      (match x with | .dev _ e => s1.room 1 && !leafCow e | _ => false) = true) ∧
    (∃ x s1, (atomicState []).site 0x40000010 16 .atomic 16 (some true) (fun _ => true) = .ok x s1 ∧
      (match x with | .dev _ e => s1.room 1 && !leafCow e | _ => false) = true) :=
  ⟨issues_of (by decide), issues_of (by decide), by decide, rfl, by decide, site_ok (by decide), site_ok (by decide)⟩

/-- Requests of L: an atomic, a load of g5, an arming read. -/
def requesting : State :=
  (machine .L { core1 with
    reqs := [⟨5, .L, 0x9000, none, 0x9000, 1, ⟨0x8000, 0, 0⟩, 0, true, 0, true, false, .atomic 19 7 0 6 0 false⟩,
      ⟨6, .L, 0x9040, none, 0x9040, 1, ⟨0x8000, 0, 0⟩, 0, true, 0, true, false, .load (.g 5) 8 false⟩,
      ⟨7, .S, 0x9080, none, 0x9080, 1, ⟨0x8000, 0, 0⟩, 0, true, 0, true, false, .arm true true 0 7⟩],
    reqwait := [.thr .S], walkwait := [.thr .C], walks := [⟨4, 0, 8, [.C]⟩] }).upThr 0 .L fun t => { t with own := t.own.set 5 (some 6) }

theorem witness_AtomicAtHome : (∃ q, (requesting.core 0).reqs[0]? = some q ∧ q.kind = .atomic 19 7 0 6 0 false ∧
    requesting.readHeld 0 q = false ∧ requesting.readFault 0 q = none ∧ requesting.tripHeld 0 q.addr = false ∧ requesting.atomicBehind 0 q = false) :=
  ⟨_, rfl, by decide⟩

theorem witness_MemoryEvents : (∃ q, (requesting.core 0).reqs[1]? = some q ∧ q.kind = .load (.g 5) 8 false ∧ (requesting.core 0).mayReturn q = true ∧
      requesting.readHeld 0 q = false ∧ requesting.readFault 0 q = none ∧ requesting.tripHeld 0 q.addr = false ∧ (requesting.thr 0 q.role).stores = [] ∧
      (requesting.thr 0 q.role).own[(5 : Fin 32)] = some q.id) ∧
    (∃ q, (requesting.core 0).reqs[2]? = some q ∧ q.kind = .arm true true 0 7 ∧ (requesting.core 0).mayReturn q = true ∧
      requesting.readHeld 0 q = false ∧ requesting.readFault 0 q = none ∧ requesting.tripHeld 0 q.addr = false ∧ leNat (requesting.returned 0 q q.addr 8) = 0 ∧ ((requesting.upThr 0 .S fun t => { t with stage := .watch 7 }).thr 0 q.role).stage = .watch 7 ∧
      requesting.watches = []) ∧
    ((requesting.core 0).reqwait = [.thr .S] ∧ requesting.entries 0 < 8192 ∧ (requesting.core 0).walkwait = [.thr .C] ∧
      (requesting.core 0).walks.length < 128 ∧ (requesting.core 0).walks[0]? = some ⟨4, 0, 8, [.C]⟩ ∧
      requesting.walksBefore 0 4 < 512 ∧ requesting.walkHeld 0 0 (8 * 4096) = false ∧ (requesting.thr 0 .C).status = .running ∧
      (requesting.thr 0 .C).fetch = none) ∧
    (running .L [(1, 0x9000), (2, 64)]).Issues { maj := 14 } [1, 2] ∧ (running .L []).acqOpen 0 .L = false :=
  ⟨⟨_, rfl, by decide⟩, ⟨_, rfl, by decide⟩, by decide, issues_of (by decide), by decide⟩

/-- S holds a watch that has fired, and one that is timed. -/
def watching (f : Option Nat) : State :=
  { machine .S core1 with watches := [⟨9, 0, .S, 0x204, 0x8100, true, f⟩] }.upThr 0 .S fun t => { t with stage := .watch 9, why := 7 }

theorem witness_Waita : (loading [(1, 0x8108)]).Issues { maj := 14 } [1, 2, 3] ∧ (loading []).me.stage = .none ∧ inWindow 0x8108 = false ∧
    (∃ x s1, (loading []).site 0x8108 8 .watch 8 none (fun _ => false) = .ok x s1 ∧
      (match x with | .dev pa e => !(s1.readsPoison s1.me (leafBd e) s1.nextOp pa 8) && s1.room 1 | _ => false) = true) ∧
    ((running .L []).upMe fun t => { t with stage := .result 1 }).Issues { maj := 14 } [1, 2, 3] ∧
    (((watching (some 2)).thr 0 .S).stage = .watch 9 ∧ (⟨9, 0, .S, 0x204, 0x8100, true, some 2⟩ : Watch) ∈ (watching (some 2)).watches) ∧
    (((watching none).thr 0 .S).stage = .watch 9 ∧ (⟨9, 0, .S, 0x204, 0x8100, true, none⟩ : Watch) ∈ (watching none).watches) :=
  ⟨issues_of (by decide), by decide, by decide, site_ok (by decide), issues_of (by decide), by decide, by decide⟩

theorem witness_VectorIssueLanes : (running .C []).Issues { maj := 20, vregs := vtop [63, 1, 2] } [] ∧
    (running .C []).Issues { maj := 23, vregs := vtop [1, 2] } [] ∧ (running .C []).asyncOpen = false ∧ (running .C []).myCore.vqFull = false :=
  ⟨issues_of (by decide), issues_of (by decide), by decide, by decide⟩

theorem witness_VectorIssueMoves : (running .C []).Issues { maj := 24, vregs := vtop [0, 63] } [7] ∧
    (running .C []).Issues { maj := 26 } [] ∧ (running .C []).Issues { maj := 27, vregs := vtop [5] } [1, 2] :=
  ⟨issues_of (by decide), issues_of (by decide), issues_of (by decide)⟩

theorem witness_VectorIssueConvert : (running .C []).Issues { maj := 28, vregs := vtop [8, 63] } [] ∧
    (running .C []).Issues { maj := 29, sub := true, vregs := vtop [1, 63] } [] ∧ (running .C []).Issues { maj := 30, vregs := vtop [1, 2] } [] ∧
    (running .C []).Issues { maj := 31, vregs := vtop [1] } [3] :=
  ⟨issues_of (by decide), issues_of (by decide), issues_of (by decide), issues_of (by decide)⟩

/-- Entry of word i, alone in the vector queue of core 0. -/
def queued (i : Instr) : State := machine .C { core1 with vq := [⟨3, .C, i, [5, 1023], 0, 0, 0, none⟩] }

theorem witness_LaneResults : (∃ e, ((queued (.vaddI32 .all 1 2 3)).core 0).vq = [e] ∧ e.op = .vaddI32 .all 1 2 3 ∧ e.out = none) ∧
    ((queued (.vaddI32 .all 1 2 3)).thr 0 .C).stores = [] ∧ ((queued (.vaddI32 .all 1 2 3)).core 0).reqs = [] :=
  ⟨⟨_, rfl, rfl, rfl⟩, by decide, by decide⟩

theorem witness_PredicateResults : (∃ e, ((queued (.vcmpI32 .all 5 5 2 3)).core 0).vq = [e] ∧ e.op = .vcmpI32 .all 5 5 2 3 ∧ e.out = none) ∧
    ((queued (.vcmpI32 .all 5 5 2 3)).core 0).reqs = [] :=
  ⟨⟨_, rfl, rfl, rfl⟩, by decide⟩

/-- An entry that has started, and one behind it. -/
def ordered (a : Fin 64) : State :=
  machine .C { core1 with
    vq := [⟨3, .C, .vaddI32 .all 1 2 3, [], 0, 0, 0, some ⟨[], [], none, 1, []⟩⟩, ⟨4, .C, .vmov .all 5 a, [], 0, 0, 0, none⟩] }

/-- Two started entries that write one register. -/
def overtaking : State :=
  machine .C { core1 with
    vq := [⟨3, .C, .vaddI32 .all 1 2 3, [], 0, 0, 0, some ⟨[], [], none, 1, []⟩⟩, ⟨4, .C, .vmov .all 1 2, [], 0, 0, 0, some ⟨[], [], none, 0, []⟩⟩] }

theorem witness_VectorOrder :
    (∃ b e, vnext ((ordered 6).vline 0) = some (b, e) ∧ isMove e.op = false ∧ (ordered 6).vready 0 b e = true) ∧
    (∃ b e, vnext ((ordered 1).vline 0) = some (b, e) ∧ isMove e.op = false ∧
      b.any (fun p => shares (vspec p.op).wv (vspec e.op).rv) = true) ∧
    (∃ e o, ((ordered 6).core 0).vq[0]? = some e ∧ e.out = some o ∧ isMove e.op = false ∧
      ((ordered 6).vline 0).takeWhile (fun p => p.id != e.id) = []) ∧
    (∃ e o p, (overtaking.core 0).vq[1]? = some e ∧ e.out = some o ∧ isMove e.op = false ∧
      (overtaking.vline 0).takeWhile (fun p => p.id != e.id) = [p] ∧ shares (vspec p.op).wv (vspec e.op).wv = true) :=
  ⟨⟨_, _, rfl, by decide⟩, ⟨_, _, rfl, by decide⟩, ⟨_, _, rfl, rfl, by decide, by decide⟩, ⟨_, _, _, rfl, rfl, by decide, rfl, by decide⟩⟩

/-- The DEF of a slot of one row of one 64-byte block of e4m3 at pool offset 0x40000. -/
def slotDef : Word := 0x4001004000040000

theorem witness_MatrixIssue :
    ((machine .C { core1 with slots := core1.slots.set 5 ⟨slotDef, 0⟩ }).Issues { maj := 32 } [] ∧
      slotFmt slotDef = core1.mx.fmta ∧ slotRows slotDef = 1 ∧ imageUsed 4 1 ≤ 64 * slotRB slotDef ∧ (machine .C core1).asyncOpen = false ∧
      ((machine .C core1).myCore.mx.parked = true ↔ (machine .C core1).cr = .T) ∧ core1.mx.frozen = false ∧ core1.recPending .C 1 = false ∧ core1.haltedOf .C = none ∧ core1.mx.queue.length < 16) ∧
    (running .C [(1, 2047)]).Issues { maj := 33 } [1] ∧
    ((running .C [(1, 0x40003000), (2, 0x6000080000), (3, 32)]).Issues { maj := 33 } [1, 2, 3] ∧ bits 0x6000080000 19 8 = 1 ∧ bits 0x6000080000 32 32 % 32 = 0) ∧
    (running .C []).Issues { maj := 34, vregs := 64 } [] ∧
    ((running .C [(1, 0x00FF000000768000)]).Issues { maj := 34 } [1] ∧
      0x00FF000000768000 + 98304 ≤ 0x00FF000000000000 + core1.bnds * 65536) ∧
    (slotFmt 0 ≠ core1.mx.fmta ∧ slotRows 0x4000000000000000 = 0 ∧ imageUsed 4 3 > 64 * slotRB slotDef) :=
  ⟨⟨issues_of (by decide), by decide⟩, issues_of (by decide), ⟨issues_of (by decide), by decide⟩, issues_of (by decide),
    ⟨issues_of (by decide), by decide⟩, by decide⟩

/-- Core 0 with a frozen engine, parked or not. -/
def frozenCore (park : Bool) : Core := { core1 with mx := { core1.mx with frozen := true, parked := park } }

/-- The 2 MiB of the image that counter 0 makes of core 0. -/
def imageBytes : List Byte := imageHeader core1 0 ++ (List.range (0x200000 - 64)).map fun i => Config.imageByte 0 (64 + i)

/-- T on a parked engine whose pool is `m`, with an image of counter 0 recorded. -/
def parkedState (m : Mem) : State :=
  { (machine .T { frozenCore true with pool := m }).upMe fun t => t.put 1 0x00FF000000040000 with
    images := [⟨0, core1.mx, [], [], []⟩] }

theorem clean (k : Core) (h : k.ppoison = []) (o n : Nat) : k.anyPoison o n = false := by simp [Core.anyPoison, h]

theorem site_clean (s : State) (h : s.myCore.ppoison = []) (o n : Nat) : s.sitePoison (.own o) n = false := clean _ h _ _

theorem own_site (s : State) (a : Nat) (k : Acc) (n : Nat) (al : Nat) (ms : Option Bool) (w : Nat → Bool) (ha : 0x00FF000000040000 ≤ a)
    (hb : a < 0x00FF000000780000) (hv : s.myCore.bndv = 4) (hn : s.myCore.bnds = 0x78) (hk : k = .read ∨ k = .write) (hal : a % al = 0)
    (hp : s.myCore.anyPoison (a - 0x00FF000000000000) n = false) :
    s.site a n k al ms w = .ok (.own (a - 0x00FF000000000000)) s := by
  have e1 : inWindow a = true := by simp only [inWindow, Bool.and_eq_true, decide_eq_true_eq]; omega
  have e2 : 0x00FF000000000000 ≤ a ∧ a < 0x00FF000000800000 := by omega
  have hv' : (s.core s.cc).bndv = 4 := hv
  have hn' : (s.core s.cc).bnds = 0x78 := hn
  have e3 : ¬ (a - 0x00FF000000000000 < (s.core s.cc).bndv * 65536) := by rw [hv']; omega
  have e4 : a - 0x00FF000000000000 < (s.core s.cc).bnds * 65536 := by rw [hn']; omega
  have hw : s.window s.cc s.cr a k = some (.ok (.own (a - 0x00FF000000000000))) := by
    unfold State.window
    rcases hk with hk | hk <;> subst hk <;>
      simp only [e1, e2, e3, e4, Bool.not_true, if_true, if_false, and_self, Bool.false_eq_true, reduceCtorEq]
  have hp' : (s.core s.cc).anyPoison (a - 0x00FF000000000000) n = false := hp
  unfold State.site
  rcases hk with hk | hk <;> subst hk <;>
    simp only [hw, hal, State.poolPoison, hp', Bool.false_and, ne_eq, not_true_eq_false, if_false, reduceCtorEq, Bool.false_eq_true, and_false]

theorem save_pages (hdr : List Byte) (n a : Nat) (h : 0x00FF000000040000 ≤ a) : ∀ (l : List Nat) (s : State),
    (∀ p ∈ l, a + 4096 * p < 0x00FF000000780000) → s.myCore.bndv = 4 → s.myCore.bnds = 0x78 → s.myCore.ppoison = [] →
    ∃ s3, State.saveRun hdr n a l s = (none, s3) := by
  intro l
  induction l with
  | nil => intro s _ _ _ _; exact ⟨s, rfl⟩
  | cons p ps ih =>
    intro s hp hv hb hq
    have hs := own_site s (a + 4096 * p) .write 4096 1 none (fun _ => true) (by omega) (hp p (by simp)) hv hb (.inr rfl)
      (Nat.mod_one _) (by simp [Core.anyPoison, hq])
    unfold State.saveRun
    rw [hs]
    refine ih _ (fun q hq => hp q (List.mem_cons_of_mem _ hq)) ?_ ?_ ?_
    all_goals simp [State.sitePut, Core.markPool, hv, hb, hq]

theorem load_pages (a : Nat) (s : State) (h : 0x00FF000000040000 ≤ a) (hv : s.myCore.bndv = 4) (hb : s.myCore.bnds = 0x78)
    (hq : s.myCore.ppoison = []) : ∀ l : List Nat, (∀ p ∈ l, a + 4096 * p < 0x00FF000000780000) →
    State.loadSites a l s = .ok (l.map fun p => .own (a + 4096 * p - 0x00FF000000000000), s) := by
  intro l
  induction l with
  | nil => intro _; rfl
  | cons p ps ih =>
    intro hp
    have hs := own_site s (a + 4096 * p) .read 0 1 none (fun _ => false) (by omega) (hp p (by simp)) hv hb (.inl rfl)
      (Nat.mod_one _) (by simp [Core.anyPoison, hq])
    unfold State.loadSites
    rw [hs]
    simp only [ih fun q hq => hp q (List.mem_cons_of_mem _ hq), List.map_cons]

theorem read_eq (m : Mem) (a n : Nat) : m.read a n = (List.range n).map fun i => m.get (a + i) := by
  refine List.ext_getElem (by simp) fun i h1 h2 => ?_
  rw [Mem.getElem_read m a n i (by simpa using h1)]; simp

theorem read_pages (m : Mem) (a k : Nat) : (List.range k).flatMap (fun p => m.read (a + 4096 * p) 4096) = m.read a (4096 * k) := by
  induction k with
  | zero => rfl
  | succ k ih =>
    rw [List.range_succ, List.flatMap_append, ih, read_eq m a, read_eq m a, Nat.mul_succ, List.range_add, List.map_append]
    simp [read_eq, Nat.add_assoc]

theorem take_leBytes : ∀ (k n x : Nat), k ≤ n → (leBytes n x).take k = leBytes k x
  | 0, n, x, _ => by simp [leBytes]
  | k + 1, 0, x, h => by omega
  | k + 1, n + 1, x, h => by simp [leBytes, take_leBytes k n (x / 256) (by omega)]

theorem drop_leBytes : ∀ (k n x : Nat), k ≤ n → (leBytes n x).drop k = leBytes (n - k) (x / 256 ^ k)
  | 0, n, x, _ => by simp
  | k + 1, 0, x, h => by omega
  | k + 1, n + 1, x, h => by
    simp only [leBytes, List.drop_succ_cons, drop_leBytes k n (x / 256) (by omega), Nat.div_div_eq_div_mul]
    rw [show n + 1 - (k + 1) = n - k by omega, show 256 * 256 ^ k = 256 ^ (k + 1) by ring]

theorem field_header (x o n : Nat) (t : List Byte) (h : o + n ≤ 64) : field (leBytes 64 x ++ t) o n = x / 256 ^ o % 256 ^ n := by
  unfold field
  rw [List.drop_append_of_le_length (by simp; omega), List.take_append_of_le_length (by simp; omega), drop_leBytes o 64 _ (by omega),
    take_leBytes n _ _ (by omega), leNat_leBytes]

theorem header_eq : imageHeader core1 0 = leBytes 64 (0x04800001 + 0x200000 * 2 ^ 32 + (Config.imageCheck 0).toNat * 2 ^ 192) := by
  have h1 : (core1.mx.queue.any (·.started)) = false := by decide
  have h3 : core1.mx.queue.length = 0 := by decide
  unfold imageHeader
  simp only [h1, h3, if_false, Bool.false_eq_true, Nat.add_zero, Nat.zero_mod, Nat.zero_mul]
  rw [if_neg (by decide), Nat.add_zero]

theorem drop_header (x : Nat) (t : List Byte) : (leBytes 64 x ++ t).drop 64 = t := by
  exact List.drop_left' (length_leBytes 64 x)

theorem imageBytes_is : imageIs imageBytes 0 = true := by
  have hl := (Config.imageCheck 0).isLt
  have e : ∀ t, imageIs (imageHeader core1 0 ++ t) 0 = (t == (List.range (0x200000 - 64)).map fun i => Config.imageByte 0 (64 + i)) := by
    intro t
    have h0 := field_header (0x04800001 + 0x200000 * 2 ^ 32 + (Config.imageCheck 0).toNat * 2 ^ 192) 0 4 t (by omega)
    have h1 := field_header (0x04800001 + 0x200000 * 2 ^ 32 + (Config.imageCheck 0).toNat * 2 ^ 192) 24 8 t (by omega)
    rw [header_eq]
    unfold imageIs
    rw [h0, h1, drop_header, show (0x04800001 + 0x200000 * 2 ^ 32 + (Config.imageCheck 0).toNat * 2 ^ 192) / 256 ^ 0 % 256 ^ 4 = 0x04800001 by omega,
      show (0x04800001 + 0x200000 * 2 ^ 32 + (Config.imageCheck 0).toNat * 2 ^ 192) / 256 ^ 24 % 256 ^ 8 = (Config.imageCheck 0).toNat by omega]
    simp only [beq_self_eq_true, Bool.true_and]
  exact (e _).trans (beq_self_eq_true _)

theorem witness_MatrixSync : (running .C []).Issues { maj := 33 } [] ∧ (running .C []).Issues { maj := 35 } [] ∧
    (running .C []).myCore.mx.queue = [] := ⟨issues_of (by decide), issues_of (by decide), by decide⟩

theorem witness_MatrixSync_save : (machine .T (frozenCore false)).Issues { maj := 35, priv := true } [1] ∧ (frozenCore false).mx.frozen = true ∧
    (frozenCore false).mx.parked = false ∧ ∃ s3, State.saveRun (imageHeader (frozenCore false) 0) 0 0x00FF000000040000 (List.range 512)
      { machine .T (frozenCore false) with free := 1 } = (none, s3) :=
  ⟨issues_of (by decide), rfl, rfl,
    save_pages _ 0 _ (by omega) _ _ (fun p hp => by have := List.mem_range.mp hp; omega) (by decide) (by decide) (by decide)⟩

theorem witness_MatrixSync_gate : ((machine .T core1).Issues { maj := 34 } [] ∧ (machine .T core1).asyncOpen = false ∧
      (machine .T core1).cr = .T ∧ (machine .T core1).myCore.mx.parked = false) ∧
    ((machine .C (frozenCore false)).Issues { maj := 34 } [] ∧ (machine .C (frozenCore false)).asyncOpen = false ∧
      (machine .C (frozenCore false)).cr ≠ .T ∧ (machine .C (frozenCore false)).myCore.mx.frozen = true) ∧
    ((machine .T (frozenCore true)).Issues { maj := 34 } [] ∧
      ((machine .T (frozenCore true)).myCore.mx.parked = true ↔ (machine .T (frozenCore true)).cr = .T)) :=
  ⟨⟨issues_of (by decide), by decide, rfl, rfl⟩, ⟨issues_of (by decide), by decide, by decide, rfl⟩, issues_of (by decide), by decide⟩

theorem image_read : (Mem.write [] 0x40000 imageBytes).read 0x40000 (4096 * 512) = imageBytes := by
  have e2 : imageBytes.length = 4096 * 512 := by
    unfold imageBytes imageHeader
    simp only [List.length_append, length_leBytes, List.length_map, List.length_range]
  rw [← e2]; exact Mem.read_write_same [] _ _

/-- A restore finds the image that its pages hold. -/
theorem restore_finds (m : Mem) (bs : List Byte) (h : m.read 0x40000 (4096 * 512) = bs) (hi : imageIs bs 0 = true) :
    (parkedState m).Issues { maj := 35, priv := true } [1] ∧ (parkedState m).asyncOpen = false ∧ (parkedState m).myCore.mx.parked = true ∧
      (parkedState m).myCore.recPending (parkedState m).cr 1 = false ∧ (parkedState m).myCore.haltedOf (parkedState m).cr = none ∧
      (parkedState m).me.get 1 = 0x00FF000000040000 ∧ (parkedState m).myCore.mx.queue = [] ∧ (parkedState m).me.stores = [] ∧
      ∃ xs s1 x, State.loadSites 0x00FF000000040000 (List.range 512) (parkedState m) = .ok (xs, s1) ∧ xs.any (fun z => s1.sitePoison z 4096) = false ∧
        s1.images.find? (fun y => imageIs (xs.flatMap fun z => s1.siteGet z 4096) y.n) = some x := by
  refine ⟨issues_of rfl, rfl, rfl, rfl, rfl, rfl, rfl, rfl, ?_⟩
  have hl := load_pages 0x00FF000000040000 (parkedState m) (by omega) rfl rfl rfl (List.range 512)
    (fun p hp => by have := List.mem_range.mp hp; omega)
  refine ⟨_, _, ⟨0, core1.mx, [], [], []⟩, hl, ?_, ?_⟩
  · have hq : (parkedState m).myCore.ppoison = [] := rfl
    rw [List.any_map, List.any_eq_false]
    intro p _
    rw [Function.comp_apply, site_clean _ hq]
    exact Bool.false_ne_true
  · have e : ((List.range 512).map fun p => Site.own (0x00FF000000040000 + 4096 * p - 0x00FF000000000000)).flatMap
        (fun z => (parkedState m).siteGet z 4096) = bs := by
      have e1 : ∀ p : Nat, 0x00FF000000040000 + 4096 * p - 0x00FF000000000000 = 0x40000 + 4096 * p := by omega
      have hpo : (parkedState m).myCore.pool = m := rfl
      simp only [List.flatMap_map, e1, State.siteGet, hpo]
      rw [read_pages, h]
    have hx : (parkedState m).images = [⟨0, core1.mx, [], [], []⟩] := rfl
    rw [e, hx]
    simp only [List.find?_cons, hi]

theorem witness_MatrixSync_restore : ∃ m : Mem, (parkedState m).Issues { maj := 35, priv := true } [1] ∧
    (parkedState m).me.get 1 = 0x00FF000000040000 ∧
    ∃ xs s1 x, State.loadSites 0x00FF000000040000 (List.range 512) (parkedState m) = .ok (xs, s1) ∧ xs.any (fun z => s1.sitePoison z 4096) = false ∧
      s1.images.find? (fun y => imageIs (xs.flatMap fun z => s1.siteGet z 4096) y.n) = some x :=
  have h := restore_finds (Mem.write [] 0x40000 imageBytes) imageBytes image_read imageBytes_is
  ⟨_, h.1, h.2.2.2.2.2.1, h.2.2.2.2.2.2.2.2⟩

/-- Entry of word i alone in the matrix queue of core 0, a move in the vector queue too; slot 5 holds a row with tag 7, expected
as `x`. -/
def matrixState (i : Instr) (gs : List Word) (full : Bool) (x : Nat) : State :=
  machine .C { core1 with
    mx := { core1.mx with queue := [⟨3, .C, i, gs, false, false, none, false, [], [], false, 0, none⟩] },
    vq := if isMove i then [⟨3, .C, i, [], 0, 0, 0, none⟩] else [],
    slots := core1.slots.set 5 ⟨slotDef, slotWord 7 x full false⟩ }

theorem witness_MatrixMoves :
    MatrixAlone (.maZero 15) (matrixState (.maZero 15) [] false 0) 0 ⟨3, .C, .maZero 15, [], false, false, none, false, [], [], false, 0, none⟩ ∧
    MatrixAlone (.maMovTv 1 7 2 63) (matrixState (.maMovTv 1 7 2 63) [] false 0) 0
      ⟨3, .C, .maMovTv 1 7 2 63, [], false, false, none, false, [], [], false, 0, none⟩ ∧
    MatrixAlone (.maMovVt 1 7 2 63) (matrixState (.maMovVt 1 7 2 63) [] false 0) 0
      ⟨3, .C, .maMovVt 1 7 2 63, [], false, false, none, false, [], [], false, 0, none⟩ :=
  ⟨⟨rfl, rfl, by decide, by decide, by decide, by decide, fun h => (by cases h), fun h => (by cases h)⟩,
    ⟨rfl, rfl, by decide, by decide, by decide, by decide, fun _ => ⟨_, rfl, rfl, rfl, rfl, rfl⟩, fun _ => by decide⟩,
    ⟨rfl, rfl, by decide, by decide, by decide, by decide, fun _ => ⟨_, rfl, rfl, rfl, rfl, rfl⟩, fun _ => by decide⟩⟩

theorem witness_MatrixMoves_pool :
    MatrixAlone (.maMovTp 1 2) (matrixState (.maMovTp 1 2) [0x40000] false 0) 0 ⟨3, .C, .maMovTp 1 2, [0x40000], false, false, none, false, [], [], false, 0, none⟩ ∧
    MatrixAlone (.maMovSum 1 14 1) (matrixState (.maMovSum 1 14 1) [] false 0) 0 ⟨3, .C, .maMovSum 1 14 1, [], false, false, none, false, [], [], false, 0, none⟩ ∧
    MatrixAlone (.maLdb 1 2047 0) (matrixState (.maLdb 1 2047 0) [2047, 4] false 0) 0
      ⟨3, .C, .maLdb 1 2047 0, [2047, 4], false, false, none, false, [], [], false, 0, none⟩ :=
  ⟨⟨rfl, rfl, by decide, by decide, by decide, by decide, fun h => (by cases h), fun h => (by cases h)⟩,
    ⟨rfl, rfl, by decide, by decide, by decide, by decide, fun h => (by cases h), fun h => (by cases h)⟩,
    ⟨rfl, rfl, by decide, by decide, by decide, by decide, fun h => (by cases h), fun h => (by cases h)⟩⟩


theorem witness_MatrixMultiply :
    (∀ full x, MatrixAlone (.maMm 1 5 0 0 1 1) (matrixState (.maMm 1 5 0 0 1 1) [slotDef, 4, 4] full x) 0
      ⟨3, .C, .maMm 1 5 0 0 1 1, [slotDef, 4, 4], false, false, none, false, [], [], false, 0, none⟩) ∧ slotRows slotDef ≤ 128 ∧
    (((matrixState (.maMm 1 5 0 0 1 1) [slotDef, 4, 4] true 7).core 0).slots[5].full = true ∧
      ((matrixState (.maMm 1 5 0 0 1 1) [slotDef, 4, 4] true 7).core 0).slots[5].tag = 7 ∧
      ((matrixState (.maMm 1 5 0 0 1 1) [slotDef, 4, 4] true 7).core 0).slots[5].exp = 7) ∧
    ((matrixState (.maMm 1 5 0 0 1 1) [slotDef, 4, 4] false 7).core 0).slots[5].full = false ∧
    ((matrixState (.maMm 1 5 0 0 1 1) [slotDef, 4, 4] true 8).core 0).slots[5].exp = 8 :=
  ⟨fun _ _ => ⟨rfl, rfl, by decide, ⟨rfl, rfl⟩, rfl, ⟨rfl, rfl⟩, fun h => (by cases h), fun h => (by cases h)⟩, by decide, by decide, by decide, by decide⟩

/-- A fill of one column from a page of e4m3. -/
def fillState : State :=
  { matrixState (.maLdw 1 2 3) [0x40006000, 0x80000, 0, 4] false 0 with mem := tables.write 0x6030 (leBytes 8 0x1050100F) }

def fillB (r : State × Nat × Option Stall) (n : Nat) : Bool := r.2.1 == n && r.2.2.isNone

theorem fill_ok {r : State × Nat × Option Stall} {n : Nat} (h : fillB r n = true) : ∃ s, r = (s, n, none) := by
  obtain ⟨s, m, o⟩ := r
  simp only [fillB, Bool.and_eq_true, beq_iff_eq, Option.isNone_iff_eq_none] at h
  exact ⟨s, by rw [h.1, h.2]⟩

theorem witness_MatrixMultiply_fill : ∃ e : MEnt, MatrixAlone (.maLdw 1 2 3) fillState 0 e ∧
    ∃ s2, State.fillRun 0 { e with started := true } e.fillLen 0 (fillState.upCore 0 fun k => (k.upEnt e.id fun x => { x with started := true })) = (s2, e.fillLen, none) :=
  ⟨_, ⟨rfl, rfl, by decide, by decide, by decide, by decide, fun h => (by cases h), fun h => (by cases h)⟩, fill_ok (by decide)⟩

/-- L has a store and a record of a lost store outstanding. -/
def recordState : State := machine .L { core1 with recs := core1.recs.set 0 (some ⟨.L, .store ⟨1, 0x9000, none, [], false, 0x9000, 1, 1, none⟩, ⟨0x0C, 0, 0x9000, 2⟩, false⟩) }

theorem witness_OrderingWords : (running .L []).Issues { maj := 15 } [] ∧ (running .L []).Issues { maj := 16 } [] ∧
    (running .L []).acqWaits 5 = false ∧ requesting.acqWaits 2 = true ∧ (running .L []).storeRecord 0 .L = false ∧
    (running .L []).storeLost 0 .L = false ∧ recordState.storeRecord recordState.cc recordState.cr = true ∧ (running .L []).release 5 = .go ∧
    storing.release 1 = .wait ∧ (running .L []).asyncBusy 0 .L (efenSel 0) = false ∧ (running .L []).myCore.asyncRec .L (efenSel 0) = false ∧
    (queued (.vaddI32 .all 1 2 3)).asyncBusy 0 .C (efenSel 0) = true :=
  ⟨issues_of (by decide), issues_of (by decide), by decide, by decide, by decide, by decide, by decide, rfl, rfl, by decide, by decide, by decide⟩

/-- An invalidation of core 0's T of the pages from 0x8000, done or not. -/
def invalState (done : Bool) : State :=
  { (machine .T core1).upMyCore fun k => k.fillTlb 0 0x8000 0x2801F with invals := [⟨3, some (0, .T), 4, 0, 0, 1, 0x8000, 0, 1, done⟩] }

theorem witness_TranslationWords : (running .T [(1, 0x8000), (2, 0x10000)]).Issues { maj := 17, priv := true } [1, 2] ∧ (running .T []).me.stores = [] ∧
    (∃ v ∈ (invalState false).invals, v.owner = some (invalState false).cur ∧ v.done = false) ∧
    (∀ v ∈ (invalState true).invals, v.owner = some (invalState true).cur → v.done = true) ∧
    (∃ v, (invalState false).invals[0]? = some v ∧ v.covers 0 = true ∧ (invalState false).using v = false) ∧
    (running .L [(1, 0x40003000)]).Issues { maj := 18 } [1] ∧
    (∃ pa e, (running .L []).walk 0 0 0x40003000 = .leaf pa e ∧ (!leafBusy e && leafSize e == 0 && leafTier e == 0) = true) ∧
    (∃ pa e, (running .L []).walk 0 0 0x40002000 = .leaf pa e ∧ leafBusy e = true) ∧
    (∃ l c x, (running .L []).walk 0 0 0x40007000 = .stop l c x ∧ (c == cPAGE && x != 0x0B) = true) ∧
    (running .T [(1, 0x40003000)]).Issues { maj := 18, priv := true } [1] :=
  ⟨issues_of (by decide), by decide, ⟨_, List.mem_singleton.mpr rfl, by decide, rfl⟩, by decide, ⟨_, rfl, by decide⟩, issues_of (by decide),
    leaf_ok (by decide), leaf_ok (by decide), stop_ok (by decide), issues_of (by decide)⟩

/-- Frame records at 0x70_0000 (counts 2 of frame 0x101, 5 of 0x103, 1 of 0x105), a frame list at 0x2_0000 for stack 0 and for
region 0's breaks of 4 KiB, a reclaim ring at 0x2_1000, a page of stack BD2 at 0x4000_8000, copy-on-write pages at 0x4000_A000 (BUSY),
0x4000_B000 (count 1) and 0x4001_0000 (16 KiB), and a page of T1 at 0x4000_C000. -/
def pageMem : Mem :=
  ([(0x700404, 4, 2), (0x70040C, 4, 5), (0x20000, 8, 1), (0x20040, 8, 0x200), (0x21010, 8, 8), (0x30000, 8, 0x010F0000FFFF),
    (0x30010, 8, 0xFFFFFFFFFFFFFFFF), (0x30030, 8, 0x20000), (0x6040, 8, 0x20000000000F), (0x700414, 4, 1),
    (0x6050, 8, 0x1014010F), (0x6058, 8, 0x1050010F), (0x6080, 8, 0x1100410F), (0x6060, 8, 0x100000000002F)] : List (Nat × Nat × Nat)).foldl (fun m x => m.write x.1 (leBytes x.2.1 x.2.2)) tables

def pages (r : Role) (g : List (Fin 32 × Word)) (l : List Move) : State :=
  { running r g with
    mem := pageMem, sys := ((State.reset.sys.set 0 0x1000).set 1 0x700000).set 4 0x30000,
    lists := (State.reset.lists.set 0 0x20000).set 10 0x21000, dies := State.reset.dies.set 0 { Die.reset with moves := l } }

/-- Breaks and migrations in hand: a break of a shared page, migrations of a page and of none, a break whose page is not copy-on-write,
of a BUSY page, of a page of one owner, of a larger page, and three whose leaves are locked. -/
def moveState : State :=
  pages .T [] [⟨5, 0, 0x40001000, true, 0, 0, none, 0, 0, false, none⟩, ⟨6, 0, 0x40008000, false, 0, 0x200, none, 0, 0, true, none⟩,
    ⟨7, 0, 0x40009000, false, 0, 0x201, none, 0, 0, true, none⟩, ⟨8, 0, 0x40003000, true, 0, 0, none, 0, 0, false, none⟩,
    ⟨9, 0, 0x4000A000, true, 0, 0, none, 0, 0, false, none⟩, ⟨10, 0, 0x4000B000, true, 0, 0, none, 0, 0, false, none⟩,
    ⟨11, 0, 0x40010000, true, 0, 0, none, 0, 0, false, none⟩, ⟨12, 0, 0x4000B000, true, 0, 0, some 1, 0x6058, 0, false, none⟩,
    ⟨13, 0, 0x40001000, true, 0, 0x200, some 2, 0x6008, 0, false, none⟩, ⟨14, 0, 0x4000B000, true, 0, 0x200, some 2, 0x6058, 0, false, none⟩]

/-- A read of T of the line at `pa` is outstanding. -/
def usingState (pa : Nat) : State :=
  moveState.upCore 0 fun k => { k with reqs := [⟨5, .T, pa, none, 0x40001000, 1, ⟨0x8000, 0, 0⟩, 0, true, 0, true, false, .load (.g 5) 8 false⟩] }

/-- The same with a frame budget of 0 for region 0. -/
def poorState : State := { pages .L [] [] with mem := pageMem.write 0x30014 (leBytes 4 0) }

theorem witness_PagesAndFrames :
    ((pages .L [(1, 0x40008000), (2, 0x3C)] []).Issues { maj := 18 } [1, 2] ∧ (pages .L [] []).me.stage = .none ∧ bits 0x3C 2 4 = 15 ∧
      ∃ pa e, (pages .L [] []).walk 0 0 0x40008000 = .leaf pa e ∧
        ((pages .L [] []).migStatus 0 0 15 e == 0 && leafTier e == 0 && leafSize e == 0 && optB ((pages .L [] []).targetFrame 0 0 15) fun x => x.1 == 0x200) = true) ∧
    (∃ pa e, (pages .L [] []).walk 0 0 0x4000C000 = .leaf pa e ∧ ((pages .L [] []).migStatus 0 0 15 e == 0 && leafTier e == 1 &&
      fits 6 20 136 1 ((pages .L [] []).lineage 0 0) && !(fits 6 20 136 1 (poorState.lineage 0 0))) = true) ∧
    (∃ pa e, (pages .L [] []).walk 0 0 0x40003000 = .leaf pa e ∧ ((pages .L [] []).migStatus 0 0 15 e == 1) = true) ∧
    ((pages .L [] []).targetFrame 0 1 15).isNone = true :=
  ⟨⟨issues_of (by decide), by decide, by decide, leaf_ok (by decide)⟩, leaf_ok (by decide), leaf_ok (by decide), by decide⟩

theorem witness_PagesAndFrames_break :
    (∃ m, (moveState.die 0).moves[0]? = some m ∧ m.cow = true ∧ m.ended = none ∧ m.locked = none ∧ ∃ pa e, moveState.walk 0 m.asid m.va = .leaf pa e ∧
      (leafCow e && !leafBusy e && moveState.frameCount (leafFrame e) == 2 &&
        optB (moveState.takeFrame 0 (moveState.cowList 0 m.region (leafSize e))) fun x => x.1 == 0x200) = true) ∧
    (∃ m, (moveState.die 0).moves[3]? = some m ∧ m.cow = true ∧ m.locked = none ∧ ∃ pa e, moveState.walk 0 m.asid m.va = .leaf pa e ∧
      (!leafCow e) = true) ∧
    (∃ m, (moveState.die 0).moves[4]? = some m ∧ m.cow = true ∧ m.locked = none ∧ ∃ pa e, moveState.walk 0 m.asid m.va = .leaf pa e ∧
      (leafCow e && leafBusy e) = true) ∧
    (∃ m, (moveState.die 0).moves[5]? = some m ∧ m.cow = true ∧ m.locked = none ∧ ∃ pa e, moveState.walk 0 m.asid m.va = .leaf pa e ∧
      (leafCow e && !leafBusy e && moveState.frameCount (leafFrame e) == 1) = true) ∧
    (∃ m, (moveState.die 0).moves[6]? = some m ∧ m.cow = true ∧ m.locked = none ∧ ∃ pa e, moveState.walk 0 m.asid m.va = .leaf pa e ∧
      (leafCow e && !leafBusy e && leafSize e == 1 && moveState.frameCount (leafFrame e) != 1 &&
        (moveState.takeFrame 0 (moveState.cowList 0 m.region (leafSize e))).isNone) = true) :=
  ⟨⟨_, rfl, by decide, by decide, by decide, leaf_ok (by decide)⟩, ⟨_, rfl, by decide, by decide, leaf_ok (by decide)⟩,
    ⟨_, rfl, by decide, by decide, leaf_ok (by decide)⟩, ⟨_, rfl, by decide, by decide, leaf_ok (by decide)⟩,
    ⟨_, rfl, by decide, by decide, leaf_ok (by decide)⟩⟩

theorem witness_PagesAndFrames_copy :
    (∃ m, (moveState.die 0).moves[7]? = some m ∧ m.cow = true ∧ m.locked = some 1 ∧ ∃ pa e, moveState.walk 0 m.asid m.va = .leaf pa e ∧
      (!moveState.leafInUse e) = true) ∧
    (∃ m, ((usingState 0x101040).die 0).moves[8]? = some m ∧ m.locked = some 2 ∧ ∃ pa e, (usingState 0x101040).walk 0 m.asid m.va = .leaf pa e ∧
      (usingState 0x101040).leafInUse e = true) ∧
    (∃ m, (moveState.die 0).moves[8]? = some m ∧ m.cow = true ∧ m.locked = some 2 ∧ ∃ pa e, moveState.walk 0 m.asid m.va = .leaf pa e ∧
      (!moveState.leafInUse e && (moveState.copyPage (leafFrame e) m.frame (sizeFrames (leafSize e))).frameCount (leafFrame e) == 2) = true) ∧
    (∃ m, (moveState.die 0).moves[9]? = some m ∧ m.cow = true ∧ m.locked = some 2 ∧ ∃ pa e, moveState.walk 0 m.asid m.va = .leaf pa e ∧
      (!moveState.leafInUse e && (moveState.copyPage (leafFrame e) m.frame (sizeFrames (leafSize e))).frameCount (leafFrame e) == 1) = true) :=
  ⟨⟨_, rfl, by decide, by decide, leaf_ok (by decide)⟩, ⟨_, rfl, by decide, leaf_ok (by decide)⟩,
    ⟨_, rfl, by decide, by decide, leaf_ok (by decide)⟩, ⟨_, rfl, by decide, by decide, leaf_ok (by decide)⟩⟩

theorem witness_PagesAndFrames_end :
    (∃ m, (moveState.die 0).moves[1]? = some m ∧ m.cow = false ∧ m.ended = none ∧ ∃ pa e, moveState.walk 0 m.asid m.va = .leaf pa e ∧
      (leafSize e == 0 && (moveState.lost 0 (leafFrame e * 4096)).isNone && (moveState.lost 0 (m.frame * 4096)).isNone &&
        !(moveState.leafInUse e) && (moveState.reclaim 0 (leafFrame e)).isSome && ({ moveState with hostup := false }.reclaim 0 (leafFrame e)).isNone &&
        (usingState 0x200000001000).leafInUse e == false && ({ moveState with chips := moveState.chips.set 10 .quarantined }.lost 0 (m.frame * 4096)).isSome) = true) ∧
    (∃ m, (moveState.die 0).moves[2]? = some m ∧ m.cow = false ∧ m.ended = none ∧ ∃ l c x, moveState.walk 0 m.asid m.va = .stop l c x ∧ true = true) ∧
    (pages .T [(1, 0x40003000), (2, 5)] []).Issues { maj := 19, priv := true } [1, 2] ∧
    (∃ f, (pages .T [(1, 0x40003000)] []).countedFrame 0x40003000 = .ok f ∧ (f == some 0x103 && (pages .T [] []).frameCount 0x103 == 5) = true) ∧
    ((moveState.upMe fun t => { t with stage := .mig 6 }).me.stage = .mig 6 ∧ (∃ m ∈ (moveState.die 0).moves, m.id = 6 ∧ m.ended = none)) :=
  ⟨⟨_, rfl, by decide, by decide, leaf_ok (by decide)⟩, ⟨_, rfl, by decide, by decide, stop_ok (by decide)⟩, issues_of (by decide), ex_ok (by decide),
    by decide, by decide⟩

/-- Slot 31 of the barrier memory holds word w; L has these registers. -/
def slotState (w : Nat) (g : List (Fin 32 × Word)) : State :=
  (running .L g).upMyCore fun k => { k with pool := k.pool.write (0x780000 + 64 * 31) (leBytes 32 w) }

/-- A barrier of scope 1 with c arrivals to come of 2, armed, no bytes owed; with `b` in byte mode 2. -/
def barWord (c b : Nat) : Nat := 2 ^ 62 + 2 ^ 59 + b * 2 ^ 57 + 2 ^ 53 + c * 2 ^ 80 + 2 * 2 ^ 64

def semWord (v : Nat) : Nat := 2 * 2 ^ 62 + 2 ^ 59 + v * 2 ^ 192

theorem witness_SlotSetup : (slotState 0 [(1, 31), (2, 2)]).Issues { maj := 39 } [1, 2] ∧ (slotState 0 []).me.stage = .none ∧
    (slotState 0 []).myCore.postRec .L = false ∧ (slotState 0 []).myCore.slotWaited 31 = false ∧
    ((slotState 0 []).upThr 0 .S fun t => { t with stage := .bwait 31 0 }).myCore.slotWaited 31 = true ∧
    (bits 0 0 16 = 0 ∧ bits 0 16 2 = 0 ∧ bits 0x20000 16 2 = 2 ∧ bits 2 16 2 < 3 ∧ 0 < bits 2 0 16) ∧
    (slotState 0 [(1, 31), (2, 2)]).Issues { maj := 40 } [1, 2] :=
  ⟨issues_of (by decide), by decide, by decide, by decide, by decide, by decide, issues_of (by decide)⟩

theorem witness_BarrierWords : (slotState (barWord 2 0) [(1, 0x4000001F)]).Issues { maj := 39 } [1] ∧ bits 0x4000001F 0 32 = 2 ^ 30 + 31 ∧
    (slotState (barWord 2 0) []).asyncOpen = false ∧ (slotState (barWord 2 0) []).release 1 = .go ∧
    (slotState (barWord 2 0) []).postBehind 0 .L 20 (.member 0 31) = false ∧
    (bits ((slotState (barWord 2 0) []).myCore.slotW 31) 62 2 = 1 ∧ bits ((slotState (barWord 2 0) []).myCore.slotW 31) 80 16 = 2) ∧
    (bits ((slotState (barWord 1 0) []).myCore.slotW 31) 80 16 = 1 ∧ bits ((slotState (barWord 1 0) []).myCore.slotW 31) 53 1 = 1 ∧
      bits ((slotState (barWord 1 0) []).myCore.slotW 31) 128 64 = 0 ∧ (slotState (barWord 1 0) []).myCore.ovr[(31 : Fin 32)].cur = false) ∧
    bits ((slotState (barWord 1 2) []).myCore.slotW 31) 57 2 = 2 :=
  ⟨issues_of (by decide), by decide, by decide, rfl, by decide, by decide, by decide, by decide⟩

theorem witness_BarrierWords_wait : (slotState (barWord 2 0) [(1, 0x8000001F), (2, 0xFFFF)]).Issues { maj := 39 } [1, 2] ∧
    (bits 0x8000001F 0 32 = 2 * 2 ^ 30 + 0 * 2 ^ 26 + 31 ∧ (slotState 0 []).myCore.teamsz = 1 ∧ (slotState 0 []).targetScope 0x8000001F = 0) ∧
    (bits 0xC0000020 0 32 = 3 * 2 ^ 30 + 1 * 32 ∧ (slotState 0 []).targetScope 0xC0000020 = 0 ∧ (slotState 0 []).myCore.hcache = []) ∧
    (passed (bits ((slotState (barWord 2 0) []).myCore.slotW 31) 16 16) 0xFFFF = true ∧
      overrunDetail 31 ((slotState (barWord 2 0) []).myCore.bslot 31) 0xFFFF = none ∧ (slotState (barWord 2 0) []).acqWaits 1 = false) ∧
    passed (bits ((slotState (barWord 2 0) []).myCore.slotW 31) 16 16) 0 = false ∧ bits ((slotState 0 []).myCore.slotW 31) 62 2 ≠ 1 :=
  ⟨issues_of (by decide), by decide, by decide, by decide, by decide, by decide⟩

theorem witness_SemaphoreWords : (slotState (semWord 5) [(1, 0x4000001F), (2, 5)]).Issues { maj := 40 } [1, 2] ∧
    (slotState (semWord 5) []).release 1 = .go ∧ (slotState (semWord 5) []).postBehind 0 .L 20 (.member 0 31) = false ∧
    (bits ((slotState (semWord 5) []).myCore.slotW 31) 62 2 = 2 ∧ (slotState (semWord 5) []).myCore.semq = [] ∧
      (5 : Word).toInt ≤ sint 64 (bits ((slotState (semWord 5) []).myCore.slotW 31) 192 64) ∧ (slotState (semWord 5) []).acqWaits 1 = false) ∧
    sint 64 (bits ((slotState (semWord 5) []).myCore.slotW 31) 192 64) < (6 : Word).toInt ∧ bits ((slotState 0 []).myCore.slotW 31) 62 2 ≠ 2 :=
  ⟨issues_of (by decide), rfl, by decide, by decide, by decide, by decide⟩

/-- Directory entry 9 of die 0 names slot 31 of the task's only member; core 0 has posted to handle 9 × 128 + 1. -/
def handleState (g : List (Fin 32 × Word)) : State :=
  { (slotState (barWord 2 0) g).upMyCore fun k => { k with posts := [⟨3, .L, .handle 1153, .arrive, false⟩] } with
    dies := State.reset.dies.set 0 { Die.reset with bh := [⟨9, 1, some (1, 0, 31)⟩] } }

theorem witness_BarrierHandles : (slotState (barWord 2 0) [(1, 31)]).Issues { maj := 39 } [1] ∧ (slotState (barWord 2 0) []).dirUp 0 0 = true ∧
    (slotState (barWord 2 0) []).handleOf 1 0 31 = none ∧ (handleState []).handleOf 1 0 31 = some 1153 ∧
    (slotState 0 []).handleLive 1153 = none ∧ (handleState []).handleLive 1153 = some ((handleState []).myCore.taskid, 0, 31) ∧
    (handleState []).dirUp 0 (hndDie 1153) = true ∧ ((handleState []).core 0).handlePosts 1153 ≠ [] ∧ 0 ∈ (Die.reset).bhFree :=
  ⟨issues_of (by decide), by decide, by decide, by decide, by decide, by decide, by decide, by decide,
    List.mem_filter.mpr ⟨List.mem_range.mpr (by decide), rfl⟩⟩

/-- Core 0 has one event of a kind on its way to slot 31 of its own member. -/
def posted (k : PostKind) : State := (slotState (barWord 2 2) []).upMyCore fun c => { c with posts := [⟨3, .L, .member 0 31, k, false⟩] }

theorem witness_PostedEvents : ∀ k ∈ [PostKind.arrive, .bytes 64, .expect 64, .semSet 1, .semAdd 1],
    (posted k).member 0 0 = some 0 ∧ (posted k).postMay 0 ⟨3, .L, .member 0 31, k, false⟩ = true ∧ ((posted k).core 0).semq = [] ∧
      ((posted k).core 0).posts[0]? = some ⟨3, .L, .member 0 31, k, false⟩ := by decide

theorem witness_ChannelWords : ((running .L [(1, 0x33F), (2, 0x40000)]).upMyCore fun k => { k with chcnt := 31 }).Issues { maj := 41 } [1, 2] ∧
    (bits 0x33F 0 5 = 31 ∧ bits 0x33F 9 1 = 1 ∧ bits 0x33F 10 4 = 0 ∧ bits 0x3F 9 1 = 0 ∧ bits 0x3F 5 4 = 1) ∧
    chanState.Issues { maj := 41 } [1] ∧ chanState.Issues { maj := 41, chans := [3] } [] ∧ chanState.pushing 0 1 = false ∧
    chanState.myCore.chanWaited 1 = false ∧ chanState.myCore.chans[0].ring ≠ [] ∧
    (chanState.myCore.chans[1].eosm.contains 0 = false ∧ chanState.myCore.chans[6].refuses 0 = true ∧ chanState.myCore.chans[1].full = false) ∧
    ({ chanState with cores := chanState.cores }.upMyCore fun k => { k with posts := [⟨3, .S, .member 0 0, .push 1 4 1 7 none, true⟩] }).pushBehind 0 1 3 = false ∧
    (chanState.myCore.chans[1].link = false ∧ chanState.myCore.chans[1].refuses 7 = false ∧ chanState.myCore.chans[1].ring.length + (chanState.myCore.chans[1].claims - 1) < 2 ^ 2) :=
  ⟨issues_of (by decide), by decide, issues_of (by decide), issues_of (by decide), by decide, by decide, by decide, by decide, by decide, by decide⟩

/-- L has the descriptor at 0x40000 of its pool, named by g1; g2 is the index or pattern operand; slot 5 is defined. -/
def copyMachine (src dst : Nat) : State :=
  (running .L [(1, 0x00FF000000040000), (2, 0x9000)]).upMyCore fun k =>
    { k with pool := (k.pool.write 0x40000 (leBytes 16 (src + dst * 2 ^ 64))).write 0x40020 (leBytes 8 (1 + 64 * 2 ^ 32)),
             slots := k.slots.set 5 ⟨0x0001004000040000, 0⟩ }

def copyOk (i : Instr) (src dst : Nat) : Bool :=
  okB ((copyMachine src dst).site 0x00FF000000040000 64 .watch 64 none fun _ => false) fun x s1 => match x with
    | .own o => (s1.copyCheck ⟨s1.nextOp, .L, i, descOf (s1.myCore.pool.read o 64), 0x9000, 0, false, [], 0, [], [], [], none⟩).isNone &&
        !(s1.sitePoison x 64) && s1.myCore.reqs.all fun q => !(q.touches (x.pool 0) x.ms x.addr 64)
    | _ => false

theorem witness_CopyIssue : ((copyMachine 0 0).Issues { maj := 36 } [1] ∧ (copyMachine 0 0).Issues { maj := 36, sub := true } [1, 2] ∧
      (copyMachine 0 0).Issues { maj := 37 } [1, 2] ∧ (copyMachine 0 0).myCore.recPending .L 0 = false ∧ (copyMachine 0 0).me.stores = []) ∧
    copyOk (.cpCopy 1 3) 0x00FF000000041000 0x00FF000000042000 = true ∧ copyOk (.cpCopyTs 1 3) 0x00FF000000041000 5 = true ∧
    copyOk (.cpCopyRc 1 2 3) 0x00FF000000041000 0x8000 = true ∧ copyOk (.cpGath 1 2 3 0) 0x8000 0x00FF000000042000 = true ∧
    copyOk (.cpScat 1 2 3) 0x00FF000000041000 0x8000 = true ∧ copyOk (.cpFill 1 2 3 0) 0 0x00FF000000042000 = true :=
  ⟨⟨issues_of (by decide), issues_of (by decide), issues_of (by decide), by decide, by decide⟩, by decide, by decide, by decide, by decide,
    by decide, by decide⟩

/-- A copy of 64 bytes between places of the own pool, alone in the queue; or a producer into slot 5. -/
def copying (i : Instr) (dst done : Nat) (st full : Bool) : State :=
  machine .L { core1 with
    cq := [⟨3, .L, i, { descOf (List.replicate 64 0) with src := 0x00FF000000041000, dst := dst, rows := 1, len := 64 }, 0, 0, st, [], done, [], [], [], none⟩],
    slots := core1.slots.set 5 ⟨0x0001004000040000, slotWord 0 0 full false⟩ }

/-- A started entry alone in the copy queue of core 0, its descriptor changed by `f`, with these indices and operand. -/
def copyEnt (i : Instr) (f : CDesc → CDesc) (idx : List Int) (gb : Word) : CEnt :=
  ⟨3, .L, i, f { descOf (List.replicate 64 0) with src := 0x00FF000000041000, dst := 0x00FF000000042000, rows := 2, len := 64 }, gb, 0, true, idx,
    0, [], [], [], none⟩

def copyRun (e : CEnt) : State :=
  { machine .L { core1 with cq := [e] } with mem := tables.write 0x6030 (leBytes 8 0x1050100F) }

def rowsEnt : CEnt := copyEnt (.cpCopy 1 3) (fun d => { d with sstr := 128, dstr := -64 }) [] 0

def gathEnt : CEnt := copyEnt (.cpGath 1 2 3 0) (fun d => { d with sstr := 64, dstr := 64 }) [3, -1] 0

def scatEnt : CEnt := copyEnt (.cpScat 1 2 3) (fun d => { d with sstr := 64, dstr := 64, bar := 2 ^ 30 + 31 }) [5, 2] 0

def convEnt : CEnt := copyEnt (.cpCopy 1 3) (fun d => { d with sstr := 4, dstr := 2, len := 1, sfmt := 1, dfmt := 2 }) [] 0

def mxEnt : CEnt := copyEnt (.cpCopy 1 3) (fun d => { d with rows := 1, len := 32, sfmt := 1, dfmt := 6 }) [] 0

def typedEnt : CEnt := copyEnt (.cpCopy 1 3) (fun d => { d with rows := 1, len := 1, sfmt := 1, dst := 0x40006000, dix := 5 }) [] 0

theorem copyRuns_of (e : CEnt) (h : e.started = true ∧ e.done = 0 ∧ e.ahead = [] ∧ e.bad = [] ∧ e.kept = [] ∧ e.stop = none) (hn : e.slot = none ∧ isRc e.op = false) :
    (copyRun e).CopyRuns 0 e := ⟨rfl, h, hn, ⟨fun _ => by simp [copyRun, machine, State.core, core1, Core.reset], rfl, rfl⟩,
    (show 0x78 * 65536 ≤ 0x780000 by decide)⟩

theorem witness_CopyEvents_raw :
    ((copyRun rowsEnt).CopyRuns 0 rowsEnt ∧ (copyRun rowsEnt).CopyFrom 0 rowsEnt (fun r => 0x41000 + 128 * r) 64 ∧
      (copyRun rowsEnt).CopyTo 0 rowsEnt (fun r => 0x42000 - 64 * r) 64) ∧
    ((copyRun gathEnt).CopyRuns 0 gathEnt ∧ (copyRun gathEnt).CopyFrom 0 gathEnt (fun r => if r = 0 then 0x410C0 else 0x40FC0) 64 ∧
      (copyRun gathEnt).CopyTo 0 gathEnt (fun r => 0x42000 + 64 * r) 64) ∧
    ((copyRun scatEnt).CopyRuns 0 scatEnt ∧ (copyRun scatEnt).CopyFrom 0 scatEnt (fun r => 0x41000 + 64 * r) 64 ∧
      (copyRun scatEnt).CopyTo 0 scatEnt (fun r => if r = 0 then 0x42140 else 0x42080) 64) ∧
    ((copyRun (copyEnt (.cpFill 1 2 3 0) id [] 7)).CopyRuns 0 (copyEnt (.cpFill 1 2 3 0) id [] 7) ∧
      (copyRun (copyEnt (.cpFill 1 2 3 0) id [] 7)).CopyTo 0 (copyEnt (.cpFill 1 2 3 0) id [] 7) (fun _ => 0x42000) 64) := by
  refine ⟨⟨copyRuns_of _ (by decide) (by decide), ?_, ?_⟩, ⟨copyRuns_of _ (by decide) (by decide), ?_, ?_⟩,
    ⟨copyRuns_of _ (by decide) (by decide), ?_, ?_⟩, copyRuns_of _ (by decide) (by decide), ?_⟩
  all_goals first | unfold State.CopyFrom | unfold State.CopyTo
  all_goals decide

theorem witness_CopyEvents_converted :
    ((copyRun convEnt).CopyRuns 0 convEnt ∧ (copyRun convEnt).CopyFrom 0 convEnt (fun r => 0x41000 + 4 * r) 4 ∧
      (copyRun convEnt).CopyTo 0 convEnt (fun r => 0x42000 + 2 * r) 2 ∧ fmtBits 1 / 8 = 4 ∧ fmtBits 2 / 8 = 2) ∧
    ((copyRun mxEnt).CopyRuns 0 mxEnt ∧ (copyRun mxEnt).CopyFrom 0 mxEnt (fun _ => 0x41000) (4 * fmtBits 1) ∧
      (copyRun mxEnt).CopyTo 0 mxEnt (fun _ => 0x42000) (4 * mxW 6) ∧ isMx 6 = true ∧ 0x42000 + imageSO 6 + 1 ≤ ((copyRun mxEnt).core 0).bnds * 65536) ∧
    ((copyRun typedEnt).CopyRuns 0 typedEnt ∧ (copyRun typedEnt).CopyFrom 0 typedEnt (fun _ => 0x41000) 4) := by
  refine ⟨⟨copyRuns_of _ (by decide) (by decide), ?_, ?_, by decide⟩, ⟨copyRuns_of _ (by decide) (by decide), ?_, ?_, by decide⟩,
    copyRuns_of _ (by decide) (by decide), ?_⟩
  all_goals first | unfold State.CopyFrom | unfold State.CopyTo
  all_goals decide

def engB (r : EngRes) (p : Nat → Nat → State → Bool) : Bool :=
  match r with
  | .ok pa l s => p pa l s
  | _ => false

theorem eng_ok {r : EngRes} {p : Nat → Nat → State → Bool} (h : engB r p = true) : ∃ pa l s, r = .ok pa l s ∧ p pa l s = true := by
  unfold engB at h; split at h
  · exact ⟨_, _, _, rfl, h⟩
  · cases h

theorem witness_CopyEvents_typed :
    (∃ l, (copyRun typedEnt).engLeaf 0 3 0 0x40006000 = .ok l ∧ leafFmt l = 4) ∧
    (∃ pa l s1, (copyRun typedEnt).engAt 0 3 0 0x40006005 .write true = .ok pa l s1 ∧
      (leafFmt l == 4 && s1.roomFor 0 .copy 1 && !(s1.fillLocked 0 .L 0x40006005 pa 1) && pa % 64 == 5) = true) ∧
    (∃ e, ((copyRun { gathEnt with started := false, idx := [], gb := 0x00FF000000050000 }).core 0).cq = [e] ∧ e.op = .cpGath 1 2 3 0 ∧
      e.started = false ∧ e.gb.toNat = 0x00FF000000000000 + 0x50000 ∧ (copyRun { gathEnt with started := false, idx := [] }).producerWaits 0 e = false) ∧
    (∃ pa l, (running .L []).walk 0 0 0x40002000 = .leaf pa l ∧ (leafAccess .write true l == none && leafBusy l && inWindow 0x40002000 == false) = true) :=
  ⟨⟨_, rfl, by decide⟩, eng_ok (by decide), ⟨_, rfl, rfl, rfl, by decide, by decide⟩, leaf_ok (by decide)⟩

theorem witness_CopyEvents :
    (∃ e, ((copying (.cpCopy 1 3) 0x00FF000000042000 0 false false).core 0).cq = [e] ∧ e.started = false ∧ e.d.sfmt = 0 ∧ e.d.rows = 1 ∧
      e.d.src = 0x00FF000000000000 + 0x41000 ∧ tgKind e.d.bar = 0 ∧ ∀ i : Fin 32, core1.recs[i] = none) ∧
    (∃ e, ((copying (.cpCopyTs 1 3) 5 64 true false).core 0).cq[0]? = some e ∧ e.slot = some (0, 5) ∧
      (copying (.cpCopyTs 1 3) 5 64 true false).member 0 0 = some 0 ∧ e.started = true ∧ e.d.rows * e.d.len ≤ e.done) ∧
    (∃ e, ((copying (.cpCopyTs 1 3) 5 0 false true).core 0).cq[0]? = some e ∧ e.started = false ∧
      (copying (.cpCopyTs 1 3) 5 0 false true).producerWaits 0 e = true) ∧
    (∃ pa l, (running .L []).walk 0 0 0x40003FC0 = .leaf pa l ∧ (leafAccess .write true l == none && !leafBusy l && !leafCow l &&
      (running .L []).lost 0 (leafAddr l 0x40003FC0) == none && inWindow 0x40003FC0 == false) = true) :=
  ⟨⟨_, rfl, by decide⟩, ⟨_, rfl, by decide⟩, ⟨_, rfl, by decide⟩, leaf_ok (by decide)⟩

theorem witness_TileSlots : (running .L [(1, 5), (2, slotDef)]).Issues { maj := 38 } [1, 2] ∧ (running .L []).myCore.recPending .L 0 = false ∧
    (bits slotDef.toNat 60 4 < 11 ∧ bits slotDef.toNat 0 6 = 0 ∧ bits slotDef.toNat 23 15 = 0 ∧ bits slotDef.toNat 38 10 ≠ 0 ∧
      core1.bndv * 65536 ≤ 64 * bits slotDef.toNat 6 17 ∧
      64 * bits slotDef.toNat 6 17 + 64 * bits slotDef.toNat 38 10 * bits slotDef.toNat 48 12 ≤ core1.bnds * 65536) ∧
    (running .L []).pend 0 5 = false ∧ (running .L []).myCore.slotLock 5 = false ∧ bits 0xB000000000000000 60 4 = 11 ∧
    (copying (.cpCopyTs 1 3) 5 0 false true).pend 0 5 = true ∧
    ((copying (.cpCopyTs 1 3) 5 0 false true).myCore.slots[5].full = true ∧ (copying (.cpCopyTs 1 3) 5 0 false true).myCore.slots[5].tag = 0) ∧
    (copying (.cpCopyTs 1 3) 5 0 false false).myCore.slots[5].full = false ∧
    bits ((copying (.cpCopyTs 1 3) 5 0 false false).myCore.slots[6]).defw.toNat 48 12 = 0 :=
  ⟨issues_of (by decide), by decide, by decide, by decide, by decide, by decide, by decide, by decide, by decide, by decide⟩

/-- A zero 1 × 1 state of one head, in slab 0, as entry 5 of die 0: its handle. -/
def fw0 : FwState := ⟨1, 1, 1, false, false, [], [], [], [], [], .grotto, [0], [], [], [], 0⟩

def fwH : Nat := 0x1000000000005

/-- C has resolved fwH; a chunk descriptor of one token and one head at 0x40000, an average of one source at 0x42000. -/
def fwState (g : List (Fin 32 × Word)) : State :=
  let p := ((running .C g).myCore.pool.write 0x40000 ((List.replicate 6 0x00FF000000041000).flatMap (leBytes 8))).write 0x42000
    (leBytes 8 fwH ++ leBytes 8 fwH)
  { (running .C g).upMyCore (fun k => { k with fwcache := [fwH, 2 * 2 ^ 48 + 5], pool := p }) with
    dies := State.reset.dies.set 0 { Die.reset with fw := [⟨5, 1, some fw0⟩], slabs := [⟨0, 0, false⟩] } }

def fwGs : List (Fin 32 × Word) := [(1, 0x00FF000000040000), (2, word fwH), (3, 0x00FF000000042000), (4, 1)]

def chunkEnt (i : Instr) : FEnt :=
  ⟨0, .C, i, [0x00FF000000040000, word fwH], (fwState fwGs).myCore.pool.read 0x40000 64, 0, 0, [], false, [], 0, none, false, [], [], []⟩

theorem witness_FastWeightIssue : ((fwState fwGs).Issues { maj := 42 } [1, 2] ∧ (fwState fwGs).Issues { maj := 43 } [2, 3] ∧
      (fwState fwGs).Issues { maj := 44 } [2, 4] ∧ (fwState fwGs).Issues { maj := 45 } [2, 4]) ∧
    (fwState fwGs).myCore.recPending (fwState fwGs).cr 3 = false ∧ (fwState fwGs).asyncOpen = false ∧ (fwState fwGs).myCore.fwq.length < 8 ∧
    (fwState fwGs).me.stores = [] ∧ (fwState fwGs).fwNames ((fwState fwGs).me.get 2) true fw0 ∧
    (∀ i ∈ [Instr.fwFu 1 2 5, .fwFwd 1 2 5, .fwUpd 1 2 5], (fwState fwGs).chunkCheck (chunkEnt i) fw0 = none) ∧
    ((0 : Word).toNat < 2 ^ 24 ∧ ((fwState fwGs).me.get 3).toNat % 4096 = 0) :=
  ⟨⟨issues_of (by decide), issues_of (by decide), issues_of (by decide), issues_of (by decide)⟩, by decide, by decide, by decide, by decide,
    ⟨by decide, fwH, rfl, by decide, by decide, by decide, by decide, by decide⟩, by decide, by decide⟩

theorem witness_FastWeightIssue_avg :
    (bits ((fwState fwGs).me.get 4).toNat 0 5 = 1 ∧ (fwState fwGs).myCore.scratchCheck [(((fwState fwGs).me.get 3).toNat, 24, 64)] = none) ∧
    (∀ i, i < 1 → field ((fwState fwGs).myCore.pool.read 0x42000 24) (16 * i + 20) 4 = 0) ∧
    ∀ i, i ≤ 1 → (fwState fwGs).fwNames (word (field ((fwState fwGs).myCore.pool.read 0x42000 24) (if i = 0 then 0 else 16 * i - 8) 8)) true fw0 := by
  refine ⟨by decide, by decide, fun i hi => ?_⟩
  have h : i = 0 ∨ i = 1 := by omega
  rcases h with rfl | rfl
  · exact ⟨by decide, fwH, rfl, by decide, by decide, by decide, by decide, by decide⟩
  · exact ⟨by decide, fwH, rfl, by decide, by decide, by decide, by decide, by decide⟩

theorem witness_FastWeightIssue_checks :
    ((fwState [(1, 0)]).Issues { maj := 43 } [1] ∧ (fwState []).myCore.ctx = none ∧ (fwState []).me.stores = [] ∧
      ((fwState []).upMyCore fun k => { k with recs := k.recs.set 0 (some ⟨.C, .fw (chunkEnt (.fwFu 1 2 5)), ⟨0x0C, 0, 0, 0⟩, false⟩) }).myCore.recPending .C 3 = true) ∧
    bits 0x1000000008005 15 25 ≠ 0 ∧ bits 0x1010000000005 40 8 ≠ (fwState []).chipn ∧
    ((fwState []).myCore.fwcache.contains 0x1000000002005 = false ∧
      { fwState [] with chips := (fwState []).chips.set 1 .quarantined }.fwDirUp 0 (fhDie 0x1000000002005) = false) ∧
    ((fwState []).myCore.fwcache.contains 0x2000000000005 = true ∧ (fwState []).fwFind 0x2000000000005 = none) :=
  ⟨⟨issues_of (by decide), by decide, by decide, by decide⟩, by decide, by decide, by decide, by decide⟩

/-- Core 0's queue holds one form on the state of `fwState`, started or not, with or without its result; `p` is where the state lies. -/
def fwWork (i : Instr) (started : Bool) (hs : List Nat) (out : Option Word) (p : Place) : State :=
  let e : FEnt := { chunkEnt i with id := 3, geo := fw0.geoList, started := started, hs := hs, out := out }
  let e1 := match i with
    | .fwFu _ _ _ => e
    | .fwFwd _ _ _ => e
    | _ => { e with gs := [word fwH, 0] }
  let f := { fw0 with place := p, frames := if p = .grotto then [] else (List.range 16).map (0x80000000 + ·), sw := if p = .grotto then [0] else [] }
  { (fwState []).upCore 0 (fun k => { k with fwq := [e1], fwwant := [fwH] }) with
    mem := pageMem, sys := ((State.reset.sys.set 0 0x1000).set 1 0x700000).set 4 0x30000,
    dies := State.reset.dies.set 0 { Die.reset with fw := [⟨5, 1, some f⟩], slabs := if p = .grotto then [⟨0, 0, false⟩] else [] },
    xfers := if !(started || out.isSome || p == .grotto || hs.isEmpty) then [⟨9, 1, 0, 0, 0, { e1 with started := true }, 5, 0, none, none, false⟩] else [] }

theorem pick_ok (s : State) (d : Fin 4) (n : Nat) (hn : n < 8192)
    (h : ((s.fwAt d n).isNone && s.xfers.all fun x => !(x.target == d.val && x.tix == some n)) = true) :
    ∃ ix, s.fwPick d = some (ix, { s with free := s.free + 1 }) := by
  have hm := List.mem_filter (p := fun i => (s.fwAt d i).isNone && s.xfers.all fun x => !(x.target == d.val && x.tix == some i)).mpr ⟨List.mem_range.mpr hn, h⟩
  have hl := List.length_pos_of_mem hm
  unfold State.fwPick
  dsimp only
  exact ⟨_, by rw [List.getElem?_eq_getElem (Nat.mod_lt _ hl)]; rfl⟩

def readyB (r : Option (FEnt × Except Nat (List Nat))) (l : List Nat) : Bool :=
  match r with
  | some (_, .ok m) => l == m
  | _ => false

theorem witness_FastWeightEvents_open : ∃ e, ((fwWork (.fwOpen 1 5) false [] none .grotto).core 0).fwq = [e] ∧ e.op = .fwOpen 1 5 ∧
    (fwWork (.fwOpen 1 5) false [] none .grotto).fwReady 0 = some (e, .ok []) ∧
    ∃ ix s1, (fwWork (.fwOpen 1 5) false [] none .grotto).fwPick 0 = some (ix, s1) ∧
    ∃ l s2, s1.takeSlabs 0 e.region (List.replicate (openState e.ga.toNat e.region).slabCount false) = some (l, s2) := by
  refine ⟨_, rfl, rfl, rfl, ?_⟩
  obtain ⟨ix, h⟩ := pick_ok (fwWork (.fwOpen 1 5) false [] none .grotto) 0 0 (by decide) (by decide)
  obtain ⟨x, hx, -⟩ := opt_ok (p := fun _ => true) (r := State.takeSlabs { fwWork (.fwOpen 1 5) false [] none .grotto with free := 1 } 0 0
    (List.replicate (openState fwH 0).slabCount false)) (by decide +kernel)
  exact ⟨ix, _, h, x.1, x.2, hx⟩

theorem witness_FastWeightEvents :
    (∀ i ∈ [Instr.fwStat 1 5, .fwFree 1 5], readyB ((fwWork i false [] none .grotto).fwReady 0) [fwH] = true ∧
      (fwWork i false [] none .grotto).fwFind fwH = some fw0) ∧
    (∀ i ∈ [Instr.fwFu 1 2 5, .fwFwd 1 2 5], ∃ e, ((fwWork i true [fwH] none .grotto).core 0).fwq = [e] ∧ e.hs = [fwH] ∧
      (e.heads fw0)[e.head]? = some 0 ∧ e.spec = false ∧ e.started = true ∧ e.out = none) ∧
    (∃ e, ((fwWork (.fwFu 1 2 5) true [fwH] (some 0) .grotto).core 0).fwq = [e] ∧ e.out = some 0) ∧
    ((fwWork (.fwFu 1 2 5) true [fwH] none .grotto).core 0).fwwant = [fwH] := by
  refine ⟨by decide, ?_, ⟨_, rfl, rfl⟩, rfl⟩
  intro i h
  simp only [List.mem_cons, List.not_mem_nil, or_false] at h
  rcases h with rfl | rfl
  · exact ⟨_, rfl, rfl, by decide, by decide, rfl, rfl⟩
  · exact ⟨_, rfl, rfl, by decide, by decide, rfl, rfl⟩

def pageState : State := fwWork (.fwFu 1 2 5) false [] none .t2

def moveInState : State := fwWork (.fwPage 1 0 5 2) false [fwH] none .t2

theorem lost_none (s : State) (a : Fin 4) (hh : s.hostup = true) (hc : ∀ d, s.cdUp d = true) (hr : ∀ d, s.routeUp a d = true)
    (hb : ∀ b, s.bdUp b = true) (h9 : s.chipUp 9 = true) (pa : Nat) : s.lost a pa = none := by
  simp [State.lost, State.hostCut, hh, hc, hr, hb, h9]

theorem pageIn_ok (s : State) (d : Fin 4) (ix : Nat) (f : FwState) (x : List Nat × State) (hf : s.fwAt d ix = some f)
    (hl : ∀ pa, s.lost d pa = none) (ht : s.takeSlabs d f.region (s.fwMarks d f) = some x) : ∃ s1, s.fwIn d ix = .ok s1 := by
  have h : s.framesLost d f.frames = false := by simp [State.framesLost, hl]
  exact ⟨((x.2.fwSet d ix (f.settle x.1)).fwLeave d f), by simp only [State.fwIn, hf, h, ht]; rfl⟩

theorem witness_FastWeightEvents_page :
    (readyB (pageState.fwReady 0) [fwH] = true ∧ pageState.fwPaged fwH = true ∧ ∃ s1, pageState.fwIn (fhDie fwH) (fhIx fwH) = .ok s1) ∧
    (∃ x f, moveInState.xfers[0]? = some x ∧ x.e.hs = [fwH] ∧ moveInState.fwFind fwH = some f ∧ moveInState.cdUp (Fin.ofNat 4 x.die) = true ∧
      x.e.op = .fwPage 1 0 5 2) ∧
    ∃ s1, moveInState.fwIn 0 5 = .ok s1 := by
  obtain ⟨x, hx, -⟩ := opt_ok (p := fun _ => true) (r := pageState.takeSlabs 0 0 [false]) (by decide +kernel)
  obtain ⟨y, hy, -⟩ := opt_ok (p := fun _ => true) (r := moveInState.takeSlabs 0 0 [false]) (by decide +kernel)
  exact ⟨⟨by decide, by decide, pageIn_ok pageState 0 5 _ x rfl
      (lost_none pageState 0 rfl (by decide) (by decide) (by decide) (by decide)) hx⟩, ⟨_, _, rfl, rfl, rfl, by decide, rfl⟩,
    pageIn_ok moveInState 0 5 _ y rfl (lost_none moveInState 0 rfl (by decide) (by decide) (by decide) (by decide)) hy⟩

/-- C names context 1 of four (g1), descriptors of zeros (g2), of an SK.OPEN (g3) and of a lattice (g4), and an area (g5). -/
def seqState (g : List (Fin 32 × Word)) (q : List SEnt) : State :=
  let p := ((running .C g).myCore.pool.write 0x42000 (leBytes 8 0x9000 ++ leBytes 4 4096 ++ leBytes 4 1 ++ [255])).write 0x43000
    (leBytes 8 0x00FF000000044000 ++ leBytes 8 0x00FF000000045000)
  { (running .C g).upMyCore (fun k => { k with pool := p, sq := q }) with sys := ((State.reset.sys.set 0 0x1000).set 2 0x40000).set 3 4 }

def seqGs : List (Fin 32 × Word) :=
  [(1, 1), (2, 0x00FF000000040000), (3, 0x00FF000000042000), (4, 0x00FF000000043000), (5, 0x00FF000000046000), (6, 7)]

def seqAt : State := seqState seqGs []

theorem witness_SequenceIssue : (∀ m ∈ [46, 47, 48, 49, 50], issuesB seqAt { maj := m } [1, 2, 3, 4, 5] = true) ∧
    (seqAt.myCore.recPending .C 4 = false ∧ seqAt.asyncOpen = false ∧ seqAt.myCore.sq.length < 16 ∧ seqAt.me.stores = []) ∧
    ctxIx (seqAt.me.get 1).toNat < seqAt.ctxn ∧ seqAt.ctxn ≤ ctxIx (seqAt.me.get 6).toNat ∧
    (seqAt.myCore.scratchCheck [((seqAt.me.get 2).toNat, 64, 64)] = none ∧ ((seqAt.poolAt (seqAt.me.get 2).toNat 64).drop 24).any (· != 0) = false ∧
      field (seqAt.poolAt (seqAt.me.get 2).toNat 64) 0 8 = 0) ∧
    (seqAt.myCore.scratchCheck [((seqAt.me.get 4).toNat, 64, 64)] = none ∧
      seqAt.myCore.scratchCheck [(field (seqAt.poolAt (seqAt.me.get 4).toNat 64) 8 8, 2048, 4)] = none ∧
      latticeRsv (seqAt.poolAt (seqAt.me.get 4).toNat 64) = false ∧
      seqAt.myCore.scratchCheck [(field (seqAt.poolAt (seqAt.me.get 4).toNat 64) 0 8, 512, 4),
        (field (seqAt.poolAt (seqAt.me.get 4).toNat 64) 8 8, 2048, 4)] = none) ∧
    (seqAt.me.get 5).toNat % 64 = 0 := by decide

theorem witness_SequenceIssue_sinks :
    (seqAt.myCore.scratchCheck [((seqAt.me.get 3).toNat, 64, 64)] = none ∧ field (seqAt.poolAt (seqAt.me.get 3).toNat 64) 17 1 = 0 ∧
      ((seqAt.poolAt (seqAt.me.get 3).toNat 64).drop 20).any (· != 0) = false ∧ field (seqAt.poolAt (seqAt.me.get 3).toNat 64) 16 1 = 255 ∧
      field (seqAt.poolAt (seqAt.me.get 3).toNat 64) 8 4 = 4096 ∧ field (seqAt.poolAt (seqAt.me.get 3).toNat 64) 0 8 % 64 = 0 ∧
      ctxIx (word (field (seqAt.poolAt (seqAt.me.get 3).toNat 64) 12 4)).toNat < seqAt.ctxn) ∧
    seqAt.myCore.scratchCheck [((seqAt.me.get 5).toNat, 528, 64)] = none ∧ seqAt.myCore.scratchCheck [((seqAt.me.get 5).toNat, 128, 64)] = none ∧
    seqAt.storeRecord seqAt.cc seqAt.cr = false ∧
    (seqAt.upMyCore fun k => { k with recs := k.recs.set 0 (some ⟨.C, .seq ⟨1, .C, .skDraw 1 2, [], [], 0, 0, false, [], [], none, 0, none⟩, ⟨0x0C, 0, 0, 0⟩, false⟩) }).myCore.recPending .C 4 = true ∧
    (seqAt.upMe fun t => { t with relUpto := some 3, stores := [⟨1, 0x9000, none, [], false, 0x9000, 1, 1, none⟩] }).asyncOpen = true ∧
    16 ≤ (seqState seqGs (List.replicate 16 ⟨1, .C, .skDraw 1 2, [], [], 0, 0, false, [], [], none, 0, none⟩)).myCore.sq.length := by decide

/-- Context 1 is bound to a grammar of region 0 (ASID 0) whose mask area lies on a page that is not mapped. -/
def maskState : State :=
  { seqAt with
    mem := (((tables.write 0x30000 (leBytes 8 0x0100FFFF)).write 0x40100 [0x08]).write 0x40138 (leBytes 8 0x40007000)),
    sys := seqAt.sys.set 4 0x30000 }

def faultB (r : SeqM State) : Bool :=
  match r with
  | .error (.fault _) => true
  | _ => false

theorem fault_ok {r : SeqM State} (h : faultB r = true) : ∃ x, r = .error (.fault x) := by
  unfold faultB at h; split at h
  · exact ⟨_, rfl⟩
  · cases h

theorem witness_SequenceIssue_mask : maskState.Issues { maj := 47 } [1] ∧ maskState.asyncOpen = false ∧
    maskState.readyAt 1 = some (0, 0x40007000) ∧ ∃ x, maskState.setReady maskState.cc 0 0x40007000 (2 ^ 64) 0 none = .error (.fault x) :=
  ⟨issues_of (by decide), by decide, by decide +kernel, fault_ok (by decide +kernel)⟩
/-- An entry of C's word i with these operands, which has started with these records, or has not. -/
def seqEnt (i : Instr) (g : List Word) (r : List Nat) (st : Bool) (sent : Option Nat) : SEnt :=
  ⟨3, .C, i, g, if sent.isSome then List.replicate 128 0 else [], 0, 0, st, if st then [1] else [], r, sent, 0, none⟩

def seqWork (i : Instr) (g : List Word) (r : List Nat) (st : Bool) (sent : Option Nat) : State := seqState [] [seqEnt i g r st sent]

def starting : State := seqWork (.cxPause 1 5) [1] [] false none

/-- Base die 0 holds an open row of four logits at 0x9000, whose one line has landed. -/
def sinkRow : Row := ⟨[(0x9000, 16)], 4, 1, none, [], 0, 0, 0, 0x3F800000, 64, none, [0], [], [], [], false, false, false⟩

/-- SK.DRAW of that row has not started. -/
def drawState : State :=
  { seqWork (.skDraw 1 5) [0x10002] [] false none with bds := State.reset.bds.set 0 { rows := [⟨2, 1, some sinkRow⟩] } }

theorem witness_SequenceEvents_start :
    (((seqWork (.skClose 1 2 5 0) [0, 0] [] false none).core 0).sq[0]? = some (seqEnt (.skClose 1 2 5 0) [0, 0] [] false none) ∧
      (seqEnt (.skClose 1 2 5 0) [0, 0] [] false none).locks = []) ∧
    ((seqEnt (.skOpen 1 5) [0] [] false none).locks = [] ∧
      ∃ r, (seqWork (.skOpen 1 5) [0] [] false none).recRead 0 (ctxIx (field (seqEnt (.skOpen 1 5) [0] [] false none).desc 12 4)) = .ok r ∧ true = true) ∧
    ((seqEnt (.skDraw 1 5) [0x10002] [] false none).locks = [] ∧ (drawState.core 0).sq[0]? = some (seqEnt (.skDraw 1 5) [0x10002] [] false none) ∧
      drawState.rowOf 0x10002 = some sinkRow ∧ ∃ r, drawState.recRead 0 1 = .ok r ∧ true = true) ∧
    ((starting.core 0).sq[0]? = some (seqEnt (.cxPause 1 5) [1] [] false none) ∧ (seqEnt (.cxPause 1 5) [1] [] false none).locks = [1] ∧
      (starting.core 0).sqBehind 0 0 (seqEnt (.cxPause 1 5) [1] [] false none) = false ∧ starting.storesDone 0 .C 3 = true) ∧
    (∃ r, starting.ctxRead 0 1 = .ok r ∧ (r == 0 && !(cLOCK r)) = true) ∧
    (∃ r, { starting with mem := starting.mem.write 0x40100 [0x80] }.ctxRead 0 1 = .ok r ∧ cLOCK r = true) ∧
    ∃ s1, starting.ctxStore 0 1 [fLOCK] (setBits 0 7 1 1) = .ok s1 ∧
      exB ((s1.upSq 0 3 fun _ => { seqEnt (.cxPause 1 5) [1] [] false none with locked := [1] }).recRead 0 1) (fun r => r == 0x80) = true :=
  ⟨⟨rfl, rfl⟩, ⟨rfl, ex_ok (by decide +kernel)⟩, ⟨rfl, rfl, by decide, ex_ok (by decide +kernel)⟩,
    ⟨rfl, by decide, by decide, by decide⟩, ex_ok (by decide +kernel), ex_ok (by decide +kernel), ex_ok (by decide +kernel)⟩

/-- A running form on context 1 whose record read r. -/
def seqRuns (i : Instr) (b r : Nat) : State := seqWork i [1, word b] [r] true none

theorem witness_SequenceEvents_contexts :
    (∀ i ∈ [Instr.cxStart 1 5 0, .cxPause 1 5, .cxSpec 1 2 5, .cxCommit 1 2 5, .grStep 1 2 5 0, .grMask 1 5, .grLatt 1 2 5, .grRoll 1 2 5],
      ((seqRuns i 1 7).core 0).sq[0]? = some (seqEnt i [1, 1] [7] true none) ∧ (seqEnt i [1, 1] [7] true none).recOf 1 = 7) ∧
    (cSTATE 3 = 3 ∧ cSTATE 0 ≠ 3 ∧ cGB 7 = false ∧ 64 < cNJ (64 * 2 ^ 288) + 1 ∧ cNJ 0 + 1 ≤ 64 ∧ cNJ 0 < 1 ∧ 1 ≤ cNJ (2 ^ 288) ∧
      (cJRN (2 ^ 288)).getD 0 0 ≠ 5 ∧ bits 0x50081 8 1 = 0 ∧ bits 0x50081 7 1 = 1 ∧ bits 0x50081 16 16 = 5) ∧
    (∃ s1, (seqRuns (.cxStart 1 5 1) 0 0).recStore 0 1 [fSTATE, fRESET] (setRESET (setSTATE 0 1) true) = .ok s1 ∧ true = true) ∧
    (∃ s1, (seqRuns (.cxPause 1 5) 0 0).recStore 0 1 [fSTATE] (setSTATE 0 2) = .ok s1 ∧ true = true) ∧
    (∃ s1, (seqRuns (.cxSpec 1 2 5) 1 0).recStore 0 1 (fWIN :: fJournal) (setBits (setJRN 0 (cJRN 0 ++ List.replicate 1 0)) 36 16 1) = .ok s1 ∧ true = true) ∧
    ∃ s1, (seqRuns (.cxCommit 1 2 5) 1 (2 ^ 288)).recStore 0 1 (fCLEN :: fJournal)
      (setBits (setJRN (2 ^ 288) ((cJRN (2 ^ 288)).drop 1)) 256 32 (cCLEN (2 ^ 288) + 1)) = .ok s1 ∧ true = true :=
  ⟨by decide +kernel, by decide +kernel, ex_ok (by decide +kernel), ex_ok (by decide +kernel), ex_ok (by decide +kernel), ex_ok (by decide +kernel)⟩

def sinkState (i : Instr) (t : Word) : State := { seqWork i [t, 0] [] true none with bds := State.reset.bds.set 0 { rows := [⟨2, 1, some sinkRow⟩] } }

def sending (n k : Nat) : State :=
  { seqWork (.sqSend 1 2 5) [0, 1] [] true (some n) with
    dies := State.reset.dies.set 0 { Die.reset with sq := Die.reset.sq.set 1 ⟨true, 0, [0x9000], 0, k, 1, n + 1⟩ } }

theorem witness_SequenceEvents_sinks :
    (∀ i ∈ [Instr.skClose 1 2 5 0, .skDraw 1 5], (sinkState i 0x10002).bdUp (tkBd 0x10002) = true ∧
      (sinkState i 0x10002).rowOf 0x10002 = some sinkRow ∧ sinkRow.canClose = false ∧ (sinkState i 0x20002).rowOf 0x20002 = none ∧
      { sinkState i 0 with chips := (sinkState i 0).chips.set 10 .quarantined }.bdUp (tkBd 0x10002) = false) ∧
    ((seqWork (.sqRecv 1 2 5) [0, 1] [] true none).specq 0 1).held = 0 ∧ 64 ≤ ((sending 0 63).specq 0 1).held + ((sending 0 63).specq 0 1).flying ∧
    (((sending 0 3).core 0).sq[0]? = some (seqEnt (.sqSend 1 2 5) [0, 1] [] true (some 0)) ∧
      (sending 0 3).sendBehind 0 1 ((sending 0 3).specq 0 1) 0 = false ∧ (sending 0 3).pathHeld 0 0 = false ∧
      (sending 0 3).specUp 0 0 ((sending 0 3).specq 0 1) = true ∧ (seqEnt (.sqSend 1 2 5) [0, 1] [] true (some 0)).sendTo = (0, 1)) ∧
    (((sinkState (.skDraw 1 5) 0).bd 0).row 2 = some sinkRow ∧ ((sinkState (.skDraw 1 5) 0).bd 0).gen 2 < 65536 ∧ tClass sinkRow.temp ≠ .bad ∧
      0 < sinkRow.blockCount ∧ sinkRow.hasLanded 0 = true ∧ (sinkState (.skDraw 1 5) 0).slotReady sinkRow = true ∧
      (sinkState (.skDraw 1 5) 0).bdUp 0 = true) :=
  ⟨by decide, by decide, by decide, ⟨rfl, by decide, by decide, by decide, rfl⟩, by decide⟩

/-- The last page below 2^48 lies in frame 0xD and holds the first queue control records: queue 0 belongs to region 0 and has one
record, whose kernel at 0x51000 asks for one core. -/
def dispMem : Mem :=
  ([(0x3FF8, 8, 0xA00001), (0xAFF8, 8, 0xB00001), (0xBFF8, 8, 0xC00001), (0xCFF8, 8, 0xD0000F), (0xD000, 8, 0x400010000), (0xD008, 8, 0x50000),
    (0xD018, 8, 1), (0x30000, 8, 0x0100FFFF), (0x30008, 8, 0xFFFFFFFF00000000), (0x50008, 8, 0x51000), (0x51000, 8, 0x8000),
    (0x51018, 8, 0x787804),
    (0x30600, 8, 0x0100FFFF)] : List (Nat × Nat × Nat)).foldl (fun m x => m.write x.1 (leBytes x.2.1 x.2.2)) tables

/-- The driver has written its registers, no task lives, and every core is free. -/
def idle : State :=
  { machine .L Core.reset with
    tasks := [], mem := dispMem, sys := ((State.reset.sys.set 0 0x1000).set 4 0x30000).set 5 0xFFFFFFFFF000, sysset := Vector.replicate 11 true }

theorem idle_root : bits idle.sys[0].toNat 12 40 * 4096 + 8 * 0 = 0x1000 := by decide

theorem idle_far (q : Nat) (h1 : 64 ≤ q) (h2 : q < 16384) : idle.qcrRead 0 q = .error (cPAGE, 1) := by
  have e3 : bits idle.sys[0].toNat 12 40 * 4096 + 8 * 0 = 0x1000 := idle_root
  have hb : idle.sysBase 5 = 0xFFFFFFFFF000 := by decide
  have hi : walkIndex 4 (0xFFFFFFFFF000 + 64 * q) = 1 := by
    have h : walkIndex 4 (0xFFFFFFFFF000 + 64 * q) = (0xFFFFFFFFF000 + 64 * q) / 2 ^ 48 % 2 ^ 8 := rfl
    omega
  have h56 : (0xFFFFFFFFF000 + 64 * q) / 2 ^ 56 = 0 := by omega
  have hw : idle.walk 0 0 (0xFFFFFFFFF000 + 64 * q) = .stop 4 cPAGE 1 := by
    have e1 : idle.node 0 0x1000 = .ok 0x200001 := by decide
    have e2 : idle.node 0 0x2008 = .ok 0 := by decide
    have e4 : bits 0x200001 20 40 = 2 := by decide
    unfold State.walk
    rw [if_neg (by rw [h56]; decide)]
    simp only [e3, e1, e4]
    unfold State.walkFrom
    simp only [hi]
    rfl
  have hp : 64 ≤ 4096 - (0xFFFFFFFFF000 + 64 * q) % 4096 := by omega
  have ha : idle.hwAddr 0 0 (0xFFFFFFFFF000 + 64 * q) .read false = .error (cPAGE, 1) := by
    have hn : inWindow (0xFFFFFFFFF000 + 64 * q) = false := by simp only [inWindow]; simp; omega
    unfold State.hwAddr; rw [hw, hn]; rfl
  have hq : pagePieces 2 (0xFFFFFFFFF000 + 64 * q) 64 = [(0xFFFFFFFFF000 + 64 * q, 64)] := by
    rw [pagePieces, if_neg (by decide)]
    simp only [Nat.min_eq_left hp, Nat.sub_self]
    rw [pagePieces, if_pos rfl]
  unfold State.qcrRead State.hwRead State.qcr
  rw [hb, show 64 / 4096 + 2 = 2 from rfl, hq]
  simp only [List.foldl, ha]

def notActive (r : Except (Nat × Nat) (List Byte)) : Bool :=
  match r with
  | .ok b => qSTATE b != 1
  | .error _ => true

theorem idle_other (q : Nat) (h0 : q ≠ 0) (h : q < 16384) : notActive (idle.qcrRead 0 q) = true := by
  by_cases h1 : 64 ≤ q
  · rw [idle_far q h1 h]; rfl
  · have hs : ∀ n : Fin 64, n.val ≠ 0 → notActive (idle.qcrRead 0 n.val) = true := by decide +kernel
    exact hs ⟨q, by omega⟩ h0

theorem quiet_sweep (s : State) (q : Nat) (h : notActive (s.qcrRead 0 q) = true) : s.sweepQueue 0 q = s ∧ s.queueCands 0 q = [] := by
  unfold State.sweepQueue State.queueCands
  cases hq : s.qcrRead 0 q with
  | error e => exact ⟨rfl, rfl⟩
  | ok b =>
    rw [hq] at h
    have hn : qSTATE b ≠ 1 := by simpa [notActive] using h
    simp [hn]

theorem flatMap_first {A : Type} (f : Nat → List A) (n : Nat) (h : ∀ q, q ≠ 0 → q < n + 1 → f q = []) : (List.range (n + 1)).flatMap f = f 0 := by
  induction n with
  | zero => simp
  | succ k ih =>
    rw [List.range_succ, List.flatMap_append, ih fun q h0 hq => h q h0 (by omega), List.flatMap_cons, h (k + 1) (by omega) (by omega)]
    simp

theorem foldl_still {A B : Type} (f : A → B → A) (a : A) (l : List B) (h : ∀ x ∈ l, f a x = a) : l.foldl f a = a := by
  induction l with
  | nil => rfl
  | cons b t ih => rw [List.foldl_cons, h b (List.mem_cons_self ..), ih fun x hx => h x (List.mem_cons_of_mem _ hx)]

/-- What a die finds in queue 0 of `s`: one present, eligible record for one core, at position 0, which it can take. -/
def oneRecord (s : State) : Bool :=
  exB (s.qcrRead 0 0) fun b => (qSTATE b == 1) && (qDIE b == 0) && optB (s.validChain 0 (qREGION b)) fun l =>
    exB (s.window64 0 (chainAsid l) b 65600 64 (qHEAD b)) fun rs => (rs.length == 1) && rs.all fun x =>
      recPresent x.1 x.2 && (s.judge 0 l b x.2 == .eligible) && (teamOf (rTSZ x.2) == 1) && (x.1 == 0) &&
        exB (s.takeRecord 0 0 (chainAsid l) b x.2 0) fun _ => true

theorem oneRecord_found (s : State) (h : oneRecord s = true) : s.sweepQueue 0 0 = s ∧ ∃ (c : Cand) (s2 : State), s.queueCands 0 0 = [c] ∧
    c.what = .record 0 0 ∧ c.size = 1 ∧ s.takeRecord 0 0 (chainAsid c.chain) c.qcr c.rec_ 0 = .ok s2 := by
  obtain ⟨b, hb, h⟩ := ex_ok h
  simp only [Bool.and_eq_true, beq_iff_eq] at h
  obtain ⟨⟨hs, hd⟩, h⟩ := h
  obtain ⟨l, hl, h⟩ := opt_ok h
  obtain ⟨rs, hr, h⟩ := ex_ok h
  simp only [Bool.and_eq_true, beq_iff_eq] at h
  obtain ⟨hn, h⟩ := h
  obtain ⟨x, rfl⟩ := List.length_eq_one_iff.mp hn
  simp only [List.all_cons, List.all_nil, Bool.and_true, Bool.and_eq_true, beq_iff_eq] at h
  obtain ⟨⟨⟨⟨hp, hj⟩, ht⟩, hx⟩, h⟩ := h
  obtain ⟨s2, h2, -⟩ := ex_ok h
  have hne : ¬(qSTATE b ≠ 1 ∨ qDIE b ≠ (0 : Fin 4).val) := by simp [hs, hd]
  refine ⟨?_, ⟨.record 0 x.1, qREGION b, l, teamOf (rTSZ x.2), 0, x.2, b⟩, s2, ?_, by rw [hx], ht, h2⟩
  · simp only [State.sweepQueue, hb, if_neg hne, hl, hr, List.foldl_cons, List.foldl_nil, hp, hj]
    rfl
  · simp only [State.queueCands, hb, if_neg hne, hl, hr]
    simp [hp, hj]

theorem idle_tasks : idle.tasks = [] := rfl

section Refresh
variable (s : State) (r : List (Nat × List Byte)) (d e : Fin 4)
theorem rcbs_qcrRead (q : Nat) : State.qcrRead { s with rcbs := r } e q = s.qcrRead e q := rfl
theorem rcbs_tasks : State.tasks { s with rcbs := r } = s.tasks := rfl
theorem rcbs_die : State.die { s with rcbs := r } e = s.die e := rfl
theorem rcbs_bypasses (h : Held) : State.bypasses { s with rcbs := r } h = s.bypasses h := rfl
theorem rcbs_freeCores : State.freeCores { s with rcbs := r } e = s.freeCores e := rfl
theorem refreshRcbs_qcrRead (q : Nat) : (s.refreshRcbs d).qcrRead e q = s.qcrRead e q := by unfold State.refreshRcbs; exact rcbs_qcrRead ..
theorem refreshRcbs_tasks : (s.refreshRcbs d).tasks = s.tasks := by unfold State.refreshRcbs; exact rcbs_tasks ..
theorem refreshRcbs_die : (s.refreshRcbs d).die e = s.die e := by unfold State.refreshRcbs; exact rcbs_die ..
theorem refreshRcbs_bypasses (h : Held) : (s.refreshRcbs d).bypasses h = s.bypasses h := by unfold State.refreshRcbs; exact rcbs_bypasses ..
theorem refreshRcbs_freeCores : (s.refreshRcbs d).freeCores e = s.freeCores e := by unfold State.refreshRcbs; exact rcbs_freeCores ..
end Refresh

theorem witness_TaskEvents_dispatch : ∃ (s1 s2 : State) (c : Cand), idle.lcs = .operational ∧ idle.dispatchReady = true ∧ idle.cdUp 0 = true ∧
    s1 = (idle.refreshViews 0).sweep 0 ∧ s1.cands 0 = [c] ∧ s1.heldCand 0 [c] = none ∧ c.what = .record 0 0 ∧
    c.size ≤ (s1.freeCores 0).length ∧ s1.takeRecord 0 0 (chainAsid c.chain) c.qcr c.rec_ 0 = .ok s2 := by
  obtain ⟨hs, c, s2, hc, hw, hz, ht⟩ := oneRecord_found (idle.refreshRcbs 0) (by decide +kernel)
  have hv : idle.refreshViews 0 = idle.refreshRcbs 0 := by rw [State.refreshViews, idle_tasks]; rfl
  have ho : ∀ q, q ≠ 0 → q < 16384 → notActive ((idle.refreshRcbs 0).qcrRead 0 q) = true := fun q h0 h => by
    rw [refreshRcbs_qcrRead]; exact idle_other q h0 h
  have hf : (idle.refreshRcbs 0).sweep 0 = idle.refreshRcbs 0 := by
    unfold State.sweep
    refine foldl_still _ _ _ fun q hq => ?_
    by_cases h0 : q = 0
    · rw [h0]; exact hs
    · exact (quiet_sweep _ q (ho q h0 (List.mem_range.mp hq))).1
  have hl : (List.range 16384).flatMap ((idle.refreshRcbs 0).queueCands 0) = [c] := by
    rw [flatMap_first ((idle.refreshRcbs 0).queueCands 0) 16383 fun q h0 hq => (quiet_sweep _ q (ho q h0 hq)).2]
    exact hc
  have hd : (idle.refreshRcbs 0).savedCands 0 = [] := by rw [State.savedCands, refreshRcbs_tasks, idle_tasks]; rfl
  refine ⟨idle.refreshRcbs 0, s2, c, rfl, by decide, by decide, by rw [hv, hf], ?_, ?_, hw, ?_, ht⟩
  · rw [State.cands, hl, hd]
    rfl
  · have hh : (idle.die 0).held = [] := rfl
    have hb : idle.bypasses (.record 0 0) = 0 := rfl
    simp [State.heldCand, refreshRcbs_die, refreshRcbs_bypasses, hw, hh, hb]
  · rw [hz, refreshRcbs_freeCores]
    decide

/-- Task 1 alone in `machine`, with these threads in core 0. -/
def tasked (f : Task → Task) (th : Thread) : State :=
  let s := machine .L { core1 with threads := Vector.replicate 4 th }
  { s with tasks := s.tasks.map f }

/-- The save and resume witnesses have no core to write out or to read: a task of size 0 with no block. -/
def pausing : State := tasked (fun t => { t with preempt := 1, size := 0 }) { thread1 with status := .ended }

def paused : State :=
  (tasked (fun t => { t with preempt := 1, size := 0 }) { Thread.reset with status := .idle }).upThr 0 .L fun t => { t with status := .stopped 0 0 }

/-- The same, with a save block at page `b` and a cancellation that came meanwhile. -/
def stopping (b : Nat) : State := paused.upTask 1 fun t => { t with size := 1, blocks := [b], cancel := true }

/-- A save whose first line has something to write (log 81: the layout is open) stops at a block that is not mapped. -/
theorem witness_TaskEvents_savef (h : core1.savesLine 0 = true) :
    ∃ x, (State.writeBlocks savePages [(0, 0x40007)] 0 0 (stopping 0x40007)).stop = some (.fault x) ∧ x.cause ≠ cDIEX := by
  have hk : ((stopping 0x40007).core 0).savesPage 0 ≠ [] := by
    have h1 : ((stopping 0x40007).core 0).savesLine 0 = true := h
    unfold Core.savesPage
    exact List.ne_nil_of_mem (List.mem_filter.mpr ⟨List.mem_range.mpr (by omega : 0 < 64), h1⟩)
  have he : (stopping 0x40007).engAt 0 3 0 (4096 * (0x40007 + 0)) .write false = .stop (.fault ⟨cPAGE, 1, 0x40007000, 2⟩) := by rfl
  have hw : (State.writeBlock 0 0x40007 savePages 0 0 (stopping 0x40007)).stop = some (.fault ⟨cPAGE, 1, 0x40007000, 2⟩) := by
    show (State.writeBlock 0 0x40007 (9215 + 1) 0 0 (stopping 0x40007)).stop = _
    unfold State.writeBlock
    split
    · exact absurd ‹_› hk
    · rw [he]
  refine ⟨⟨cPAGE, 1, 0x40007000, 2⟩, ?_, by decide⟩
  unfold State.writeBlocks
  simp only [Nat.zero_min, Nat.sub_zero, Nat.add_zero]
  split
  · rename_i hn; rw [hw] at hn; contradiction
  · exact hw

/-- L of task 1 has ended with a record of a store. -/
def leaving : State :=
  let s := tasked id Thread.reset
  (s.upThr 0 .L fun t => { t with status := .ended }).upCore 0 fun k =>
    { k with served := some .S, recs := k.recs.set 0 (some ⟨.L, .store ⟨1, 0x9000, none, [], false, 0x9000, 1, 1, none⟩, ⟨0x0C, 0, 0x9000, 2⟩, false⟩) }

theorem witness_TaskEvents : State.reset.dispatchReady = false ∧
    (∃ t, (tasked (fun t => { t with phase := .formed }) Thread.reset).task 1 = some t ∧ t.phase = .formed ∧ t.cores = [0] ∧ t.ctx = none) ∧
    (∃ t, pausing.task 1 = some t ∧ t.phase = .running ∧ t.cores = [0] ∧ pausing.saveReady t = false) ∧
    (∃ t, paused.task 1 = some t ∧ t.phase = .running ∧ t.cores = [0] ∧ t.preempt = 1 ∧ paused.saveReady t = true ∧
      State.takeBlocks 0 (t.size - t.blocks.length) paused t.blocks = some ([], paused) ∧
      (State.writeBlocks savePages (t.cores.zip []) t.written 0 paused).stop = none ∧ t.cancel = false) ∧
    (∃ t, (stopping 5).task 1 = some t ∧ t.preempt = 1 ∧ t.cancel = true ∧ (stopping 5).saveReady t = true) ∧
    (∃ t, (tasked (fun t => { t with phase := .resuming, saved := [core1] }) Thread.reset).task 1 = some t ∧ t.phase = .resuming ∧ t.cores = [0] ∧
      t.ctx = none ∧ (tasked (fun t => { t with phase := .resuming, saved := [core1] }) Thread.reset).readBlocks 0 savePages (t.saved.zip t.blocks) = .ok [] ∧
      t.results = [] ∧ t.heldEv = [] ∧ t.cores.Nodup) ∧
    (∃ t, (tasked id thread1).task 1 = some t ∧ t.phase = .running ∧ t.cores = [0] ∧ t.preempt ≠ 3 ∧ ((tasked id thread1).core 0).finished = false) ∧
    ∃ t, (tasked id Thread.reset).task 1 = some t ∧ t.phase = .running ∧ t.cores = [0] ∧ t.preempt ≠ 3 ∧
      ((tasked id Thread.reset).core 0).finished = true ∧ (((tasked id Thread.reset).core 0).thr .T).quietT false = true ∧
      (tasked id Thread.reset).drained 0 = true ∧ ((tasked id Thread.reset).core 0).sq = [] ∧ (tasked id Thread.reset).endRecord t = none ∧ ((tasked id Thread.reset).core 0).enginesIdle = true ∧
      (tasked id Thread.reset).transfers t = false ∧ leaving.endRecord t = some (0, .L) ∧ (leaving.core 0).finished = true ∧ leaving.drained 0 = true ∧
      (leaving.core 0).served.isSome = true :=
  ⟨by decide, ⟨_, rfl, rfl, rfl, rfl⟩, ⟨_, rfl, rfl, rfl, by decide⟩, ⟨_, rfl, rfl, rfl, rfl, by decide, rfl, rfl, rfl⟩,
    ⟨_, rfl, rfl, rfl, by decide⟩,
    ⟨_, rfl, rfl, rfl, rfl, rfl, rfl, rfl, by decide⟩, ⟨_, rfl, rfl, rfl, by decide, by decide⟩,
    ⟨_, rfl, rfl, rfl, by decide, by decide, by decide, by decide, by decide, by decide, by decide, by decide, by decide, by decide, by decide,
      by decide⟩⟩

def sample : PTrap := ⟨0x0C, 3, 0x8000, 0x8000, 0x9000, 2, 0x8000, 0, 0⟩

/-- L has raised a trap; S is served by T, or none is; `v` changes the view. -/
def trapped (served : Bool) (v : View → View) (f : Thread → Thread) : State :=
  ((machine .L { core1 with view := v core1.view, served := if served then some .S else none }).upThr 0 .L f)

theorem witness_TrapsAndTimers :
    (∀ h ∈ [true, false], let s := trapped false (fun v => { v with hostm := if h then 2 ^ 0x0C else 0 }) fun t => { t with trap := some sample };
      (∀ q ∈ [Role.C, .S, .T], (s.thr 0 q).trap = none) ∧ (s.thr 0 .L).trap = some sample ∧ s.canTake 0 .L = true ∧
        toHost (s.core 0).view sample.cause = h) ∧
    (∀ q ∈ [Role.L, .C, .S, .T], ((trapped false id id).thr 0 q).trap = none) ∧
    (let s := trapped true id fun t => { t with why := 5, obj := 3, scnt := 16384, stage := .safe };
      (s.core 0).served.isSome = true ∧ (s.core 0).view.wdog ≠ 0 ∧ (s.thr 0 .L).status = .running ∧ (s.thr 0 .L).trap = none ∧
        (s.thr 0 .L).why = 5 ∧ 16384 ≤ (s.thr 0 .L).scnt ∧ (s.thr 0 .L).stage = .safe) ∧
    (((trapped true (fun v => { v with wdog := 0 }) id).core 0).view.wdog = 0 ∧ ((trapped true id id).thr 0 .L).why = 0 ∧
      ((trapped true id id).thr 0 .L).stage ≠ .safe) ∧
    (∀ b ∈ [true, false], let s := trapped true (fun v => { v with debug := b }) id;
      (s.thr 0 .T).status = .running ∧ (s.core 0).view.debug = b ∧ (s.task (s.core 0).taskid).isSome = true) := by decide +kernel

/-- An event waits; the host ring at 0x90000 has two places, `n` of them in use. -/
def hosting (n : Nat) : State :=
  { machine .T core1 with
    sys := (State.reset.sys.set 0 0x1000).set 7 0x90000, hostq := [⟨1, 0, 0, 1, 0x0C, 0, 3, 0, 0, 0, 0, none⟩],
    mem := (tables.write 0x90008 (leBytes 8 n)).write 0x90010 (leBytes 8 2) }

theorem witness_TrapsAndTimers_ring :
    ((machine .T core1).sysBase 7 = 0 ∧ (hosting 1).sysBase 7 ≠ 0) ∧ (∀ n ∈ [1, 2], ∀ e ∈ (hosting n).hostq, (hosting n).postable e = true) ∧
    (∃ b, (hosting 2).hwRead 0 0 ((hosting 2).sysBase 7) 24 = .ok b ∧ decide (field b 16 8 ≤ field b 8 8 - field b 0 8) = true) ∧
    (∃ b, (hosting 1).hwRead 0 0 ((hosting 1).sysBase 7) 24 = .ok b ∧ decide (field b 8 8 - field b 0 8 < field b 16 8) = true) ∧
    ∃ s1, (hosting 1).hwStore 0 0 (0x90000 + 64 + 64) (((hosting 1).hostq.map HostEvent.bytes).headD []) = .ok s1 ∧
      exB (s1.hwStore 0 0 (0x90000 + 8) (leBytes 8 2)) (fun _ => true) = true :=
  ⟨by decide, by decide, ex_ok (by decide +kernel), ex_ok (by decide +kernel), ex_ok (by decide +kernel)⟩

theorem witness_SystemRegisters :
    (running .T [(1, 10), (2, 0xFF), (3, 11)]).Issues { maj := 53, priv := true } [1, 2, 3] ∧
    (bits (10 : Word).toNat 0 8 = 10 ∧ bits (11 : Word).toNat 0 8 = 11 ∧ (running .T []).myCore.view.sys = false) ∧
    ((running .T []).upMyCore fun k => { k with view := { k.view with sys := true } }).myCore.view.sys = true ∧
    (running .L []).cr ≠ .T ∧ (running .L []).gateFault { maj := 53 } = none :=
  ⟨issues_of (by decide), by decide, by decide, by decide, by decide⟩

/-- Tasks 1 (running), 2 (saved) and 3 (of region 6) live; queue and region records of `dispMem`. -/
def system (r : Role) (g : List (Fin 32 × Word)) : State :=
  let s := running r g
  { s with
    mem := dispMem, sys := idle.sys,
    tasks := s.tasks ++ [⟨2, 0, 0, 0, none, 0, 1, 0, [], .saved, [], 0, 0, 0, 0, false, [core1], [], [], [], []⟩,
      ⟨3, 6, 1, 0, none, 0, 1, 0, [], .running, [1], 0, 0, 0, 0, false, [], [], [], [], []⟩, ⟨4, 0, 1, 0, none, 0, 1, 0, [], .running, [2], 0, 0, 0, 0, false, [], [], [], [], []⟩] }

theorem witness_TaskPreemption : (system .T [(1, 1)]).Issues { maj := 55, priv := true } [1] ∧ (system .T []).task 9 = none ∧
    (∃ t, (system .T []).task 2 = some t ∧ t.phase = .saved) ∧ ∃ t, (system .T []).task 1 = some t ∧ t.phase ≠ .saved :=
  ⟨issues_of (by decide), by decide, ⟨_, rfl, rfl⟩, ⟨_, rfl, by decide⟩⟩

theorem witness_SystemWords_ends :
    ((system .L []).Issues { maj := 51 } [] ∧ (system .T []).Issues { maj := 51 } [] ∧ (system .L [(1, 5)]).Issues { maj := 51, safe := true } [1] ∧
      (system .L []).Issues { maj := 52, safe := true } []) ∧
    ((system .L []).myCore.haltedOf .L = none ∧ (system .L []).asyncBusy 0 .L (fun _ => true) = false ∧
      (system .L []).myCore.asyncRec .L (fun _ => true) = false ∧ (system .L []).myCore.posts = [] ∧ (system .L []).myCore.postRec .L = false) ∧
    (queued (.vaddI32 .all 1 2 3)).asyncBusy 0 .C (fun _ => true) = true ∧ ((system .L []).task (system .L []).myCore.taskid).isSome = true ∧
    (system .L []).preemptOf 0 = 0 ∧ ((system .L []).upTask 1 fun t => { t with preempt := 1 }).preemptOf 0 = 1 ∧
    (∀ i, i < 32 → bits 0xFFFFFFFE i 1 = if i = 0 then 0 else if i < 16 then bits 0xFFFFF (i - 1) 1 else if i < 20 then bits 0xFFFFF 15 1
      else if i < 24 then bits 0xFFFFF 16 1 else if i < 28 then bits 0xFFFFF 17 1 else if i < 31 then bits 0xFFFFF 18 1 else bits 0xFFFFF 19 1) :=
  ⟨⟨issues_of (by decide), issues_of (by decide), issues_of (by decide), issues_of (by decide)⟩, by decide, by decide, by decide, by decide,
    by decide, by decide⟩

/-- A record of a copy of T. -/
def copyRec : Rec := ⟨.T, .copy ⟨3, .T, .cpCopy 1 3, descOf (List.replicate 64 0), 0, 0, false, [], 0, [], [], [], none⟩, ⟨0x0C, 0, 0, 0⟩, false⟩

theorem witness_SystemWords_cancel :
    ((system .L [(1, 9)]).Issues { maj := 51 } [1] ∧ bits 9 63 1 = 0 ∧ (system .L []).task 9 = none) ∧
    (∃ t, (system .L []).task (system .L []).myCore.taskid = some t ∧ t.phase = .running ∧ t.blocks = []) ∧
    (∃ t, ((system .L []).upTask 1 fun t => { t with blocks := [9] }).task 1 = some t ∧ t.phase = .running ∧ t.blocks ≠ []) ∧
    (∃ t, (system .L []).task 3 = some t ∧ (system .L []).under 0 t.region 0 = false ∧ (system .L []).myCore.view.region = 0) ∧
    (∃ t, (system .L []).task 4 = some t ∧ (system .L []).under 0 t.region 0 = true ∧ t.phase = .running) ∧
    ((system .T [(1, 1)]).Issues { maj := 54, priv := true } [1] ∧
      (List.finRange 32).filter (fun i => (core1.recs.set 0 (some copyRec))[i].isSome && (bits 1 0 32 == 0 || bits 1 i.val 1 == 1)) = [0]) :=
  ⟨⟨issues_of (by decide), by decide, by decide⟩, ⟨_, rfl, rfl, rfl⟩, ⟨_, rfl, rfl, by decide⟩, ⟨_, rfl, by decide +kernel, rfl⟩, ⟨_, rfl, by decide +kernel, rfl⟩,
    issues_of (by decide), by decide⟩

/-- The queue words act on queue g1 = q with the image or record at g2; the record of queue 0 holds `x` in its byte 2 and TAIL. -/
def queueState (r : Role) (st tail : Nat) (image : List Byte) : State :=
  { system r [(1, 0x00FF000000040000), (2, 0)] with mem := (dispMem.write 0xD002 (leBytes 1 st)).write 0xD018 (leBytes 8 tail) }.upMyCore fun k =>
    { k with pool := k.pool.write 0x40000 image }

/-- The control record of queue 0 reads as `p` says, and can be written. -/
def qcrB (s : State) (p : List Byte → Bool) : Bool := exB (s.hwRead 0 0 (s.qcr 0) 64) fun b => p b && exB (s.hwStore 0 0 (s.qcr 0) b) fun _ => true

theorem witness_SystemWords_queues :
    ((queueState .T 1 1 []).Issues { maj := 55, priv := true } [1, 2] ∧ (queueState .L 1 1 []).Issues { maj := 51 } [1, 2] ∧
      (queueState .L 1 1 []).release 4 = .go) ∧
    ((queueState .L 1 1 []).asyncOpen = false ∧ (queueState .L 1 1 []).me.stores = [] ∧
      (queueState .L 1 1 []).myCore.scratchCheck [(((queueState .L 1 1 []).me.get 1).toNat, 128, 64)] = none ∧
      ((queueState .T 1 1 []).me.get 2).toNat = 0) ∧
    (qcrB (queueState .T 1 1 []) (fun b => field b 2 1 == 1) = true ∧ qcrB (queueState .T 0 1 []) (fun b => field b 2 1 == 0) = true ∧
      (queueState .T 1 1 []).queueRuns 0 = true ∧ { queueState .T 0 1 [] with tasks := [] }.queueRuns 0 = false) ∧
    (field (List.replicate 64 0) 4 1 < 4 ∧
      let im := leBytes 64 (4 * 2 ^ 32)
      4 ≤ field im 4 1 ∧ field im 4 1 ≤ 16 ∧ field im 3 1 < 4 ∧ field im 5 3 = 0 ∧ field im 40 24 = 0 ∧ field im 8 8 % 4096 = 0 ∧ field im 0 2 < 4096) :=
  ⟨⟨issues_of (by decide), issues_of (by decide), rfl⟩, by decide, by decide +kernel, by decide⟩

theorem witness_SystemWords_push :
    (qcrB (queueState .L 2 1 []) fun c => field c 2 1 != 1) = true ∧
    (qcrB { queueState .L 1 1 [] with mem := (queueState .L 1 1 []).mem.write 0xD000 [6] } fun c =>
      (field c 2 1 == 1) && !((queueState .L 1 1 []).under 0 (field c 0 2) 0)) = true ∧
    (qcrB (queueState .L 1 1 []) fun c => (field c 2 1 == 1) && (queueState .L 1 1 []).under 0 (field c 0 2) 0 &&
      decide (field c 24 8 - field c 16 8 < 2 ^ field c 4 1) && 
        exB (((queueState .L 1 1 []).qcrSet 0 0 24 8 2).ringWrite (chainAsid ((queueState .L 1 1 []).lineage 0 (field c 0 2))) c (List.replicate 128 0) 1) fun _ => true) = true ∧
    (qcrB (queueState .L 1 16 []) fun c => decide (2 ^ field c 4 1 ≤ field c 24 8 - field c 16 8)) = true ∧
    recForm (List.replicate 128 0) = false ∧ recForm (List.replicate 128 255) = true := by decide +kernel

/-- Link direction 24 (from BD2 to CD1) and all others keyed, with this rollover. -/
def linked (r : Roll) (stop : Bool) : State := { State.reset with links := Vector.replicate 40 ⟨true, 0, false, r, stop, 1⟩ }

/-- The vault dies are attested; CD0 is after a single-die reset or not. -/
def attesting (w : Bool) : State :=
  { State.reset with sessions := Vector.replicate 18 (some (true, 0, 0)), booted := true, wiped := State.reset.wiped.set 0 w }

theorem witness_PackageEvents :
    (State.reset.powered = true ∧ State.reset.lcs ≠ .decommissioned ∧ State.reset.chips[(9 : Fin 18)] = .quarantined ∧
      State.reset.chips[(0 : Fin 18)] = .quarantined ∧ State.reset.attested 4 = false ∧ ({ State.reset with booted := true } : State).booted = true) ∧
    (State.reset.booted = false ∧ State.reset.sessions[(9 : Fin 18)] = none ∧ (attesting false).sessions[(9 : Fin 18)].isSome = true ∧
      State.reset.allHeard (fun x => decide (bootGroup x < bootGroup 0)) = false ∧
      (let s := { attesting false with booted := false, sessions := (attesting false).sessions.set 17 none };
        s.booted = false ∧ s.sessions[(17 : Fin 18)] = none ∧ ∀ x : Fin 18, x ≠ 8 → x ≠ 17 → s.sessions[x].isSome = true)) ∧
    (720 ≤ bits ({ State.reset with age := State.reset.age.set 3 (2 ^ 107) } : State).age[(3 : Fin 18)].toNat 96 32 ∧
      ∀ i : Fin 18, bits State.reset.age[i].toNat 96 32 < 720) ∧
    (let s := { State.reset with chips := Vector.replicate 18 .admitted };
      s.hostReaches 0x1000 = true ∧ State.reset.hostReaches 0x1000 = false ∧ s.hostWaits 0x1000 3 = false ∧
        ({ s with snoops := [0x40] } : State).hostWaits 0x1000 3 = true) ∧
    ((attesting false).chips[(0 : Fin 18)] = .quarantined ∧ (attesting false).attested 4 = true ∧ (attesting false).wiped[(0 : Fin 18)] = false) ∧
    ((attesting true).wiped[(0 : Fin 18)] = true ∧ (attesting true).attested 0 = true ∧ (attesting true).attested 4 = true) ∧
    (let x := (linked .none false).links[(25 : Fin 40)];
      x.keyed = true ∧ x.fails < 2 ∧ x.roll = .none ∧ x.roll ≠ .switched ∧ x.stop = false) ∧
    ((linked .started false).links[(25 : Fin 40)].roll = .started ∧ (linked .switched false).links[(25 : Fin 40)].roll = .switched) ∧
    ((linked .none true).links[(25 : Fin 40)].stop = true ∧ 10 ≤ (linkEnds 25).1.val) ∧
    (bits (([1] : List (BitVec 128)).getD 0 0).toNat 96 32 < 720 ∧ tierOf 0x8000000000 = 3 ∧ tierOf 0x1000 ≠ 3 ∧ tierOf (0x1000 + 3 - 1) = tierOf 0x1000) ∧
    ({ State.reset with snoops := [4], hostw := [(0x100, [1, 2])] } : State).snoops = [0x100 / 64] ∧ { State.reset with snoops := [4] }.snoops.contains (0x100 / 64) = true ∧ State.reset.snoops.contains 4 = false := by
  decide +kernel

/-- L of task 1 waits for the driver. -/
def waiting : State :=
  { (machine .L core1).upThr 0 .L (fun t => { t with status := .host, why := 12, trap := some ⟨0x0A, 0, 0x8004, 0x8006, 0, 0, 0x8000, 0, 1⟩ }) with
    booted := true, sessions := Vector.replicate 18 (some (true, 0, 0)) }

theorem witness_MailboxCommands :
    (waiting.mailboxUp = true ∧ waiting.invals.any (·.owner.isNone) = false ∧ waiting.featlock = false ∧
      { waiting with featlock := true }.featlock = true) ∧
    (∃ t, waiting.task 1 = some t ∧ t.phase = .running ∧ t.cores[0]? = some 0 ∧ (waiting.thr 0 .L).status = .host ∧ t.phase ≠ .saved ∧
      (waiting.thr 0 .L).fetch = none) ∧
    (State.reset.wiped[(9 : Fin 18)] = false ∧ (attesting true).wiped[(0 : Fin 18)] = true ∧ State.reset.wiped[(3 : Fin 18)] = false) ∧
    (lifeNext State.reset.lcs (lifeOf 3) false = true ∧ lifeNext State.reset.lcs (lifeOf 0) true = false) ∧
    (attesting false).sessions[(5 : Fin 18)] ≠ none ∧ State.reset.mailboxUp = false := by
  decide

theorem witness_IssueChecks :
    ((running .C []).myCore.bndv * 16 ≤ (running .C []).myCore.bndv * 16 ∧ State.reset.myCore.bndv * 16 ≤ (0 : Fin 64).val ∧
      (63 : Fin 64).val < (running .C []).myCore.bndv * 16) ∧
    ({ running .C [] with featlock := true }.featlock = true ∧ bits (running .C []).featack.toNat 2 1 = 0 ∧ bits (running .C []).featack.toNat 14 1 = 0 ∧
      bits ({ running .C [] with featack := 0xFFFE } : State).featack.toNat 0 1 = 0 ∧ (running .C []).featlock = false ∧
      bits ({ running .C [] with featack := 5 } : State).featack.toNat 2 1 = 1) ∧
    ((running .C []).cr = .C ∧ (running .S []).cr = .S ∧ (running .S []).cr ≠ .T) ∧ State.reset.myCore.chcnt ≤ (0 : Fin 32).val ∧
    (((running .L []).upMe fun t => t.owe 3 9).me.ready 3 = false ∧ (running .L []).me.ready 3 = true ∧
      16384 ≤ ((running .L []).upMe fun t => { t with scnt := 16384 }).me.scnt) ∧
    ((running .L []).upMyCore fun k => { k with served := some .S }).myCore.served.isSome = true := by decide

/-- L's turn comes next; its block holds these halfwords, or a fetch is pending. -/
def turning (f : Option Fetch) (l : List (BitVec 16)) : State :=
  { (machine .L core1).upThr 0 .L (fun t => { t with fetch := f, blk := some ⟨0x8000, 0x40000201, l⟩ }) with agenda := [.issue 0 .L] }

/-- An event's turn comes next; the save of the task is paused, or not. -/
def eventNext (p : Bool) : State :=
  { machine .L core1 with agenda := [.event (.lockClear 0 0)],
                          tasks := (machine .L core1).tasks.map fun t => { t with phase := if p then .savef else .running } }

theorem witness_StepRunsDecoded :
    ((turning none [9, 0]).agenda = [.issue 0 .L] ∧ ((turning none [9, 0]).thr 0 .L).status = .running ∧ ((turning none [9, 0]).thr 0 .L).trap = none ∧
      ((turning none [9, 0]).thr 0 .L).stopsAt .L ((turning none [9, 0]).preemptOf 0) = none) ∧
    (((turning (some ⟨0x8000, 0x8000, .jump⟩) []).thr 0 .L).fetch = some ⟨0x8000, 0x8000, .jump⟩ ∧
      ((turning (some ⟨0x8000, 0x8000, .jump⟩) []).thr 0 .L).stopsAt .L 0 = none) ∧
    decode [9, 0] = .instr .nop 2 ∧ decode [0, 0] = .ill 13 1 := by
  refine ⟨by decide, by decide, rfl, rfl⟩

theorem witness_StepRunsDecoded_events : (eventNext true).eventHeld (.lockClear 0 0) = true ∧ (eventNext false).eventHeld (.lockClear 0 0) = false ∧
    ∃ t, exec (.lockClear 0 0) (eventNext false) = .next t ∧ (eventNext false).newFaults t = [] ∧ (eventNext false).lostRels t = [] ∧ t.watches = [] :=
  ⟨by decide, by decide, _, rfl, by decide +kernel, by decide +kernel, rfl⟩

theorem witness_DecodeEncode : WellFormed (.addi (.g 1) (.g 0) 255) = true ∧ encode (.addi (.g 1) (.g 0) 255) = some (32, 0x3FC0020D) ∧
    WellFormed (.slliH16 1 48) = true ∧ encode (.slliH16 1 48) = some (16, 0xC032) := by decide

theorem witness_MemoryCanonical : (turning none [9, 0]).mem.wf = true ∧ ∃ s', step (turning none [9, 0]) = .next s' := ⟨by decide, _, rfl⟩

/-! ## One step -/

noncomputable def stepB (s : State) (p : State → Bool) : Bool :=
  match step s with
  | .next t => p t
  | _ => false

/-- L's turn, with these halfwords in its block and these registers. -/
def word1 (l : List (BitVec 16)) (g : List (Fin 32 × Word)) : State :=
  (turning none l).upThr 0 .L fun t => g.foldl (fun t x => t.put x.1 x.2) t

/-- R94: ADDI g3 = g1 + 5 wraps at 64 bits, and the thread stands two halfwords on. -/
theorem test_step_addi : stepB (word1 [0x860D, 0x0140] [(1, 0xFFFFFFFFFFFFFFFE)]) (fun s => (s.thr 0 .L).get 3 == 3 && (s.thr 0 .L).wpos == 2) = true := by
  decide

/-- R82, R94: g0 reads zero and discards the write. -/
theorem test_step_g0 : stepB (word1 [0x800D, 0x0140] [(1, 4)]) (fun s => (s.thr 0 .L).get 0 == 0 && (s.thr 0 .L).wpos == 2) = true := by decide

/-- R47, R49: the halfword 0x0000 raises ILL at its own address, and no register changes. -/
theorem test_step_ill : stepB (word1 [0, 0] [(1, 4)]) (fun s => (s.core 0).trapc == 0x01 && (s.core 0).trapa == 0x8004 &&
    (s.thr 0 .L).get 1 == 4 && ((s.core 0).served == some .L)) = true := by decide

/-- R409: BRK traps with its CODE. -/
theorem test_step_brk : stepB (word1 [0x0209, 0x0004] []) (fun s => (s.core 0).trapw == 1 && (s.thr 0 .L).why == 12) = true := by decide


/-! ## More witnesses: the clauses over channels, sites of every kind, and failures -/

theorem witness_ChannelOperands_more :
    (∀ m ∈ [6, 8, 9], issuesB chanState { maj := m, chans := [Src.pop 0].flatMap srcChan ++ dstChan (.ch 1) } ([Src.pop 0].flatMap srcRegs) = true) ∧
    chanState.Issues { maj := 8, chans := [Src.pop 0, .g 2].flatMap srcChan } (3 :: [Src.pop 0, .g 2].flatMap srcRegs) ∧
    ∃ v s1, chanState.srcs [.pop 0] = .vals v s1 ∧ (v.length == 1 && srcB (s1.dst (.ch 1) 7) fun _ _ => true) = true :=
  ⟨by decide, issues_of (by decide), src_ok (by decide)⟩

/-- Channel 0 holds the address v; the core has the page of 0x8000 in its TLB and the line of 0x8100 in its L1. -/
def chanBase (v : Nat) : State :=
  (chanState.upMyCore fun k => { k with bndc := 0x79 }).upMyCore fun k =>
    { k.fillTlb 0 0x8000 (0x1F + 10 * 2 ^ 14) with pool := k.pool.write 0x40008 (leBytes 8 v), l1 := [⟨0x204, 0, List.replicate 64 7, false⟩] }

/-- Source channel 0 gives `v`, channel 1 has room, and the site of an access there is as `p` says, the source still there. -/
def passB (s : State) (v n : Nat) (a : Acc) (p : Site → State → Bool) : Bool :=
  srcB (s.srcs [.pop 0]) fun vs s0 => vs == [word v] && srcB (s0.dst (.ch 1) 0) (fun _ _ => true) &&
    okB (s.site v n a n none fun _ => a.writes) fun x s1 => srcB (s1.srcs [.pop 0]) fun ws s2 => ws.length == 1 && p x (if a.writes then s1 else s2)

theorem witness_ScalarLoads_channel :
    ((chanBase 0x8100).Issues { maj := 10, chans := srcChan (.pop 0) ++ dstChan (.ch 1) } (srcRegs (.pop 0)) ∧ (chanBase 0x8100).acqOpen 0 .L = false) ∧
    passB (chanBase 0x00FF000000040000) 0x00FF000000040000 8 .read (fun x s => x.pool 0 == some 0 && !(s.poolLater 0 x.addr 8)) = true ∧
    passB { chanBase 0x00FF000000040000 with late := true } 0x00FF000000040000 8 .read (fun x s => x.pool 0 == some 0 && s.poolLater 0 x.addr 8) = true ∧
    passB (chanBase 0x8100) 0x8100 8 .read (fun x s => match x with
      | .dev pa e => !s.myCore.l1clear && (s.l1Bytes pa 8 e).isSome
      | _ => false) = true ∧
    passB (chanBase 0x8200) 0x8200 8 .read (fun x s => match x with
      | .dev pa e => !s.myCore.l1clear && (s.l1Bytes pa 8 e).isNone && s.room 1
      | _ => false) = true :=
  ⟨⟨issues_of (by decide), by decide⟩, by decide, by decide, by decide, by decide⟩

theorem witness_ScalarStores_channel :
    ((chanBase 0x8200).Issues { maj := 11, chans := srcChan (.pop 0) } (2 :: srcRegs (.pop 0)) ∧ (chanBase 0x8200).asyncOpen = false) ∧
    passB (chanBase 0x8200) 0x8200 8 .write (fun x s => !(s.siteLocked x 0x8200 8) && x.isDev && s.room 1 && !x.dead) = true ∧
    passB (chanBase 0x00FF000000040000) 0x00FF000000040000 8 .write (fun x s => !(s.siteLocked x 0x00FF000000040000 8) && !x.isDev && !x.dead) = true :=
  ⟨⟨issues_of (by decide), by decide⟩, by decide, by decide⟩

theorem witness_StorePerformed_seen :
    let s := storing.upCore 0 fun k => { k with l1 := [⟨0x240, 0, List.replicate 64 7, false⟩] }
    ∃ st, (s.thr 0 .L).stores[1]? = some st ∧ st.pool = none ∧ st.ms = false ∧ st.seen = none ∧ (s.core 0).seenBefore st = false ∧
      s.tripHeld 0 st.addr = false ∧ (∀ e ∈ st.bytes, ((s.core 0).l1hit (e.1 / 64)).isSome = true) ∧
      (storing.core 0).seenBefore st = false ∧ ∃ e ∈ st.bytes, (storing.core 0).l1hit (e.1 / 64) = none :=
  ⟨_, rfl, by decide⟩

/-- L runs with lane 0 alone in predicate 0 and the page of 0x8000 in its TLB; its task has a second member on core 1. -/
def laneAt : State :=
  let s := ((loading [(1, 0x8100)]).upMyCore fun k => { k with preds := k.preds.set 0 1, teamsz := 2 }).upCore 1 fun k =>
    { k with bndv := 4, bnds := 0x78, bndc := 0x79, taskid := 1, teamix := 1, teamsz := 2 }
  { s with tasks := s.tasks.map fun t => { t with size := 2, cores := [0, 1] } }

def lanesB (r : LanesRes) (p : List (Nat × Nat × Site) → State → Bool) : Bool :=
  match r with
  | .ok xs s => p xs s
  | _ => false

theorem lanes_ok {r : LanesRes} {p : List (Nat × Nat × Site) → State → Bool} (h : lanesB r p = true) : ∃ xs s, r = .ok xs s ∧ p xs s = true := by
  unfold lanesB at h; split at h
  · exact ⟨_, _, rfl, h⟩
  · cases h

theorem witness_VectorLoads_sites : laneAt.Issues { maj := 12, vregs := 64 } [1] ∧ laneAt.acqOpen 0 .L = false ∧ laneAt.vloading 63 = false ∧
    (∃ xs s1, laneAt.laneSites .read ((activeLanes laneAt.myCore.preds (.p 0)).map fun l => (l, 0x8100 + l * 0)) = .ok xs s1 ∧
      (xs.length == 1 && xs.all (fun x => x.2.2.isDev && (s1.laneNow x.2.2).isSome) && !s1.myCore.l1clear && s1.room 1024) = true) ∧
    (∃ xs s1, laneAt.laneSites .read ((activeLanes laneAt.myCore.preds (.p 0)).map fun l => (l, 0x8200 + l * 0)) = .ok xs s1 ∧
      (xs.length == 1 && xs.all (fun x => x.2.2.isDev && (s1.laneNow x.2.2).isNone)) = true) ∧
    (∃ xs s1, laneAt.laneSites .read ((activeLanes laneAt.myCore.preds (.p 0)).map fun l => (l, 0x00F0000001040000 + l * 0)) = .ok xs s1 ∧
      (xs.length == 1 && xs.all (fun x => x.2.2.pool 0 == some 1)) = true) :=
  ⟨issues_of (by decide), by decide, by decide, lanes_ok (by decide +kernel), lanes_ok (by decide +kernel), lanes_ok (by decide +kernel)⟩

theorem witness_VectorStores_sites : laneAt.Issues { maj := 12, vregs := 1 } [1] ∧ laneAt.asyncOpen = false ∧ laneAt.vloading 0 = false ∧
    (∃ xs s1, laneAt.laneSites .write ((activeLanes laneAt.myCore.preds (.p 0)).map fun l => (l, 0x8200 + l * 0)) = .ok xs s1 ∧
      (xs.length == 1 && xs.all (fun x => x.2.2.isDev && !(s1.siteLocked x.2.2 x.2.1 4) && !x.2.2.dead) && s1.room 1024) = true) ∧
    (∃ xs s1, laneAt.laneSites .write ((activeLanes laneAt.myCore.preds (.p 0)).map fun l => (l, 0x00F0000001040000 + l * 0)) = .ok xs s1 ∧
      (xs.length == 1 && xs.all (fun x => x.2.2.pool 0 == some 1 && !(s1.siteLocked x.2.2 x.2.1 4) && !x.2.2.dead) && s1.room 1024) = true) :=
  ⟨issues_of (by decide), by decide, by decide, lanes_ok (by decide +kernel), lanes_ok (by decide +kernel)⟩

/-- An atomic of L that acquires, behind an earlier read of L or not; the line at 0x9040 is poisoned. -/
def acquiring (behind : Bool) : State :=
  { requesting.upCore 0 fun k => { k with reqs := (if behind then [⟨4, .L, 0x9040, none, 0x9040, 1, ⟨0x8000, 0, 0⟩, 0, true, 0, true, false, .load (.g 5) 8 false⟩] else []) ++
      [⟨5, .L, 0x9000, none, 0x9000, 1, ⟨0x8000, 0, 0⟩, 0, true, 0, true, false, .atomic 0 7 0 6 2 true⟩] } with pflip := [0x9040 / 64] }

theorem witness_AtomicAtHome_acquire : (∀ b ∈ [true, false], ∃ q ∈ ((acquiring b).core 0).reqs, q.kind = .atomic 0 7 0 6 2 true ∧ (acquiring b).readHeld 0 q = false ∧
      (acquiring b).readFault 0 q = none ∧ (acquiring b).tripHeld 0 q.addr = false ∧ (acquiring b).atomicBehind 0 q = false ∧ (acquiring b).snoopWaits 2 = false) ∧
    (((acquiring true).core 0).reqs.eraseIdx 1).any (fun x => x.role == .L && x.isRead && decide (x.id < 5)) = true ∧
    (requesting.upThr 0 .L fun t => { t with own := (t.own.set 6 (some 5)).set 7 (some 5) }).readFault 0 ⟨5, .L, 0x9000, none, 0x9000, 1, ⟨0x8000, 0, 0⟩, 0, true, 0, true, false, .atomic 19 7 0 6 0 false⟩ = none := by
  decide

theorem witness_MemoryEvents_fault : ∃ q, ((acquiring true).core 0).reqs[0]? = some q ∧ q.kind = .load (.g 5) 8 false ∧ (acquiring true).readHeld 0 q = false ∧
    ((acquiring true).core 0).mayReturn q = true ∧ (acquiring true).readFault 0 q = some (cPOISON, 0) ∧ q.plain = true ∧
    ((acquiring true).thr 0 q.role).lastIs q.nth = true :=
  ⟨_, rfl, by decide⟩

/-! ## A save and a resume with a block -/

/-- The first page of a save block that the tables map onto itself, within a large leaf. -/
def blockAt : Nat := 0x10000

/-- That leaf: writable, of 1 GiB. -/
def bigLeaf : Nat := 0x1F + 10 * 2 ^ 14

/-- What a save's accesses depend on. -/
def sides (s : State) : Vector Core 64 × Vector LinkDir 40 × Vector ChannelSt 256 × Vector ChipSt 18 × Bool :=
  (s.cores, s.links, s.chan, s.chips, s.hostup)

theorem sides_foldl {B : Type} (f : State → B → State) (h : ∀ s b, sides (f s b) = sides s) (l : List B) (s : State) :
    sides (l.foldl f s) = sides s := by
  induction l generalizing s with
  | nil => rfl
  | cons b t ih => rw [List.foldl_cons, ih, h]

theorem sides_physWrite (s : State) (pa : Nat) (bs : List Byte) (ms : Bool) : sides (s.physWrite pa bs ms) = sides s := by
  have hm : ∀ (s : State) (l : List Nat), sides (l.foldl (fun s l => State.setPoison s l false) s) = sides s :=
    fun s l => sides_foldl (fun s l => State.setPoison s l false) (fun _ _ => rfl) l s
  have hl : ∀ (s : State) (p n : Nat), sides (s.landRows p n) = sides s := by
    intro s p n
    unfold State.landRows State.landWrite
    split <;> rfl
  unfold State.physWrite
  rw [hl]
  exact hm _ _

theorem sides_writePage (s : State) (pa : Nat) (ms : Bool) (l bad : List Nat) : sides (s.writePage pa ms l bad) = sides s :=
  (sides_foldl (fun (s : State) j => s.setPoison (pa / 64 + j) true) (fun _ _ => rfl) bad _).trans
    (sides_foldl (fun (s : State) j => s.physWrite (pa + 64 * j) ((List.range 64).map fun b => Config.saveByte s.free (64 * j + b)) ms)
      (fun _ _ => sides_physWrite ..) l s)

/-- Core 0 with the leaf of the save block in its copy engine's TLB. -/
def saver : Core :=
  { core1 with threads := (Vector.replicate 4 Thread.reset).set 0 { Thread.reset with status := .stopped 0 0 }, ptlb := core1.ptlb.set 3 [⟨0, 0, 262144, BitVec.ofNat 64 bigLeaf⟩] }

/-- The package around it: every chiplet admitted, every link running. -/
def calm : Vector Core 64 × Vector LinkDir 40 × Vector ChannelSt 256 × Vector ChipSt 18 × Bool := sides (machine .L saver)

theorem block_home (s : State) (pa : Nat) (h : pa < 0x1000000000) : tierOf pa = 0 ∧ stackOf pa = 0 ∧ s.homeDie pa = 0 := by
  have ht : tierOf pa = 0 := by unfold tierOf; rw [if_pos (by omega)]
  have hs : stackOf pa = 0 := by unfold stackOf; rw [Nat.div_eq_of_lt h]; rfl
  refine ⟨ht, hs, ?_⟩
  unfold State.homeDie
  rw [if_pos ht, hs]; rfl

theorem calm_links : ∀ i : Fin 40, (machine .L saver).links[i].stop = false := by decide

theorem calm_trip (s : State) (hc : sides s = calm) (pa : Nat) (h : pa < 0x1000000000) : s.tripHeld 0 pa = false ∧ s.lost 0 pa = none := by
  obtain ⟨ht, hs, hd⟩ := block_home s pa h
  have h1 : s.links = (machine .L saver).links := congrArg (fun x => x.2.1) hc
  have h2 : s.chan = (machine .L saver).chan := congrArg (fun x => x.2.2.1) hc
  have h3 : s.chips = (machine .L saver).chips := congrArg (fun x => x.2.2.2.1) hc
  have hp : s.pathHeld 0 0 = false ∧ s.backHeld 0 0 = false := by
    unfold State.pathHeld State.backHeld State.channel State.cdUp State.chipUp
    rw [h1, h2, h3]; decide
  have hm : s.memHeld pa = false := by
    have e : s.memLink pa = 12 := by unfold State.memLink; rw [if_pos ht, hs]; rfl
    unfold State.memHeld
    simp only [e, h1, calm_links, Bool.or_self]
  have hr : s.cdUp 0 = true ∧ s.routeUp 0 0 = true ∧ s.bdUp 0 = true := by
    unfold State.routeUp State.cdUp State.bdUp State.chipUp
    rw [h3]; decide
  refine ⟨?_, ?_⟩
  · simp only [State.tripHeld, hd, hp, hm, Bool.or_self]
  · have ho : s.onIod1 pa = false := by unfold State.onIod1; rw [ht]; rfl
    have hh : s.hostCut pa = false := by unfold State.hostCut; rw [ht]; rfl
    simp [State.lost, hh, hd, hs, hr, ho]

theorem block_leaf (va : Nat) (h : va < 0x40000000) : leafAddr bigLeaf va = va := by
  have e1 : leafFrame bigLeaf = 0 := by decide
  have e2 : sizeFrames (leafSize bigLeaf) * 4096 = 0x40000000 := by decide
  unfold leafAddr
  rw [e1, e2, Nat.mod_eq_of_lt h, Nat.zero_mul, Nat.zero_add]

theorem bigLeaf_ok : leafBusy bigLeaf = false ∧ leafCow bigLeaf = false ∧ leafAccess .write false bigLeaf = none ∧
    leafAccess .read false bigLeaf = none ∧ leafTier bigLeaf = 0 := by decide

theorem saver_hits (va : Nat) (h : va < 0x40000000) : (⟨0, 0, 262144, BitVec.ofNat 64 bigLeaf⟩ : TlbEnt).hits 0 va = true := by
  have hv : va / 4096 < 262144 := by omega
  simp [TlbEnt.hits, hv]

theorem saver_ptlb : saver.ptlb[(3 : Fin 6)] = [⟨0, 0, 262144, BitVec.ofNat 64 bigLeaf⟩] := rfl

theorem saver_tlb (va : Nat) (h : va < 0x40000000) : saver.tlb 3 0 va = some bigLeaf := by
  unfold Core.tlb
  rw [saver_ptlb, List.find?_cons, saver_hits va h]; rfl

theorem saver_fill (va : Nat) (h : va < 0x40000000) : (saver.unwaitWalk (portIssuer 3)).fillPort 3 0 va bigLeaf = saver := by
  have e : saver.unwaitWalk (portIssuer 3) = saver := rfl
  rw [e]; unfold Core.fillPort
  rw [if_pos]
  right
  rw [saver_ptlb, List.any_cons, saver_hits va h]; rfl

theorem engAt_calm (s : State) (hc : sides s = calm) (va : Nat) (h : va < 0x40000000) :
    ∃ s1, s.engAt 0 3 0 va .write false = .ok va bigLeaf s1 ∧ sides s1 = calm := by
  have hs : s.cores = (machine .L saver).cores := congrArg (·.1) hc
  have hk : s.core 0 = saver := by unfold State.core; rw [hs]; rfl
  obtain ⟨ho, hl⟩ := calm_trip s hc va (by omega)
  have hw : inWindow va = false := by simp only [inWindow]; simp; omega
  obtain ⟨b1, b2, b3, -, -⟩ := bigLeaf_ok
  refine ⟨s.upCore 0 fun k => (k.unwaitWalk (portIssuer 3)).fillPort 3 0 va bigLeaf, ?_, ?_⟩
  · have hu : s.engUnder 0 3 0 va .write false bigLeaf = .ok va bigLeaf (s.upCore 0 fun k => (k.unwaitWalk (portIssuer 3)).fillPort 3 0 va bigLeaf) := by
      unfold State.engUnder
      simp only [b1, b3, block_leaf va h, show dieOf 0 = 0 by decide, hl, ho, Bool.false_eq_true, if_false]
    unfold State.engAt State.engLeaf
    simp only [hk, saver_tlb va h, hw, Option.isNone_some, Bool.false_and, Bool.false_eq_true, if_false, b1, b2, b3, Bool.and_false, hu]
  · have h2 : (fun k : Core => (k.unwaitWalk (portIssuer 3)).fillPort 3 0 va bigLeaf) (s.core 0) = s.core 0 := by
      rw [hk]; exact saver_fill va h
    have hv : s.cores.set 0 (s.core 0) = s.cores := by unfold State.core; simp
    have e : sides (s.upCore 0 fun k => (k.unwaitWalk (portIssuer 3)).fillPort 3 0 va bigLeaf) =
        (s.cores.set 0 ((fun k : Core => (k.unwaitWalk (portIssuer 3)).fillPort 3 0 va bigLeaf) (s.core 0)), s.links, s.chan, s.chips, s.hostup) := rfl
    rw [e, h2, hv]
    exact hc

theorem writeBlock_calm (n : Nat) : ∀ (i done : Nat) (s : State), sides s = calm → i + n ≤ 9216 →
    (State.writeBlock 0 blockAt n i done s).stop = none := by
  induction n with
  | zero => intro i done s _ _; rfl
  | succ m ih =>
    intro i done s hc hi
    unfold State.writeBlock
    split
    · exact ih _ _ _ hc (by omega)
    · obtain ⟨s1, he, h1⟩ := engAt_calm s hc (4096 * (blockAt + i)) (by unfold blockAt; omega)
      rw [he]
      exact ih _ _ _ (by rw [sides_writePage, h1]) (by omega)

/-- Task 1 is to be saved, its block taken already; or it comes back from there. -/
def saving : State :=
  { machine .L saver with tasks := (machine .L saver).tasks.map fun t => { t with preempt := 1, blocks := [blockAt] } }

def resuming : State :=
  { machine .L Core.reset with tasks := (machine .L saver).tasks.map fun t => { t with phase := .resuming, saved := [saver], blocks := [blockAt] } }

theorem resuming_table : bits resuming.sys[0].toNat 12 40 * 4096 + 8 * 0 = 0x1000 := by decide

theorem resuming_node : resuming.node 0 0x1000 = .ok 0x200001 ∧ resuming.node 0 0x2000 = .ok 0x300001 ∧
    resuming.node 0 0x3000 = .ok 0x400001 ∧ resuming.node 0 0x4000 = .ok bigLeaf := by decide

theorem resuming_walk (va : Nat) (h : va < 0x40000000) : resuming.walk 0 0 va = .leaf 0x4000 bigLeaf := by
  have i4 : walkIndex 4 va = 0 := by
    have e : walkIndex 4 va = va / 2 ^ 48 % 2 ^ 8 := rfl
    omega
  have i3 : walkIndex 3 va = 0 := by
    have e : walkIndex 3 va = va / 2 ^ 39 % 2 ^ 9 := rfl
    omega
  have i2 : walkIndex 2 va = 0 := by
    have e : walkIndex 2 va = va / 2 ^ 30 % 2 ^ 9 := rfl
    omega
  have c : ∀ l, resuming.cached 0 0 l va = none := fun _ => rfl
  obtain ⟨n1, n2, n3, n4⟩ := resuming_node
  have b1 : bits 0x200001 20 40 = 2 := by decide
  have b2 : bits 0x300001 20 40 = 3 := by decide
  have b3 : bits 0x400001 20 40 = 4 := by decide
  have s2 : resuming.walkFrom 0 0 va 4 [2, 1, 0] = .leaf 0x4000 bigLeaf := by
    unfold State.walkFrom
    simp only [c, i2, show 4 * 4096 + 8 * 0 = 0x4000 by decide, n4]
    rw [if_neg (by decide), if_neg (by decide), if_pos (by decide), if_neg (by decide)]
    rw [show leafCheck 2 bigLeaf = none by decide]
  have s3 : resuming.walkFrom 0 0 va 3 [3, 2, 1, 0] = .leaf 0x4000 bigLeaf := by
    unfold State.walkFrom
    simp only [c, i3, show 3 * 4096 + 8 * 0 = 0x3000 by decide, n3]
    rw [if_neg (by decide), if_neg (by decide), if_neg (by decide), if_neg (by decide), if_neg (by decide), if_neg (by decide), b3, s2]
  have s4 : resuming.walkFrom 0 0 va 2 [4, 3, 2, 1, 0] = .leaf 0x4000 bigLeaf := by
    unfold State.walkFrom
    simp only [c, i4, show 2 * 4096 + 8 * 0 = 0x2000 by decide, n2]
    rw [if_neg (by decide), if_neg (by decide), if_neg (by decide), if_neg (by decide), if_neg (by decide), if_neg (by decide), b2, s3]
  unfold State.walk
  rw [if_neg (by omega)]
  simp only [resuming_table, n1]
  rw [if_neg (by decide), if_neg (by decide), if_neg (by decide), if_neg (by decide), b1, s4]

theorem resuming_clean (pa : Nat) (h : pa + 4096 ≤ 0x40000000) : resuming.anyPoison pa 4096 = false := by
  unfold State.anyPoison
  rw [List.any_eq_false]
  intro l hl
  have hb : 64 * l < 0x8000000000 := by
    unfold linesOf at hl
    rw [if_neg (by omega)] at hl
    simp only [List.mem_map, List.mem_range] at hl
    obtain ⟨k, hk, rfl⟩ := hl
    omega
  have ht : tierOf (64 * l) = 0 := by unfold tierOf; rw [if_pos hb]
  have hp : resuming.pflip = [] := rfl
  unfold State.poisoned poisonDefault
  rw [ht, hp]
  simp

theorem resuming_addr (va : Nat) (h : va < 0x40000000) : resuming.hwAddr 0 0 va .read false = .ok va := by
  have hw : inWindow va = false := by simp only [inWindow]; simp; omega
  obtain ⟨-, -, -, b4, -⟩ := bigLeaf_ok
  have hl : resuming.lost 0 va = none := by
    obtain ⟨ht, hs, hd⟩ := block_home resuming va (by omega)
    have hr : resuming.cdUp 0 = true ∧ resuming.routeUp 0 0 = true ∧ resuming.bdUp 0 = true := by decide
    have ho : resuming.onIod1 va = false := by unfold State.onIod1; rw [ht]; rfl
    have hh : resuming.hostCut va = false := by unfold State.hostCut; rw [ht]; rfl
    simp [State.lost, hh, hd, hs, hr, ho]
  unfold State.hwAddr
  simp only [hw, resuming_walk va h, b4, block_leaf va h, hl, Bool.false_eq_true, if_false]
  rfl

theorem readBlock_resuming (n : Nat) : ∀ i, i + n ≤ 9216 → resuming.readBlock saver 0 blockAt n i = .ok [] := by
  induction n with
  | zero => intro i _; rfl
  | succ m ih =>
    intro i hi
    have hv : 4096 * (blockAt + i) + 4096 ≤ 0x40000000 := by unfold blockAt; omega
    simp only [State.readBlock]
    split
    · exact ih _ (by omega)
    · simp only [resuming_addr _ (show 4096 * (blockAt + i) < 0x40000000 by omega), resuming_clean _ hv, ih _ (show i + 1 + m ≤ 9216 by omega)]
      rfl

theorem witness_TaskEvents_block :
    (∃ t, saving.task 1 = some t ∧ t.phase = .running ∧ t.cores = [0] ∧ t.preempt = 1 ∧ t.cancel = false ∧ saving.saveReady t = true ∧
      State.takeBlocks 0 (t.size - t.blocks.length) saving t.blocks = some ([blockAt], saving) ∧
      (State.writeBlocks savePages (t.cores.zip [blockAt]) t.written 0 saving).stop = none) ∧
    (∃ t, resuming.task 1 = some t ∧ t.phase = .resuming ∧ t.cores = [0] ∧ t.ctx = none ∧
      resuming.readBlocks 0 savePages (t.saved.zip t.blocks) = .ok [saver] ∧ t.results = [] ∧ t.heldEv = [] ∧ t.cores.Nodup) := by
  have hw : (State.writeBlocks savePages [(0, blockAt)] 0 0 saving).stop = none := by
    have h := writeBlock_calm 9216 0 0 saving rfl (by omega)
    unfold State.writeBlocks
    simp only [Nat.zero_min, Nat.sub_zero, Nat.add_zero]
    split
    · rfl
    · rename_i hs; rw [show savePages = 9216 from rfl, h] at hs; cases hs
  have hr : resuming.readBlocks 0 savePages [(saver, blockAt)] = .ok [saver] := by
    unfold State.readBlocks
    rw [show savePages = 9216 from rfl, readBlock_resuming 9216 0 (by omega)]
    rfl
  exact ⟨⟨_, rfl, rfl, rfl, rfl, rfl, by decide, rfl, hw⟩, ⟨_, rfl, rfl, rfl, rfl, hr, rfl, rfl, by decide⟩⟩

/-! ## Clauses that the states above do not reach -/

/-- A page of frame 0x100 has no count; FC.DEC takes 1 from it. -/
theorem witness_TranslationWords_count :
    (pages .T [(1, 0x40000000), (2, 1)] []).Issues { maj := 19, priv := true } [1, 2] ∧ (pages .T [] []).asyncOpen = false ∧
    inWindow 0x40000000 = false ∧ (∃ pa e, (pages .T [] []).walk 0 0 0x40000000 = .leaf pa e ∧
      (!leafBusy e && leafTier e == 0 && leafFrame e == 0x100 && (leafAccess .read false e).isNone &&
        (pages .T [] []).frameCount 0x100 == 0 && ((pages .T [] []).lost 0 ((pages .T [] []).frameRec 0x100)).isNone) = true) ∧
    ∃ pa e, (pages .T [] []).walk 0 0 0x40002000 = .leaf pa e ∧ leafBusy e = true :=
  ⟨issues_of (by decide), by decide, by decide, leaf_ok (by decide), leaf_ok (by decide)⟩

/-- A break whose new frame lies on stack 1, whose base die is gone. -/
def robbed : State :=
  let s := pages .T [] [⟨13, 0, 0x40001000, true, 0, 0x1000000, some 2, 0x6008, 0, false, none⟩]
  { s with chips := s.chips.set 11 .quarantined }

theorem witness_PagesAndFrames_lost :
    ∃ m, (robbed.die 0).moves[0]? = some m ∧ m.cow = true ∧ m.ended = none ∧ m.locked = some 2 ∧ (robbed.lost 0 (4096 * m.frame)).isSome = true ∧
      ∃ pa e, robbed.walk 0 m.asid m.va = .leaf pa e ∧ true = true :=
  ⟨_, rfl, rfl, rfl, rfl, by decide, leaf_ok (by decide)⟩

/-- MA.SAVE on a running engine: nothing in its queue, or a move that has started. -/
theorem witness_MatrixSync_running :
    (running .T [(1, 0x00FF000000040000)]).Issues { maj := 35, priv := true } [1] ∧ core1.mx.frozen = false ∧ core1.mx.parked = false ∧
    (∃ s3, State.saveRun (imageHeader ((machine .T core1).freeze 0).myCore ((machine .T core1).freeze 0).free) ((machine .T core1).freeze 0).free
      0x00FF000000040000 (List.range 512) { (machine .T core1).freeze 0 with free := ((machine .T core1).freeze 0).free + 1 } = (none, s3)) ∧
    ∃ e : MEnt, e ∈ [(⟨3, .C, .maMovTv 1 2 0 0, [], true, false, none, false, [], [], false, 0, none⟩ : MEnt)] ∧ isMove e.op = true ∧ e.started = true :=
  ⟨issues_of (by decide), rfl, rfl,
    save_pages _ _ _ (by omega) _ _ (fun p hp => by have := List.mem_range.mp hp; omega) (by decide) (by decide) (by decide),
    ⟨_, List.mem_singleton.mpr rfl, rfl, rfl⟩⟩

/-- A post to a slot of scope 1 of the own member, and one to a handle that the cache gives scope 3 to. -/
def scopes : State :=
  (slotState (barWord 2 0) [(1, 0x8000001F), (2, 0xC0000000 + 5 * 32)]).upMyCore fun k => { k with hcache := [⟨5, 1, 0, 31, 3⟩] }

theorem witness_BarrierWords_scopes : scopes.Issues { maj := 39 } [1] ∧ scopes.Issues { maj := 39 } [2] ∧ scopes.me.stage = .none ∧
    scopes.asyncOpen = false ∧ scopes.myCore.postRec scopes.cr = false ∧ scopes.targetScope 0x8000001F = 1 ∧
    scopes.targetScope (0xC0000000 + 5 * 32) = 3 ∧ scopes.myCore.hcache.find? (·.handle == 5) = some ⟨5, 1, 0, 31, 3⟩ ∧
    scopes.storeRecord scopes.cc scopes.cr = false ∧ scopes.storeLost scopes.cc scopes.cr = false ∧ recordState.storeRecord 0 .L = true ∧
    (∀ x ∈ (slotState 0 []).myCore.hcache, x.handle ≠ 5) :=
  ⟨issues_of (by decide), issues_of (by decide), by decide, by decide, by decide, by decide, by decide, by decide, by decide, by decide, by decide,
    by decide⟩

/-- Channels: 0 full, 1 refusing, 2 closed, 3 with an EOS of L, 4 a link to 1 of the own member, 5 a link to 0. -/
def chanEnds : State :=
  machine .L { core1 with
    chans := (((((core1.chans.set 0 { Chan.reset with capl := 1, ring := [⟨0, none, none⟩, ⟨1, none, none⟩] }).set 1
      { Chan.reset with capl := 2, reg := [9] }).set 2 { Chan.reset with capl := 2, closed := true }).set 3
      { Chan.reset with capl := 2, eosm := [pidOf core1 .L] }).set 4 { Chan.reset with link := true, memb := 0, rix := 6 }).set 5
      { Chan.reset with link := true, memb := 0, rix := 0 } }

theorem witness_ChannelWords_status : chanEnds.Issues { maj := 41 } [1] ∧ chanEnds.acqOpen chanEnds.cc chanEnds.cr = false ∧
    chanEnds.relOpen chanEnds.cc chanEnds.cr = false ∧ chanEnds.myCore.chans[0].full = true ∧ chanEnds.myCore.chans[0].refuses (pidOf core1 .L) = false ∧
    (chanEnds.myCore.chans[1].reg ≠ [] ∧ chanEnds.myCore.chans[1].reg.contains (pidOf core1 .L) = false) ∧ chanEnds.myCore.chans[2].closed = true ∧
    chanEnds.myCore.chans[3].eosm.contains (pidOf core1 .L) = true ∧
    chanEnds.member chanEnds.cc 0 = some 0 ∧ (chanEnds.core 0).chans[6].full = false ∧ (chanEnds.core 0).chans[0].full = true ∧
    5 < chanEnds.myCore.chcnt :=
  ⟨issues_of (by decide), by decide, by decide, by decide, by decide, by decide, by decide, by decide, by decide, by decide, by decide, by decide⟩

/-- Any word of the vector unit can be the one entry of the queue. -/
theorem witness_vector_alone (i : Instr) : ∃ e, ((queued i).core 0).vq = [e] ∧ e.op = i ∧ e.out = none ∧ ((queued i).thr 0 e.role).stores = [] ∧
    ((queued i).core 0).reqs = [] := ⟨_, rfl, rfl, rfl, rfl, rfl⟩

/-- A task of context 2, whose record lies at 0x8_0200, ends; the queue's record lies at 0x9_0000. -/
def counting (ctx : Option Nat) : State :=
  let s := tasked (fun t => { t with ctx := ctx, sigm := 3 }) Thread.reset
  { s with sys := (((s.sys.set 2 0x80000).set 3 4).set 5 0x90000) }

theorem witness_TaskEvents_counts :
    (∃ b, (counting none).qcrRead 0 0 = .ok b ∧ true = true) ∧ (∃ n, (counting (some 2)).hwRead 0 0 ((counting (some 2)).ctxAddr 2 + 8) 8 = .ok n ∧
      exB ((counting (some 2)).hwStore 0 0 ((counting (some 2)).ctxAddr 2 + 8) (leBytes 8 ((leNat n + 1) % 2 ^ 64))) (fun s1 =>
        exB (s1.qcrRead 0 0) fun _ => true) = true) ∧
    (∃ t, (counting (some 2)).task 1 = some t ∧ t.cores = [0] ∧ t.ctx = some 2 ∧ (counting (some 2)).endRecord t = none ∧
      ((counting (some 2)).core 0).finished = true ∧ (counting (some 2)).drained 0 = true ∧ ((counting (some 2)).core 0).enginesIdle = true ∧
      (counting (some 2)).transfers t = false ∧ (t.cores.map (counting (some 2)).core ++ t.saved).flatMap Core.heldSlabs = [] ∧
      ∀ j ∈ t.cores, ∀ pa e, ((counting (some 2)).thr j .T).stage ≠ .pin pa e) :=
  ⟨ex_ok (by decide +kernel), ex_ok (by decide +kernel),
    ⟨_, rfl, rfl, rfl, by decide, by decide, by decide, by decide, by decide, by decide, by simp [counting, tasked, machine, State.thr, State.core, Core.thr, Thread.reset]⟩⟩

/-- A running form on contexts 1 and 2 whose records read p and k. -/
def seqPair (i : Instr) (p k : Nat) : SEnt := { seqEnt i [1, 2] [p, k] true none with locked := [1, 2] }

/-- A record bound to a grammar. -/
def bound : Nat := 8

/-- Its journals hold one entry each. -/
def journalled : Nat := 8 + 2 ^ 288 + 2 ^ 556

theorem witness_SequenceEvents_forms :
    (∀ i ∈ [Instr.cxEnd 1 5, .cxCancel 1 2 5 1, .grSave 1 2 5, .ltExp 1 5, .sqCfg 1 2 5, .sqRecv 1 2 5, .cxCommit 1 2 5],
      ((seqRuns i 1 7).core 0).sq[0]? = some (seqEnt i [1, 1] [7] true none)) ∧
    (cHAND 0 = 0 ∧ cNGJ 0 = 0 ∧ cGB bound = true ∧ cNJ journalled = 1 ∧ cNGJ journalled = 1 ∧ cNJ 0 < 1 ∧ bits 0x181 8 1 = 1 ∧ bits 0x181 0 7 = 1) ∧
    (∃ s2, ((seqRuns (.cxEnd 1 5) 1 0).abandon 1 fun _ => true).recStore 0 1 ([fSTATE] ++ fJournal) (setSTATE (setJRN 0 []) 3) = .ok s2 ∧ true = true) ∧
    (∃ s2, ((seqRuns (.cxCancel 1 2 5 1) 1 0).abandon 1 fun _ => true).recStore 0 1 ([] ++ fJournal) (setJRN 0 []) = .ok s2 ∧ true = true) ∧
    (∃ b, (seqRuns (.grSave 1 2 5) 0x9000 bound).ctxAsid 0 bound = .ok b ∧ (exB ((seqRuns (.grSave 1 2 5) 0x9000 bound).gLoad 0 b bound) fun x =>
      exB (State.pokePages 0 0 (pagePieces 4 0x9000 4672) (saveImage bound x.1 x.2) (seqRuns (.grSave 1 2 5) 0x9000 bound)).2 fun _ => true) = true) :=
  ⟨by decide, by decide +kernel, ex_ok (by decide +kernel), ex_ok (by decide +kernel), ex_ok (by decide +kernel)⟩

theorem witness_SequenceEvents_commit :
    ∃ b, (seqRuns (.cxCommit 1 2 5) 0x101 journalled).ctxAsid 0 journalled = .ok b ∧
      (exB ((seqRuns (.cxCommit 1 2 5) 0x101 journalled).gLoad 0 b journalled) fun x =>
        exB (gHdr ((seqRuns (.cxCommit 1 2 5) 0x101 journalled).gImage 0 b (cGIMG journalled))) fun h =>
        exB (gReplay ((seqRuns (.cxCommit 1 2 5) 0x101 journalled).gImage 0 b (cGIMG journalled)) h x.1 ((x.2.take 1).map (·.1))) fun g1 =>
        exB ((seqRuns (.cxCommit 1 2 5) 0x101 journalled).gStoreCfg 0 b
          (setBits (setJRN journalled ((cJRN journalled).drop 1)) 256 32 (cCLEN journalled + 1)) g1) fun y =>
        exB (y.1.gStoreJrn 0 b y.2 (x.2.drop 1)) fun z => exB (z.1.recStore 0 1 (fNGJ :: fCfg ++ fCLEN :: fJournal) z.2) fun _ => true) = true :=
  ex_ok (by decide +kernel)

/-- A lattice of one root node, and its rows at 0x4_5000 of the pool. -/
def latticed (m : Nat) : SEnt :=
  { seqEnt (.ltExp 1 5) [0x00FF000000043000] [] true none with
    desc := leBytes 8 0x00FF000000044000 ++ leBytes 8 0x00FF000000045000 ++ [BitVec.ofNat 8 m] ++ List.replicate 559 0 }

/-- Queue 1 of die 0 holds a record. -/
def received : State :=
  { seqWork (.sqRecv 1 2 5) [0x00FF000000046000, 1] [] true none with
    dies := State.reset.dies.set 0 { Die.reset with sq := Die.reset.sq.set 1 ⟨true, 0, [0x9000], 0, 1, 0, 1⟩ } }

theorem witness_SequenceEvents_queues :
    latticeBad 0 [] = true ∧ latticeBad 1 [lNode 0] = false ∧ field (latticed 1).desc 16 1 = 1 ∧ field (latticed 0).desc 16 1 = 0 ∧
    ((seqWork (.sqCfg 1 2 5) [1, 0x10000] [] true none).specq 0 1).held = 0 ∧ ((seqWork (.sqCfg 1 2 5) [1, 0x10000] [] true none).specq 0 1).flying = 0 ∧
    (seqWork (.sqCfg 1 2 5) [1, 0x10000] [] true none).specBusy 0 1 3 = false ∧
    optB ((seqWork (.sqCfg 1 2 5) [1, 0x10000] [] true none).areaSegs 0 0 0x10000 8192 (ringLeaf 0)) (fun ps => (oneStack ps).isSome) = true ∧
    0 < (received.specq 0 1).held ∧ received.recvBehind 0 1 0 = false ∧ received.specUp 0 0 (received.specq 0 1) = true ∧
    received.anyPoison ((received.specq 0 1).recAt (received.specq 0 1).head) 128 = false := by decide +kernel

theorem witness_SequenceEvents_forks :
    (seqPair (.cxFork 1 2 5) 0 0).recOf 1 = 0 ∧ (seqPair (.grFork 1 2 5) bound bound).recOf 2 = bound ∧ ctxIx 1 ≠ ctxIx 2 ∧ cSTATE 0 = 0 ∧
    bits (0 : Nat) 288 7 = 0 ∧ cCLVL 0 = 0 ∧ cGB 0 = false ∧
    (∃ b, (seqState [] [seqPair (.cxFork 1 2 5) 0 0]).ctxAsid 0 0 = .ok b ∧ (exB ((seqState [] [seqPair (.cxFork 1 2 5) 0 0]).forkSnap 0 0 0) fun x =>
      exB x fun y => exB (y.2.seqPeek 0 b 0 0) fun st => exB (y.2.seqPoke 0 b 0 st) fun s3 =>
        exB (s3.recStore 0 2 fChild (childRec 0 0 y.1)) fun _ => true) = true) ∧
    (∃ b, (seqState [] [seqPair (.grFork 1 2 5) bound bound]).ctxAsid 0 bound = .ok b ∧
      (exB ((seqState [] [seqPair (.grFork 1 2 5) bound bound]).gLoad 0 b bound) fun x =>
        exB ((seqState [] [seqPair (.grFork 1 2 5) bound bound]).gStoreCfg 0 b bound x.1) fun y =>
          exB (y.1.recStore 0 2 (fGIMG :: fCfg) (setBits y.2 320 64 (cGIMG bound))) fun _ => true) = true) :=
  ⟨by decide, by decide, by decide, by decide, by decide, by decide, by decide, ex_ok (by decide +kernel), ex_ok (by decide +kernel)⟩

/-- Task 1's save waits for an answer, or L of it is saved while the driver owes it one. -/
def answering : State := waiting.upTask 1 fun t => { t with phase := .savef }

def answerSaved : State := waiting.upTask 1 fun t => { t with phase := .saved, cores := [], saved := [waiting.core 0] }

theorem witness_MailboxCommands_saves :
    (∃ t, answering.task 1 = some t ∧ t.phase = .savef ∧ answering.mailboxUp = true ∧ answering.invals.any (·.owner.isNone) = false) ∧
    (∃ t k, answerSaved.task 1 = some t ∧ t.phase = .saved ∧ t.cores = [] ∧ t.saved[0]? = some k ∧ (k.thr .L).status = .host ∧ answerSaved.mailboxUp = true) ∧
    (waiting.thr 0 .C).status ≠ .host ∧ waiting.mailboxUp = true :=
  ⟨⟨_, rfl, rfl, by decide, by decide⟩, ⟨_, _, rfl, rfl, rfl, rfl, by decide, by decide⟩, by decide, by decide⟩
end Sys2Proof.Tests
end

/-! # Device memory keeps its canonical form (O60)

Few functions of the model write `State.mem`: a performed write at a home, the copy of a page, the loss of lines with their L2, and a reset.
A function that leaves device memory alone has a lemma `…_mem`, which says so; a function that can reach one of those writes has a lemma
`…_canon`, which says that a canonical device memory stays canonical. Both are about one call, in the order of the model's files. -/

namespace Sys2Proof.Machine

/-! ## What is kept, and the rules for folds and for computations that can fail -/

/-- Device memory lists strictly rising addresses and no default byte. -/
@[simp] abbrev State.Canon (s : State) : Prop := s.mem.wf = true

/-- The schedule's counter is no part of device memory. -/
theorem State.Canon.withFree {s : State} (h : s.Canon) (n) : State.Canon { s with free := n } := h

/-- Canonical memory left alone is canonical. -/
theorem State.Canon.of_mem {s t : State} (h : s.Canon) (e : t.mem = s.mem) : t.Canon := (congrArg Mem.wf e).trans h

/-- An outcome that answers a next state answers one with canonical device memory. -/
@[simp] def Out.Canon : Out → Prop
  | .next s => s.Canon
  | _ => True

@[simp] def SrcRes.Canon : SrcRes → Prop
  | .vals _ s => s.Canon
  | _ => True

@[simp] def SiteRes.Canon : SiteRes → Prop
  | .ok _ s => s.Canon
  | .stall _ s => s.Canon
  | .hold s => s.Canon
  | .fault _ => True

@[simp] def CowRes.Canon : CowRes → Prop
  | .wait s => s.Canon
  | .empty _ => True

@[simp] def LanesRes.Canon : LanesRes → Prop
  | .ok _ s => s.Canon
  | .stop r => r.Canon

@[simp] def EngRes.Canon : EngRes → Prop
  | .ok _ _ s => s.Canon
  | .stop _ => True

@[simp] def FillRes.Canon : FillRes → Prop
  | .ok s => s.Canon
  | .stop _ => True

@[simp] def ForkRes.Canon : ForkRes → Prop
  | .done s => s.Canon
  | _ => True

@[simp] def Prep.Canon : Prep → Prop
  | .ok s => s.Canon
  | _ => True

/-- A fold of steps that leave device memory alone leaves it alone. -/
theorem foldl_mem {α : Type} {f : State → α → State} (hf : ∀ s x, (f s x).mem = s.mem) (l : List α) :
    ∀ s : State, (l.foldl f s).mem = s.mem := by
  induction l with
  | nil => exact fun _ => rfl
  | cons x t ih => exact fun s => (ih _).trans (hf s x)

/-- A fold of steps that keep the canonical form keeps it. -/
theorem foldl_canon {α : Type} {f : State → α → State} (hf : ∀ s x, s.Canon → (f s x).Canon) (l : List α) :
    ∀ {s : State}, s.Canon → (l.foldl f s).Canon := by
  induction l with
  | nil => exact fun h => h
  | cons x t ih => exact fun h => ih (hf _ x h)

/-- The same where each step answers something besides its state. -/
theorem foldl_fst_canon {α β : Type} {f : State × β → α → State × β} (hf : ∀ a x, a.1.Canon → (f a x).1.Canon)
    (l : List α) :
    ∀ {a : State × β}, a.1.Canon → (l.foldl f a).1.Canon := by
  induction l with
  | nil => exact fun h => h
  | cons x t ih => exact fun h => ih (hf _ x h)

/-- Every value that a computation can answer has P. -/
structure Answers {ε α : Type} (r : Except ε α) (P : α → Prop) : Prop where
  of_ok : ∀ a, r = .ok a → P a

theorem Answers.ok {ε α : Type} {P : α → Prop} {a : α} (h : P a) : Answers (.ok a : Except ε α) P :=
  ⟨by rintro _ ⟨⟩; exact h⟩

theorem Answers.error {ε α : Type} {P : α → Prop} (e : ε) : Answers (.error e : Except ε α) P := ⟨nofun⟩

theorem Answers.bind {ε α β : Type} {r : Except ε α} {f : α → Except ε β} {P : α → Prop} {Q : β → Prop} (hr : Answers r P)
    (hf : ∀ a, P a → Answers (f a) Q) : Answers (r.bind f) Q := by
  cases r with
  | error e => exact .error e
  | ok a => exact hf a (hr.of_ok a rfl)

/-- The same where nothing has to be known of the first value. -/
theorem answers_bind {ε α β : Type} {r : Except ε α} {f : α → Except ε β} {Q : β → Prop} (hf : ∀ a, Answers (f a) Q) :
    Answers (r.bind f) Q :=
  Answers.bind (P := fun _ => True) ⟨fun _ _ => trivial⟩ fun a _ => hf a

theorem Answers.map {ε α β : Type} {r : Except ε α} {f : α → β} {P : α → Prop} {Q : β → Prop} (hr : Answers r P)
    (hf : ∀ a, P a → Q (f a)) : Answers (r.map f) Q := by
  cases r with
  | error e => exact .error e
  | ok a => exact .ok (hf a (hr.of_ok a rfl))

/-! ## Device memory as the homes see it -/

@[simp] theorem State.fresh_mem (s : State) : s.fresh.2.mem = s.mem := rfl

@[simp] theorem State.freeVal_mem (s : State) : s.freeVal.2.mem = s.mem := rfl

@[simp] theorem State.upTask_mem (s : State) (id f) : (s.upTask id f).mem = s.mem := rfl

@[simp] theorem State.setPoison_mem (s : State) (l b) : (s.setPoison l b).mem = s.mem := rfl

@[simp] theorem State.fire_mem (s : State) (pa n) : (s.fire pa n).mem = s.mem := rfl

@[simp] theorem State.landWrite_mem (s : State) (pa lines has) : (s.landWrite pa lines has).mem = s.mem := by
  unfold State.landWrite; split <;> rfl

@[simp] theorem State.landRows_mem (s : State) (pa n) : (s.landRows pa n).mem = s.mem := s.landWrite_mem _ _ _

@[simp] theorem State.markMem_mem (s : State) (pa n bad) : (s.markMem pa n bad).mem = s.mem := by
  unfold State.markMem; split <;> exact foldl_mem (fun s l => s.setPoison_mem l _) _ s

@[simp] theorem State.ownLines_mem (s : State) (pa n ms) : (s.ownLines pa n ms).mem = s.mem := rfl

@[simp] theorem State.msServe_mem (s : State) (pa n ms) : (s.msServe pa n ms).mem = s.mem := by unfold State.msServe; split <;> rfl

@[simp] theorem State.physWrite_canon {s : State} (h : s.Canon) (pa bs ms) : (s.physWrite pa bs ms).Canon := by
  simpa [State.physWrite] using Mem.wf_write s.mem pa bs h

@[simp] theorem State.physCells_canon {s : State} (h : s.Canon) (l ms) : (s.physCells l ms).Canon := by
  have hw := Mem.wf_writeCells l s.mem h
  unfold State.physCells
  split
  · exact h
  · simp only [State.Canon, State.landWrite_mem, State.fire_mem, State.ownLines_mem]
    split <;> exact hw

@[simp] theorem State.hwWrite_canon {s : State} (h : s.Canon) (pa n v) : (s.hwWrite pa n v).Canon := physWrite_canon h ..

/-! ## Page walks -/

@[simp] theorem State.fillWalk_mem (s : State) (die asid va e) : (s.fillWalk die asid va e).mem = s.mem := rfl

@[simp] theorem State.writeLeaf_canon {s : State} (h : s.Canon) (pa old new) : (s.writeLeaf pa old new).Canon :=
  foldl_canon (fun _ _ h => hwWrite_canon h ..) _ h

@[simp] theorem State.unbusy_canon {s : State} (h : s.Canon) (pa) : (s.unbusy pa).Canon := by
  unfold State.unbusy
  dsimp only
  repeat' split
  all_goals simp [h]

@[simp] theorem State.treeBusy_canon {s : State} (h : s.Canon) (level f b) : (s.treeBusy level f b).Canon :=
  foldl_canon (fun _ _ h => writeLeaf_canon h ..) _ h

@[simp] theorem State.dropLeaf_mem (s : State) (asid va) : (s.dropLeaf asid va).mem = s.mem := rfl

/-- A store of the hardware itself: the pieces are written in turn, once every page has been found. -/
theorem State.hwStore_canon {s : State} (h : s.Canon) {die asid va bs t} (ht : s.hwStore die asid va bs = .ok t) : t.Canon := by
  unfold State.hwStore at ht
  dsimp only at ht
  split at ht
  · cases ht
  · cases ht
    exact foldl_fst_canon (fun _ _ ha => physWrite_canon ha ..) _ h

/-! ## Regions -/

@[simp] theorem State.refreshRcbs_mem (s : State) (die) : (s.refreshRcbs die).mem = s.mem := by rw [State.refreshRcbs]

@[simp] theorem State.charge_canon {s : State} (h : s.Canon) (die n o d) : (s.charge die n o d).Canon := by
  unfold State.charge
  split
  · exact h
  refine foldl_canon (fun s x h => ?_) _ h
  split
  · exact h
  split
  · exact h
  · next hw => exact hwStore_canon h hw

@[simp] theorem State.freeSlab_canon {s : State} (h : s.Canon) (d n) : (s.freeSlab d n).Canon := by
  unfold State.freeSlab
  split <;> simp [h]

theorem State.takeFrame_canon {s : State} (h : s.Canon) {die va t} (hr : s.takeFrame die va = some t) : t.2.Canon := by
  unfold State.takeFrame at hr
  dsimp only at hr
  repeat' split at hr
  all_goals cases hr
  exact hwStore_canon h ‹_›

@[simp] theorem State.giveFrame_canon {s : State} (h : s.Canon) (die va frame) : (s.giveFrame die va frame).Canon := by
  unfold State.giveFrame
  split
  · exact h
  dsimp only
  split
  · exact h
  split
  · exact h
  next hfirst =>
  split
  · exact h
  · next hsecond => exact hwStore_canon (hwStore_canon h hfirst) hsecond

@[simp] theorem State.qcrSet_canon {s : State} (h : s.Canon) (die q o n v) : (s.qcrSet die q o n v).Canon := by
  unfold State.qcrSet
  split
  · exact h
  · next hw => exact hwStore_canon h hw

/-! ## The operations of the control core -/

theorem State.done_canon {s : State} (h : s.Canon) (n) : Out.Canon (s.done n) := by simp [State.done, h]

theorem State.block_canon {s : State} (h : s.Canon) (why obj) : Out.Canon (s.block why obj) := by simp [State.block, h]

theorem State.hold_canon {s : State} (h : s.Canon) : Out.Canon s.hold := by simp [State.hold, h]

@[simp] theorem State.reply'_mem (s : State) (code status data) : (s.reply' code status data).mem = s.mem := rfl

@[simp] theorem State.postHost_mem (s : State) (e) : (s.postHost e).mem = s.mem := rfl

@[simp] theorem State.faultDomain_canon {s : State} (h : s.Canon) (die fd) : (s.faultDomain die fd).Canon := by
  refine foldl_canon (fun s q h => ?_) _ h
  repeat' split
  all_goals simp [h]

@[simp] theorem State.clearLock_canon {s : State} (h : s.Canon) (die i) : (s.clearLock die i).Canon := by
  unfold State.clearLock
  split
  · exact h
  split
  · next hw => exact hwStore_canon h hw
  · exact h

@[simp] theorem State.forkUnmark_canon {s : State} (h : s.Canon) (e) : (s.forkUnmark e).Canon := by
  unfold State.forkUnmark
  split <;> simp [h]

@[simp] theorem State.dropSeq_canon {s : State} (h : s.Canon) (c) : (s.dropSeq c).Canon := by
  refine foldl_canon (fun s e h => ?_) _ h
  have hl := foldl_canon (fun _ i h => clearLock_canon h (dieOf c) i) e.locked (forkUnmark_canon h e)
  dsimp only
  split
  · exact hl
  · exact hl

@[simp] theorem State.unpin_canon {s : State} (h : s.Canon) (c) : (s.unpin c).Canon := by unfold State.unpin; split <;> simp [h]

@[simp] theorem State.removeTask_canon {s : State} (h : s.Canon) (t) : (s.removeTask t).Canon := by
  unfold State.removeTask
  extract_lets die s1 s2 held s3 s4
  have h1 : s1.Canon := by
    unfold s1
    split
    · exact h
    · exact charge_canon h ..
  have h2 : s2.Canon := foldl_canon (fun _ c h => unpin_canon h c) _ (foldl_canon (fun _ c h => dropSeq_canon h c) _ h1)
  have h3 : s3.Canon := foldl_canon (fun _ _ h => freeSlab_canon h ..) _ h2
  have h4 : s4.mem = s3.mem := foldl_mem (fun s c => s.upCore_mem c _) _ s3
  exact (congrArg Mem.wf h4).trans h3

@[simp] theorem State.faultEnd_canon {s : State} (h : s.Canon) (t) : (s.faultEnd t).Canon := by
  unfold State.faultEnd
  dsimp only
  repeat' split
  all_goals simp [h]

@[simp] theorem State.endFaulted_canon {s : State} (h : s.Canon) (id kind cause thread detail fva trapa) :
    (s.endFaulted id kind cause thread detail fva trapa).Canon := by
  unfold State.endFaulted
  split <;> simp [h]

@[simp] theorem State.trapToHost_mem (s : State) (c r p) : (s.trapToHost c r p).mem = s.mem := by
  unfold State.trapToHost
  dsimp only
  repeat' split
  all_goals simp

@[simp] theorem State.trapInT_canon {s : State} (h : s.Canon) (c p) : (s.trapInT c p).Canon := by
  unfold State.trapInT
  dsimp only
  repeat' split
  all_goals simp [h]

@[simp] theorem State.deliverTrap_canon {s : State} (h : s.Canon) (c r) : (s.deliverTrap c r).Canon := by
  unfold State.deliverTrap
  repeat' split
  all_goals simp [h]

@[simp] theorem State.trapAt_canon {s : State} (h : s.Canon) (c r p) : (s.trapAt c r p).Canon := by simp [State.trapAt, h]

@[simp] theorem State.trap_canon {s : State} (h : s.Canon) (cause detail) : Out.Canon (s.trap cause detail) := trapAt_canon h ..

theorem State.trapX_canon {s : State} (h : s.Canon) (x) : Out.Canon (s.trapX x) := by simp [State.trapX, h]

theorem State.trapAfter_canon {s : State} (h : s.Canon) (n cause detail) : Out.Canon (s.trapAfter n cause detail) := by
  simp [State.trapAfter, h]

/-- What passes the gate runs `go`; anything else traps, waits, or marks the thread. -/
theorem State.gate_canon {s : State} (h : s.Canon) {n reads go} (hgo : Out.Canon (go ())) : Out.Canon (s.gate n reads go) := by
  rcases s.gate_cases n reads go with ⟨c, d, -, e⟩ | ⟨-, -, e⟩ | ⟨-, -, -, e⟩ | ⟨-, e⟩ <;> rw [e]
  · exact trap_canon h c d
  · exact h
  · exact h
  · exact hgo

@[simp] theorem State.openRel_mem (s : State) (sc own) : (s.openRel sc own).mem = s.mem := rfl

/-! ## Operands and channels -/

theorem State.chanRead_canon {s : State} (h : s.Canon) (i pop) : (s.chanRead i pop).Canon := by
  unfold State.chanRead
  dsimp only
  repeat' split
  all_goals simp [h]

theorem State.src_canon {s : State} (h : s.Canon) (x) : (s.src x).Canon := by
  cases x with
  | g i => exact h
  | peek i => exact chanRead_canon h i false
  | pop i => exact chanRead_canon h i true

theorem State.srcs_canon {s : State} (h : s.Canon) (l) : (s.srcs l).Canon := by
  induction l generalizing s with
  | nil => exact h
  | cons x xs ih =>
    have hx := src_canon h x
    unfold State.srcs
    split
    · next s1 hs => rw [hs] at hx; have := ih hx; split <;> simp_all
    · next hs => rw [hs] at hx; exact hx
    · exact hx

theorem State.push_canon {s : State} (h : s.Canon) (i v pend) : (s.push i v pend).Canon := by
  unfold State.push
  dsimp only
  repeat' split
  all_goals simp [h]

theorem State.dst_canon {s : State} (h : s.Canon) (d v) : (s.dst d v).Canon := by
  cases d with
  | g i => exact h
  | ch i => exact push_canon h i v none

theorem State.scalar_canon {s : State} (h : s.Canon) (maj len srcs d f) : Out.Canon (s.scalar maj len srcs d f) := by
  refine gate_canon h ?_
  have hs := srcs_canon h srcs
  split
  · next vs s1 e1 =>
    rw [e1] at hs
    have hd := dst_canon hs d (f vs)
    split
    · next e2 => rw [e2] at hd; exact done_canon hd ..
    · exact block_canon h ..
    · exact trap_canon h ..
  · exact block_canon h ..
  · exact trap_canon h ..

/-! ## Control transfers and block fetch -/

theorem State.indirect_canon {s : State} (h : s.Canon) (target k link) : Out.Canon (s.indirect target k link) := by
  unfold State.indirect
  split <;> simp [h]

@[simp] theorem State.csrSet_mem (s : State) (c r n v) : (s.csrSet c r n v).mem = s.mem := by
  unfold State.csrSet
  repeat' split
  all_goals rfl

@[simp] theorem State.fetchAhead_mem (s : State) (c r) : (s.fetchAhead c r).mem = s.mem := by
  unfold State.fetchAhead
  repeat' split
  all_goals rfl

@[simp] theorem State.blockFetch_canon {s : State} (h : s.Canon) (c r) : (s.blockFetch c r).Canon := by
  unfold State.blockFetch
  dsimp only
  repeat' split
  all_goals simp [h]

/-! ## What the memory words share -/

theorem State.startWalk_canon {s : State} (h : s.Canon) (va) : (s.startWalk va).Canon := by
  unfold State.startWalk
  dsimp only
  repeat' split
  all_goals simp [h]

theorem State.askCowFor_canon {s : State} (h : s.Canon) (d region asid va e) : (s.askCowFor d region asid va e).Canon := by
  unfold State.askCowFor
  dsimp only
  repeat' split
  all_goals simp [h]

theorem State.askCow_canon {s : State} (h : s.Canon) (c asid va e) : (s.askCow c asid va e).Canon := askCowFor_canon h ..

theorem State.breakCow_canon {s : State} (h : s.Canon) (va e kind) : (s.breakCow va e kind).Canon := by
  have hc := askCow_canon h s.cc s.asid va e
  unfold State.breakCow
  split
  · next hw => rw [hw] at hc; exact hc
  · trivial

theorem State.underLeaf_canon {s : State} (h : s.Canon) (va n a ms wr e) : (s.underLeaf va n a ms wr e).Canon := by
  unfold State.underLeaf
  dsimp only
  split
  · trivial
  split
  · trivial
  split
  · trivial
  split
  · exact breakCow_canon h ..
  split
  · trivial
  split
  · trivial
  split
  · trivial
  · exact h.of_mem (upMyCore_mem ..)

theorem State.site_canon {s : State} (h : s.Canon) (va n a al ms wr) : (s.site va n a al ms wr).Canon := by
  unfold State.site
  extract_lets bad
  split
  · trivial
  · split
    · trivial
    extract_lets poison
    split
    · trivial
    · exact h
  split
  · trivial
  split
  · exact h
  split
  · exact underLeaf_canon (h.of_mem (upMyCore_mem ..)) ..
  split
  · exact startWalk_canon h _
  split
  · exact startWalk_canon h _
  split
  · trivial
  split
  · exact h.of_mem (upMe_mem ..)
  · exact underLeaf_canon h ..

theorem State.site_canon_of_eq {s : State} (h : s.Canon) {va n a al ms wr r} (hr : s.site va n a al ms wr = r) : r.Canon :=
  hr ▸ site_canon h va n a al ms wr

@[simp] theorem State.cowOver_mem (s : State) (c asid x) : (s.cowOver c asid x).mem = s.mem := by unfold State.cowOver; split <;> rfl

theorem State.siteStop_canon {s : State} (h : s.Canon) {r : SiteRes} (hr : r.Canon) : Out.Canon (s.siteStop r) := by
  cases r with
  | ok x s1 => exact hr
  | fault x => exact trapX_canon (by simpa using h) x
  | stall w s1 => exact block_canon hr w 0
  | hold s1 => exact hr

theorem State.waitRoom_canon {s : State} (h : s.Canon) : Out.Canon s.waitRoom := block_canon (h.of_mem (upMyCore_mem ..)) 8 0

@[simp] theorem State.addReq_mem (s : State) (pa va e plain kind) : (s.addReq pa va e plain kind).2.mem = s.mem := rfl

@[simp] theorem State.addPoolReq_mem (s : State) (m off va plain kind) : (s.addPoolReq m off va plain kind).2.mem = s.mem := rfl

@[simp] theorem State.acquired_mem (s : State) (c r sc) : (s.acquired c r sc).mem = s.mem := by
  unfold State.acquired
  repeat' split
  all_goals rfl

@[simp] theorem State.fulfil_mem (s : State) (c id v) : (s.fulfil c id v).mem = s.mem := rfl

@[simp] theorem State.deliverTo_mem (s : State) (c r d id v) : (s.deliverTo c r d id v).mem = s.mem := by
  unfold State.deliverTo
  split <;> rfl

/-! ## Memory words and events -/

theorem State.claim_canon {s : State} (h : s.Canon) (d id) : (s.claim d id).Canon := by
  cases d with
  | g i => exact h
  | ch i => exact push_canon h i 0 (some id)

theorem State.loadAt_canon {s0 s : State} (h0 : s0.Canon) (h : s.Canon) (x va n signed plain d) :
    Out.Canon (s0.loadAt s x va n signed plain d) := by
  unfold State.loadAt
  extract_lets finish fromPool
  have hfinish : ∀ r : SrcRes, r.Canon → Out.Canon (finish r) := by
    intro r hr
    cases r with
    | vals vs s1 => exact done_canon hr 2
    | wait w ob => exact block_canon h0 w ob
    | chan c => exact trap_canon h0 cCHAN c
  have hpool : ∀ m off, Out.Canon (fromPool m off) := by
    intro m off
    unfold fromPool
    split
    · exact hfinish _ (claim_canon (by simpa using h) ..)
    · exact hfinish _ (dst_canon h ..)
  split
  · exact hpool ..
  · exact hpool ..
  split
  · exact h0
  split
  · exact hfinish _ (dst_canon h ..)
  split
  · exact waitRoom_canon h0
  · exact hfinish _ (claim_canon (by simpa using h) ..)

theorem State.loadWord_canon {s : State} (h : s.Canon) (n signed d a off) : Out.Canon (s.loadWord n signed d a off) := by
  refine gate_canon h ?_
  dsimp only
  split
  · exact block_canon h ..
  split
  · split
    · exact block_canon h ..
    · exact trap_canon h ..
    split
    · next x s1 hx =>
      have h1 : s1.Canon := site_canon_of_eq h hx
      have h2 := srcs_canon h1 [a]
      split
      · next hs => rw [hs] at h2; exact loadAt_canon h1 h2 ..
      · exact hold_canon h1
    · exact siteStop_canon h (site_canon h ..)
  · exact block_canon h ..
  · exact trap_canon h ..

@[simp] theorem State.bufferStore_mem (s : State) (x va whole cells) : (s.bufferStore x va whole cells).mem = s.mem := rfl

theorem State.storeWord_canon {s : State} (h : s.Canon) (n d a off) : Out.Canon (s.storeWord n d a off) := by
  refine gate_canon h ?_
  dsimp only
  split
  · exact block_canon h ..
  split
  · split
    · next x s1 hx =>
      have h1 : s1.Canon := site_canon_of_eq h hx
      have h2 := srcs_canon h1 [a]
      split
      · exact block_canon h1 ..
      split
      · exact waitRoom_canon h1
      split
      · next s2 hs =>
        rw [hs] at h2
        split
        · exact done_canon h2 2
        · exact done_canon (State.Canon.of_mem h2 (by rw [bufferStore_mem, upMyCore_mem])) 2
      · exact hold_canon h1
    · exact siteStop_canon h (site_canon h ..)
  · exact block_canon h ..
  · exact trap_canon h ..

theorem State.laneSites_canon {s : State} (h : s.Canon) (a l) : (s.laneSites a l).Canon := by
  induction l generalizing s with
  | nil => exact h
  | cons x t ih =>
    have hx := site_canon h x.2 4 a 4 none (fun _ => a.writes)
    unfold State.laneSites
    grind [SiteRes.Canon, LanesRes.Canon]

theorem State.laneSites_canon_of_eq {s : State} (h : s.Canon) {a l r} (hr : s.laneSites a l = r) : r.Canon :=
  hr ▸ laneSites_canon h a l

theorem State.vloadAt_canon {s : State} (h : s.Canon) (vd xs) : Out.Canon (s.vloadAt vd xs) := by
  unfold State.vloadAt
  dsimp only
  split
  · exact h
  split
  · exact waitRoom_canon h
  · refine done_canon (foldl_canon (fun s g h => ?_) _ ?_) 2
    · repeat' split
      all_goals simp [h]
    · exact h

theorem State.vload_canon {s : State} (h : s.Canon) (n reads g vd idx addr) : Out.Canon (s.vload n reads g vd idx addr) := by
  refine gate_canon h ?_
  split
  · exact block_canon h ..
  split
  · exact h
  split
  · next hs => exact vloadAt_canon (laneSites_canon_of_eq h hs) ..
  · next hs => exact siteStop_canon h (laneSites_canon_of_eq h hs)

theorem State.vstore_canon {s : State} (h : s.Canon) (n reads g vs idx addr) : Out.Canon (s.vstore n reads g vs idx addr) := by
  refine gate_canon h ?_
  split
  · exact block_canon h ..
  split
  · exact h
  split
  · next hs => exact siteStop_canon h (laneSites_canon_of_eq h hs)
  · next hs =>
    have hl : State.Canon _ := laneSites_canon_of_eq h hs
    dsimp only
    split
    · exact block_canon hl ..
    split
    · exact waitRoom_canon hl
    · refine done_canon (foldl_canon (fun s x h => ?_) _ ?_) 2
      · split
        · exact h
        · simp [h]
      · exact hl

@[simp] theorem State.rmw_canon {s : State} (h : s.Canon) (pa op b e ms) : (s.rmw pa op b e ms).2.Canon := by
  unfold State.rmw
  dsimp only
  repeat' split
  all_goals simp [h]

@[simp] theorem State.atomicResult_mem (s : State) (c r op gd id x) : (s.atomicResult c r op gd id x).mem = s.mem := by
  unfold State.atomicResult
  split <;> rfl

theorem State.atomic_canon {s : State} (h : s.Canon) (maj op a b d ord sc) : Out.Canon (s.atomic maj op a b d ord sc) := by
  unfold State.atomic
  extract_lets hi pair va bv ev n rel
  refine gate_canon h ?_
  generalize (if rel then s.release sc else .go) = release
  clear_value va bv ev n
  split
  · exact block_canon h ..
  split
  · exact trapX_canon h _
  · exact hold_canon h
  split
  · exact trapX_canon h _
  split
  · exact trap_canon h ..
  · exact block_canon h ..
  split
  · next s1 hx =>
    have h1 : s1.Canon := site_canon_of_eq h hx
    dsimp only
    split
    · exact waitRoom_canon h1
    split
    · exact done_canon (h1.of_mem (by rw [upMyCore_mem, atomicResult_mem, upMe_mem, addReq_mem])) 2
    · exact done_canon (h1.of_mem ((upMe_mem ..).trans (addReq_mem ..))) 2
  · next hx => exact hold_canon (site_canon_of_eq h hx)
  · exact siteStop_canon h (site_canon h ..)

@[simp] theorem State.prefetchLine_mem (s : State) (l1 va) : (s.prefetchLine l1 va).mem = s.mem := by
  unfold State.prefetchLine
  dsimp only
  repeat' split
  all_goals simp

theorem State.waitaEnd_canon {s : State} (h : s.Canon) (d cause) : Out.Canon (s.waitaEnd d cause) :=
  done_canon (h.of_mem (upMe_mem ..)) 2

@[simp] theorem State.waitaWake_mem (s : State) (c r) : (s.waitaWake c r).mem = s.mem := by
  unfold State.waitaWake
  repeat' split
  all_goals rfl

@[simp] theorem State.failRead_canon {s : State} (h : s.Canon) (c q cause detail) : (s.failRead c q cause detail).Canon := by
  unfold State.failRead
  dsimp only
  repeat' split
  all_goals simp [h]

@[simp] theorem State.serveLanes_mem (s : State) (c i q part vd lanes whole) : (s.serveLanes c i q part vd lanes whole).mem = s.mem := rfl

@[simp] theorem State.serveRead_mem (s : State) (c i q part) : (s.serveRead c i q part).mem = s.mem := by
  unfold State.serveRead
  dsimp only
  repeat' split
  all_goals simp

@[simp] theorem State.lineReturn_canon {s : State} (h : s.Canon) (c im) : (s.lineReturn c im).Canon := by
  unfold State.lineReturn
  dsimp only
  repeat' split
  all_goals simp [h]

@[simp] theorem State.atomicAct_canon {s : State} (h : s.Canon) (c i q) : (s.atomicAct c i q).Canon := by
  unfold State.atomicAct
  dsimp only
  repeat' split
  all_goals simp [h]

@[simp] theorem State.atomicHome_canon {s : State} (h : s.Canon) (c i) : (s.atomicHome c i).Canon := by
  unfold State.atomicHome
  repeat' split
  all_goals simp [h]

@[simp] theorem State.walkDone_mem (s : State) (c i) : (s.walkDone c i).mem = s.mem := by
  unfold State.walkDone
  split
  · rfl
  dsimp only
  split
  · rfl
  · refine (foldl_mem (fun s r => s.upThr_mem ..) _ _).trans ?_
    repeat' split
    all_goals simp

@[simp] theorem State.poolCells_mem (s : State) (m cells) : (s.poolCells m cells).mem = s.mem := by unfold State.poolCells; split <;> rfl

@[simp] theorem State.leaveRec_mem (s : State) (c i x) : (s.leaveRec c i x).mem = s.mem := rfl

@[simp] theorem State.storeTake_canon {out : State} (h : out.Canon) (c st) : (out.storeTake c st).Canon := by
  unfold State.storeTake
  split <;> simp [h]

@[simp] theorem State.storeSeen_mem (s : State) (c r st) : (s.storeSeen c r st).mem = s.mem := by unfold State.storeSeen; split <;> rfl

@[simp] theorem State.storePerform_canon {s : State} (h : s.Canon) (c r im) : (s.storePerform c r im).Canon := by
  unfold State.storePerform
  dsimp only
  repeat' split
  all_goals simp [h]

/-! ## The vector queue -/

theorem State.vissue_canon {s : State} (h : s.Canon) (maj sub op) : Out.Canon (s.vissue maj sub op) := by
  unfold State.vissue
  extract_lets sp
  refine gate_canon h ?_
  split
  · exact block_canon h ..
  split
  · exact block_canon h ..
  · exact done_canon (h.of_mem (((upMe_mem ..).trans (upMyCore_mem ..)).trans (fresh_mem s))) 2

@[simp] theorem State.vectorStart_mem (s : State) (c) : (s.vectorStart c).mem = s.mem := by
  unfold State.vectorStart
  repeat' split
  all_goals rfl

@[simp] theorem State.vectorComplete_mem (s : State) (c im) : (s.vectorComplete c im).mem = s.mem := by
  unfold State.vectorComplete
  dsimp only
  repeat' split
  all_goals simp

/-! ## Translation and migration -/

@[simp] theorem State.setFrameCount_canon {s : State} (h : s.Canon) (frame n) : (s.setFrameCount frame n).Canon := by
  simp [State.setFrameCount, h]

@[simp] theorem State.copyPage_canon {s : State} (h : s.Canon) (src dst frames) : (s.copyPage src dst frames).Canon := by
  simp only [State.copyPage, State.Canon, landRows_mem, fire_mem]
  rw [foldl_mem fun s i => s.setPoison_mem _ _]
  exact Mem.wf_copy s.mem _ _ _ h

@[simp] theorem State.leafSynced_mem (s : State) : s.leafSynced.mem = s.mem := rfl

@[simp] theorem State.endMove_mem (s : State) (d id) : (s.endMove d id).mem = s.mem := rfl

@[simp] theorem State.cowLock_canon {s : State} (h : s.Canon) (d m pa e) : (s.cowLock d m pa e).Canon := by
  unfold State.cowLock
  extract_lets c mark
  have hmark : ∀ t : State, t.Canon → ∀ f, (mark t f).Canon := fun t ht f =>
    (writeLeaf_canon ht pa e (leafSetBusy e true)).of_mem (by unfold mark; rw [setDie_mem, dropLeaf_mem])
  split
  · exact hmark s h 0
  split
  · next f s1 ht => exact hmark s1 (takeFrame_canon h ht) f
  · exact h.of_mem (setDie_mem ..)

@[simp] theorem State.cowFinish_canon {s : State} (h : s.Canon) (d m c pa e) : (s.cowFinish d m c pa e).Canon := by
  unfold State.cowFinish
  extract_lets f0 clear out s1 old
  have hout : ∀ t : State, t.Canon → ∀ new, (out t new).Canon := fun t ht new =>
    (writeLeaf_canon ht pa e new).of_mem (by unfold out; rw [endMove_mem, leafSynced_mem, dropLeaf_mem])
  have h1 : s1.Canon := copyPage_canon h ..
  split
  · exact hout s h _
  split
  · exact hout _ (setFrameCount_canon (setFrameCount_canon h1 ..) ..) _
  · exact hout _ (giveFrame_canon h1 ..) _

@[simp] theorem State.cowDrop_canon {s : State} (h : s.Canon) (d m) : (s.cowDrop d m).Canon := by
  unfold State.cowDrop
  repeat' split
  all_goals simp [h]

@[simp] theorem State.cowBreak_canon {s : State} (h : s.Canon) (d i) : (s.cowBreak d i).Canon := by
  unfold State.cowBreak
  repeat' split
  all_goals simp [h]

theorem State.reclaim_canon {s : State} (h : s.Canon) {d frame t} (hr : s.reclaim d frame = some t) : t.Canon := by
  unfold State.reclaim at hr
  dsimp only at hr
  split at hr
  · cases hr
  split at hr
  · cases hr
  split at hr
  · cases hr
  split at hr
  · cases hr
  next hfirst =>
  split at hr
  · cases hr
  · next hsecond =>
    cases hr
    exact hwStore_canon (hwStore_canon h hfirst) hsecond

@[simp] theorem State.migrateDone_canon {s : State} (h : s.Canon) (d i) : (s.migrateDone d i).Canon := by
  unfold State.migrateDone
  split
  · exact h
  next m _ =>
  split
  · exact h
  extract_lets +onlyGivenNames finish
  have hfinish : ∀ t : State, t.Canon → ∀ st, (finish t st).Canon := fun t ht st => ht.of_mem (setDie_mem ..)
  split
  · extract_lets +onlyGivenNames e s1
    have h1 : s1.Canon := charge_canon h ..
    exact hfinish _ ((unbusy_canon h1 m.pa).of_mem (by rw [leafSynced_mem, dropLeaf_mem])) _
  next pa e _ =>
  extract_lets +onlyGivenNames n old gone
  split
  · extract_lets +onlyGivenNames s1
    have h1 : s1.Canon := charge_canon h ..
    exact hfinish _ ((writeLeaf_canon h1 pa e (leafSetBusy e false)).of_mem (by rw [leafSynced_mem, dropLeaf_mem])) _
  split
  · exact h
  split
  · exact h
  next s1 hs =>
  extract_lets +onlyGivenNames c s2 s3 s4 s5
  have h2 : s2.Canon := (copyPage_canon (reclaim_canon h hs) old m.frame n).of_mem (fire_mem ..)
  have h3 : s3.Canon := by
    unfold s3
    split
    · exact setFrameCount_canon h2 ..
    · exact h2
  have h4 : s4.Canon := by
    unfold s4
    split
    · exact setFrameCount_canon h3 ..
    · exact h3
  have h5 : s5.Canon := charge_canon h4 ..
  exact hfinish _ ((writeLeaf_canon h5 pa e (leafSetFrame (leafSetBusy e false) m.frame m.tier)).of_mem
    (by rw [leafSynced_mem, dropLeaf_mem])) _

@[simp] theorem State.dropScope_mem (s : State) (v) : (s.dropScope v).mem = s.mem := by rw [State.dropScope]

@[simp] theorem State.bumpScope_mem (s : State) (p) : (s.bumpScope p).mem = s.mem := by rw [State.bumpScope]

@[simp] theorem State.invDone_mem (s : State) (i) : (s.invDone i).mem = s.mem := by
  unfold State.invDone
  dsimp only
  repeat' split
  all_goals simp

theorem State.pinDone_canon {s : State} (h : s.Canon) (d clr va pa e) : Out.Canon (s.pinDone d clr va pa e) :=
  done_canon ((writeLeaf_canon h ..).of_mem (by rw [upMe_mem, leafSynced_mem, dropLeaf_mem])) 2

theorem State.targetFrame_canon {s : State} (h : s.Canon) {d tier stack t} (hr : s.targetFrame d tier stack = some t) : t.2.Canon := by
  unfold State.targetFrame at hr
  split at hr
  · exact takeFrame_canon h hr
  split at hr
  · exact takeFrame_canon h hr
  split at hr
  · exact takeFrame_canon h hr
  split at hr
  · next ht => cases hr; exact takeFrame_canon h ht
  · exact takeFrame_canon h hr

theorem State.frameForm_canon {s : State} (h : s.Canon) (a d regs f zero) : Out.Canon (s.frameForm a d regs f zero) := by
  refine gate_canon h ?_
  dsimp only
  split
  · exact block_canon h ..
  split
  · exact trapX_canon h _
  · exact block_canon h ..
  split
  · exact done_canon (h.of_mem (upMe_mem ..)) 2
  refine done_canon (State.Canon.of_mem (s := if _ = _ then s else _) ?_ (upMe_mem ..)) 2
  split
  · exact h
  · exact setFrameCount_canon h ..

/-! ## What the engines share -/

@[simp] theorem State.ask_canon {s : State} (h : s.Canon) (c i w) : (s.ask c i w).Canon := by
  cases w with
  | cow asid va e =>
    have ha := askCow_canon (s := s.upCore c fun k => k.unwaitWalk i) h c asid va e
    unfold State.ask
    dsimp only
    split
    · next hs => rw [hs] at ha; exact ha
    · exact h
  | _ => exact h

theorem State.engUnder_canon {s : State} (h : s.Canon) (c port asid va a typed e) : (s.engUnder c port asid va a typed e).Canon := by
  unfold State.engUnder
  repeat' split
  all_goals simp [h]

theorem State.engAt_canon {s : State} (h : s.Canon) (c port asid va a typed) : (s.engAt c port asid va a typed).Canon := by
  unfold State.engAt
  dsimp only
  split
  · trivial
  split
  · trivial
  split
  · trivial
  split
  · trivial
  split
  · trivial
  split
  · trivial
  split
  · split
    · trivial
    · trivial
  · exact engUnder_canon h ..

theorem State.tryRec_canon {s : State} (h : s.Canon) {c x t} (ht : s.tryRec c x = some t) : t.Canon := by
  unfold State.tryRec at ht
  split at ht
  · cases ht
  · cases ht
    simp [h]

/-! ## The matrix engine -/

theorem State.matrixStop_canon {s : State} (h : s.Canon) {save o} (ho : s.matrixStop save = some o) : o.Canon := by
  unfold State.matrixStop at ho
  grind [State.trap_canon, State.block_canon]

theorem State.matrixTrap_canon {s : State} (h : s.Canon) {o} (ho : s.matrixTrap = some o) : o.Canon := by
  unfold State.matrixTrap at ho
  grind [State.trap_canon, State.upMyCore_mem]

theorem State.matrixGate_canon {s : State} (h : s.Canon) {n reads save go} (hgo : Out.Canon (go ())) :
    Out.Canon (s.matrixGate n reads save go) := by
  refine gate_canon h ?_
  split
  · exact block_canon h ..
  split
  · next ho => exact matrixStop_canon h ho
  split
  · next ho => exact matrixTrap_canon h ho
  · exact hgo

theorem State.matrixQueue_canon {s : State} (h : s.Canon) (op gs) : Out.Canon (s.matrixQueue op gs) := by
  unfold State.matrixQueue
  split
  · exact block_canon h ..
  split
  · exact block_canon h ..
  · exact done_canon (h.of_mem ((upMyCore_mem ..).trans (fresh_mem s))) 2

theorem State.maWait_canon {s : State} (h : s.Canon) (mask) : Out.Canon (s.maWait mask) := by
  unfold State.maWait
  dsimp only
  split
  · next ho => exact matrixStop_canon h ho
  split
  · split
    · next ho => exact matrixTrap_canon (by simpa using h) ho
    · exact block_canon h ..
  split
  · exact block_canon h ..
  split
  · exact trap_canon (by simpa using h) ..
  · exact done_canon h ..

theorem State.fillGroup_canon {s : State} (h : s.Canon) (c e i) : (s.fillGroup c e i).Canon := by
  unfold State.fillGroup
  dsimp only
  split
  · trivial
  next pa leaf s1 hs =>
  have h1 : s1.Canon := by
    have he := engAt_canon h c 4 (s.core c).view.asid (blockPlace (e.gv 3) (e.gv 0) (e.fillAt i).1).1 .read true
    rw [hs] at he
    exact he
  split
  · trivial
  split
  · trivial
  · exact h1.of_mem (by rw [upCore_mem, msServe_mem, msServe_mem])

theorem State.fillRun_canon {s : State} (h : s.Canon) (c e n i) : (State.fillRun c e n i s).1.Canon := by
  induction n generalizing i s with
  | zero => exact h
  | succ n ih =>
    have hg := fillGroup_canon h c e i
    unfold State.fillRun
    split
    · next s1 hs => rw [hs] at hg; exact ih hg (i + 1)
    · exact h

@[simp] theorem State.fillFault_canon {s : State} (h : s.Canon) (c e i x) : (s.fillFault c e i x).Canon := by
  unfold State.fillFault
  split
  · next hs => simpa using tryRec_canon h hs
  · exact h

@[simp] theorem State.fillGo_canon {s : State} (h : s.Canon) (c e n) : (s.fillGo c e n).Canon := by
  have hr := fillRun_canon h c e (min n (e.fillLen - e.done)) e.done
  unfold State.fillGo
  split
  · exact fillFault_canon h ..
  dsimp only
  split
  · exact fillFault_canon (by simpa using hr) ..
  · exact ask_canon (by simpa using hr) ..
  · split <;> simpa using hr

@[simp] theorem State.mmStart_mem (s : State) (c e t) : (s.mmStart c e t).mem = s.mem := by unfold State.mmStart; split <;> rfl

@[simp] theorem State.matrixStart_mem (s : State) (c i) : (s.matrixStart c i).mem = s.mem := by
  unfold State.matrixStart
  dsimp only
  repeat' split
  all_goals simp

@[simp] theorem State.lockClear_canon {s : State} (h : s.Canon) (c i) : (s.lockClear c i).Canon := by
  unfold State.lockClear
  dsimp only
  repeat' split
  all_goals simp [h]

@[simp] theorem State.matrixComplete_mem (s : State) (c i) : (s.matrixComplete c i).mem = s.mem := by
  unfold State.matrixComplete
  dsimp only
  repeat' split
  all_goals simp

@[simp] theorem State.freezeEnt_canon {s : State} (h : s.Canon) (c e) : (s.freezeEnt c e).Canon := by
  unfold State.freezeEnt
  repeat' split
  all_goals simp [h]

@[simp] theorem State.freeze_canon {s : State} (h : s.Canon) (c) : (s.freeze c).Canon := by
  unfold State.freeze
  split
  · exact h
  · exact foldl_canon (fun _ e h => freezeEnt_canon h c e) _ h

@[simp] theorem State.sitePut_canon {s : State} (h : s.Canon) (x bs) : (s.sitePut x bs).Canon := by unfold State.sitePut; split <;> simp [h]

theorem State.saveRun_canon (hdr n a l) {s : State} (h : s.Canon) :
    (∀ r, (State.saveRun hdr n a l s).1 = some r → r.Canon) ∧ (State.saveRun hdr n a l s).2.Canon := by
  induction l generalizing s with
  | nil => exact ⟨by simp [State.saveRun], h⟩
  | cons p ps ih =>
    unfold State.saveRun
    split
    · next x s1 hs => exact ih (sitePut_canon (site_canon_of_eq h hs) ..)
    · refine ⟨?_, h⟩
      rintro r ⟨⟩
      exact site_canon_of_eq h rfl

@[simp] theorem State.siteServe_mem (s : State) (n xs) : (s.siteServe n xs).mem = s.mem := by
  refine foldl_mem (fun s x => ?_) _ s
  split
  · exact msServe_mem ..
  · rfl

theorem State.loadSites_canon {a l} {s : State} (h : s.Canon) {x} (hr : State.loadSites a l s = .ok x) : x.2.Canon := by
  induction l generalizing s x with
  | nil => cases hr; exact h
  | cons p ps ih =>
    unfold State.loadSites at hr
    grind [SiteRes.Canon, State.site_canon]

/-- What stops the reading of sites has written nothing. -/
theorem State.loadSites_error_canon {a l} {s : State} (h : s.Canon) {r} (hr : State.loadSites a l s = .error r) : r.Canon := by
  induction l generalizing s with
  | nil => cases hr
  | cons p ps ih =>
    unfold State.loadSites at hr
    grind [SiteRes.Canon, State.site_canon]

/-! ## Ordering and the host -/

theorem State.acquireThen_canon {s : State} (h : s.Canon) {sc go} (hgo : ∀ t : State, t.Canon → Out.Canon (go t)) :
    Out.Canon (s.acquireThen sc go) := by
  unfold State.acquireThen
  split
  · exact block_canon h ..
  · exact hgo _ (by simpa using h)

@[simp] theorem State.hostPerform_canon {s : State} (h : s.Canon) (done l) : (s.hostPerform done l).Canon := by
  induction l generalizing s done with
  | nil => exact h
  | cons w t ih =>
    unfold State.hostPerform
    split
    · exact ih h _
    · exact ih (physWrite_canon h ..) _

/-! ## Barrier slots and semaphores -/

@[simp] theorem State.addPost_mem (s : State) (c r tg e) : (s.addPost c r tg e).mem = s.mem := rfl

@[simp] theorem State.postFails_canon {s : State} (h : s.Canon) (c p cause detail) : (s.postFails c p cause detail).Canon := by
  unfold State.postFails
  dsimp only
  split
  · next hs => simpa using tryRec_canon h hs
  · exact h

@[simp] theorem State.postStale_canon {s : State} (h : s.Canon) (c p) : (s.postStale c p).Canon := by simp [State.postStale, h]

@[simp] theorem State.postLand_canon {s : State} (h : s.Canon) (c p) : (s.postLand c p).Canon := by
  unfold State.postLand
  repeat' split
  all_goals simp [h]

@[simp] theorem State.landEvent_canon {s : State} (h : s.Canon) (c i sel) : (s.landEvent c i sel).Canon := by
  unfold State.landEvent
  repeat' split
  all_goals simp [h]

@[simp] theorem State.handleResolve_canon {s : State} (h : s.Canon) (c hd) : (s.handleResolve c hd).Canon := by
  unfold State.handleResolve
  dsimp only
  split
  · exact h
  split
  · exact foldl_canon (fun _ p h => postFails_canon h ..) _ h
  split
  · exact foldl_canon (fun _ p h => postFails_canon h ..) _ h
  · exact h

@[simp] theorem State.forgetHandle_mem (s : State) (h) : (s.forgetHandle h).mem = s.mem := rfl

@[simp] theorem State.forgetTask_mem (s : State) (id) : (s.forgetTask id).mem = s.mem := rfl

@[simp] theorem State.bhWrite_canon {s : State} (h : s.Canon) (d e) : (s.bhWrite d e).Canon := by
  rw [State.bhWrite, State.Canon, setDie_mem]
  exact (physWrite_canon h ..).withFree _

/-! ## Barrier, semaphore and channel words -/

theorem State.putDone_canon {s : State} (h : s.Canon) (d v) : Out.Canon (s.putDone d v) := done_canon (h.of_mem (upMe_mem ..)) 2

theorem State.syncGate_canon {s : State} (h : s.Canon) {maj reads go} (hgo : Out.Canon (go ())) :
    Out.Canon (s.syncGate maj reads go) := by
  refine gate_canon h ?_
  split
  · exact trap_canon h ..
  · exact hgo

theorem State.signal_canon {s : State} (h : s.Canon) (t e rel old d) : Out.Canon (s.signal t e rel old d) := by
  unfold State.signal
  split
  · exact trap_canon h ..
  split
  · exact trap_canon h ..
  extract_lets sc
  split
  · exact block_canon h ..
  split
  · split
    · exact trap_canon h ..
    · exact block_canon h ..
    split
    · exact block_canon h ..
    · exact putDone_canon (h.of_mem (upMyCore_mem ..)) ..
  split
  · exact trap_canon h ..
  split
  · exact block_canon h ..
  refine putDone_canon (State.Canon.of_mem (s := if sc = 0 then s else s.openRel sc false) ?_ (addPost_mem ..)) ..
  split
  · exact h
  · exact h.of_mem (openRel_mem ..)

theorem State.barPassed_canon {s : State} (h : s.Canon) (d) : Out.Canon (s.barPassed d) := by
  unfold State.barPassed
  split
  · refine acquireThen_canon h fun t ht => ?_
    dsimp only
    split
    · exact trapAfter_canon (ht.of_mem (upMe_mem ..)) ..
    · exact done_canon (ht.of_mem (upMe_mem ..)) 2
  · exact block_canon h ..

theorem State.barGoOn_canon {s : State} (h : s.Canon) (n d) : Out.Canon (s.barGoOn n d) := by
  unfold State.barGoOn
  split
  · exact barPassed_canon h d
  · exact block_canon h ..

theorem State.semGranted_canon {s : State} (h : s.Canon) (n d) : Out.Canon (s.semGranted n d) := by
  unfold State.semGranted
  split
  · exact acquireThen_canon h fun _ ht => putDone_canon ht ..
  · exact block_canon h ..

theorem State.chanEntry_canon {s : State} (h : s.Canon) {a go} (hgo : ∀ i, Out.Canon (go i)) : Out.Canon (s.chanEntry a go) := by
  unfold State.chanEntry
  dsimp only
  split
  · exact trap_canon h ..
  split
  · exact block_canon h ..
  · exact hgo _

theorem State.postRing_canon {s : State} (h : s.Canon) (i e claims d) : Out.Canon (s.postRing i e claims d) := by
  unfold State.postRing
  extract_lets hd post
  have hpost : ∀ b, ∀ t : State, t.Canon → Out.Canon (post b t) := fun b t ht =>
    putDone_canon (ht.of_mem ((upMyCore_mem ..).trans (fresh_mem t))) ..
  split
  · exact block_canon h ..
  split
  · exact hpost _ s h
  dsimp only
  split
  · exact hpost _ s h
  split
  · exact block_canon h ..
  · exact hpost _ _ (h.of_mem (upCore_mem ..))

@[simp] theorem State.linkLand_mem (s : State) (c i) : (s.linkLand c i).mem = s.mem := by
  unfold State.linkLand
  dsimp only
  repeat' split
  all_goals simp

/-! ## The copy engine -/

theorem State.ioSite_canon {s : State} (h : s.Canon) {c e a typed page va x} (hr : s.ioSite c e a typed page va = .ok x) :
    x.2.Canon := by
  have he := engAt_canon h c 3 e.asid va a typed
  unfold State.ioSite at hr
  grind [EngRes.Canon]

theorem State.ioSites_canon {c e a typed page l} {s : State} (h : s.Canon) {x} (hr : State.ioSites c e a typed page l s = .ok x) :
    x.2.Canon := by
  induction l generalizing s x with
  | nil => cases hr; exact h
  | cons y t ih =>
    unfold State.ioSites at hr
    grind [→ State.ioSite_canon]

@[simp] theorem State.setLinePoison_mem (s : State) (l b) : (s.setLinePoison l b).mem = s.mem := by
  unfold State.setLinePoison
  split <;> rfl

@[simp] theorem State.ioServe_mem (s : State) (l) : (s.ioServe l).mem = s.mem := by
  refine foldl_mem (fun s x => ?_) _ s
  split
  · exact msServe_mem ..
  · rfl

@[simp] theorem State.ioPut_canon {s : State} (h : s.Canon) (c x bs) : (s.ioPut c x bs).Canon := by
  unfold State.ioPut
  repeat' split
  all_goals simp [h]

theorem State.ioPuts_canon (c e sd upto pads poison l bs) {s : State} (h : s.Canon) (bad) :
    (State.ioPuts c e sd upto pads poison l bs s bad).1.Canon := by
  induction l generalizing bs s bad with
  | nil => exact h
  | cons x t ih =>
    unfold State.ioPuts
    dsimp only
    refine ih _ ?_ _
    repeat' split
    all_goals simp [h]

theorem State.copyUnitAt_canon {s : State} (h : s.Canon) {c e sd dd p cap t} (hr : s.copyUnitAt c e sd dd p cap = .ok t) : t.1.Canon := by
  unfold State.copyUnitAt at hr
  dsimp only at hr
  split at hr
  · cases hr
  split at hr
  · cases hr
  next src s1 hsrc =>
  have h1 : s1.Canon := ioSites_canon h hsrc
  split at hr
  · repeat' split at hr
    all_goals cases hr
    exact h1.of_mem (by rw [upCore_mem, ioServe_mem])
  split at hr
  · cases hr
  next dst s2 hdst =>
  have h2 : s2.Canon := ioSites_canon h1 hdst
  repeat' split at hr
  all_goals cases hr
  have h3 : (s2.ioServe src).Canon := h2.of_mem (ioServe_mem ..)
  exact State.Canon.of_mem (ioPuts_canon _ _ _ _ _ _ _ _ h3 _) (upCore_mem ..)

theorem State.copyUnit_canon {s : State} (h : s.Canon) {c e sd dd p cap t} (hr : s.copyUnit c e sd dd p cap = .ok t) : t.1.Canon := by
  unfold State.copyUnit at hr
  split at hr
  · next hu => cases hr; exact copyUnitAt_canon h hu
  dsimp only at hr
  split at hr
  · split at hr
    · next hu => cases hr; exact copyUnitAt_canon h hu
    · cases hr
  · cases hr

@[simp] theorem State.landCopy_mem (s : State) (c e dd lo hi) : (s.landCopy c e dd lo hi).mem = s.mem := by
  unfold State.landCopy
  split
  · rfl
  · exact foldl_mem (fun s l => s.landWrite_mem ..) _ s

@[simp] theorem State.copyRun_canon (c sd dd stop f p e n) {s : State} (h : s.Canon) : (State.copyRun c sd dd stop f p e n s).1.Canon := by
  induction f generalizing p e n s with
  | zero => exact h
  | succ f ih =>
    unfold State.copyRun
    dsimp only
    split
    · exact h
    split
    · exact ih _ _ _ h
    split
    · exact h
    · next hu => exact ih _ _ _ (copyUnit_canon h hu)

@[simp] theorem State.postBytes_mem (s : State) (c e n) : (s.postBytes c e n).mem = s.mem := by
  unfold State.postBytes
  repeat' split
  all_goals rfl

theorem State.copyGate_canon {s : State} (h : s.Canon) {maj sub reads go} (hgo : Out.Canon (go ⟨⟩)) :
    Out.Canon (s.copyGate maj sub reads go) := by
  refine gate_canon h ?_
  split
  · exact trap_canon h ..
  · exact hgo

theorem State.copyIssue_canon {s : State} (h : s.Canon) (maj op a gb reads d) : Out.Canon (s.copyIssue maj op a gb reads d) := by
  refine copyGate_canon h ?_
  extract_lets va
  split
  · exact block_canon h ..
  split
  · exact hold_canon h
  split
  · next x s1 hx =>
    have h1 : s1.Canon := site_canon_of_eq h hx
    extract_lets again
    split
    · exact hold_canon h
    split
    · exact trapX_canon h1 _
    split
    · exact waitRoom_canon h1
    generalize hp : State.fresh _ = p
    have h2 : p.2.Canon := by
      rw [← hp]
      refine State.Canon.of_mem ?_ (fresh_mem _)
      split
      · exact h1.of_mem (by rw [upMyCore_mem, msServe_mem])
      · exact h1
    dsimp only
    split
    · exact trapX_canon h1 _
    split
    · exact block_canon h1 ..
    refine putDone_canon (State.Canon.of_mem ?_ (upMyCore_mem ..)) ..
    split
    · exact h2
    · exact h2.of_mem (freeVal_mem _)
  · exact siteStop_canon h (site_canon h ..)

@[simp] theorem State.copyFault_canon {s : State} (h : s.Canon) (c e x) : (s.copyFault c e x).Canon := by
  unfold State.copyFault
  split
  · next hs => simpa using tryRec_canon h hs
  · exact h

@[simp] theorem State.copyStop_canon {s : State} (h : s.Canon) (c e w) : (s.copyStop c e w).Canon := by
  unfold State.copyStop
  split <;> simp [h]

@[simp] theorem State.copyTable_canon {s : State} (h : s.Canon) (c e) : (s.copyTable c e).Canon := by
  unfold State.copyTable
  split
  · exact copyStop_canon h ..
  next src s1 hsrc =>
  have h1 : s1.Canon := ioSites_canon h hsrc
  split
  · exact ask_canon h ..
  · exact h1.of_mem (by rw [upCore_mem, ioServe_mem])

@[simp] theorem State.copyStart_canon {s : State} (h : s.Canon) (c i) : (s.copyStart c i).Canon := by
  unfold State.copyStart
  dsimp only
  repeat' split
  all_goals simp [h]

@[simp] theorem State.copyPiece_canon {s : State} (h : s.Canon) (c e) : (s.copyPiece c e).Canon := by
  unfold State.copyPiece
  dsimp only
  repeat' split
  all_goals simp [h]

@[simp] theorem State.copyAhead_canon {s : State} (h : s.Canon) (c e k) : (s.copyAhead c e k).Canon := by
  unfold State.copyAhead
  split
  · exact h
  next sd dd _ =>
  extract_lets p q between
  split
  · exact h
  have hrun := copyRun_canon c sd dd q (q - p) p e 0 h
  split
  · next hr =>
    rw [hr] at hrun
    exact State.Canon.of_mem hrun (by rw [landCopy_mem, upCore_mem])
  · exact h

@[simp] theorem State.copyPiecePost_canon {s : State} (h : s.Canon) (c i) : (s.copyPiecePost c i).Canon := by
  unfold State.copyPiecePost
  repeat' split
  all_goals simp [h]

@[simp] theorem State.copyComplete_mem (s : State) (c i) : (s.copyComplete c i).mem = s.mem := by
  unfold State.copyComplete
  repeat' split
  all_goals rfl

theorem State.farStall_canon {s : State} (h : s.Canon) {asid va t} (hr : s.farStall asid va = some t) : t.Canon := by
  unfold State.farStall at hr
  grind [CowRes.Canon, State.askCowFor_canon]

@[simp] theorem State.farWrite_canon (asid bad l bs) {s : State} (h : s.Canon) : (State.farWrite asid bad l bs s).1.Canon := by
  induction l generalizing bs s with
  | nil => exact h
  | cons x t ih =>
    unfold State.farWrite
    split
    · exact h
    split
    · exact h
    split
    · exact h
    · refine ih _ ?_
      split <;> simp [h]

@[simp] theorem State.handleEvent_mem (s : State) (h e) : (s.handleEvent h e).mem = s.mem := by
  unfold State.handleEvent
  repeat' split
  all_goals rfl

@[simp] theorem State.farUnits_canon {s : State} (h : s.Canon) (asid va bytes bar bad) : (s.farUnits asid va bytes bar bad).Canon := by
  have hw := farWrite_canon asid bad (pagePieces (bytes.length / 4096 + 2) va bytes.length) bytes h
  unfold State.farUnits
  dsimp only
  split
  · next hs =>
    obtain ⟨p, -, hp⟩ := List.exists_of_findSome?_eq_some hs
    exact farStall_canon h hp
  split
  · exact hw
  · simp [hw]

/-! ## Fast-weight states -/

@[simp] theorem State.fwWrite_canon {s : State} (h : s.Canon) (d e) : (s.fwWrite d e).Canon := by
  rw [State.fwWrite, State.Canon, setDie_mem]
  exact (physWrite_canon h ..).withFree _

@[simp] theorem State.fwSet_canon {s : State} (h : s.Canon) (d ix f) : (s.fwSet d ix f).Canon := by simp [State.fwSet, h]

@[simp] theorem State.fwVacate_canon {s : State} (h : s.Canon) (d ix) : (s.fwVacate d ix).Canon := by simp [State.fwVacate, h]

theorem State.fwPick_canon {s : State} (h : s.Canon) {d t} (hr : s.fwPick d = some t) : t.2.Canon := by
  unfold State.fwPick at hr
  extract_lets free at hr
  rw [Option.map_eq_some_iff] at hr
  obtain ⟨i, -, rfl⟩ := hr
  exact h

@[simp] theorem State.setSlabPoison_mem (s : State) (d l b) : (s.setSlabPoison d l b).mem = s.mem := rfl

/- The free slabs are a list of thousands: its value is hidden before the branches are taken apart. -/
theorem State.takeSlabs_canon {s : State} (h : s.Canon) {d region marks t} (hr : s.takeSlabs d region marks = some t) : t.2.Canon := by
  unfold State.takeSlabs at hr
  extract_lets n free mine new at hr
  clear_value free
  split at hr
  · cases hr; exact h
  split at hr
  · cases hr
  · cases hr
    exact charge_canon (h.of_mem (setDie_mem ..)) d region 132 n

@[simp] theorem State.dropSlabs_canon {s : State} (h : s.Canon) (d l) : (s.dropSlabs d l).Canon := by
  refine foldl_canon (fun s n h => ?_) _ h
  split
  · exact freeSlab_canon h ..
  · exact h

theorem State.fwCow_canon {s : State} (h : s.Canon) {d ix region is t} (hr : s.fwCow d ix region is = some t) : t.Canon := by
  unfold State.fwCow at hr
  split at hr
  · cases hr
  dsimp only at hr
  split at hr
  · cases hr; exact h
  split at hr
  · cases hr
  · next ht => cases hr; exact fwSet_canon (takeSlabs_canon h ht) ..

@[simp] theorem State.fwOpenWork_canon {s : State} (h : s.Canon) (d ix) : (s.fwOpenWork d ix).Canon := by
  unfold State.fwOpenWork
  split
  · exact h
  · refine fwSet_canon (foldl_canon (fun s p h => ?_) _ h) ..
    simp [h]

theorem State.takeFrames_canon {s : State} (h : s.Canon) {d p n t} (hr : s.takeFrames d p n = some t) : t.2.Canon := by
  induction n generalizing t with
  | zero => cases hr; exact h
  | succ n ih =>
    unfold State.takeFrames at hr
    split at hr
    · cases hr
    · next hs =>
      obtain ⟨x, hx, rfl⟩ := Option.map_eq_some_iff.mp hr
      exact takeFrame_canon (ih hs) hx

@[simp] theorem State.giveFrames_canon {s : State} (h : s.Canon) (d p l) : (s.giveFrames d p l).Canon :=
  foldl_canon (fun _ _ h => giveFrame_canon h ..) _ h

@[simp] theorem State.fillFrame_canon {s : State} (h : s.Canon) (f bad) : (s.fillFrame f bad).Canon := by
  unfold State.fillFrame
  split <;> simp [h]

@[simp] theorem State.fwLeave_canon {s : State} (h : s.Canon) (d f) : (s.fwLeave d f).Canon := by unfold State.fwLeave; split <;> simp [h]

@[simp] theorem State.fwOutTo_canon {s : State} (h : s.Canon) (d ix p frames) : (s.fwOutTo d ix p frames).Canon := by
  unfold State.fwOutTo
  split
  · exact h
  · exact fwLeave_canon (fwSet_canon (foldl_canon (fun _ _ h => fillFrame_canon h ..) _ h) ..) ..

/- What the lists give is named before it is taken apart, so that nothing counts frames. -/
theorem State.outFrames_canon {s : State} (h : s.Canon) {d f p t} (hr : s.outFrames d f p = .ok t) : t.2.Canon := by
  rw [State.outFrames] at hr
  generalize hl : State.takeFrames _ _ _ _ = r at hr
  cases r with
  | none => cases hr
  | some x =>
    dsimp only at hr
    split at hr
    · cases hr
    · cases hr; exact takeFrames_canon h hl

theorem State.fwIn_canon {s : State} (h : s.Canon) {d ix t} (hr : s.fwIn d ix = .ok t) : t.Canon := by
  unfold State.fwIn at hr
  split at hr
  · cases hr
  split at hr
  · cases hr
  split at hr
  · cases hr
  · next ht => cases hr; exact fwLeave_canon (fwSet_canon (takeSlabs_canon h ht) ..) ..

@[simp] theorem State.fwFreeState_canon {s : State} (h : s.Canon) (d ix) : (s.fwFreeState d ix).Canon := by
  unfold State.fwFreeState
  split <;> simp [h]

theorem State.fwShare_canon {s : State} (h : s.Canon) {d ix region t} (hr : s.fwShare d ix region = some t) : t.2.Canon := by
  unfold State.fwShare at hr
  split at hr
  · next ht => cases hr; exact fwSet_canon (fwPick_canon h ht) ..
  · cases hr

/-! ## The update engine and the pager -/

@[simp] theorem State.upFw_mem (s : State) (c id f) : (s.upFw c id f).mem = s.mem := rfl

@[simp] theorem State.fwSettle_mem (s : State) (c e v) : (s.fwSettle c e v).mem = s.mem := rfl

@[simp] theorem State.fwFinish_mem (s : State) (c e v) : (s.fwFinish c e v).mem = s.mem := rfl

@[simp] theorem State.rehandle_mem (s : State) (old new) : (s.rehandle old new).mem = s.mem := rfl

theorem State.fwHeadStart_canon {s : State} (hs : s.Canon) {e h f t} (hr : s.fwHeadStart e h f = .ok t) : t.Canon := by
  have hstart : Answers (s.fwHeadStart e h f) State.Canon := by
    unfold State.fwHeadStart
    extract_lets d ix copied
    have hcopied : Answers copied State.Canon := by
      unfold copied
      split
      · exact .error _
      · next hc => exact .ok (fwCow_canon hs hc)
    split
    · split
      · exact .error _
      split
      · exact .error _
      · exact hcopied
    · refine .ok ?_
      split
      · exact hs
      · exact fwOpenWork_canon hs ..
    · split
      · exact .error _
      split
      · exact .error _
      · exact hcopied
    split
    · exact .error _
    split
    · exact .ok hs
    split
    · split
      · exact .error _
      · exact hcopied
    split
    · exact .error _
    refine .ok ?_
    split
    · exact fwOpenWork_canon hs ..
    · exact hs
  exact hstart.of_ok t hr

@[simp] theorem State.chunkHead_canon {s : State} (hs : s.Canon) (c e hd f h) : (s.chunkHead c e hd f h).1.Canon := by
  generalize hr : s.chunkHead c e hd f h = r
  unfold State.chunkHead at hr
  grind [State.fwSet_canon, State.upCore_mem]

@[simp] theorem State.averageHead_canon {s : State} (hs : s.Canon) (e hd f h) : (s.averageHead e hd f h).1.Canon := by
  unfold State.averageHead
  dsimp only
  repeat' split
  all_goals simp [hs]

@[simp] theorem State.rebuildHead_canon {s : State} (hs : s.Canon) (hd f keep h) : (s.rebuildHead hd f keep h).1.Canon := by
  unfold State.rebuildHead
  dsimp only
  repeat' split
  all_goals simp [hs]

@[simp] theorem State.logDiscard_canon {s : State} (h : s.Canon) (hd f keep) : (s.logDiscard hd f keep).1.Canon := by
  unfold State.logDiscard
  extract_lets fin r
  have hfin : ∀ t : State, t.Canon → (fin t).Canon := by
    intro t ht
    unfold fin
    split
    · exact ht
    · exact fwSet_canon ht ..
  have hr : r.1.Canon := by
    refine foldl_fst_canon (fun a k ha => ?_) _ (fwOpenWork_canon h ..)
    split
    · exact ha
    · exact rebuildHead_canon ha ..
  split
  · exact h
  split
  · exact hfin _ h
  · exact hfin _ hr

@[simp] theorem State.fwHead_canon {s : State} (hs : s.Canon) (c e hd f h) : (s.fwHead c e hd f h).1.Canon := by
  unfold State.fwHead
  dsimp only
  repeat' split
  all_goals simp [hs]

@[simp] theorem State.fwLast_canon {s : State} (h : s.Canon) (e hd f) : (s.fwLast e hd f).1.Canon := by
  unfold State.fwLast
  dsimp only
  repeat' split
  all_goals simp [h]

/- The free entries and the free slabs are lists of thousands: the two searches are named first, so that nothing computes them. -/
@[simp] theorem State.fwOpenDo_canon {s : State} (h : s.Canon) (c e) : (s.fwOpenDo c e).1.Canon := by
  unfold State.fwOpenDo
  extract_lets d f
  obtain ⟨take, htake⟩ : ∃ g : State → _, ∀ t : State, t.takeSlabs d e.region (List.replicate f.slabCount false) = g t :=
    ⟨_, fun _ => rfl⟩
  obtain ⟨p, hp⟩ : ∃ p, s.fwPick d = p := ⟨_, rfl⟩
  have hy : ∀ x y, p = some x → take x.2 = some y → y.2.Canon := fun x y hx ht =>
    takeSlabs_canon (fwPick_canon h (hp.trans hx)) ((htake _).trans ht)
  simp only [htake, hp]
  split
  · exact h
  split
  · exact h
  · next ht => exact fwSet_canon (hy _ _ rfl ht) ..

@[simp] theorem State.fwCloseDo_canon {s : State} (h : s.Canon) (hd f) : (s.fwCloseDo hd f).1.Canon := by
  have h1 := fwSet_canon h (fhDie hd) (fhIx hd) { f with pend := [] }
  unfold State.fwCloseDo
  dsimp only
  split
  · exact h1
  split
  · exact h
  · next hl => exact fwOutTo_canon (outFrames_canon h1 hl) ..

@[simp] theorem State.fwRollDo_canon {s : State} (h : s.Canon) (e th sh t f) : (s.fwRollDo e th sh t f).1.Canon := by
  unfold State.fwRollDo
  dsimp only
  split
  · exact h
  split
  · exact fwSet_canon h ..
  split
  · split
    · exact h
    · next hl => exact dropSlabs_canon (State.Canon.of_mem (fwSet_canon (takeSlabs_canon h hl) ..) (setSlabPoison_mem ..)) ..
  · exact dropSlabs_canon (fwSet_canon h ..) ..

@[simp] theorem State.addXfer_mem (s : State) (c e hd target tix) : (s.addXfer c e hd target tix).mem = s.mem := rfl

@[simp] theorem State.fwPageStart_canon {s : State} (h : s.Canon) (c e o hd f) : (s.fwPageStart c e o hd f).Canon := by
  have hsettle : ∀ v, (s.fwSettle c e v).Canon := fun v => h.of_mem (fwSettle_mem ..)
  unfold State.fwPageStart
  dsimp only
  split
  · split
    · exact hsettle _
    split
    · exact hsettle _
    · next hl => exact (outFrames_canon h hl).of_mem (addXfer_mem ..)
  split
  · split
    · exact hsettle _
    · exact h.of_mem (addXfer_mem ..)
  split
  · exact h.of_mem (addXfer_mem ..)
  split
  · exact hsettle _
  split
  · exact hsettle _
  · next hl => exact (takeSlabs_canon h hl).of_mem (addXfer_mem ..)

@[simp] theorem State.fwMigStart_canon {s : State} (h : s.Canon) (c e hd f) : (s.fwMigStart c e hd f).Canon := by
  have hsettle : ∀ v, (s.fwSettle c e v).Canon := fun v => h.of_mem (fwSettle_mem ..)
  unfold State.fwMigStart
  dsimp only
  split
  · split
    · exact h.of_mem (addXfer_mem ..)
    · exact hsettle _
  split
  · exact hsettle _
  split
  · exact hsettle _
  split
  · exact hsettle _
  next hp =>
  have h1 := fwPick_canon h hp
  split
  · exact State.Canon.of_mem h1 (addXfer_mem ..)
  split
  · exact hsettle _
  · next hl => exact (takeSlabs_canon h1 hl).of_mem (addXfer_mem ..)

@[simp] theorem State.fwBegin_canon {s : State} (h : s.Canon) (c e) : (s.fwBegin c e).Canon := by
  have hsettle : ∀ v, (s.fwSettle c e v).Canon := fun v => h.of_mem (fwSettle_mem ..)
  unfold State.fwBegin
  extract_lets hd done
  have hdone : ∀ x : State × Word, x.1.Canon → (done x).Canon := fun x hx => hx.of_mem (fwSettle_mem ..)
  split
  · exact hdone _ (fwOpenDo_canon h ..)
  split
  · exact hsettle _
  split
  · exact hdone _ (fwCloseDo_canon h ..)
  · exact hdone _ (fwFreeState_canon h ..)
  · exact hdone _ h
  · exact fwPageStart_canon h ..
  · exact fwMigStart_canon h ..
  · refine hdone _ ?_
    split
    · exact h
    · next hs => exact fwShare_canon h hs
  · split
    · exact hsettle _
    · exact hdone _ (fwRollDo_canon h ..)
  · split
    · exact hsettle _
    · next hs => exact (fwHeadStart_canon h hs).of_mem (upFw_mem ..)

@[simp] theorem State.fwStart_canon {s : State} (h : s.Canon) (c) : (s.fwStart c).Canon := by
  unfold State.fwStart
  repeat' split
  all_goals simp [h]

@[simp] theorem State.fwPageIn_canon {s : State} (h : s.Canon) (c) : (s.fwPageIn c).Canon := by
  unfold State.fwPageIn
  split
  · split
    · exact h
    split
    · exact h.of_mem (fwSettle_mem ..)
    · next hi => exact fwIn_canon h hi
  · exact h

@[simp] theorem State.fwComplete_canon {s : State} (h : s.Canon) (c) : (s.fwComplete c).Canon := by
  unfold State.fwComplete
  dsimp only
  repeat' split
  all_goals simp [h]

@[simp] theorem State.dropHold_canon {s : State} (h : s.Canon) (x) : (s.dropHold x).Canon := by
  unfold State.dropHold
  repeat' split
  all_goals simp [h]

@[simp] theorem State.xferEnd_mem (s : State) (x v) : (s.xferEnd x v).mem = s.mem := by
  unfold State.xferEnd
  dsimp only
  repeat' split
  all_goals simp

@[simp] theorem State.imageRun_canon (x f wr n e) {s : State} (h : s.Canon) : (State.imageRun x f wr n e s).1.Canon := by
  induction n generalizing e s with
  | zero => exact h
  | succ n ih =>
    have he := engAt_canon h x.core 5 e.asid (addrAdd e.gb.toNat (4 * e.head)) (if wr then .write else .read) false
    unfold State.imageRun
    dsimp only
    split
    · exact h
    split
    · exact h
    · next hs =>
      rw [hs] at he
      repeat' split
      all_goals exact ih _ (by simp_all)

@[simp] theorem State.imageFault_canon {s : State} (h : s.Canon) (x e y) : (s.imageFault x e y).Canon := by
  unfold State.imageFault
  dsimp only
  split
  · exact (dropHold_canon h x).of_mem (xferEnd_mem ..)
  split
  · exact h
  split
  · exact h
  · next ht => exact State.Canon.of_mem (tryRec_canon h ht) rfl

@[simp] theorem State.imageStep_canon {s : State} (h : s.Canon) (x f wr) : (s.imageStep x f wr).Canon := by
  have hrun := imageRun_canon x f wr (f.imageLen - x.e.head) x.e h
  unfold State.imageStep
  extract_lets d keep
  have hkeep : ∀ t : State, t.Canon → ∀ e, (keep t e).Canon := fun t ht e => ht
  split
  · next hr => rw [hr] at hrun; exact imageFault_canon (State.Canon.of_mem hrun (upCore_mem ..)) ..
  · next s1 e asid va leaf hr =>
    rw [hr] at hrun
    have hc := askCowFor_canon (hkeep s1 hrun e) (dieOf x.core) x.e.region asid va leaf
    split
    · next hw => rw [hw] at hc; exact hc
    · exact hkeep s1 hrun e
  · next hr => rw [hr] at hrun; exact ask_canon (hkeep _ hrun _) ..
  · next hr =>
    rw [hr] at hrun
    split
    · exact State.Canon.of_mem hrun (xferEnd_mem ..)
    · exact State.Canon.of_mem (dropSlabs_canon (fwSet_canon hrun ..) ..) (xferEnd_mem ..)

@[simp] theorem State.migRecord_canon {s : State} (hs : s.Canon) (x h) : (s.migRecord x h).Canon := by
  unfold State.migRecord
  split
  · exact hs
  split
  · exact hs
  split
  · next hw => exact hwStore_canon hs hw
  · exact hs

@[simp] theorem State.migEnd_canon {s : State} (h : s.Canon) (x f j) : (s.migEnd x f j).Canon := by
  unfold State.migEnd
  extract_lets d t g s1 s2 hd
  have h1 : s1.Canon := fwSet_canon (fwVacate_canon h ..) ..
  have h2 : s2.Canon := by
    unfold s2
    split
    · exact dropSlabs_canon h1 ..
    · exact h1
  split
  · exact (dropHold_canon h x).of_mem (xferEnd_mem ..)
  · exact (migRecord_canon h2 ..).of_mem (xferEnd_mem ..)

@[simp] theorem State.farHandle_mem (s : State) (x) : (s.farHandle x).2.mem = s.mem := rfl

@[simp] theorem State.xferComplete_canon {s : State} (h : s.Canon) (i) : (s.xferComplete i).Canon := by
  have hfail : ∀ x v, (s.xferEnd x v).Canon := fun x v => h.of_mem (xferEnd_mem ..)
  have hdrop : ∀ x v, ((s.dropHold x).xferEnd x v).Canon := fun x v => (dropHold_canon h x).of_mem (xferEnd_mem ..)
  unfold State.xferComplete
  split
  · exact h
  dsimp only
  split
  · exact hdrop _ _
  split
  · exact hdrop _ _
  split
  · split
    · split
      · exact hdrop _ _
      · exact (fwOutTo_canon h ..).of_mem (xferEnd_mem ..)
    split
    · split
      · exact hfail _ _
      · next hi => exact (fwIn_canon h hi).of_mem (xferEnd_mem ..)
    · exact imageStep_canon h ..
  split
  · exact migEnd_canon h ..
  split
  · exact hfail _ _
  split
  · exact hfail _ _
  split
  · exact hfail _ _
  · exact (migRecord_canon (fwFreeState_canon (h.of_mem (farHandle_mem ..)) ..) ..).of_mem (xferEnd_mem ..)

@[simp] theorem State.farArrive_canon {s : State} (h : s.Canon) (d region f) : (s.farArrive d region f).Canon := by
  unfold State.farArrive
  split
  · exact h
  split
  · exact h
  next hp =>
  split
  · exact h
  · next hl => exact fwSet_canon (takeSlabs_canon (fwPick_canon h hp) hl) ..

/-! ## Fast-weight words -/

theorem State.fwGate_canon {s : State} (h : s.Canon) {maj reads go} (hgo : Out.Canon (go ())) :
    Out.Canon (s.fwGate maj reads go) := by
  refine gate_canon h ?_
  split
  · exact trap_canon h ..
  split
  · exact block_canon h ..
  · exact hgo

theorem State.fwNamed_canon {s : State} (h : s.Canon) {g loc go} (hgo : ∀ i f, Out.Canon (go i f)) :
    Out.Canon (s.fwNamed g loc go) := by
  unfold State.fwNamed
  extract_lets bad
  have hbad : ∀ c d va, Out.Canon (bad c d va) := fun _ _ _ => trapX_canon h _
  split
  · exact hold_canon h
  split
  · exact hbad _ _ _
  split
  · exact hbad _ _ _
  split
  · exact hbad _ _ _
  split
  · split
    · exact h
    · exact hbad _ _ _
  split
  · exact hbad _ _ _
  split
  · exact hbad _ _ _
  · exact hgo _ _

theorem State.fwAllNamed_canon {s : State} (h : s.Canon) {l go} (hgo : Out.Canon (go ())) : Out.Canon (s.fwAllNamed l go) := by
  induction l with
  | nil => exact hgo
  | cons g t ih => exact fwNamed_canon h fun _ _ => ih

theorem State.fwQueue_canon {s : State} (h : s.Canon) (op gs desc geo) : Out.Canon (s.fwQueue op gs desc geo) := by
  unfold State.fwQueue
  split
  · exact block_canon h ..
  · exact done_canon (h.of_mem (((upMe_mem ..).trans (upMyCore_mem ..)).trans (fresh_mem s))) 2

theorem State.chunkIssue_canon {s : State} (h : s.Canon) (op a b) : Out.Canon (s.chunkIssue op a b) := by
  refine fwGate_canon h (fwNamed_canon h fun _ f => ?_)
  split
  · exact hold_canon h
  dsimp only
  split
  · exact trapX_canon h _
  · exact fwQueue_canon h ..

@[simp] theorem State.fwResolve_mem (s : State) (c) : (s.fwResolve c).mem = s.mem := by unfold State.fwResolve; split <;> rfl

/-! ## Contexts and the sequence queue -/

theorem State.ctxStore_canon {s : State} (h : s.Canon) {d i fs new t} (hr : s.ctxStore d i fs new = .ok t) : t.Canon := by
  unfold State.ctxStore at hr
  split at hr
  · cases hr
  · refine (List.foldlRecOn (motive := fun x : Except (Nat × Nat) State => Answers x State.Canon) _ _ (.ok h) ?_).of_ok t hr
    intro a ha w _
    split
    · exact .error _
    split
    · exact ha
    · exact ⟨fun _ => hwStore_canon (ha.of_ok _ rfl)⟩

theorem State.recStore_canon {s : State} (h : s.Canon) {c i fs new t} (hr : s.recStore c i fs new = .ok t) : t.Canon := by
  unfold State.recStore at hr
  split at hr
  · next hs => cases hr; exact ctxStore_canon h hs
  · cases hr

theorem State.seqPoke_canon {s : State} (h : s.Canon) {c asid va bs t} (hr : s.seqPoke c asid va bs = .ok t) : t.Canon := by
  refine (Answers.map (P := fun x : State × List Byte => x.1.Canon) (Q := State.Canon) ?_ fun _ ha => ha).of_ok t hr
  refine List.foldlRecOn (motive := fun x : SeqM (State × List Byte) => Answers x fun y => y.1.Canon) _ _ (.ok h) ?_
  intro a ha p _
  split
  · exact .error _
  · next s bs =>
    have he := engAt_canon (ha.of_ok _ rfl) c 5 asid (p.1 % 2 ^ 64) .write false
    split
    · exact .error _
    · next hs => rw [hs] at he; exact .ok (physWrite_canon he ..)

@[simp] theorem State.upSq_mem (s : State) (c id f) : (s.upSq c id f).mem = s.mem := rfl

@[simp] theorem State.unlock_canon {s : State} (h : s.Canon) (c e) : (s.unlock c e).Canon := by
  refine foldl_canon (fun s i h => ?_) _ (forkUnmark_canon h e)
  split
  · exact h
  split
  · next hs => exact ctxStore_canon h hs
  · exact h

@[simp] theorem State.seqDone_canon {s : State} (h : s.Canon) (c e v) : (s.seqDone c e v).Canon := by simp [State.seqDone, h]

@[simp] theorem State.seqFault_canon {s : State} (h : s.Canon) (c e x) : (s.seqFault c e x).Canon := by
  have hu := unlock_canon h c e
  unfold State.seqFault
  dsimp only
  split
  · next hs => simpa using tryRec_canon hu hs
  · exact hu

@[simp] theorem State.forkMark_canon {s : State} (h : s.Canon) (c e level frame asid) : (s.forkMark c e level frame asid).Canon := by
  refine foldl_canon (fun s x h => ?_) _ h
  simp [h]

/-- A form that answers states with canonical device memory alone ends in such a state. -/
theorem State.seqEnd_canon {s : State} (h : s.Canon) (c e) {r : SeqM (State × Word)} (hr : Answers r fun x => x.1.Canon) :
    (s.seqEnd c e r).Canon := by
  unfold State.seqEnd
  split
  · exact seqDone_canon (hr.of_ok _ rfl) ..
  · exact seqFault_canon h ..
  · exact forkMark_canon h ..
  · exact ask_canon h ..

theorem seqFail_canon {s : State} (h : s.Canon) (code) : Answers (seqFail s code) fun x => x.1.Canon := .ok h

@[simp] theorem State.abandon_mem (s : State) (i sel) : (s.abandon i sel).mem = s.mem := rfl

/- No entry of a node computes the list of its 512 places: it is named before the fold is taken apart. -/
@[simp] theorem State.forkNode_canon (l pf cf frames) {s : State} (h : s.Canon) : (State.forkNode l pf cf frames s).1.Canon := by
  delta State.forkNode State.forkNode._f
  generalize List.range 512 = is
  induction l generalizing pf cf frames s with
  | zero =>
    refine foldl_fst_canon (fun a i ha => ?_) is h
    dsimp only
    split
    · refine hwWrite_canon ?_ ..
      repeat' split
      all_goals simp [ha]
    split
    · exact ha
    · exact hwWrite_canon ha ..
  | succ l ih =>
    refine foldl_fst_canon (fun a i ha => ?_) is h
    obtain ⟨t, fs⟩ := a
    have ht : t.mem.wf = true := ha
    dsimp only
    split
    · refine hwWrite_canon ?_ ..
      repeat' split
      all_goals simp [ht]
    split
    · cases fs with
      | nil => exact ha
      | cons f rest => exact ih _ _ _ (hwWrite_canon ha ..)
    · exact hwWrite_canon ha ..

theorem State.poolFrames_canon {s : State} (h : s.Canon) {d list n t} (hr : s.poolFrames d list n = some t) : t.2.Canon := by
  induction n generalizing t with
  | zero => cases hr; exact h
  | succ n ih =>
    unfold State.poolFrames at hr
    split at hr
    · cases hr
    · next hs =>
      obtain ⟨x, hx, rfl⟩ := Option.map_eq_some_iff.mp hr
      exact takeFrame_canon (ih hs) hx

theorem State.forkTree_canon {s : State} (h : s.Canon) (d level pf cf asid region held) :
    (s.forkTree d level pf cf asid region held).Canon := by
  unfold State.forkTree
  extract_lets nodes leaves
  split
  · trivial
  split
  · trivial
  split
  · trivial
  split
  · split
    · trivial
    · trivial
  dsimp only
  split
  · trivial
  · next hf => exact State.Canon.of_mem (forkNode_canon _ _ _ _ (poolFrames_canon h hf)) (leafSynced_mem _)

/-! ## Grammars -/

theorem State.gStoreCfg_canon {s : State} (h : s.Canon) (c asid r g) : Answers (s.gStoreCfg c asid r g) fun x => x.1.Canon :=
  Answers.map ⟨fun _ => seqPoke_canon h⟩ fun _ ha => ha

theorem State.gStoreJrn_canon {s : State} (h : s.Canon) (c asid r l) : Answers (s.gStoreJrn c asid r l) fun x => x.1.Canon :=
  Answers.map ⟨fun _ => seqPoke_canon h⟩ fun _ ha => ha

theorem State.setReady_canon {s : State} (h : s.Canon) (c asid maska clr set valid) :
    Answers (s.setReady c asid maska clr set valid) State.Canon :=
  answers_bind fun _ => ⟨fun _ => seqPoke_canon h⟩

/-! ## The sink -/

@[simp] theorem State.setRow_mem (s : State) (b ix gen r) : (s.setRow b ix gen r).mem = s.mem := rfl

@[simp] theorem State.putRow_mem (s : State) (t r) : (s.putRow t r).mem = s.mem := rfl

@[simp] theorem State.freeRow_mem (s : State) (t) : (s.freeRow t).mem = s.mem := rfl

theorem State.segWrite_go_canon {a : State × List Byte} (h : a.1.Canon) (p l n) : (State.segWrite.go a p l n).Canon := by
  induction l generalizing n with
  | nil => exact h
  | cons x t ih =>
    unfold State.segWrite.go
    split
    · exact physWrite_canon h ..
    · exact ih _

@[simp] theorem State.segWrite_canon {s : State} (h : s.Canon) (l o bs) : (s.segWrite l o bs).Canon :=
  foldl_fst_canon (fun _ p ha => segWrite_go_canon ha p ..) _ h

@[simp] theorem State.processRow_canon {s : State} (h : s.Canon) (t r b) : (s.processRow t r b).Canon := by simp [State.processRow, h]

@[simp] theorem State.sinkProcess_canon {s : State} (h : s.Canon) (bd ix b) : (s.sinkProcess bd ix b).Canon := by
  unfold State.sinkProcess
  repeat' split
  all_goals simp [h]

theorem State.reachBd_answers {α : Type} {P : α → Prop} {s : State} {c b} {go : SeqM α} (hgo : Answers go P) :
    Answers (s.reachBd c b go) P := by
  unfold State.reachBd
  dsimp only
  split
  · exact .error _
  · exact hgo

theorem State.skCloseDo_canon {s : State} (h : s.Canon) (c e free) : Answers (s.skCloseDo c e free) fun x => x.1.Canon := by
  refine reachBd_answers ?_
  split
  · exact seqFail_canon h _
  split
  · exact .error _
  · refine .ok ?_
    split <;> simp [h]

theorem State.skDrawDo_canon {s : State} (h : s.Canon) (c e) : Answers (s.skDrawDo c e) fun x => x.1.Canon := by
  refine reachBd_answers ?_
  split
  · exact seqFail_canon h _
  next r _ =>
    dsimp only
    split
    · exact .error _
    split
    · exact .ok h
    split
    · exact .ok h
    split
    · exact .ok h
    split
    · exact .ok h
    · exact answers_bind fun rc => .bind ⟨fun _ => recStore_canon (s := s.freeRow e.ga) h⟩ fun _ h2 => .ok h2

theorem State.skOpenDo_canon {s : State} (h : s.Canon) (c e) : Answers (s.skOpenDo c e) fun x => x.1.Canon := by
  unfold State.skOpenDo
  extract_lets d ctx v slot r
  clear_value slot
  split
  · exact seqFail_canon h _
  split
  · exact seqFail_canon h _
  next segs bd _ =>
    extract_lets free row
    have hrow : ∀ a b c d, Answers (row a b c d) fun x => x.1.Canon := by
      intro a b c d
      refine reachBd_answers ?_
      split
      · exact seqFail_canon h _
      split
      · exact seqFail_canon h _
      · exact .ok h
    split
    · exact hrow ..
    refine answers_bind fun asid => answers_bind fun hdr => ?_
    dsimp only
    split
    · exact seqFail_canon h _
    split
    · exact hrow ..
    · exact seqFail_canon h _

@[simp] theorem State.setSpecq_mem (s : State) (d q x) : (s.setSpecq d q x).mem = s.mem := rfl

theorem State.sqCfgDo_canon {s : State} (h : s.Canon) (c e) : Answers (s.sqCfgDo c e) fun x => x.1.Canon := by
  unfold State.sqCfgDo
  dsimp only
  split
  · exact seqFail_canon h _
  split
  · exact seqFail_canon h _
  split
  · exact seqFail_canon h _
  split
  · exact seqFail_canon h _
  · exact .ok h

@[simp] theorem State.sqStamp_canon {s : State} (h : s.Canon) (c e) : (s.sqStamp c e).Canon := by
  unfold State.sqStamp
  dsimp only
  repeat' split
  all_goals simp [h]

@[simp] theorem State.sqLand_canon {s : State} (h : s.Canon) (c i) : (s.sqLand c i).Canon := by
  unfold State.sqLand
  dsimp only
  repeat' split
  all_goals simp [h]

@[simp] theorem State.sqTake_canon {s : State} (h : s.Canon) (c e) : (s.sqTake c e).Canon := by
  unfold State.sqTake
  dsimp only
  repeat' split
  all_goals simp [h]

/-! ## Sequence words -/

theorem State.ctxPut_canon {s : State} (h : s.Canon) (c i fs new v) : Answers (s.ctxPut c i fs new v) fun x => x.1.Canon :=
  Answers.map ⟨fun _ => recStore_canon h⟩ fun _ ha => ha

theorem State.fwWhole_canon {s : State} (h : s.Canon) (c hd) : Answers (s.fwWhole c hd) fun r => Answers r State.Canon := by
  unfold State.fwWhole
  repeat' split
  · exact .ok (.error _)
  · exact .ok (.error _)
  · exact .error _
  · exact .ok ⟨fun _ => fwIn_canon h⟩
  · exact .ok (.ok h)

theorem State.fwCancel_canon {s : State} (h : s.Canon) (c hd w) :
    Answers (s.fwCancel c hd w) fun r => Answers r fun x => x.1.Canon := by
  unfold State.fwCancel
  split
  · exact .ok (.ok h)
  split
  · exact .ok (.error _)
  split
  · exact .ok (.error _)
  split
  · exact .ok (.ok h)
  · refine (fwWhole_canon h c hd).map fun r hr => hr.map fun s1 h1 => ?_
    split
    · exact h1
    · exact logDiscard_canon h1 ..

theorem State.cxDiscard_canon {s : State} (h : s.Canon) (c i r w fs fin) : Answers (s.cxDiscard c i r w fs fin) fun x => x.1.Canon := by
  refine (fwCancel_canon h c (cHAND r) w).bind fun q hq => ?_
  split
  · exact seqFail_canon h _
  · next s1 bad =>
    have h1 : s1.Canon := hq.of_ok _ rfl
    dsimp only
    split
    · exact ctxPut_canon (by simpa using h1) ..
    · exact answers_bind fun asid => answers_bind fun g => (gStoreJrn_canon h1 ..).bind fun x hx =>
        ctxPut_canon (by simpa using hx) ..

theorem State.cxStartDo_canon {s : State} (h : s.Canon) (c e rst) : Answers (s.cxStartDo c e rst) fun x => x.1.Canon := by
  unfold State.cxStartDo
  dsimp only
  split
  · exact seqFail_canon h _
  · exact ctxPut_canon h ..

theorem State.cxPauseDo_canon {s : State} (h : s.Canon) (c e) : Answers (s.cxPauseDo c e) fun x => x.1.Canon := by
  unfold State.cxPauseDo
  dsimp only
  split
  · exact seqFail_canon h _
  · exact ctxPut_canon h ..

theorem State.cxEndDo_canon {s : State} (h : s.Canon) (c e) : Answers (s.cxEndDo c e) fun x => x.1.Canon := by
  unfold State.cxEndDo
  exact cxDiscard_canon h ..

theorem State.cxCancelDo_canon {s : State} (h : s.Canon) (c e all) : Answers (s.cxCancelDo c e all) fun x => x.1.Canon :=
  cxDiscard_canon h ..

theorem State.cxSpecDo_canon {s : State} (h : s.Canon) (c e) : Answers (s.cxSpecDo c e) fun x => x.1.Canon := by
  unfold State.cxSpecDo
  dsimp only
  split
  · exact seqFail_canon h _
  split
  · exact seqFail_canon h _
  · exact ctxPut_canon h ..

theorem State.cxCommitDo_canon {s : State} (h : s.Canon) (c e) : Answers (s.cxCommitDo c e) fun x => x.1.Canon := by
  unfold State.cxCommitDo
  dsimp only
  split
  · exact seqFail_canon h _
  split
  · exact seqFail_canon h _
  split
  · exact ctxPut_canon h ..
  refine answers_bind fun asid => answers_bind fun x => ?_
  split
  · exact seqFail_canon h _
  · exact answers_bind fun hdr => answers_bind fun cfg => (gStoreCfg_canon h ..).bind fun y hy =>
      (gStoreJrn_canon hy ..).bind fun z hz => ctxPut_canon hz ..

theorem State.forkSnap_canon {s : State} (h : s.Canon) (c hd region) :
    Answers (s.forkSnap c hd region) fun r => Answers r fun x => x.2.Canon := by
  unfold State.forkSnap
  split
  · exact .ok (.ok h)
  · refine (fwWhole_canon h c hd).map fun r hr => ?_
    split
    · exact .error _
    · next s1 =>
      split
      · exact .error _
      · next hs => exact .ok (fwShare_canon (hr.of_ok _ rfl) hs)

/-- The last writes of a fork: the child's stack, and then its record. -/
theorem State.forkPut_canon {s : State} (h : s.Canon) {c pa ka n va gva i fs new v} :
    Answers ((s.seqPeek c pa va n).bind fun st => (s.seqPoke c ka gva st).bind fun t => t.ctxPut c i fs new v)
      fun x => x.1.Canon :=
  answers_bind fun _ => Answers.bind (P := State.Canon) ⟨fun _ => seqPoke_canon h⟩ fun _ ht => ctxPut_canon ht ..

theorem State.cxForkDo_canon {s : State} (h : s.Canon) (c e) : Answers (s.cxForkDo c e) fun x => x.1.Canon := by
  unfold State.cxForkDo
  dsimp only
  split
  · exact seqFail_canon h _
  split
  · exact seqFail_canon h _
  refine answers_bind fun pa => answers_bind fun ka => (forkSnap_canon h c _ _).bind fun q hq => ?_
  split
  · exact seqFail_canon h _
  next k s1 =>
    have h1 : s1.Canon := hq.of_ok _ rfl
    split
    · exact forkPut_canon h1
    have ht := forkTree_canon h1 (dieOf c) (cCLVL (e.recOf (ctxIx e.ga))) (cCNODE (e.recOf (ctxIx e.ga)))
      (cCNODE (e.recOf (ctxIx e.gb))) pa (cREGION (e.recOf (ctxIx e.gb))) e.sent.isSome
    split
    · next s2 hs => rw [hs] at ht; exact forkPut_canon ht
    · refine seqFail_canon ?_ _
      split
      · exact h1
      · exact fwFreeState_canon h1 ..
    · exact .error _
    · exact .error _
    · exact .error _

theorem State.bound_canon {s : State} (h : s.Canon) {c r go}
    (hgo : ∀ asid g l rd hdr, Answers (go asid g l rd hdr) fun x => x.1.Canon) : Answers (s.bound c r go) fun x => x.1.Canon := by
  unfold State.bound
  split
  · exact seqFail_canon h _
  · exact answers_bind fun asid => answers_bind fun x => answers_bind fun hdr => hgo ..

theorem State.grBindDo_canon {s : State} (h : s.Canon) (c e) : Answers (s.grBindDo c e) fun x => x.1.Canon := by
  unfold State.grBindDo
  dsimp only
  split
  · exact ctxPut_canon h ..
  refine answers_bind fun asid => answers_bind fun hdr => ?_
  split
  · exact seqFail_canon h _
  · exact Answers.bind ⟨fun _ => seqPoke_canon h⟩ fun s1 h1 => ctxPut_canon h1 ..

theorem State.grStepDo_canon {s : State} (h : s.Canon) (c e spec) : Answers (s.grStepDo c e spec) fun x => x.1.Canon := by
  unfold State.grStepDo
  refine bound_canon h fun asid cfg jr rd hdr => ?_
  split
  · split
    · exact seqFail_canon h _
    refine answers_bind fun g => answers_bind fun q => ?_
    split
    · exact seqFail_canon h _
    · exact (gStoreJrn_canon h ..).bind fun y hy => ctxPut_canon hy ..
  split
  · exact seqFail_canon h _
  refine answers_bind fun q => ?_
  split
  · exact seqFail_canon h _
  · exact (gStoreCfg_canon h ..).bind fun y hy => ctxPut_canon hy ..

theorem State.putSlot_canon {s : State} (h : s.Canon) (c asid maska v i bs) : Answers (s.putSlot c asid maska v i bs) State.Canon :=
  ⟨fun _ => seqPoke_canon h⟩

theorem State.grMaskDo_canon {s : State} (h : s.Canon) (c e) : Answers (s.grMaskDo c e) fun x => x.1.Canon := by
  unfold State.grMaskDo
  refine bound_canon h fun _ _ _ _ _ => answers_bind fun _ => answers_bind fun _ => (putSlot_canon h ..).bind fun _ h1 => ?_
  exact (setReady_canon h1 ..).map fun _ h2 => h2

theorem State.putSlots_canon (c asid maska v l i) {s : State} (h : s.Canon) :
    Answers (State.putSlots c asid maska v l i s) State.Canon := by
  induction l generalizing i s with
  | nil => exact .ok h
  | cons b t ih => exact (putSlot_canon h ..).bind fun _ h1 => ih _ h1

theorem State.grLattDo_canon {s : State} (h : s.Canon) (c e) : Answers (s.grLattDo c e) fun x => x.1.Canon := by
  unfold State.grLattDo
  refine bound_canon h fun asid cfg jr rd hdr => ?_
  split
  · exact seqFail_canon h _
  · exact answers_bind fun _ => answers_bind fun _ => answers_bind fun _ => (putSlots_canon _ _ _ _ _ _ h).bind fun _ h1 =>
      (setReady_canon h1 ..).map fun _ h2 => h2

theorem State.pokePages_canon (c asid l bs) {s : State} (h : s.Canon) : (State.pokePages c asid l bs s).1.Canon := by
  induction l generalizing bs s with
  | nil => exact h
  | cons x t ih =>
    unfold State.pokePages
    split
    · exact h
    · next hs => exact ih _ (seqPoke_canon h hs)

@[simp] theorem State.grSaveDo_canon {s : State} (h : s.Canon) (c e) : (s.grSaveDo c e).Canon := by
  unfold State.grSaveDo
  dsimp only
  split
  · exact seqEnd_canon h c e (seqFail_canon h _)
  split
  · exact seqEnd_canon h c e (.error _)
  · next bs _ =>
    have hp := pokePages_canon c e.asid (pagePieces 4 e.gb 4672) bs h
    split
    · next hs => rw [hs] at hp; exact seqDone_canon hp ..
    · next hs => rw [hs] at hp; exact seqEnd_canon hp c e (.error _)

theorem State.grRollDo_canon {s : State} (h : s.Canon) (c e) : Answers (s.grRollDo c e) fun x => x.1.Canon := by
  unfold State.grRollDo
  dsimp only
  split
  · exact seqFail_canon h _
  refine answers_bind fun asid => answers_bind fun b => answers_bind fun hdr => ?_
  split
  · exact seqFail_canon h _
  · exact (gStoreCfg_canon h ..).bind fun y hy => (gStoreJrn_canon hy ..).bind fun z hz => ctxPut_canon hz ..

theorem State.grForkDo_canon {s : State} (h : s.Canon) (c e) : Answers (s.grForkDo c e) fun x => x.1.Canon := by
  unfold State.grForkDo
  dsimp only
  split
  · exact seqFail_canon h _
  split
  · exact seqFail_canon h _
  · exact answers_bind fun _ => answers_bind fun _ => answers_bind fun _ => (gStoreCfg_canon h ..).bind fun y hy =>
      ctxPut_canon hy ..

theorem State.ltExpDo_canon {s : State} (h : s.Canon) (c e) : Answers (s.ltExpDo c e) fun x => x.1.Canon := by
  unfold State.ltExpDo
  dsimp only
  split
  · exact seqFail_canon h _
  · exact .ok h

@[simp] theorem State.seqBegin_canon {s : State} (h : s.Canon) (c e) : (s.seqBegin c e).Canon := by
  unfold State.seqBegin
  dsimp only
  split
  · exact seqEnd_canon h c e (.error _)
  repeat' split
  all_goals simp [h]

@[simp] theorem State.seqStart_canon {s : State} (h : s.Canon) (c i) : (s.seqStart c i).Canon := by
  unfold State.seqStart
  split
  · exact h
  split
  · exact h
  split
  · exact seqFault_canon h ..
  split
  · exact seqBegin_canon h ..
  split
  · exact seqFault_canon h ..
  split
  · exact h
  split
  · exact seqFault_canon h ..
  next hs =>
  have h2 := fun id f => (ctxStore_canon h hs).of_mem (upSq_mem _ c id f)
  dsimp only
  split
  · exact seqBegin_canon (h2 _ _) ..
  · exact h2 _ _

@[simp] theorem State.seqComplete_canon {s : State} (h : s.Canon) (c i) : (s.seqComplete c i).Canon := by
  unfold State.seqComplete
  split
  · exact h
  next e _ =>
  split
  · exact h
  split
  · exact seqEnd_canon h c e (cxStartDo_canon h ..)
  · exact seqEnd_canon h c e (cxPauseDo_canon h ..)
  · exact seqEnd_canon h c e (cxEndDo_canon h ..)
  · exact seqEnd_canon h c e (cxForkDo_canon h ..)
  · exact seqEnd_canon h c e (cxCancelDo_canon h ..)
  · exact seqEnd_canon h c e (cxSpecDo_canon h ..)
  · exact seqEnd_canon h c e (cxCommitDo_canon h ..)
  · exact seqEnd_canon h c e (grBindDo_canon h ..)
  · exact seqEnd_canon h c e (grStepDo_canon h ..)
  · exact seqEnd_canon h c e (grMaskDo_canon h ..)
  · exact seqEnd_canon h c e (grLattDo_canon h ..)
  · exact grSaveDo_canon h ..
  · exact seqEnd_canon h c e (grForkDo_canon h ..)
  · exact seqEnd_canon h c e (grRollDo_canon h ..)
  · exact seqEnd_canon h c e (skOpenDo_canon h ..)
  · exact seqEnd_canon h c e (skCloseDo_canon h ..)
  · exact seqEnd_canon h c e (skDrawDo_canon h ..)
  · exact seqEnd_canon h c e (ltExpDo_canon h ..)
  · exact seqEnd_canon h c e (sqCfgDo_canon h ..)
  · exact sqStamp_canon h ..
  · exact sqTake_canon h ..
  · exact h

theorem State.seqGate_canon {s : State} (h : s.Canon) {maj reads go} (hgo : Out.Canon (go ())) :
    Out.Canon (s.seqGate maj reads go) := by
  refine gate_canon h ?_
  split
  · exact trap_canon h ..
  split
  · exact block_canon h ..
  · exact hgo

theorem State.ctxOk_canon {s : State} (h : s.Canon) {g go} (hgo : Out.Canon (go ())) : Out.Canon (s.ctxOk g go) := by
  unfold State.ctxOk
  split
  · exact trap_canon h ..
  · exact hgo

theorem State.scratch_canon {s : State} (h : s.Canon) {l go} (hgo : Out.Canon (go ())) : Out.Canon (s.scratch l go) := by
  unfold State.scratch
  split
  · exact h
  split
  · exact trapX_canon h ..
  · exact hgo

theorem State.seqQueue_canon {s : State} (h : s.Canon) (op gs desc) : Out.Canon (s.seqQueue op gs desc) := by
  unfold State.seqQueue
  split
  · exact block_canon h ..
  · exact done_canon (h.of_mem (((upMe_mem ..).trans (upMyCore_mem ..)).trans (fresh_mem s))) 2

theorem State.ctxIssue_canon {s : State} (h : s.Canon) (maj op a regs) : Out.Canon (s.ctxIssue maj op a regs) :=
  seqGate_canon h (ctxOk_canon h (seqQueue_canon h ..))

theorem State.forkIssue_canon {s : State} (h : s.Canon) (maj op a b) : Out.Canon (s.forkIssue maj op a b) :=
  seqGate_canon h (ctxOk_canon h (ctxOk_canon h (seqQueue_canon h ..)))

theorem State.stallIssue_canon {s : State} (h : s.Canon) (w) : Out.Canon (s.stallIssue w) := by
  unfold State.stallIssue
  split
  · exact trapX_canon h _
  · exact block_canon (ask_canon h ..) ..
  · exact block_canon (ask_canon h ..) ..

theorem State.bindCheck_canon {s : State} (h : s.Canon) {i gimg go} (hgo : Out.Canon (go ())) : Out.Canon (s.bindCheck i gimg go) := by
  unfold State.bindCheck
  split
  · exact hgo
  generalize (Except.bind _ _ : SeqM Nat) = z
  split
  · exact stallIssue_canon h ..
  · exact hgo
  · exact trap_canon (by simpa using h) ..

theorem State.clearReady_canon {s : State} (h : s.Canon) {i mask go} (hgo : ∀ t : State, t.Canon → Out.Canon (go t)) :
    Out.Canon (s.clearReady i mask go) := by
  unfold State.clearReady
  split
  · exact hgo s h
  split
  · exact hgo s h
  split
  · next hs => exact hgo _ ((setReady_canon h ..).of_ok _ hs)
  · exact stallIssue_canon h ..

theorem State.imageIssue_canon {s : State} (h : s.Canon) (op a b kind) : Out.Canon (s.imageIssue op a b kind) := by
  refine seqGate_canon h (ctxOk_canon h ?_)
  split
  · exact trapX_canon h ..
  · exact seqQueue_canon h ..

/-! ## The dispatchers -/

@[simp] theorem State.freeBits_mem (s : State) (n) : (s.freeBits n).2.mem = s.mem := rfl

@[simp] theorem State.queueFault_canon {s : State} (h : s.Canon) (d q region pos f) : (s.queueFault d q region pos f).Canon := by
  unfold State.queueFault
  dsimp only
  repeat' split
  all_goals simp [h]

@[simp] theorem State.unhold_mem (s : State) (h) : (s.unhold h).mem = s.mem := rfl

theorem State.takeRecord_canon {s : State} (h : s.Canon) {d qn asid q r p t} (hr : s.takeRecord d qn asid q r p = .ok t) : t.Canon := by
  refine (Answers.map (P := State.Canon) (Q := State.Canon) ⟨fun _ => hwStore_canon h⟩ fun s1 h1 => ?_).of_ok t hr
  simp [h1]

@[simp] theorem State.countDrop_canon {s : State} (h : s.Canon) (d qn) : (s.countDrop d qn).Canon := by
  unfold State.countDrop
  split <;> simp [h]

@[simp] theorem State.recordFaulted_canon {s : State} (h : s.Canon) (d qn p region l) : (s.recordFaulted d qn p region l).Canon := by
  unfold State.recordFaulted
  dsimp only
  repeat' split
  all_goals simp [h]

@[simp] theorem State.sweepQueue_canon {s : State} (h : s.Canon) (d qn) : (s.sweepQueue d qn).Canon := by
  unfold State.sweepQueue
  split
  · exact h
  split
  · exact h
  split
  · exact queueFault_canon h ..
  split
  · exact queueFault_canon h ..
  refine foldl_canon (fun s x h => ?_) _ h
  split
  · exact h
  split
  · exact h
  grind [→ State.takeRecord_canon, State.queueFault_canon, State.recordFaulted_canon, State.countDrop_canon]

@[simp] theorem State.sweep_canon {s : State} (h : s.Canon) (d) : (s.sweep d).Canon :=
  foldl_canon (fun _ q h => sweepQueue_canon h d q) _ h

@[simp] theorem State.requestCores_mem (s : State) (d c) : (s.requestCores d c).mem = s.mem := by
  unfold State.requestCores
  refine List.foldlRecOn (motive := fun x : Nat × State => x.2.mem = s.mem) _ _ rfl fun a ha t _ => ?_
  split
  · exact ha
  · exact ha

@[simp] theorem State.addPass_canon {s : State} (h : s.Canon) (d c) : (s.addPass d c).Canon := by
  unfold State.addPass
  dsimp only
  split
  · next hw => exact hwStore_canon h hw
  · exact h

@[simp] theorem State.dispatchRecord_canon {s : State} (h : s.Canon) (d c qn p cores) : (s.dispatchRecord d c qn p cores).Canon := by
  unfold State.dispatchRecord
  extract_lets asid v
  split
  · exact queueFault_canon h ..
  next s1 hs =>
  have h1 := takeRecord_canon h hs
  extract_lets t s2 s3 s4
  have h3 : s3.Canon := addPass_canon (charge_canon (s := s2) h1 ..) ..
  have h4 : s4.Canon := by
    refine foldl_canon (fun s x h => ?_) _ h3
    exact h
  clear_value s4
  split
  · exact endFaulted_canon (by simpa using h4) ..
  · refine foldl_canon (fun s x h => ?_) _ ?_
    · exact h
    · exact h4

@[simp] theorem State.dispatchSaved_canon {s : State} (h : s.Canon) (d c id cores) : (s.dispatchSaved d c id cores).Canon := by
  unfold State.dispatchSaved
  extract_lets s1 v s2
  have h1 : s1.Canon := addPass_canon (charge_canon h ..) ..
  have h2 : s2.Canon := by simpa [s2] using h1
  clear_value s2
  split
  · exact h2
  · refine foldl_canon (fun s x h => ?_) _ h2
    exact h

@[simp] theorem State.addBypass_mem (s : State) (d h) : (s.addBypass d h).mem = s.mem := by
  unfold State.addBypass
  dsimp only
  repeat' split
  all_goals simp

@[simp] theorem State.countBypasses_mem (s : State) (d l) : (s.countBypasses d l).mem = s.mem := by
  refine foldl_mem (fun s x => ?_) _ _
  simp

@[simp] theorem State.dispatch_canon {s : State} (h : s.Canon) (d c) : (s.dispatch d c).Canon := by
  unfold State.dispatch
  split <;> simp [h]

@[simp] theorem State.choose_canon {s : State} (h : s.Canon) (d l) : (s.choose d l).Canon := by
  unfold State.choose
  dsimp only
  repeat' split
  all_goals simp [h]

@[simp] theorem State.refreshViews_mem (s : State) (d) : (s.refreshViews d).mem = s.mem := by
  refine (foldl_mem (fun s t => ?_) _ _).trans (s.refreshRcbs_mem d)
  refine foldl_mem (fun s c => ?_) _ s
  rfl

theorem State.dispatchRound_eq (s : State) (d) : s.dispatchRound d = s ∨
    s.dispatchRound d = ((s.refreshViews d).sweep d).choose d (((s.refreshViews d).sweep d).cands d) := by
  unfold State.dispatchRound
  split
  · exact .inl rfl
  · exact .inr rfl

@[simp] theorem State.dispatchRound_canon {s : State} (h : s.Canon) (d) : (s.dispatchRound d).Canon := by
  obtain e | e := s.dispatchRound_eq d
  · rw [e]
    exact h
  · rw [e]
    exact choose_canon (sweep_canon (by simpa using h) d) ..

theorem State.zeroState_canon {s : State} (h : s.Canon) {d hd region t} (hr : s.zeroState d hd region = some t) : t.Canon := by
  unfold State.zeroState at hr
  split at hr
  · cases hr
    exact h
  split at hr
  · cases hr
  extract_lets s1 zero at hr
  have h1 : s1.Canon := by
    unfold s1
    split
    · exact h
    split
    · next hi => exact fwIn_canon h hi
    · exact h
  have hzero : ∀ u : State, u.Canon → (zero u).Canon := by
    intro u hu
    unfold zero
    split
    · exact hu
    · exact fwSet_canon (by simpa using hu) ..
  clear_value s1 zero
  split at hr
  · cases hr
    exact h1
  split at hr
  · cases hr
    exact hzero _ h1
  split at hr
  · cases hr
  · obtain ⟨u, hu, rfl⟩ := Option.map_eq_some_iff.mp hr
    exact hzero _ (fwCow_canon h1 hu)

theorem State.ctxReset_canon {s : State} (h : s.Canon) (c i region) : (s.ctxReset c i region).Canon := by
  unfold State.ctxReset
  dsimp only
  split
  · trivial
  split
  · exact h
  split
  · trivial
  split
  · trivial
  · trivial
  split
  · trivial
  next hz =>
  split
  · trivial
  · next hs => exact ctxStore_canon ((zeroState_canon h hz).of_mem (abandon_mem ..)) hs

theorem State.ctxMigrate_canon {s : State} (h : s.Canon) {d i t} (hr : s.ctxMigrate d i = some t) : t.Canon := by
  unfold State.ctxMigrate at hr
  split at hr
  · cases hr; exact h
  extract_lets hd o at hr
  split at hr
  · cases hr; exact h
  next f _ =>
  split at hr
  · cases hr; exact h
  split at hr
  · cases hr
  split at hr
  · cases hr; exact h
  split at hr
  · cases hr; exact h
  next j s1 hp =>
  have h1 : s1.Canon := fwPick_canon h hp
  extract_lets move at hr
  have hmove : ∀ u : State, u.Canon → ∀ g, (move u g).Canon := by
    intro u hu g
    unfold move
    extract_lets s2 s3
    have h2 : s2.Canon := fwSet_canon (fwVacate_canon hu ..) ..
    have h3 : s3.Canon := by
      unfold s3
      split
      · exact dropSlabs_canon h2 ..
      · exact h2
    split
    · next hw => exact (hwStore_canon h3 hw).of_mem (rehandle_mem ..)
    · exact h3.of_mem (rehandle_mem ..)
  split at hr
  · cases hr; exact hmove s1 h1 _
  split at hr
  · cases hr; exact h
  · next hl => cases hr; exact hmove _ (takeSlabs_canon h1 hl) _

@[simp] theorem State.firstIssue_canon {s : State} (h : s.Canon) (id) : (s.firstIssue id).Canon := by
  unfold State.firstIssue
  split
  · exact h
  next t _ =>
  split
  · next c cs _ _ =>
    extract_lets start
    have hstart : ∀ u : State, u.Canon → (start u).Canon := by
      intro u hu
      unfold start
      rw [State.Canon, upTask_mem]
      refine foldl_canon (fun s x h => ?_) _ hu
      exact h
    split
    · exact hstart _ h
    next i _ =>
    have hp := ctxReset_canon h c i t.region
    split
    · exact h
    · exact endFaulted_canon (by simpa using h) ..
    · next s1 hs =>
      rw [hs] at hp
      split
      · exact hp
      · next hm => exact hstart _ (ctxMigrate_canon hp hm)
  · exact h

/-! ## Tasks after their first word -/

@[simp] theorem State.writePage_canon {s : State} (h : s.Canon) (pa ms l bad) : (s.writePage pa ms l bad).Canon := by
  refine State.Canon.withFree (foldl_canon (fun s j h => ?_) _ (foldl_canon (fun s j h => ?_) _ h)) _
  · exact h
  · exact physWrite_canon h ..

theorem State.writeBlock_canon (c b n i done) {s : State} (h : s.Canon) : (State.writeBlock c b n i done s).s.Canon := by
  induction n generalizing i done s with
  | zero => exact h
  | succ n ih =>
    have he := engAt_canon h c 3 0 (4096 * (b + i)) .write false
    unfold State.writeBlock
    split
    · exact ih _ _ h
    split
    · exact h
    · next hs => rw [hs] at he; exact ih _ _ (writePage_canon he ..)

theorem State.writeBlocks_canon (pages l skip done) {s : State} (h : s.Canon) : (State.writeBlocks pages l skip done s).s.Canon := by
  induction l generalizing skip done s with
  | nil => exact h
  | cons x t ih =>
    have hb := writeBlock_canon x.1 x.2 (pages - min skip pages) (min skip pages) (done + min skip pages) h
    unfold State.writeBlocks
    dsimp only
    split
    · exact ih _ _ hb
    · exact hb

@[simp] theorem State.giveBlocks_canon {s : State} (h : s.Canon) (d l) : (s.giveBlocks d l).Canon :=
  foldl_canon (fun _ _ h => giveFrame_canon h ..) _ h

theorem State.takeBlocks_canon {d n} {s : State} (h : s.Canon) {l t} (hr : State.takeBlocks d n s l = some t) : t.2.Canon := by
  induction n generalizing s l with
  | zero => cases hr; exact h
  | succ n ih =>
    unfold State.takeBlocks at hr
    split at hr
    · cases hr
    · next hs => exact ih (takeFrame_canon h hs) hr

@[simp] theorem State.cancelSeq_canon {s : State} (h : s.Canon) (c) : (s.cancelSeq c).Canon := by
  refine foldl_canon (fun s x h => ?_) _ h
  simp [h]

@[simp] theorem State.freezeFor_canon {s : State} (h : s.Canon) (c) : (s.freezeFor c).Canon := by simp [State.freezeFor, h]

@[simp] theorem State.cutEngines_canon {s : State} (h : s.Canon) (c) : (s.cutEngines c).Canon := by simp [State.cutEngines, h]

@[simp] theorem State.keepSaved_canon {s : State} (h : s.Canon) (t d) : (s.keepSaved t d).Canon := by
  unfold State.keepSaved
  extract_lets s1 snaps mine s2 s3
  have h1 : s1.Canon := by
    refine foldl_canon (fun s c h => ?_) _ h
    split
    · exact cutEngines_canon h c
    · exact cancelSeq_canon h c
  have h3 : s3.Canon := by
    unfold s3
    rw [State.Canon, forgetTask_mem, foldl_mem fun s c => s.upCore_mem c _]
    exact h1
  clear_value s3 s1
  have h4 := charge_canon h3 d t.region 128 (-(t.size : Int))
  exact h4

@[simp] theorem State.endCancelled_canon {s : State} (h : s.Canon) (t d) : (s.endCancelled t d).Canon := by simp [State.endCancelled, h]

@[simp] theorem State.finishSave_canon {s : State} (h : s.Canon) (t d) : (s.finishSave t d).Canon := by
  unfold State.finishSave
  dsimp only
  repeat' split
  all_goals simp [h]

@[simp] theorem State.saveStops_mem (s : State) (t c x) : (s.saveStops t c x).mem = s.mem := rfl

@[simp] theorem State.taskSave_canon {s : State} (h : s.Canon) (id pages) : (s.taskSave id pages).Canon := by
  unfold State.taskSave
  split
  · exact h
  next t _ =>
  split
  · split
    · exact h
    dsimp only
    split
    · exact h
    next bs s1 hs =>
    have h1 : s1.Canon := takeBlocks_canon h hs
    have hw := writeBlocks_canon pages (t.cores.zip bs) t.written 0 h1
    generalize State.writeBlocks pages (t.cores.zip bs) t.written 0 s1 = r at hw ⊢
    split
    · exact finishSave_canon (by simpa using hw) ..
    · split <;> simpa using hw
    · exact ask_canon (by simpa using hw) ..
  · exact h

@[simp] theorem State.applyHeld_mem (s : State) (t) : (s.applyHeld t).mem = s.mem := by
  unfold State.applyHeld
  refine (foldl_mem (fun s x => ?_) _ _).trans (foldl_mem (fun s x => ?_) _ s)
  all_goals split <;> rfl

@[simp] theorem State.reload_canon {s : State} (h : s.Canon) (t d snaps) : (s.reload t d snaps).Canon := by
  have h1 := foldl_mem (f := fun (s : State) x => s.upCore x.1.1 fun k => k.restore x.1.2 t x.2 k.view) (fun _ _ => rfl)
    (t.cores.zip snaps).zipIdx s
  refine giveBlocks_canon ?_ ..
  show (State.applyHeld _ t).mem.wf = true
  rw [applyHeld_mem, h1]
  exact h

@[simp] theorem State.taskResume_canon {s : State} (h : s.Canon) (id pages) : (s.taskResume id pages).Canon := by
  unfold State.taskResume
  split
  · exact h
  split
  · dsimp only
    split
    · exact endFaulted_canon (giveBlocks_canon (h.of_mem (freeBits_mem ..)) ..) ..
    split
    · exact h
    next hm =>
    split at hm
    · exact reload_canon (ctxMigrate_canon h hm) ..
    · cases hm; exact reload_canon h ..
  · exact h

@[simp] theorem State.endNormal_canon {s : State} (h : s.Canon) (t d) : (s.endNormal t d).Canon := by
  unfold State.endNormal
  extract_lets s1 s2
  have h1 : s1.Canon := by
    unfold s1
    split
    · exact h
    split
    · exact h
    split
    · next hw => exact hwStore_canon h hw
    · exact h
  have h2 : s2.Canon := by
    unfold s2
    split
    · exact qcrSet_canon h1 ..
    · exact h1
  exact removeTask_canon h2 t

@[simp] theorem State.taskEnd_canon {s : State} (h : s.Canon) (id) : (s.taskEnd id).Canon := by
  unfold State.taskEnd
  repeat' split
  all_goals simp [h]

@[simp] theorem State.leaveWait_canon {s : State} (h : s.Canon) (c r) : (s.leaveWait c r).Canon := by
  unfold State.leaveWait
  dsimp only
  repeat' split
  all_goals simp [h]

@[simp] theorem State.watchdog_canon {s : State} (h : s.Canon) (c r) : (s.watchdog c r).Canon := by
  unfold State.watchdog
  dsimp only
  repeat' split
  all_goals simp [h]

@[simp] theorem State.watchdogT_canon {s : State} (h : s.Canon) (c) : (s.watchdogT c).Canon := by
  unfold State.watchdogT
  dsimp only
  repeat' split
  all_goals simp [h]

@[simp] theorem State.safeExpiry_canon {s : State} (h : s.Canon) (c r) : (s.safeExpiry c r).Canon := by
  unfold State.safeExpiry
  dsimp only
  repeat' split
  all_goals simp [h]

@[simp] theorem State.hostPost_canon {s : State} (h : s.Canon) : s.hostPost.Canon := by
  unfold State.hostPost
  split
  · exact h
  extract_lets base d
  split
  · exact h
  split
  · exact h
  dsimp only
  split
  · exact h
  split
  · exact h
  next hfirst =>
  split
  · exact h
  · next hsecond => exact State.Canon.of_mem (hwStore_canon (hwStore_canon h hfirst) hsecond) rfl

@[simp] theorem State.abortSave_canon {s : State} (h : s.Canon) (t) : (s.abortSave t).Canon := by
  refine giveBlocks_canon (foldl_canon (fun s c h => ?_) _ h) ..
  exact h

@[simp] theorem State.answerFor_canon {s : State} (h : s.Canon) (id r i retry) : (s.answerFor id r i retry).1.Canon := by
  unfold State.answerFor
  dsimp only
  repeat' split
  all_goals simp [h]

/-! ## Task and system words -/

@[simp] theorem State.askPreempt_mem (s : State) (id n) : (s.askPreempt id n).mem = s.mem := rfl

theorem State.safeDone_canon {s : State} (h : s.Canon) (n live) : Out.Canon (s.safeDone n live) := by
  unfold State.safeDone
  split
  · exact done_canon h n
  · exact h

@[simp] theorem State.dropStates_canon {s : State} (h : s.Canon) : s.dropStates.Canon :=
  foldl_canon (fun _ _ h => foldl_canon (fun _ _ h => fwFreeState_canon h ..) _ h) _ h

@[simp] theorem State.dropHandles_mem (s : State) : s.dropHandles.mem = s.mem := rfl

@[simp] theorem State.sysWrite_canon {s : State} (h : s.Canon) (i v) : (s.sysWrite i v).Canon := by
  unfold State.sysWrite
  repeat' split
  all_goals simp [h]

@[simp] theorem State.replay_mem (s : State) (c x) : (s.replay c x).mem = s.mem := by unfold State.replay; split <;> rfl

@[simp] theorem State.dropOp_canon {s : State} (h : s.Canon) (c x) : (s.dropOp c x).Canon := by
  unfold State.dropOp
  split
  · split
    · exact h
    · exact h
  · exact h
  · exact foldl_canon (fun _ _ h => freeSlab_canon h ..) _ h
  · exact h
  · exact h
  · exact h

theorem State.settleRecs_canon {s : State} (h : s.Canon) {c mask f} (hf : ∀ t x, t.Canon → (f t x).Canon) :
    (s.settleRecs c mask f).Canon := by
  refine foldl_canon (fun s i h => ?_) _ h
  split
  · exact h
  · exact hf _ _ h

theorem State.withQcr_canon {s : State} (h : s.Canon) {q go} (hgo : ∀ b, Out.Canon (go b)) : Out.Canon (s.withQcr q go) := by
  unfold State.withQcr
  split
  · exact trapX_canon h ..
  split
  · exact trapX_canon h ..
  · exact hgo _

theorem State.ringWrite_canon {s : State} (h : s.Canon) {asid q r p t} (hr : s.ringWrite asid q r p = .ok t) : t.Canon := by
  unfold State.ringWrite at hr
  dsimp only at hr
  split at hr
  · cases hr
  · next hw => cases hr; exact hwStore_canon h hw

@[simp] theorem State.cancelTask_canon {s : State} (h : s.Canon) (t die) : (s.cancelTask t die).Canon := by
  unfold State.cancelTask
  repeat' split
  all_goals simp [h]

@[simp] theorem State.cancelRecord_canon {s : State} (h : s.Canon) (qn p) : (s.cancelRecord qn p).1.Canon := by
  unfold State.cancelRecord
  dsimp only
  split
  · exact h
  split
  · exact h
  split
  · exact h
  split
  · exact h
  split
  · exact h
  split
  · exact h
  · next ht => exact countDrop_canon (takeRecord_canon h ht) ..

/-! ## The package -/

@[simp] theorem State.setLink_mem (s : State) (x l) : (s.setLink x l).mem = s.mem := rfl

@[simp] theorem State.shutLinks_mem (s : State) (c) : (s.shutLinks c).mem = s.mem := by
  refine foldl_mem (fun s x => ?_) _ s
  split <;> rfl

@[simp] theorem State.keyLinks_mem (s : State) (c) : (s.keyLinks c).mem = s.mem := by
  refine foldl_mem (fun s x => ?_) _ s
  split <;> rfl

@[simp] theorem State.setChip_mem (s : State) (c x) : (s.setChip c x).mem = s.mem := rfl

@[simp] theorem State.quarantine_mem (s : State) (c) : (s.quarantine c).mem = s.mem := by
  refine foldl_mem (fun s x => ?_) _ _
  repeat' split
  all_goals simp

@[simp] theorem State.admitChip_mem (s : State) (c) : (s.admitChip c).mem = s.mem := by unfold State.admitChip; split <;> simp

@[simp] theorem State.loseLines_canon {s : State} (h : s.Canon) (l) : (s.loseLines l).Canon := by
  refine foldl_canon (fun s x h => ?_) _ h
  split
  · exact Mem.wf_write _ _ _ h
  · exact h

@[simp] theorem State.rebootedAs_canon {s : State} (h : s.Canon) (l) : (s.rebootedAs l).Canon :=
  Mem.wf_filter _ _ (loseLines_canon h s.l2own)

@[simp] theorem State.rebooted_canon {s : State} (h : s.Canon) : s.rebooted.Canon := by simp [State.rebooted, h]

@[simp] theorem State.turnChannels_mem (s : State) : s.turnChannels.mem = s.mem := by simp [State.turnChannels]

@[simp] theorem State.chooseIod1_mem (s : State) : s.chooseIod1.mem = s.mem := by unfold State.chooseIod1; split <;> rfl

@[simp] theorem State.boot_mem (s : State) : s.boot.mem = s.mem := by
  have hkey : ∀ t : State, ∀ c : Fin 18, State.mem (if c.val < 8 ∨ c.val = 9 ∨ c.val = 8 then t.keyLinks c else t) = t.mem := by
    intro t c
    split
    · exact keyLinks_mem ..
    · rfl
  refine (turnChannels_mem _).trans ?_
  split
  · exact (chooseIod1_mem _).trans (foldl_mem hkey ..)
  · exact foldl_mem hkey ..

@[simp] theorem State.joinDie_mem (s : State) (d) : (s.joinDie d).mem = s.mem := by simp [State.joinDie]

@[simp] theorem State.reattest_mem (s : State) (c ok) : (s.reattest c ok).mem = s.mem := by
  unfold State.reattest
  dsimp only
  repeat' split
  all_goals simp

@[simp] theorem State.attest_mem (s : State) (c ok why) : (s.attest c ok why).mem = s.mem := by
  unfold State.attest
  dsimp only
  repeat' split
  all_goals simp

@[simp] theorem State.poisonOwned_mem (s : State) (d) : (s.poisonOwned d).mem = s.mem := by
  refine foldl_mem (fun s x => ?_) _ _
  simp

@[simp] theorem State.loseWatches_mem (s : State) (d) : (s.loseWatches d).mem = s.mem := rfl

@[simp] theorem State.loseTasks_canon {s : State} (h : s.Canon) (d) : (s.loseTasks d).Canon := by
  refine foldl_canon (fun s t h => ?_) _ h
  exact endFaulted_canon (by simpa using h) ..

@[simp] theorem State.loseMoves_canon {s : State} (h : s.Canon) (d) : (s.loseMoves d).Canon := by
  refine foldl_canon (fun s m h => ?_) _ h
  dsimp only
  split
  · exact h
  · refine unbusy_canon ?_ _
    split
    · exact h
    · exact charge_canon h ..

@[simp] theorem State.loseXfers_mem (s : State) (d) : (s.loseXfers d).mem = s.mem := rfl

@[simp] theorem State.loseStates_canon {s : State} (h : s.Canon) (d) : (s.loseStates d).Canon :=
  foldl_canon (fun _ _ h => freeSlab_canon h ..) _ (foldl_canon (fun _ _ h => fwVacate_canon h ..) _ h)

@[simp] theorem State.forgetHandles_mem (s : State) (d) : (s.forgetHandles d).mem = s.mem := rfl

@[simp] theorem State.loseSends_canon {s : State} (h : s.Canon) (d) : (s.loseSends d).Canon := by
  refine foldl_canon (fun s c h => foldl_canon (fun s e h => ?_) _ h) _ h
  repeat' split
  all_goals simp [h]

/-- The cores and the marks of what a reset has wiped are no part of device memory. -/
theorem State.Canon.withWiped {s : State} (h : s.Canon) (w c) : State.Canon { s with wiped := w, cores := c } := h

@[simp] theorem State.resetCd_canon {s : State} (h : s.Canon) (d) : (s.resetCd d).Canon := by
  unfold State.resetCd
  extract_lets cd s1 s2 s3
  have hl := loseMoves_canon (loseTasks_canon h d) d
  have h1 : s1.Canon := loseStates_canon (loseSends_canon (hl.of_mem (by rw [loseXfers_mem, loseWatches_mem])) d) d
  have h2 : s2.Canon := h1.of_mem (by unfold s2; rw [quarantine_mem, quarantine_mem, poisonOwned_mem])
  have h3 : s3.Canon := h2.withWiped ..
  exact h3.of_mem (by rw [turnChannels_mem, forgetHandles_mem, setDie_mem])

@[simp] theorem State.resetBd_mem (s : State) (b) : (s.resetBd b).mem = s.mem := by simp [State.resetBd]

@[simp] theorem State.resetIod_mem (s : State) : s.resetIod.mem = s.mem := s.quarantine_mem 9

@[simp] theorem State.resetChip_canon {s : State} (h : s.Canon) (c) : (s.resetChip c).Canon := by
  unfold State.resetChip
  repeat' split
  all_goals simp [h]

@[simp] theorem State.readmit_mem (s : State) (d) : (s.readmit d).mem = s.mem := by
  unfold State.readmit
  dsimp only
  repeat' split
  all_goals simp

@[simp] theorem State.replyOk_mem (s : State) (code) : (s.replyOk code).mem = s.mem := rfl

@[simp] theorem State.replyOdd_mem (s : State) (code) : (s.replyOdd code).mem = s.mem := rfl

theorem State.mailbox_canon {s : State} (h : s.Canon) {go} (hgo : (go ()).Canon) : Out.Canon (s.mailbox go) := by
  unfold State.mailbox
  split
  · exact h
  · exact hgo

/-! ## What an event meets -/

@[simp] theorem State.storeOut_canon {s : State} (h : s.Canon) (c r st) : (s.storeOut c r st).Canon := by simp [State.storeOut, h]

@[simp] theorem State.serveNow_canon {s : State} (h : s.Canon) (c q) : (s.serveNow c q).Canon := by
  unfold State.serveNow
  extract_lets s1
  have h1 : s1.Canon := by
    unfold s1
    split
    · exact h
    · exact foldl_canon (fun _ _ h => storeOut_canon h ..) _ h
  repeat' split
  all_goals simp [h1]

@[simp] theorem State.before_canon {s : State} (h : s.Canon) (t) : (s.before t).Canon :=
  foldl_canon (fun _ _ h => foldl_canon (fun _ _ h => storeOut_canon h ..) _ h) _ (foldl_canon (fun _ _ h => serveNow_canon h ..) _ h)

@[simp] theorem State.loseWatch_canon {s : State} (h : s.Canon) (w d) : (s.loseWatch w d).Canon := by
  unfold State.loseWatch
  dsimp only
  repeat' split
  all_goals simp [h]

@[simp] theorem State.meet_canon (s : State) {t : State} (ht : t.Canon) : (s.meet t).Canon := by
  refine foldl_canon (fun u w h => ?_) _ (foldl_canon (fun u x h => ?_) _ (foldl_canon (fun u x h => ?_) _ ht))
  all_goals repeat' split
  all_goals simp [h]

/-! ## Turns -/

theorem State.settled_canon (s : State) {o : Out} (ho : o.Canon) : Out.Canon (s.settled o) := by
  cases o with
  | next t => exact meet_canon s ho
  | _ => trivial

section
open State

/-! # Each word and each event -/

/-! ## The matrix words -/

theorem execMaMm_canon {s : State} (h : s.Canon) (a t p k z r) : Out.Canon (execMaMm a t p k z r s) := by
  refine matrixGate_canon h ?_
  dsimp only
  split
  · exact trap_canon h ..
  split
  · exact trap_canon h ..
  split
  · exact trap_canon h ..
  split
  · exact trap_canon h ..
  · exact matrixQueue_canon h ..

theorem execMaCfg_canon {s : State} (h : s.Canon) (a b) : Out.Canon (execMaCfg a b s) := by
  refine matrixGate_canon h ?_
  split
  · exact block_canon h ..
  · exact done_canon (by simpa using h) 2

theorem execMaLdw_canon {s : State} (h : s.Canon) (a b c) : Out.Canon (execMaLdw a b c s) := by
  refine matrixGate_canon h ?_
  dsimp only
  split
  · exact trap_canon h ..
  · exact matrixQueue_canon h ..

theorem execMaMovTp_canon {s : State} (h : s.Canon) (a g) : Out.Canon (execMaMovTp a g s) := by
  refine matrixGate_canon h ?_
  dsimp only
  split
  · exact trapX_canon h _
  split
  · exact trapX_canon h _
  · exact matrixQueue_canon h ..

theorem execMaWait_canon {s : State} (h : s.Canon) (m) : Out.Canon (execMaWait m s) := by
  unfold execMaWait
  split
  · exact gate_canon h (maWait_canon h _)
  · exact matrixGate_canon h (maWait_canon (by simpa using h) _)

/-- The same about the two values a run answered. -/
theorem State.saveRun_canon_of_eq {hdr n a l} {s : State} (h : s.Canon) {r t} (hr : State.saveRun hdr n a l s = (r, t)) :
    (∀ x, r = some x → x.Canon) ∧ t.Canon := by
  have hrun := saveRun_canon hdr n a l h
  rwa [hr] at hrun

theorem execMaSave_canon {s : State} (h : s.Canon) (a) : Out.Canon (execMaSave a s) := by
  refine gate_canon h ?_
  dsimp only
  split
  · exact block_canon h ..
  split
  · next ho => exact matrixStop_canon h ho
  split
  · next ho => exact matrixTrap_canon h ho
  split
  · exact trapX_canon h _
  split
  · exact block_canon h ..
  split
  · exact block_canon h ..
  have hf := (freeze_canon h s.cc).withFree
  split
  · next hr =>
    obtain ⟨hstop, hend⟩ := saveRun_canon_of_eq (hf _) hr
    exact siteStop_canon hend (hstop _ rfl)
  · next hr =>
    obtain ⟨-, hend⟩ := saveRun_canon_of_eq (hf _) hr
    exact done_canon (by simpa using hend) 2

theorem execMaRstr_canon {s : State} (h : s.Canon) (a) : Out.Canon (execMaRstr a s) := by
  refine gate_canon h ?_
  dsimp only
  split
  · exact block_canon h ..
  split
  · exact trap_canon h ..
  split
  · next ho => exact matrixTrap_canon h ho
  split
  · exact trapX_canon h _
  split
  · exact block_canon h ..
  split
  · next hr => exact siteStop_canon h (loadSites_error_canon h hr)
  next hr =>
  have h1 := loadSites_canon h hr
  split
  · exact trapX_canon (by simpa using h1) _
  split
  · exact trapX_canon (by simpa using h1) _
  · exact done_canon (by simpa using h1) 2

/-! ## Slots, barriers and semaphores -/

theorem execTsDef_canon {s : State} (h : s.Canon) (a b) : Out.Canon (execTsDef a b s) := by
  refine copyGate_canon h ?_
  dsimp only
  split
  · exact trap_canon h ..
  split
  · exact trap_canon h ..
  split
  · exact block_canon h ..
  · exact done_canon (by simpa using h) 2

theorem execTsRel_canon {s : State} (h : s.Canon) (a d) : Out.Canon (execTsRel a d s) := by
  refine copyGate_canon h ?_
  dsimp only
  split
  · exact putDone_canon h ..
  split
  · exact putDone_canon h ..
  · exact putDone_canon (by simpa using h) ..

theorem execTsStat_canon {s : State} (h : s.Canon) (a d f w) : Out.Canon (execTsStat a d f w s) := by
  refine copyGate_canon h ?_
  dsimp only
  split
  · exact putDone_canon h ..
  split
  · exact putDone_canon h ..
  split
  · exact trap_canon h ..
  split
  · exact block_canon h ..
  · exact putDone_canon h ..
  · exact trap_canon h ..

theorem execBarInit_canon {s : State} (h : s.Canon) (a b d sc) : Out.Canon (execBarInit a b d sc s) := by
  refine syncGate_canon h ?_
  dsimp only
  split
  · exact putDone_canon h ..
  split
  · exact putDone_canon h ..
  · exact putDone_canon (by simpa using h) ..

theorem execBarWait_canon {s : State} (h : s.Canon) (a b d) : Out.Canon (execBarWait a b d s) := by
  refine syncGate_canon h ?_
  dsimp only
  split
  · exact barPassed_canon h d
  · exact block_canon h ..
  split
  · exact trap_canon h ..
  split
  · exact barPassed_canon (by simpa using h) d
  · exact block_canon (by simpa using h) ..

theorem execBarArw_canon {s : State} (h : s.Canon) (a d) : Out.Canon (execBarArw a d s) := by
  refine syncGate_canon h ?_
  dsimp only
  split
  · exact barPassed_canon h d
  · exact block_canon h ..
  split
  · exact trap_canon h ..
  split
  · exact block_canon h ..
  split
  · exact trap_canon h ..
  · exact block_canon h ..
  · exact barGoOn_canon (by simpa using h) ..

theorem execBarStat_canon {s : State} (h : s.Canon) (a d c) : Out.Canon (execBarStat a d c s) := by
  refine syncGate_canon h (putDone_canon ?_ ..)
  split
  · simpa using h
  · exact h

theorem execBarExp_canon {s : State} (h : s.Canon) (a d) : Out.Canon (execBarExp a d s) := by
  refine syncGate_canon h ?_
  dsimp only
  split
  · exact putDone_canon h ..
  split
  · exact trapX_canon h _
  split
  · exact putDone_canon (h.of_mem (upMyCore_mem ..)) ..
  generalize (s.die (dieOf s.cc)).bhFree = free
  split
  · exact putDone_canon h ..
  · exact putDone_canon ((bhWrite_canon (h.withFree _) ..).of_mem (upMyCore_mem ..)) ..

theorem execBarUnex_canon {s : State} (h : s.Canon) (a d) : Out.Canon (execBarUnex a d s) := by
  refine syncGate_canon h ?_
  dsimp only
  split
  · exact putDone_canon h ..
  split
  · exact putDone_canon h ..
  split
  · exact trapX_canon h _
  refine putDone_canon ?_ ..
  split
  · exact (bhWrite_canon h ..).of_mem (by rw [upCore_mem, forgetHandle_mem])
  · exact (bhWrite_canon h ..).of_mem (forgetHandle_mem ..)

theorem execSemInit_canon {s : State} (h : s.Canon) (a b d sc) : Out.Canon (execSemInit a b d sc s) := by
  refine syncGate_canon h ?_
  dsimp only
  split
  · exact putDone_canon h ..
  · exact putDone_canon (by simpa using h) ..

theorem execSemWge_canon {s : State} (h : s.Canon) (a b d u) : Out.Canon (execSemWge a b d u s) := by
  refine syncGate_canon h ?_
  dsimp only
  split
  · exact semGranted_canon h ..
  · exact block_canon h ..
  split
  · exact trap_canon h ..
  · exact semGranted_canon (by simpa using h) ..

/-! ## Channels -/

theorem execChCfg_canon {s : State} (h : s.Canon) (d a b) : Out.Canon (execChCfg d a b s) := by
  refine gate_canon h ?_
  dsimp only
  split
  · exact trap_canon h ..
  split
  · exact putDone_canon h ..
  split
  · split
    · exact putDone_canon h ..
    · exact putDone_canon (by simpa using h) ..
  split
  · exact putDone_canon h ..
  · exact putDone_canon (by simpa using h) ..

theorem execChReg_canon {s : State} (h : s.Canon) (d a) : Out.Canon (execChReg d a s) := by
  refine gate_canon h (chanEntry_canon h fun i => ?_)
  dsimp only
  split
  · exact postRing_canon h ..
  split
  · exact putDone_canon h ..
  · exact putDone_canon (by simpa using h) ..

theorem execChEos_canon {s : State} (h : s.Canon) (d a) : Out.Canon (execChEos d a s) := by
  refine gate_canon h (chanEntry_canon h fun i => ?_)
  dsimp only
  split
  · exact postRing_canon h ..
  split
  · exact block_canon h ..
  split
  · exact putDone_canon h ..
  split
  · exact block_canon h ..
  · exact putDone_canon (by simpa using h) ..

theorem execChTake_canon {s : State} (h : s.Canon) (d a p) : Out.Canon (execChTake d a p s) := by
  refine gate_canon h ?_
  dsimp only
  split
  · exact block_canon h ..
  split
  · exact trap_canon h ..
  split
  · split
    · exact done_canon (by simpa using h) 2
    · exact block_canon h ..
  next e t _ =>
  have h1 : State.Canon (if p.val = 1 then s.upMyCore fun k => k.setChan a { s.myCore.chans[a] with ring := t } else s) := by
    split
    · simpa using h
    · exact h
  split
  · exact done_canon (by simpa using h1) 2
  · exact block_canon h ..
  · exact done_canon (by simpa using h1) 2

/-! ## Fast-weight states, sequences and sinks -/

theorem execFwOpen_canon {s : State} (h : s.Canon) (a d) : Out.Canon (execFwOpen a d s) := by
  refine fwGate_canon h ?_
  split
  · exact trap_canon h ..
  · exact fwQueue_canon h ..

theorem execFwPage_canon {s : State} (h : s.Canon) (a b d o) : Out.Canon (execFwPage a b d o s) := by
  refine fwGate_canon h (fwNamed_canon h fun _ _ => ?_)
  split
  · exact trapX_canon h _
  · exact fwQueue_canon h ..

theorem execFwAvg_canon {s : State} (h : s.Canon) (a b d) : Out.Canon (execFwAvg a b d s) := by
  refine fwGate_canon h ?_
  dsimp only
  split
  · exact hold_canon h
  split
  · exact trapX_canon h _
  split
  · exact trap_canon h ..
  · exact fwAllNamed_canon h (fwQueue_canon h ..)

theorem execGrBind_canon {s : State} (h : s.Canon) (a b d) : Out.Canon (execGrBind a b d s) := by
  refine seqGate_canon h (ctxOk_canon h (scratch_canon h ?_))
  dsimp only
  generalize s.poolAt (s.me.get b).toNat 64 = desc
  split
  · exact trap_canon h ..
  · refine bindCheck_canon h ?_
    exact seqQueue_canon h ..

theorem execGrLatt_canon {s : State} (h : s.Canon) (a b d) : Out.Canon (execGrLatt a b d s) := by
  refine seqGate_canon h (ctxOk_canon h (scratch_canon h ?_))
  split
  · exact trap_canon h ..
  · exact clearReady_canon h fun _ ht => seqQueue_canon ht ..

theorem execSkOpen_canon {s : State} (h : s.Canon) (a d) : Out.Canon (execSkOpen a d s) := by
  refine seqGate_canon h (scratch_canon h ?_)
  dsimp only
  split
  · exact trap_canon h ..
  · exact ctxOk_canon h (seqQueue_canon h ..)

theorem execLtExp_canon {s : State} (h : s.Canon) (a d) : Out.Canon (execLtExp a d s) := by
  refine seqGate_canon h (scratch_canon h ?_)
  split
  · exact trap_canon h ..
  · exact seqQueue_canon h ..

theorem execSqSend_canon {s : State} (h : s.Canon) (a b d) : Out.Canon (execSqSend a b d s) := by
  refine seqGate_canon h (scratch_canon h ?_)
  split
  · exact trap_canon h ..
  refine seqQueue_canon ?_ ..
  split
  · exact h
  · exact h.of_mem (openRel_mem ..)

/-! ## Events of the package -/

theorem execFlitTagFailure_canon {s : State} (h : s.Canon) (l) : Out.Canon (execFlitTagFailure l s) := by
  unfold execFlitTagFailure
  dsimp only [Out.Canon]
  split
  · exact h
  split
  · exact h.of_mem (setLink_mem ..)
  split
  · exact resetChip_canon (h.withFree _) _
  · exact (h.withFree _).of_mem (setLink_mem ..)

theorem execKeyRolloverStart_canon {s : State} (h : s.Canon) (l) : Out.Canon (execKeyRolloverStart l s) := by
  unfold execKeyRolloverStart
  dsimp only [Out.Canon]
  split
  · exact h.of_mem (setLink_mem ..)
  · exact h

theorem execKeyRolloverAck_canon {s : State} (h : s.Canon) (l) : Out.Canon (execKeyRolloverAck l s) := by
  unfold execKeyRolloverAck
  dsimp only [Out.Canon]
  split
  · exact h.of_mem ((setLink_mem ..).trans (fresh_mem s))
  · exact h

theorem execDrainMarker_canon {s : State} (h : s.Canon) (l) : Out.Canon (execDrainMarker l s) := by
  unfold execDrainMarker
  dsimp only [Out.Canon]
  split
  · exact h.of_mem (setLink_mem ..)
  · exact h

theorem execRolloverSendStop_canon {s : State} (h : s.Canon) (l) : Out.Canon (execRolloverSendStop l s) := by
  unfold execRolloverSendStop
  dsimp only [Out.Canon]
  split
  · exact h.of_mem (setLink_mem ..)
  · exact h

theorem execPortLinkChange_canon {s : State} (h : s.Canon) (port assoc up) : Out.Canon (execPortLinkChange port assoc up s) := by
  unfold execPortLinkChange
  dsimp only [Out.Canon]
  split
  · exact h
  · exact h

theorem execHostWrite_canon {s : State} (h : s.Canon) (pa bytes) : Out.Canon (execHostWrite pa bytes s) := by
  unfold execHostWrite
  dsimp only [Out.Canon]
  split
  · exact h
  split
  · exact h
  split
  · exact h
  · exact physWrite_canon h ..

theorem execCxlSnoop_canon {s : State} (h : s.Canon) (pa) : Out.Canon (execCxlSnoop pa s) := by
  unfold execCxlSnoop
  dsimp only [Out.Canon]
  split
  · have h1 : State.Canon { s with snoops := s.snoops.erase (pa / 64), l2own := eraseNat (pa / 64) s.l2own } := h
    exact hostPerform_canon h1 ..
  · exact h

theorem execRemoteCopyReceive_canon {s : State} (h : s.Canon) (u) : Out.Canon (execRemoteCopyReceive u s) := by
  cases u with
  | units asid va bytes bar bad => exact farUnits_canon h ..
  | state d region geo w c log => exact farArrive_canon h ..

theorem execSoftError_canon {s : State} (h : s.Canon) (place x fixed) : Out.Canon (execSoftError place x fixed s) := by
  unfold execSoftError
  dsimp only [Out.Canon]
  split
  · exact h
  cases x with
  | mem =>
    dsimp only
    split
    · exact h
    · exact h.of_mem (setPoison_mem ..)
  | pool c => exact h
  | column c => exact h
  | tile c => exact h
  | plane c => exact h
  | l1 c => exact h
  | slab d => exact h.of_mem (setSlabPoison_mem ..)

/-! ## The commands of the mailbox -/

theorem execFeat_canon {s : State} (h : s.Canon) (ack lock) : Out.Canon (execFeat ack lock s) := by
  refine mailbox_canon h ?_
  split
  · exact h.of_mem (replyOdd_mem ..)
  · exact h.of_mem (replyOk_mem ..)

theorem execAnswer_canon {s : State} (h : s.Canon) (task r i retry) : Out.Canon (execAnswer task r i retry s) := by
  have ha := answerFor_canon h task r i retry
  refine mailbox_canon h ?_
  dsimp only
  split
  · exact ha.of_mem (replyOk_mem ..)
  · exact ha.of_mem (replyOdd_mem ..)

theorem execLists_canon {s : State} (h : s.Canon) (bases) : Out.Canon (execLists bases s) := by
  refine mailbox_canon h ?_
  split
  · exact h.of_mem (replyOk_mem ..)
  · exact h.of_mem (replyOdd_mem ..)

theorem execRoute_canon {s : State} (hs : s.Canon) (h chip ports assoc) : Out.Canon (execRoute h chip ports assoc s) := by
  refine mailbox_canon hs ?_
  split
  · exact hs.of_mem (replyOk_mem ..)
  · exact hs.of_mem (replyOdd_mem ..)

theorem execPreempt_canon {s : State} (h : s.Canon) (task) : Out.Canon (execPreempt task s) := by
  refine mailbox_canon h ?_
  split
  · split
    · exact h.of_mem (replyOdd_mem ..)
    · exact h.of_mem ((replyOk_mem ..).trans (askPreempt_mem ..))
  · exact h.of_mem (replyOdd_mem ..)

theorem execDierst_canon {s : State} (h : s.Canon) (c) : Out.Canon (execDierst c s) := by
  refine mailbox_canon h ?_
  split
  · exact h.of_mem (replyOdd_mem ..)
  split
  · exact h.of_mem (reply'_mem ..)
  · exact (resetChip_canon h c).of_mem (replyOk_mem ..)

theorem execLcs_canon {s : State} (h : s.Canon) (next signed) : Out.Canon (execLcs next signed s) := by
  refine mailbox_canon h ?_
  split
  · exact rebootedAs_canon h _
  · exact h.of_mem (replyOdd_mem ..)

theorem execAttest_canon {s : State} (h : s.Canon) (c) : Out.Canon (execAttest c s) := by
  refine mailbox_canon h ?_
  split
  · exact h.of_mem (replyOdd_mem ..)
  · exact h.of_mem (reply'_mem ..)

theorem execAgeUpdate_canon {s : State} (h : s.Canon) (recs) : Out.Canon (execAgeUpdate recs s) := by
  unfold execAgeUpdate
  dsimp only [Out.Canon]
  split
  · exact h
  · exact h

/-! ## Grants and time limits -/

theorem execRequestTableGrant_canon {s : State} (h : s.Canon) (c) : Out.Canon (execRequestTableGrant c s) := by
  unfold execRequestTableGrant
  split
  · split
    · exact h
    · exact h
  · exact h

theorem execMissTableGrant_canon {s : State} (h : s.Canon) (c) : Out.Canon (execMissTableGrant c s) := by
  unfold execMissTableGrant
  split
  · split
    · exact h
    · exact h
  · exact h

/-! ## The control words -/

theorem execConditionalBranch_canon {s : State} (h : s.Canon) (c a b o) : Out.Canon (execConditionalBranch c a b o s) := by
  refine gate_canon h ?_
  split
  · exact h
  · exact done_canon h 2

theorem execCsrr_canon {s : State} (h : s.Canon) (d n) : Out.Canon (execCsrr d n s) := by
  refine gate_canon h ?_
  split
  · exact hold_canon h
  · exact done_canon (h.of_mem (upMe_mem ..)) 2

theorem execSel_canon {s : State} (h : s.Canon) (d a b) : Out.Canon (execSel d a b s) := by
  refine gate_canon h ?_
  have hs := srcs_canon h [a, b]
  split
  · next e => rw [e] at hs; exact done_canon (State.Canon.of_mem hs (upMe_mem ..)) 2
  · exact block_canon h ..
  · exact trap_canon h ..

/-! ## Memory words -/

theorem execWaita_canon {s : State} (h : s.Canon) (a b d c) : Out.Canon (execWaita a b d c s) := by
  refine gate_canon h ?_
  dsimp only
  generalize (if (c.val == 1) = true then 8 else 1) = n
  split
  · exact waitaEnd_canon h ..
  · exact block_canon h ..
  split
  · exact block_canon h ..
  split
  · exact trapX_canon h _
  split
  · exact trapX_canon h _
  split
  · next e =>
    have h1 : State.Canon _ := site_canon_of_eq h e
    split
    · exact trapX_canon h1 _
    split
    · exact waitRoom_canon h1
    · exact block_canon (h1.of_mem (by rw [upMe_mem, addReq_mem])) ..
  · next e => exact hold_canon (site_canon_of_eq h e)
  · exact siteStop_canon h (site_canon h ..)

theorem execRel_canon {s : State} (h : s.Canon) (sc) : Out.Canon (execRel sc s) := by
  refine gate_canon h ?_
  split
  · exact done_canon h 2
  split
  · exact trap_canon h ..
  split
  · exact block_canon h ..
  · exact done_canon (h.of_mem (openRel_mem ..)) 2

theorem execFen_canon {s : State} (h : s.Canon) (sc) : Out.Canon (execFen sc s) := by
  refine gate_canon h ?_
  split
  · exact trap_canon h ..
  · exact block_canon h ..
  · exact acquireThen_canon h fun _ ht => done_canon ht 2

theorem execEfen_canon {s : State} (h : s.Canon) (f) : Out.Canon (execEfen f s) := by
  refine gate_canon h ?_
  dsimp only
  split
  · split
    · exact trap_canon h ..
    · exact trap_canon (h.of_mem (upMyCore_mem ..)) ..
  split
  · exact block_canon h ..
  split
  · exact trap_canon h ..
  · exact done_canon h 2

/-! ## Translation and pages -/

theorem execTlbInv_canon {s : State} (h : s.Canon) (a b k sc) : Out.Canon (execTlbInv a b k sc s) := by
  refine gate_canon h ?_
  split
  · exact block_canon h ..
  · exact done_canon (h.of_mem (fresh_mem s)) 2

theorem execTlbSync_canon {s : State} (h : s.Canon) : Out.Canon (execTlbSync s) := by
  refine gate_canon h ?_
  dsimp only
  split
  · exact hold_canon h
  · refine done_canon ?_ 2
    exact State.Canon.of_mem (s := s) h (bumpScope_mem ..)

/-- A page word answers a number in a register. -/
theorem answered_canon {s : State} (h : s.Canon) (d v) : Out.Canon ((s.upMe fun t => t.put d (word v)).done 2) :=
  done_canon (h.of_mem (upMe_mem ..)) 2

theorem execPgMig_canon {s : State} (h : s.Canon) (a b d w) : Out.Canon (execPgMig a b d w s) := by
  refine gate_canon h ?_
  dsimp only
  split
  · split
    · split
      · exact answered_canon (h.of_mem (setDie_mem ..)) ..
      · exact block_canon h ..
    · exact answered_canon h ..
  split
  · exact block_canon h ..
  split
  · exact answered_canon h ..
  split
  · exact answered_canon h ..
  split
  · exact answered_canon h ..
  split
  · exact answered_canon h ..
  split
  · exact answered_canon h ..
  split
  · exact answered_canon h ..
  split
  · exact answered_canon h ..
  next f s1 ht =>
  have h1 : s1.Canon := targetFrame_canon h ht
  have h2 : s1.fresh.2.Canon := h1.of_mem (fresh_mem s1)
  split
  · exact block_canon ((writeLeaf_canon (charge_canon h2 ..) ..).of_mem (by rw [upMe_mem, setDie_mem, dropLeaf_mem])) ..
  · exact answered_canon ((writeLeaf_canon (charge_canon h2 ..) ..).of_mem (by rw [setDie_mem, dropLeaf_mem])) ..

theorem execPgPin_canon {s : State} (h : s.Canon) (a d c) : Out.Canon (execPgPin a d c s) := by
  refine gate_canon h ?_
  dsimp only
  split
  · split
    · exact block_canon h ..
    · exact pinDone_canon h ..
  split
  · exact block_canon h ..
  split
  · exact trapX_canon h _
  split
  · exact trapX_canon h _
  split
  · exact trapX_canon h _
  split
  · exact block_canon h ..
  split
  · exact block_canon ((writeLeaf_canon h ..).of_mem (by rw [upMe_mem, dropLeaf_mem])) ..
  · exact pinDone_canon h ..

theorem execPgProbe_canon {s : State} (h : s.Canon) (a d) : Out.Canon (execPgProbe a d s) := by
  refine gate_canon h ?_
  dsimp only
  split
  · exact block_canon h ..
  split
  · exact answered_canon h ..
  split
  · refine answered_canon ?_ ..
    split
    · exact h
    · exact h.of_mem (upMyCore_mem ..)
  split
  · exact trapX_canon h _
  split
  · exact answered_canon (h.of_mem (freeVal_mem s)) ..
  · exact answered_canon h ..

/-! ## Tasks and queues -/

theorem execTqPush_canon {s : State} (h : s.Canon) (a b d) : Out.Canon (execTqPush a b d s) := by
  refine gate_canon h ?_
  dsimp only
  split
  · exact block_canon h ..
  refine scratch_canon h ?_
  split
  · exact trap_canon h ..
  · exact block_canon h ..
  refine withQcr_canon h fun q => ?_
  split
  · exact putDone_canon h ..
  split
  · exact putDone_canon h ..
  split
  · exact putDone_canon h ..
  split
  · exact putDone_canon h ..
  split
  · next e => exact putDone_canon (ringWrite_canon (qcrSet_canon h ..) e) ..
  · exact putDone_canon (queueFault_canon (qcrSet_canon h ..) ..) ..

theorem execTkEnd_canon {s : State} (h : s.Canon) : Out.Canon (execTkEnd s) := by
  refine gate_canon h ?_
  dsimp only
  split
  · exact trap_canon h ..
  split
  · split
    · exact trap_canon h ..
    · exact trap_canon (h.of_mem (upMyCore_mem ..)) ..
  split
  · exact block_canon h ..
  split
  · exact trap_canon h ..
  split
  · exact trap_canon h ..
  split
  · exact block_canon h ..
  split
  · exact trap_canon h ..
  · exact h

theorem execTkCancel_canon {s : State} (h : s.Canon) (a d) : Out.Canon (execTkCancel a d s) := by
  refine gate_canon h ?_
  dsimp only
  split
  · exact putDone_canon (cancelRecord_canon h ..) ..
  generalize (if (s.me.get a).toNat = 0 then s.myCore.taskid else (s.me.get a).toNat) = id
  split
  · exact putDone_canon h ..
  split
  · exact done_canon (cancelTask_canon h ..) 2
  split
  · exact putDone_canon h ..
  · exact putDone_canon (cancelTask_canon h ..) ..

theorem execSafept_canon {s : State} (h : s.Canon) (c) : Out.Canon (execSafept c s) := by
  refine gate_canon h ?_
  split
  · exact trap_canon h ..
  · exact safeDone_canon h ..

theorem execTret_canon {s : State} (h : s.Canon) : Out.Canon (execTret s) := by
  refine gate_canon h ?_
  split
  · exact trap_canon h ..
  split
  · exact trap_canon h ..
  split
  · exact trap_canon h ..
  refine State.Canon.of_mem (s := if s.myCore.tpcw then s.leaveWait s.cc _ else s) ?_ (upMyCore_mem ..)
  split
  · exact leaveWait_canon h ..
  · exact h

theorem execSysRd_canon {s : State} (h : s.Canon) (a d) : Out.Canon (execSysRd a d s) := by
  refine gate_canon h ?_
  dsimp only
  split
  · exact trap_canon h ..
  · exact putDone_canon h ..

theorem execSysWr_canon {s : State} (h : s.Canon) (a b) : Out.Canon (execSysWr a b s) := by
  refine gate_canon h ?_
  dsimp only
  split
  · exact trap_canon h ..
  split
  · exact trap_canon h ..
  · exact done_canon (sysWrite_canon h ..) 2

theorem execTqCfg_canon {s : State} (h : s.Canon) (a b d) : Out.Canon (execTqCfg a b d s) := by
  refine gate_canon h ?_
  dsimp only
  split
  · exact block_canon h ..
  refine scratch_canon h (withQcr_canon h fun q => ?_)
  split
  · exact putDone_canon h ..
  split
  · exact putDone_canon h ..
  refine putDone_canon ?_ ..
  dsimp only [State.Canon]
  exact qcrSet_canon (qcrSet_canon (qcrSet_canon (qcrSet_canon h ..) ..) ..) ..

theorem execTqKill_canon {s : State} (h : s.Canon) (a d) : Out.Canon (execTqKill a d s) := by
  refine gate_canon h ?_
  dsimp only
  split
  · exact block_canon h ..
  · exact withQcr_canon h fun _ => putDone_canon (qcrSet_canon h ..) ..

theorem execTkPre_canon {s : State} (h : s.Canon) (a d u) : Out.Canon (execTkPre a d u s) := by
  refine gate_canon h ?_
  split
  · exact putDone_canon h ..
  split
  · exact putDone_canon h ..
  · exact putDone_canon (h.of_mem (askPreempt_mem ..)) ..

/-! ## Every instruction of the opcode table -/

theorem execSyswr_canon {s : State} (h : s.Canon) (n v) : Out.Canon (execSyswr n v s) := by
  refine mailbox_canon h ?_
  split
  · exact (sysWrite_canon h ..).of_mem (replyOk_mem ..)
  · exact h.of_mem (replyOdd_mem ..)

theorem execRolloverStopTimeout_canon {s : State} (h : s.Canon) (l) : Out.Canon (execRolloverStopTimeout l s) := by
  unfold execRolloverStopTimeout
  dsimp only [Out.Canon]
  split
  · exact resetChip_canon h _
  · exact h

/-- The words of a family share one lemma; a word or an event with a meaning of its own has its own. -/
theorem exec_canon {s : State} (h : s.Canon) (i : Instr) : Out.Canon (exec i s) := by
  cases i
  all_goals unfold exec
  case vaddI32 | vsubI32 | vmulI32 | vmulhI32 | vaddsI32 | vsubsI32 | vaddsN32 | vsubsN32 | vaddF32 | vsubF32 | vmulF32 | vfmaF32 |
    vfmsF32 | vminF32 | vmaxF32 | vand | vor | vxor | vandn | vsll | vsrl | vsra | vmov | vcmpI32 | vcmpF32 | vsel | vminI32 | vmaxI32 | vminN32 |
    vmaxN32 | vrotrImm | vrotrReg | vrotcImm | vrotcReg | vbcrImm | vbcrReg | vbccImm | vbccReg | vrsumF32 | vcsumF32 | vrmaxF32 | vcmaxF32
    | vrminF32 | vcminF32 | vrsumI32 | vcsumI32 | pand | por | pxor | pandn | pnez | vmovp | pset | pfirst | vlidx | vextN32 | vextI32 |
    vins | vbcg | vmovi | pcnt | pfind | vcvtBf16F32 | vcvtF16F32 | vcvtE4m3F32 | vcvtE5m2F32 | vcvtF32Bf16 | vcvtF32F16 | vcvtF32E4m3 |
    vcvtF32E5m2 | vcvtI32F32 | vcvtN32F32 | vcvtF32I32 | vcvtF32N32 | vrintF32 | vcvtMxF32 | vcvtF32Mx | vexpF32 | vexp2F32 | vlog2F32 |
    vrcpF32 | vrsqrtF32 | vsqrtF32 | vtanhF32 | vcmpr | vtopkF32 | vscanF32 | vscanI32 | vrandN32 | vrandF32 | vtopkI32 =>
    exact vissue_canon h ..
  case maLdb | maZero | maMovTv | maMovVt | maMovSum => exact matrixGate_canon h (matrixQueue_canon h ..)
  case cpCopy | cpCopyTs | cpCopyRc | cpGath | cpScat | cpFill => exact copyIssue_canon h ..
  case barArr | barExpb | semSet | semAdd => exact syncGate_canon h (signal_canon h ..)
  case chStat => exact gate_canon h (chanEntry_canon h fun _ => putDone_canon h ..)
  case fwFu | fwFwd | fwUpd => exact chunkIssue_canon h ..
  case fwClose | fwFree | fwStat | fwSnap | fwMig | fwLogc | fwLogd => exact fwGate_canon h (fwNamed_canon h fun _ _ => fwQueue_canon h ..)
  case fwRoll => exact fwGate_canon h (fwAllNamed_canon h (fwQueue_canon h ..))
  case cxStart | cxPause | cxEnd | cxCancel | cxSpec | cxCommit | grStep => exact ctxIssue_canon h ..
  case cxFork | grFork => exact forkIssue_canon h ..
  case grMask => exact seqGate_canon h (ctxOk_canon h (clearReady_canon h fun _ ht => seqQueue_canon ht ..))
  case grSave | grRoll => exact imageIssue_canon h ..
  case skClose | sqRecv => exact seqGate_canon h (scratch_canon h (seqQueue_canon h ..))
  case skDraw | sqCfg => exact seqGate_canon h (seqQueue_canon h ..)
  case packageReset | powerOff => exact rebooted_canon h
  case chipletAttestation => exact h.of_mem (attest_mem ..)
  case dieReadmission => exact h.of_mem (readmit_mem ..)
  case routeResend | hostLinkDown | l1WrapClearDone | preemptEscalate | hostLinkUp | l2LineEviction | l1LineDrop => exact h
  case tlbinv => exact mailbox_canon h h
  case age => exact mailbox_canon h (h.of_mem (reply'_mem ..))
  case blockFetch => exact blockFetch_canon h ..
  case lineRequestReturn => exact lineReturn_canon h ..
  case storePerformed => exact storePerform_canon h ..
  case atomicAtHome => exact atomicHome_canon h ..
  case waitaWake | waitaTimeout => exact h.of_mem (waitaWake_mem ..)
  case pageWalkComplete => exact h.of_mem (walkDone_mem ..)
  case cowBreak => exact cowBreak_canon h ..
  case pageMigrationComplete => exact migrateDone_canon h ..
  case tlbInvComplete => exact h.of_mem (invDone_mem ..)
  case vectorStart => exact h.of_mem (vectorStart_mem ..)
  case vectorComplete => exact h.of_mem (vectorComplete_mem ..)
  case matrixStart => exact h.of_mem (matrixStart_mem ..)
  case matrixComplete => exact h.of_mem (matrixComplete_mem ..)
  case lockClear => exact lockClear_canon h ..
  case copyStart => exact copyStart_canon h ..
  case copyPiecePost => exact copyPiecePost_canon h ..
  case copyComplete => exact h.of_mem (copyComplete_mem ..)
  case arriveEvent | bytesEvent | postEvent | semEventLand => exact landEvent_canon h ..
  case handleResolve => exact handleResolve_canon h ..
  case linkPushLand => exact h.of_mem (linkLand_mem ..)
  case fwStart => exact fwStart_canon h ..
  case fwComplete => exact fwComplete_canon h ..
  case fwDirectoryResolve => exact h.of_mem (fwResolve_mem ..)
  case fwPageInDone => exact fwPageIn_canon h ..
  case fwTransferComplete => exact xferComplete_canon h ..
  case seqStart => exact seqStart_canon h ..
  case seqComplete => exact seqComplete_canon h ..
  case sinkBlockProcess => exact sinkProcess_canon h ..
  case sqRecordLand => exact sqLand_canon h ..
  case dispatchRound => exact dispatchRound_canon h ..
  case taskFirstIssue => exact firstIssue_canon h ..
  case taskSave => exact taskSave_canon h ..
  case taskResume => exact taskResume_canon h ..
  case taskEnd => exact taskEnd_canon h ..
  case trapDelivery => exact foldl_canon (fun _ _ h => deliverTrap_canon h ..) _ h
  case hostEventPost => exact hostPost_canon h
  case watchdogExpiry => exact watchdog_canon h ..
  case tWatchdogExpiry => exact watchdogT_canon h ..
  case safeCountExpiry => exact safeExpiry_canon h ..
  case jmp | call => exact gate_canon h h
  case nop | nopH16 => exact gate_canon h (done_canon h _)
  case ret | jr | callr => exact gate_canon h (indirect_canon h ..)
  case brk | trap => exact gate_canon h (trapAfter_canon h ..)
  case csrw => exact gate_canon h (done_canon (h.of_mem (csrSet_mem ..)) 2)
  case add | sub | and | or | xor | andn | min | max | minn | maxn | sh1add | sh2add | sh3add | sh4add | addi | andi | ori | slli | srli |
    srai | rori | lih | sll | srl | sra | ror | clz | ctz | popc | seq | sne | slt | sge | sltn | sgen | extI8 | extI16 | extI32 | extN8 |
    extN16 | extN32 | mul | mulh | mulhn | div | divn | rem | remn | movH16 | liH16 | addiH16 | addH16 | subH16 | andH16 | orH16 | xorH16 |
    slliH16 | srliH16 | sraiH16 | mulH16 =>
    exact scalar_canon h ..
  case ldN8 | ldI8 | ldN16 | ldI16 | ldN32 | ldI32 | ld64 => exact loadWord_canon h ..
  case st8 | st16 | st32 | st64 => exact storeWord_canon h ..
  case vld | vldS | vldG | vldB => exact vload_canon h ..
  case vst | vstS | vstX => exact vstore_canon h ..
  case aadd | aand | aor | axor | aminI | aminN | amaxI | amaxN | swap | cas64 | cas128 | aaddMs | aandMs | aorMs | axorMs | aminIMs |
    aminNMs | amaxIMs | amaxNMs | swapMs | cas64Ms | cas128Ms =>
    exact atomic_canon h ..
  case pf => exact gate_canon h (done_canon (h.of_mem (foldl_mem (fun t _ => prefetchLine_mem t _ _) _ s)) 2)
  case acq => exact gate_canon h (acquireThen_canon h fun _ ht => done_canon ht 2)
  case fcInc | fcDec | fcRead => exact frameForm_canon h ..
  case tkYield => exact gate_canon h (safeDone_canon (h.of_mem (askPreempt_mem ..)) ..)
  case engRpl => exact gate_canon h (putDone_canon (settleRecs_canon h fun t x ht => ht.of_mem (replay_mem t _ x)) ..)
  case engDrop => exact gate_canon h (putDone_canon (settleRecs_canon h fun _ _ ht => dropOp_canon ht ..) ..)
  case maMm => exact execMaMm_canon h ..
  case maCfg => exact execMaCfg_canon h ..
  case maLdw => exact execMaLdw_canon h ..
  case maMovTp => exact execMaMovTp_canon h ..
  case maWait => exact execMaWait_canon h ..
  case maSave => exact execMaSave_canon h ..
  case maRstr => exact execMaRstr_canon h ..
  case tsDef => exact execTsDef_canon h ..
  case tsRel => exact execTsRel_canon h ..
  case tsStat => exact execTsStat_canon h ..
  case barInit => exact execBarInit_canon h ..
  case barWait => exact execBarWait_canon h ..
  case barArw => exact execBarArw_canon h ..
  case barStat => exact execBarStat_canon h ..
  case barExp => exact execBarExp_canon h ..
  case barUnex => exact execBarUnex_canon h ..
  case semInit => exact execSemInit_canon h ..
  case semWge => exact execSemWge_canon h ..
  case chCfg => exact execChCfg_canon h ..
  case chReg => exact execChReg_canon h ..
  case chEos => exact execChEos_canon h ..
  case chTake => exact execChTake_canon h ..
  case fwOpen => exact execFwOpen_canon h ..
  case fwPage => exact execFwPage_canon h ..
  case fwAvg => exact execFwAvg_canon h ..
  case grBind => exact execGrBind_canon h ..
  case grLatt => exact execGrLatt_canon h ..
  case skOpen => exact execSkOpen_canon h ..
  case ltExp => exact execLtExp_canon h ..
  case sqSend => exact execSqSend_canon h ..
  case flitTagFailure => exact execFlitTagFailure_canon h ..
  case keyRolloverStart => exact execKeyRolloverStart_canon h ..
  case keyRolloverAck => exact execKeyRolloverAck_canon h ..
  case drainMarker => exact execDrainMarker_canon h ..
  case rolloverSendStop => exact execRolloverSendStop_canon h ..
  case rolloverStopTimeout => exact execRolloverStopTimeout_canon h ..
  case syswr => exact execSyswr_canon h ..
  case feat => exact execFeat_canon h ..
  case answer => exact execAnswer_canon h ..
  case lists => exact execLists_canon h ..
  case route => exact execRoute_canon h ..
  case preempt => exact execPreempt_canon h ..
  case dierst => exact execDierst_canon h ..
  case lcs => exact execLcs_canon h ..
  case attest => exact execAttest_canon h ..
  case ageUpdate => exact execAgeUpdate_canon h ..
  case requestTableGrant => exact execRequestTableGrant_canon h ..
  case missTableGrant => exact execMissTableGrant_canon h ..
  case conditionalBranch => exact execConditionalBranch_canon h ..
  case csrr => exact execCsrr_canon h ..
  case sel => exact execSel_canon h ..
  case waita => exact execWaita_canon h ..
  case rel => exact execRel_canon h ..
  case fen => exact execFen_canon h ..
  case efen => exact execEfen_canon h ..
  case tlbInv => exact execTlbInv_canon h ..
  case tlbSync => exact execTlbSync_canon h
  case pgMig => exact execPgMig_canon h ..
  case pgPin => exact execPgPin_canon h ..
  case pgProbe => exact execPgProbe_canon h ..
  case tqPush => exact execTqPush_canon h ..
  case tkEnd => exact execTkEnd_canon h
  case tkCancel => exact execTkCancel_canon h ..
  case safept => exact execSafept_canon h ..
  case tret => exact execTret_canon h
  case sysRd => exact execSysRd_canon h ..
  case sysWr => exact execSysWr_canon h ..
  case tqCfg => exact execTqCfg_canon h ..
  case tqKill => exact execTqKill_canon h ..
  case tkPre => exact execTkPre_canon h ..
  case hostWrite => exact execHostWrite_canon h ..
  case cxlSnoop => exact execCxlSnoop_canon h ..
  case portLinkChange => exact execPortLinkChange_canon h ..
  case remoteCopyReceive => exact execRemoteCopyReceive_canon h ..
  case softError => exact execSoftError_canon h ..

/-! ## The turns of the schedule -/

/-- Which second halves exist is never computed: it only chooses between two traps. -/
theorem State.cutWord_canon {s : State} (h : s.Canon) (maj half) : Out.Canon (s.cutWord maj half) := by
  unfold State.cutWord
  generalize someHalf half 65536 = b
  split
  · exact trap_canon h ..
  split
  · exact trap_canon h ..
  · exact trap_canon h ..

theorem State.issueWord_canon {s : State} (h : s.Canon) (b) : Out.Canon (s.issueWord b) := by
  unfold State.issueWord
  split
  · exact exec_canon h _
  · exact trap_canon h ..
  · exact cutWord_canon h ..
  · exact h

theorem State.issue_canon {s : State} (h : s.Canon) (c r) : Out.Canon (s.issue c r) := by
  have hc : State.Canon { s with cur := (c, r) } := h
  unfold State.issue
  dsimp only
  split
  · exact hc
  split
  · dsimp only [Out.Canon]
    split
    · exact hc
    · exact deliverTrap_canon hc ..
  split
  · exact hc
  split
  · exact exec_canon hc _
  split
  · exact hc
  · exact issueWord_canon hc _

theorem State.event_canon {s : State} (h : s.Canon) (e) : Out.Canon (s.event e) := by
  have he := exec_canon h e
  unfold State.event
  split
  · next t ht =>
    rw [ht] at he
    split
    · exact meet_canon s he
    · exact settled_canon _ (exec_canon (before_canon h t) e)
  · exact he

theorem State.turn_canon {s : State} (h : s.Canon) (t) : Out.Canon (s.turn t) := by
  unfold State.turn
  split
  · exact issue_canon (s := { s with late := false }) h ..
  · exact issue_canon (s := { s with late := true }) h ..
  split
  · exact h
  · exact event_canon h _

theorem step_canon {s : State} (h : s.Canon) : Out.Canon (step s) := by
  unfold step
  split
  · next rest _ => exact turn_canon (s := { s with agenda := rest }) h _
  split
  · exact turn_canon (s := { s with tick := s.tick + 1 }) h _
  · exact h

end

/-- Settles O60: the one turn that a step runs keeps the canonical form, whatever word or event it is. -/
theorem memoryCanonical : Obligations.MemoryCanonical := by
  intro s s' h hs
  have hc := step_canon h
  rwa [hs] at hc

end Sys2Proof.Machine

/-! # Every instruction and every step answers a next state (O59)

An operation that words share answers a next state, or does when what it goes on to does; each has one lemma `…_isNext`. A word is a decision
tree whose leaves retire, wait or trap, and each of those is a next state by its definition. -/

namespace Sys2Proof.Machine

/-- The outcome is a next state: no fault, no refusal. -/
def Out.IsNext : Out → Prop
  | .next _ => True
  | _ => False

theorem Out.isNext_iff (o : Out) : Out.IsNext o ↔ ∃ s', o = .next s' := by
  cases o <;> simp [Out.IsNext]

namespace State

variable (s : State)

theorem gate_isNext {s : State} {n reads} {go : Unit → Out} (h : Out.IsNext (go ())) : Out.IsNext (s.gate n reads go) := by
  rw [Out.isNext_iff] at *
  exact gate_next h

theorem scalar_isNext (maj len srcs d f) : Out.IsNext (s.scalar maj len srcs d f) := by
  refine gate_isNext ?_
  repeat' split
  all_goals exact trivial

theorem indirect_isNext (target k link) : Out.IsNext (s.indirect target k link) := by
  unfold State.indirect
  split <;> exact trivial

theorem siteStop_isNext (r) : Out.IsNext (s.siteStop r) := by cases r <;> exact trivial

theorem loadAt_isNext (s0 x va n signed plain d) : Out.IsNext (s.loadAt s0 x va n signed plain d) := by
  unfold State.loadAt
  extract_lets finish fromPool
  have hfinish : ∀ r, Out.IsNext (finish r) := by intro r; cases r <;> exact trivial
  have hpool : ∀ m off, Out.IsNext (fromPool m off) := by
    intro m off
    unfold fromPool
    split
    · exact hfinish _
    · exact hfinish _
  split
  · exact hpool ..
  · exact hpool ..
  split
  · exact trivial
  split
  · exact hfinish _
  split
  · exact trivial
  · exact hfinish _

theorem loadWord_isNext (n signed d a off) : Out.IsNext (s.loadWord n signed d a off) := by
  refine gate_isNext ?_
  dsimp only
  repeat' split
  any_goals exact trivial
  · exact loadAt_isNext ..
  · exact siteStop_isNext ..

theorem storeWord_isNext (n d a off) : Out.IsNext (s.storeWord n d a off) := by
  refine gate_isNext ?_
  dsimp only
  repeat' split
  any_goals exact trivial
  exact siteStop_isNext ..

theorem vloadAt_isNext (vd xs) : Out.IsNext (s.vloadAt vd xs) := by
  unfold State.vloadAt
  dsimp only
  split
  · exact trivial
  split <;> exact trivial

theorem vload_isNext (n reads g vd idx addr) : Out.IsNext (s.vload n reads g vd idx addr) := by
  refine gate_isNext ?_
  split
  · exact trivial
  split
  · exact trivial
  split
  · exact vloadAt_isNext ..
  · exact siteStop_isNext ..

theorem vstore_isNext (n reads g vd idx addr) : Out.IsNext (s.vstore n reads g vd idx addr) := by
  refine gate_isNext ?_
  split
  · exact trivial
  split
  · exact trivial
  split
  · exact siteStop_isNext ..
  dsimp only
  split
  · exact trivial
  split <;> exact trivial

theorem atomic_isNext (maj op a b d ord sc) : Out.IsNext (s.atomic maj op a b d ord sc) := by
  unfold State.atomic
  refine gate_isNext ?_
  dsimp only
  repeat' split
  any_goals exact trivial
  all_goals exact siteStop_isNext ..

theorem vissue_isNext (maj sub op) : Out.IsNext (s.vissue maj sub op) := by
  unfold State.vissue
  refine gate_isNext ?_
  repeat' split
  all_goals exact trivial

theorem matrixStop_isNext {s : State} {save o} (h : s.matrixStop save = some o) : Out.IsNext o := by
  unfold State.matrixStop at h
  dsimp only at h
  repeat' split at h
  all_goals cases h
  all_goals exact trivial

theorem matrixTrap_isNext {s : State} {o} (h : s.matrixTrap = some o) : Out.IsNext o := by
  unfold State.matrixTrap at h
  repeat' split at h
  all_goals cases h
  all_goals exact trivial

theorem matrixGate_isNext {s : State} {n reads save} {go : Unit → Out} (h : Out.IsNext (go ())) :
    Out.IsNext (s.matrixGate n reads save go) := by
  refine gate_isNext ?_
  split
  · exact trivial
  split
  · next ho => exact matrixStop_isNext ho
  split
  · next ho => exact matrixTrap_isNext ho
  · exact h

theorem matrixQueue_isNext (op gs) : Out.IsNext (s.matrixQueue op gs) := by
  unfold State.matrixQueue
  repeat' split
  all_goals exact trivial

theorem maWait_isNext (mask) : Out.IsNext (s.maWait mask) := by
  unfold State.maWait
  dsimp only
  split
  · next ho => exact matrixStop_isNext ho
  split
  · split
    · next ho => exact matrixTrap_isNext ho
    · exact trivial
  split
  · exact trivial
  split <;> exact trivial

theorem acquireThen_isNext {s : State} {sc} {go : State → Out} (h : ∀ t, Out.IsNext (go t)) : Out.IsNext (s.acquireThen sc go) := by
  unfold State.acquireThen
  split
  · exact trivial
  · exact h _

theorem syncGate_isNext {s : State} {maj reads} {go : Unit → Out} (h : Out.IsNext (go ())) : Out.IsNext (s.syncGate maj reads go) := by
  refine gate_isNext ?_
  split
  · exact trivial
  · exact h

theorem signal_isNext (t e rel old d) : Out.IsNext (s.signal t e rel old d) := by
  unfold State.signal
  dsimp only
  repeat' split
  all_goals exact trivial

theorem barPassed_isNext (d) : Out.IsNext (s.barPassed d) := by
  unfold State.barPassed
  split
  · refine acquireThen_isNext fun t => ?_
    split <;> exact trivial
  · exact trivial

theorem barGoOn_isNext (n d) : Out.IsNext (s.barGoOn n d) := by
  unfold State.barGoOn
  split
  · exact barPassed_isNext ..
  · exact trivial

theorem semGranted_isNext (n d) : Out.IsNext (s.semGranted n d) := by
  unfold State.semGranted
  split
  · exact acquireThen_isNext fun _ => trivial
  · exact trivial

theorem chanEntry_isNext {s : State} {a} {go : Fin 32 → Out} (h : ∀ i, Out.IsNext (go i)) : Out.IsNext (s.chanEntry a go) := by
  unfold State.chanEntry
  dsimp only
  split
  · exact trivial
  split
  · exact trivial
  · exact h _

theorem postRing_isNext (i e claims d) : Out.IsNext (s.postRing i e claims d) := by
  unfold State.postRing
  dsimp only
  repeat' split
  all_goals exact trivial

theorem copyGate_isNext {s : State} {maj sub reads} {go : PUnit → Out} (h : Out.IsNext (go ⟨⟩)) : Out.IsNext (s.copyGate maj sub reads go) := by
  refine gate_isNext ?_
  split
  · exact trivial
  · exact h

theorem copyIssue_isNext (maj op a gb reads d) : Out.IsNext (s.copyIssue maj op a gb reads d) := by
  refine copyGate_isNext ?_
  dsimp only
  split
  · exact trivial
  split
  · exact trivial
  split
  · repeat' split
    all_goals exact trivial
  · exact siteStop_isNext ..

theorem fwGate_isNext {s : State} {maj reads} {go : Unit → Out} (h : Out.IsNext (go ())) : Out.IsNext (s.fwGate maj reads go) := by
  refine gate_isNext ?_
  split
  · exact trivial
  split
  · exact trivial
  · exact h

theorem fwNamed_isNext {s : State} {g loc} {go : Nat → FwState → Out} (h : ∀ n f, Out.IsNext (go n f)) : Out.IsNext (s.fwNamed g loc go) := by
  unfold State.fwNamed
  dsimp only
  repeat' split
  any_goals exact trivial
  exact h ..

theorem fwAllNamed_isNext {s : State} {l} {go : Unit → Out} (h : Out.IsNext (go ())) : Out.IsNext (s.fwAllNamed l go) := by
  induction l with
  | nil => exact h
  | cons g t ih => exact fwNamed_isNext fun _ _ => ih

theorem fwQueue_isNext (op gs desc geo) : Out.IsNext (s.fwQueue op gs desc geo) := by
  unfold State.fwQueue
  split <;> exact trivial

theorem chunkIssue_isNext (op a b) : Out.IsNext (s.chunkIssue op a b) := by
  refine fwGate_isNext (fwNamed_isNext fun _ f => ?_)
  split
  · exact trivial
  dsimp only
  split
  · exact trivial
  · exact fwQueue_isNext ..

theorem seqGate_isNext {s : State} {maj reads} {go : Unit → Out} (h : Out.IsNext (go ())) : Out.IsNext (s.seqGate maj reads go) := by
  refine gate_isNext ?_
  split
  · exact trivial
  split
  · exact trivial
  · exact h

theorem ctxOk_isNext {s : State} {g} {go : Unit → Out} (h : Out.IsNext (go ())) : Out.IsNext (s.ctxOk g go) := by
  unfold State.ctxOk
  split
  · exact trivial
  · exact h

theorem scratch_isNext {s : State} {l} {go : Unit → Out} (h : Out.IsNext (go ())) : Out.IsNext (s.scratch l go) := by
  unfold State.scratch
  split
  · exact trivial
  split
  · exact trivial
  · exact h

theorem seqQueue_isNext (op gs desc) : Out.IsNext (s.seqQueue op gs desc) := by
  unfold State.seqQueue
  split <;> exact trivial

theorem stallIssue_isNext (w) : Out.IsNext (s.stallIssue w) := by cases w <;> exact trivial

theorem bindCheck_isNext {s : State} {i gimg} {go : Unit → Out} (h : Out.IsNext (go ())) : Out.IsNext (s.bindCheck i gimg go) := by
  unfold State.bindCheck
  split
  · exact h
  split
  · exact stallIssue_isNext ..
  · exact h
  · exact trivial

theorem clearReady_isNext {s : State} {i mask} {go : State → Out} (h : ∀ t, Out.IsNext (go t)) : Out.IsNext (s.clearReady i mask go) := by
  unfold State.clearReady
  split
  · exact h _
  split
  · exact h _
  split
  · exact h _
  · exact stallIssue_isNext ..

theorem ctxIssue_isNext (maj op a regs) : Out.IsNext (s.ctxIssue maj op a regs) := seqGate_isNext (ctxOk_isNext (seqQueue_isNext ..))

theorem forkIssue_isNext (maj op a b) : Out.IsNext (s.forkIssue maj op a b) :=
  seqGate_isNext (ctxOk_isNext (ctxOk_isNext (seqQueue_isNext ..)))

theorem imageIssue_isNext (op a b kind) : Out.IsNext (s.imageIssue op a b kind) := by
  refine seqGate_isNext (ctxOk_isNext ?_)
  split
  · exact trivial
  · exact seqQueue_isNext ..

theorem waitaEnd_isNext (d cause) : Out.IsNext (s.waitaEnd d cause) := trivial

theorem pinDone_isNext (d clr va pa e) : Out.IsNext (s.pinDone d clr va pa e) := trivial

theorem frameForm_isNext (a d regs f zero) : Out.IsNext (s.frameForm a d regs f zero) := by
  refine gate_isNext ?_
  dsimp only
  repeat' split
  all_goals exact trivial

theorem safeDone_isNext (n live) : Out.IsNext (s.safeDone n live) := by
  unfold State.safeDone
  split <;> exact trivial

theorem withQcr_isNext {s : State} {q} {go : List Byte → Out} (h : ∀ b, Out.IsNext (go b)) : Out.IsNext (s.withQcr q go) := by
  unfold State.withQcr
  split
  · exact trivial
  split
  · exact trivial
  · exact h _

theorem mailbox_isNext (go) : Out.IsNext (s.mailbox go) := by
  unfold State.mailbox
  split <;> exact trivial

end State

open State

/-! ## Words with a meaning of their own -/

theorem execMaMm_isNext (a t p k z r s) : Out.IsNext (execMaMm a t p k z r s) := by
  refine matrixGate_isNext ?_
  dsimp only
  repeat' split
  any_goals exact trivial
  exact matrixQueue_isNext ..

theorem execMaLdw_isNext (a b c s) : Out.IsNext (execMaLdw a b c s) := by
  refine matrixGate_isNext ?_
  dsimp only
  split
  · exact trivial
  · exact matrixQueue_isNext ..

theorem execMaCfg_isNext (a b s) : Out.IsNext (execMaCfg a b s) := by
  refine matrixGate_isNext ?_
  split <;> exact trivial

theorem execMaMovTp_isNext (a g s) : Out.IsNext (execMaMovTp a g s) := by
  refine matrixGate_isNext ?_
  dsimp only
  split
  · exact trivial
  split
  · exact trivial
  · exact matrixQueue_isNext ..

theorem execMaWait_isNext (m s) : Out.IsNext (execMaWait m s) := by
  unfold execMaWait
  split
  · exact gate_isNext (maWait_isNext ..)
  · exact matrixGate_isNext (maWait_isNext ..)

theorem execMaSave_isNext (a s) : Out.IsNext (execMaSave a s) := by
  refine gate_isNext ?_
  dsimp only
  split
  · exact trivial
  split
  · next ho => exact matrixStop_isNext ho
  split
  · next ho => exact matrixTrap_isNext ho
  repeat' split
  any_goals exact trivial
  exact siteStop_isNext ..

theorem execMaRstr_isNext (a s) : Out.IsNext (execMaRstr a s) := by
  refine gate_isNext ?_
  dsimp only
  split
  · exact trivial
  split
  · exact trivial
  split
  · next ho => exact matrixTrap_isNext ho
  repeat' split
  any_goals exact trivial
  exact siteStop_isNext ..

theorem execTsDef_isNext (a b s) : Out.IsNext (execTsDef a b s) := by
  refine copyGate_isNext ?_
  dsimp only
  repeat' split
  all_goals exact trivial

theorem execTsRel_isNext (a d s) : Out.IsNext (execTsRel a d s) := by
  refine copyGate_isNext ?_
  dsimp only
  repeat' split
  all_goals exact trivial

theorem execTsStat_isNext (a d f w s) : Out.IsNext (execTsStat a d f w s) := by
  refine copyGate_isNext ?_
  dsimp only
  repeat' split
  all_goals exact trivial

theorem execBarInit_isNext (a b d sc s) : Out.IsNext (execBarInit a b d sc s) := by
  refine syncGate_isNext ?_
  dsimp only
  repeat' split
  all_goals exact trivial

theorem execSemInit_isNext (a b d sc s) : Out.IsNext (execSemInit a b d sc s) := by
  refine syncGate_isNext ?_
  dsimp only
  split <;> exact trivial

theorem execBarWait_isNext (a b d s) : Out.IsNext (execBarWait a b d s) := by
  refine syncGate_isNext ?_
  dsimp only
  repeat' split
  any_goals exact trivial
  all_goals exact barPassed_isNext ..

theorem execBarArw_isNext (a d s) : Out.IsNext (execBarArw a d s) := by
  refine syncGate_isNext ?_
  dsimp only
  repeat' split
  any_goals exact trivial
  · exact barPassed_isNext ..
  · exact barGoOn_isNext ..

theorem execSemWge_isNext (a b d u s) : Out.IsNext (execSemWge a b d u s) := by
  refine syncGate_isNext ?_
  dsimp only
  repeat' split
  any_goals exact trivial
  all_goals exact semGranted_isNext ..

theorem execBarExp_isNext (a d s) : Out.IsNext (execBarExp a d s) := by
  refine syncGate_isNext ?_
  dsimp only
  repeat' split
  all_goals exact trivial

theorem execBarUnex_isNext (a d s) : Out.IsNext (execBarUnex a d s) := by
  refine syncGate_isNext ?_
  dsimp only
  split
  · exact trivial
  split
  · exact trivial
  split <;> exact trivial

theorem execChCfg_isNext (d a b s) : Out.IsNext (execChCfg d a b s) := by
  refine gate_isNext ?_
  dsimp only
  repeat' split
  all_goals exact trivial

theorem execChReg_isNext (d a s) : Out.IsNext (execChReg d a s) := by
  refine gate_isNext (chanEntry_isNext fun i => ?_)
  dsimp only
  split
  · exact postRing_isNext ..
  split <;> exact trivial

theorem execChEos_isNext (d a s) : Out.IsNext (execChEos d a s) := by
  refine gate_isNext (chanEntry_isNext fun i => ?_)
  dsimp only
  split
  · exact postRing_isNext ..
  repeat' split
  all_goals exact trivial

theorem execChTake_isNext (d a p s) : Out.IsNext (execChTake d a p s) := by
  refine gate_isNext ?_
  dsimp only
  repeat' split
  all_goals exact trivial

theorem execFwOpen_isNext (a d s) : Out.IsNext (execFwOpen a d s) := by
  refine fwGate_isNext ?_
  split
  · exact trivial
  · exact fwQueue_isNext ..

theorem execFwPage_isNext (a b d o s) : Out.IsNext (execFwPage a b d o s) := by
  refine fwGate_isNext (fwNamed_isNext fun _ _ => ?_)
  split
  · exact trivial
  · exact fwQueue_isNext ..

theorem execFwAvg_isNext (a b d s) : Out.IsNext (execFwAvg a b d s) := by
  refine fwGate_isNext ?_
  split
  · exact trivial
  dsimp only
  split
  · exact trivial
  split
  · exact trivial
  · exact fwAllNamed_isNext (fwQueue_isNext ..)

theorem execGrBind_isNext (a b d s) : Out.IsNext (execGrBind a b d s) := by
  refine seqGate_isNext (ctxOk_isNext (scratch_isNext ?_))
  dsimp only
  generalize s.poolAt (s.me.get b).toNat 64 = desc
  split
  · exact trivial
  · refine bindCheck_isNext ?_
    exact seqQueue_isNext ..

theorem execGrLatt_isNext (a b d s) : Out.IsNext (execGrLatt a b d s) := by
  refine seqGate_isNext (ctxOk_isNext (scratch_isNext ?_))
  split
  · exact trivial
  · exact clearReady_isNext fun _ => seqQueue_isNext ..

theorem execSkOpen_isNext (a d s) : Out.IsNext (execSkOpen a d s) := by
  refine seqGate_isNext (scratch_isNext ?_)
  dsimp only
  split
  · exact trivial
  · exact ctxOk_isNext (seqQueue_isNext ..)

theorem execLtExp_isNext (a d s) : Out.IsNext (execLtExp a d s) := by
  refine seqGate_isNext (scratch_isNext ?_)
  split
  · exact trivial
  · exact seqQueue_isNext ..

theorem execSqSend_isNext (a b d s) : Out.IsNext (execSqSend a b d s) := by
  refine seqGate_isNext (scratch_isNext ?_)
  split
  · exact trivial
  · exact seqQueue_isNext ..

theorem execConditionalBranch_isNext (c a b o s) : Out.IsNext (execConditionalBranch c a b o s) := by
  refine gate_isNext ?_
  split <;> exact trivial

theorem execCsrr_isNext (d n s) : Out.IsNext (execCsrr d n s) := by
  refine gate_isNext ?_
  split <;> exact trivial

theorem execSel_isNext (d a b s) : Out.IsNext (execSel d a b s) := by
  refine gate_isNext ?_
  repeat' split
  all_goals exact trivial

theorem execWaita_isNext (a b d c s) : Out.IsNext (execWaita a b d c s) := by
  refine gate_isNext ?_
  extract_lets va cmp al
  split
  · exact trivial
  · exact trivial
  split
  · exact trivial
  split
  · exact trivial
  split
  · exact trivial
  split
  · split
    · exact trivial
    split <;> exact trivial
  · exact trivial
  · exact siteStop_isNext ..

theorem execRel_isNext (sc s) : Out.IsNext (execRel sc s) := by
  refine gate_isNext ?_
  repeat' split
  all_goals exact trivial

theorem execFen_isNext (sc s) : Out.IsNext (execFen sc s) := by
  refine gate_isNext ?_
  split
  · exact trivial
  · exact trivial
  · exact acquireThen_isNext fun _ => trivial

theorem execEfen_isNext (f s) : Out.IsNext (execEfen f s) := by
  refine gate_isNext ?_
  dsimp only
  split
  · split <;> exact trivial
  split
  · exact trivial
  split <;> exact trivial

theorem execTlbInv_isNext (a b k sc s) : Out.IsNext (execTlbInv a b k sc s) := by
  refine gate_isNext ?_
  split <;> exact trivial

theorem execTlbSync_isNext (s) : Out.IsNext (execTlbSync s) := by
  refine gate_isNext ?_
  dsimp only
  split <;> exact trivial

theorem execPgProbe_isNext (a d s) : Out.IsNext (execPgProbe a d s) := by
  refine gate_isNext ?_
  dsimp only
  repeat' split
  all_goals exact trivial

theorem execPgPin_isNext (a d c s) : Out.IsNext (execPgPin a d c s) := by
  refine gate_isNext ?_
  dsimp only
  repeat' split
  all_goals exact trivial

theorem execPgMig_isNext (a b d w s) : Out.IsNext (execPgMig a b d w s) := by
  refine gate_isNext ?_
  dsimp only
  repeat' split
  all_goals exact trivial

theorem execTqPush_isNext (a b d s) : Out.IsNext (execTqPush a b d s) := by
  refine gate_isNext ?_
  dsimp only
  split
  · exact trivial
  refine scratch_isNext ?_
  split
  · exact trivial
  · exact trivial
  refine withQcr_isNext fun q => ?_
  repeat' split
  all_goals exact trivial

theorem execTqCfg_isNext (a b d s) : Out.IsNext (execTqCfg a b d s) := by
  refine gate_isNext ?_
  dsimp only
  split
  · exact trivial
  refine scratch_isNext (withQcr_isNext fun q => ?_)
  repeat' split
  all_goals exact trivial

theorem execTqKill_isNext (a d s) : Out.IsNext (execTqKill a d s) := by
  refine gate_isNext ?_
  dsimp only
  split
  · exact trivial
  · exact withQcr_isNext fun _ => trivial

theorem execTkEnd_isNext (s) : Out.IsNext (execTkEnd s) := by
  refine gate_isNext ?_
  dsimp only
  repeat' split
  all_goals exact trivial

theorem execTkCancel_isNext (a d s) : Out.IsNext (execTkCancel a d s) := by
  refine gate_isNext ?_
  extract_lets g die me id
  split
  · exact trivial
  split
  · exact trivial
  split
  · exact trivial
  split <;> exact trivial

theorem execTkPre_isNext (a d u s) : Out.IsNext (execTkPre a d u s) := by
  refine gate_isNext ?_
  split
  · exact trivial
  split <;> exact trivial

theorem execSafept_isNext (c s) : Out.IsNext (execSafept c s) := by
  refine gate_isNext ?_
  split
  · exact trivial
  · exact safeDone_isNext ..

theorem execTret_isNext (s) : Out.IsNext (execTret s) := by
  refine gate_isNext ?_
  dsimp only
  repeat' split
  all_goals exact trivial

theorem execSysRd_isNext (a d s) : Out.IsNext (execSysRd a d s) := by
  refine gate_isNext ?_
  dsimp only
  split <;> exact trivial

theorem execSysWr_isNext (a b s) : Out.IsNext (execSysWr a b s) := by
  refine gate_isNext ?_
  dsimp only
  split
  · exact trivial
  split <;> exact trivial

theorem execRequestTableGrant_isNext (c s) : Out.IsNext (execRequestTableGrant c s) := by
  unfold execRequestTableGrant
  repeat' split
  all_goals exact trivial

theorem execMissTableGrant_isNext (c s) : Out.IsNext (execMissTableGrant c s) := by
  unfold execMissTableGrant
  repeat' split
  all_goals exact trivial

/-- The words of a family share one lemma; a word with a meaning of its own has its own. An event answers a state by its definition. -/
theorem exec_isNext (i : Instr) (s : State) : Out.IsNext (exec i s) := by
  cases i
  all_goals unfold exec
  case vaddI32 | vsubI32 | vmulI32 | vmulhI32 | vaddsI32 | vsubsI32 | vaddsN32 | vsubsN32 | vaddF32 | vsubF32 | vmulF32 | vfmaF32 |
    vfmsF32 | vminF32 | vmaxF32 | vand | vor | vxor | vandn | vsll | vsrl | vsra | vmov | vcmpI32 | vcmpF32 | vsel | vminI32 | vmaxI32 | vminN32 |
    vmaxN32 | vrotrImm | vrotrReg | vrotcImm | vrotcReg | vbcrImm | vbcrReg | vbccImm | vbccReg | vrsumF32 | vcsumF32 | vrmaxF32 | vcmaxF32
    | vrminF32 | vcminF32 | vrsumI32 | vcsumI32 | pand | por | pxor | pandn | pnez | vmovp | pset | pfirst | vlidx | vextN32 | vextI32 |
    vins | vbcg | vmovi | pcnt | pfind | vcvtBf16F32 | vcvtF16F32 | vcvtE4m3F32 | vcvtE5m2F32 | vcvtF32Bf16 | vcvtF32F16 | vcvtF32E4m3 |
    vcvtF32E5m2 | vcvtI32F32 | vcvtN32F32 | vcvtF32I32 | vcvtF32N32 | vrintF32 | vcvtMxF32 | vcvtF32Mx | vexpF32 | vexp2F32 | vlog2F32 |
    vrcpF32 | vrsqrtF32 | vsqrtF32 | vtanhF32 | vcmpr | vtopkF32 | vscanF32 | vscanI32 | vrandN32 | vrandF32 | vtopkI32 =>
    exact vissue_isNext ..
  case add | sub | and | or | xor | andn | min | max | minn | maxn | sh1add | sh2add | sh3add | sh4add | addi | andi | ori | slli | srli |
    srai | rori | lih | sll | srl | sra | ror | clz | ctz | popc | seq | sne | slt | sge | sltn | sgen | extI8 | extI16 | extI32 | extN8 |
    extN16 | extN32 | mul | mulh | mulhn | div | divn | rem | remn | movH16 | liH16 | addiH16 | addH16 | subH16 | andH16 | orH16 | xorH16 |
    slliH16 | srliH16 | sraiH16 | mulH16 =>
    exact scalar_isNext ..
  case ldN8 | ldI8 | ldN16 | ldI16 | ldN32 | ldI32 | ld64 => exact loadWord_isNext ..
  case st8 | st16 | st32 | st64 => exact storeWord_isNext ..
  case vld | vldS | vldG | vldB => exact vload_isNext ..
  case vst | vstS | vstX => exact vstore_isNext ..
  case aadd | aand | aor | axor | aminI | aminN | amaxI | amaxN | swap | cas64 | cas128 | aaddMs | aandMs | aorMs | axorMs | aminIMs |
    aminNMs | amaxIMs | amaxNMs | swapMs | cas64Ms | cas128Ms =>
    exact atomic_isNext ..
  case packageReset | powerOff | chipletAttestation | dieReadmission | routeResend | hostLinkDown | l1WrapClearDone |
    preemptEscalate | hostLinkUp | l2LineEviction | l1LineDrop | blockFetch | lineRequestReturn | storePerformed |
    atomicAtHome | waitaWake | waitaTimeout | pageWalkComplete | cowBreak | pageMigrationComplete | tlbInvComplete |
    vectorStart | vectorComplete | matrixStart | matrixComplete | lockClear | copyStart | copyPiecePost | copyComplete |
    arriveEvent | bytesEvent | postEvent | semEventLand | handleResolve | linkPushLand | fwStart | fwComplete |
    fwDirectoryResolve | fwPageInDone | fwTransferComplete | seqStart | seqComplete | sinkBlockProcess | sqRecordLand |
    dispatchRound | taskFirstIssue | taskSave | taskResume | taskEnd | trapDelivery | hostEventPost | watchdogExpiry |
    tWatchdogExpiry | safeCountExpiry | flitTagFailure | keyRolloverStart | keyRolloverAck | drainMarker | rolloverSendStop |
    rolloverStopTimeout | ageUpdate | hostWrite | cxlSnoop | portLinkChange | remoteCopyReceive | softError =>
    exact trivial
  case syswr | tlbinv | feat | answer | lists | route | preempt | dierst | lcs | age | attest => exact mailbox_isNext ..
  case jmp | call | nop | nopH16 | brk | trap | csrw | pf | engRpl | engDrop => exact gate_isNext trivial
  case ret | jr | callr => exact gate_isNext (indirect_isNext ..)
  case acq => exact gate_isNext (acquireThen_isNext fun _ => trivial)
  case fcInc | fcDec | fcRead => exact frameForm_isNext ..
  case tkYield => exact gate_isNext (safeDone_isNext ..)
  case maLdb | maZero | maMovTv | maMovVt | maMovSum => exact matrixGate_isNext (matrixQueue_isNext ..)
  case cpCopy | cpCopyTs | cpCopyRc | cpGath | cpScat | cpFill => exact copyIssue_isNext ..
  case barArr | barExpb | semSet | semAdd => exact syncGate_isNext (signal_isNext ..)
  case barStat => exact syncGate_isNext trivial
  case chStat => exact gate_isNext (chanEntry_isNext fun _ => trivial)
  case fwFu | fwFwd | fwUpd => exact chunkIssue_isNext ..
  case fwClose | fwFree | fwStat | fwSnap | fwMig | fwLogc | fwLogd => exact fwGate_isNext (fwNamed_isNext fun _ _ => fwQueue_isNext ..)
  case fwRoll => exact fwGate_isNext (fwAllNamed_isNext (fwQueue_isNext ..))
  case cxStart | cxPause | cxEnd | cxCancel | cxSpec | cxCommit | grStep => exact ctxIssue_isNext ..
  case cxFork | grFork => exact forkIssue_isNext ..
  case grMask => exact seqGate_isNext (ctxOk_isNext (clearReady_isNext fun _ => seqQueue_isNext ..))
  case grSave | grRoll => exact imageIssue_isNext ..
  case skClose | sqRecv => exact seqGate_isNext (scratch_isNext (seqQueue_isNext ..))
  case skDraw | sqCfg => exact seqGate_isNext (seqQueue_isNext ..)
  case maMm => exact execMaMm_isNext ..
  case maLdw => exact execMaLdw_isNext ..
  case maCfg => exact execMaCfg_isNext ..
  case maMovTp => exact execMaMovTp_isNext ..
  case maWait => exact execMaWait_isNext ..
  case maSave => exact execMaSave_isNext ..
  case maRstr => exact execMaRstr_isNext ..
  case tsDef => exact execTsDef_isNext ..
  case tsRel => exact execTsRel_isNext ..
  case tsStat => exact execTsStat_isNext ..
  case barInit => exact execBarInit_isNext ..
  case semInit => exact execSemInit_isNext ..
  case barWait => exact execBarWait_isNext ..
  case barArw => exact execBarArw_isNext ..
  case semWge => exact execSemWge_isNext ..
  case barExp => exact execBarExp_isNext ..
  case barUnex => exact execBarUnex_isNext ..
  case chCfg => exact execChCfg_isNext ..
  case chReg => exact execChReg_isNext ..
  case chEos => exact execChEos_isNext ..
  case chTake => exact execChTake_isNext ..
  case fwOpen => exact execFwOpen_isNext ..
  case fwPage => exact execFwPage_isNext ..
  case fwAvg => exact execFwAvg_isNext ..
  case grBind => exact execGrBind_isNext ..
  case grLatt => exact execGrLatt_isNext ..
  case skOpen => exact execSkOpen_isNext ..
  case ltExp => exact execLtExp_isNext ..
  case sqSend => exact execSqSend_isNext ..
  case conditionalBranch => exact execConditionalBranch_isNext ..
  case csrr => exact execCsrr_isNext ..
  case sel => exact execSel_isNext ..
  case waita => exact execWaita_isNext ..
  case rel => exact execRel_isNext ..
  case fen => exact execFen_isNext ..
  case efen => exact execEfen_isNext ..
  case tlbInv => exact execTlbInv_isNext ..
  case tlbSync => exact execTlbSync_isNext ..
  case pgProbe => exact execPgProbe_isNext ..
  case pgPin => exact execPgPin_isNext ..
  case pgMig => exact execPgMig_isNext ..
  case tqPush => exact execTqPush_isNext ..
  case tqCfg => exact execTqCfg_isNext ..
  case tqKill => exact execTqKill_isNext ..
  case tkEnd => exact execTkEnd_isNext ..
  case tkCancel => exact execTkCancel_isNext ..
  case tkPre => exact execTkPre_isNext ..
  case safept => exact execSafept_isNext ..
  case tret => exact execTret_isNext ..
  case sysRd => exact execSysRd_isNext ..
  case sysWr => exact execSysWr_isNext ..
  case requestTableGrant => exact execRequestTableGrant_isNext ..
  case missTableGrant => exact execMissTableGrant_isNext ..

/-! ## Turns and steps -/

namespace State

/-- Which second halves exist is never computed: it only chooses between two traps. -/
theorem cutWord_isNext (s : State) (maj half) : Out.IsNext (s.cutWord maj half) := by
  unfold State.cutWord
  generalize someHalf half 65536 = b
  split
  · exact trivial
  split <;> exact trivial

theorem issueWord_isNext (s : State) (b) : Out.IsNext (s.issueWord b) := by
  unfold State.issueWord
  split
  · exact exec_isNext ..
  · exact trivial
  · exact cutWord_isNext ..
  · exact trivial

theorem issue_isNext (s : State) (c r) : Out.IsNext (s.issue c r) := by
  unfold State.issue
  dsimp only
  split
  · exact trivial
  split
  · exact trivial
  split
  · exact trivial
  split
  · exact exec_isNext ..
  split
  · exact trivial
  · exact issueWord_isNext ..

theorem settled_isNext (s : State) {o : Out} (h : Out.IsNext o) : Out.IsNext (s.settled o) := by
  cases o with
  | next t => exact trivial
  | fault => exact h
  | refused => exact h

theorem event_isNext (s : State) (e) : Out.IsNext (s.event e) := by
  have he := exec_isNext e s
  unfold State.event
  split
  · split
    · exact trivial
    · exact settled_isNext _ (exec_isNext ..)
  · exact he

theorem turn_isNext (s : State) (t) : Out.IsNext (s.turn t) := by
  unfold State.turn
  split
  · exact issue_isNext ..
  · exact issue_isNext ..
  split
  · exact trivial
  · exact event_isNext ..

end State

theorem step_isNext (s : State) : Out.IsNext (step s) := by
  unfold step
  split
  · exact turn_isNext ..
  split
  · exact turn_isNext ..
  · exact trivial

/-- Settles O59: a word's decision tree ends in a retirement, a wait or a trap, an event answers a state, and a turn is one of them. -/
theorem stepAnswers : Obligations.StepAnswers :=
  ⟨fun i s => (Out.isNext_iff _).1 (exec_isNext i s), fun s => (Out.isNext_iff _).1 (step_isNext s)⟩

end Sys2Proof.Machine

namespace Sys2Proof.Machine

/-! # The checks at issue (O54) -/

/-! ## The first check that fails, in the order of R47 -/

section GateFault

variable {s : State} {n : Need}

/-- The feature of the word is acknowledged, or FEATACK0 is not locked (R431). -/
def State.FeatureOn (s : State) (n : Need) : Prop := s.featlock = false ∨ bits s.featack.toNat (featureOf n.maj n.sub) 1 = 1

theorem State.FeatureOn.passes (h : s.FeatureOn n) : (s.featlock && bits s.featack.toNat (featureOf n.maj n.sub) 1 == 0) = false := by
  rcases h with h | h <;> simp [h]

theorem State.gateFault_of_vregs (h : s.myCore.bndv * 16 < n.vregs) : s.gateFault n = some (cILL, 0x0C) := by
  simp [State.gateFault, h]

theorem State.gateFault_of_feature (hv : n.vregs ≤ s.myCore.bndv * 16) (hl : s.featlock = true)
    (hf : bits s.featack.toNat (featureOf n.maj n.sub) 1 = 0) : s.gateFault n = some (cILL, 0x07) := by
  simp [State.gateFault, Nat.not_lt.2 hv, hl, hf]

theorem State.gateFault_of_class (hv : n.vregs ≤ s.myCore.bndv * 16) (hf : s.FeatureOn n) (hc : classOk s.cr n.maj = false) :
    s.gateFault n = some (cILL, 0x08) := by
  simp [State.gateFault, Nat.not_lt.2 hv, hf.passes, hc]

theorem State.gateFault_of_priv (hv : n.vregs ≤ s.myCore.bndv * 16) (hf : s.FeatureOn n) (hc : classOk s.cr n.maj = true)
    (hp : n.priv = true) (hr : s.cr ≠ .T) : s.gateFault n = some (cPRIV, 0) := by
  simp [State.gateFault, Nat.not_lt.2 hv, hf.passes, hc, hp, hr]

/-- Past the checks of a word without privilege, the first channel beyond the table decides. -/
theorem State.gateFault_past_class (hv : n.vregs ≤ s.myCore.bndv * 16) (hf : s.FeatureOn n) (hc : classOk s.cr n.maj = true)
    (hp : n.priv = false) :
    s.gateFault n = (n.chans.find? fun i => decide (s.myCore.chcnt ≤ i)).map fun i => (cCHAN, i) := by
  simp only [State.gateFault, Nat.not_lt.2 hv, hf.passes, hc, hp]
  cases n.chans.find? fun i => decide (s.myCore.chcnt ≤ i) <;> rfl

end GateFault

/-- Every thread issues integer words (R13). -/
theorem classOk_of_lt {maj : Nat} (h : maj < 10) (r : Role) : classOk r maj = true := by
  have := Nat.not_le.2 h
  cases r <;> simp [classOk] <;> omega

theorem classOk_T (maj : Nat) : classOk .T maj = true := rfl

/-! ## The gate when no check fails -/

theorem State.gate_unready {s : State} {n : Need} {reads : List (Fin 32)} (hg : s.gateFault n = none)
    (hr : reads.all s.me.ready = false) (go : Unit → Out) : s.gate n reads go = .next s := by
  simp [State.gate, hg, hr, State.hold]

theorem State.gate_due {s : State} {n : Need} {reads : List (Fin 32)} (hg : s.gateFault n = none) (hr : reads.all s.me.ready = true)
    (hd : s.me.safeDue s.cr = true) (hs : n.safe = false) (go : Unit → Out) :
    s.gate n reads go = .next (s.upMe fun t => { t with stage := .safe }) := by
  simp [State.gate, hg, hr, hd, hs]

/-! ## A trap raised while T serves another -/

/-- T serves one trap at a time: a role thread's trap stays raised (R399). -/
theorem State.deliverTrap_serving {s : State} {c : Fin 64} {r : Role} (hr : r ≠ .T) (hs : (s.core c).served.isSome = true) :
    s.deliverTrap c r = s := by
  obtain ⟨q, hq⟩ := Option.isSome_iff_exists.1 hs
  have hc : s.canTake c r = false := by simp [State.canTake, hr, hq]
  simp [State.deliverTrap, hc]

theorem State.trapAt_serving {s : State} {c : Fin 64} {r : Role} (hr : r ≠ .T) (hs : (s.core c).served.isSome = true) (p : PTrap) :
    s.trapAt c r p = (s.upCore c fun k => k.waitsNot r).upThr c r fun t => { t with trap := some p, why := 0, obj := 0 } := by
  refine deliverTrap_serving hr ?_
  simpa [State.upThr, State.setThr, Core.setThr, Core.waitsNot] using hs

/-- A trap raised while T serves another is kept by its thread, which waits for nothing any more (R49). -/
theorem State.trap_serving {s : State} (hr : s.cr ≠ .T) (hs : s.myCore.served.isSome = true) (c d : Nat) :
    s.trap c d = .next ((s.upMyCore fun k => k.waitsNot s.cr).upMe fun t =>
      { t with trap := some (s.me.faultHere c d 0 0), why := 0, obj := 0 }) :=
  congrArg Host.Outcome.next (State.trapAt_serving hr hs _)

/-! ## The words of the statement -/

theorem vtop_three (a b d : Nat) : vtop [a, b, d] = max (max (a + 1) (b + 1)) (d + 1) := by simp [vtop]

/-! A word of each class and its gate: what it needs, and the registers it reads. -/

theorem exec_vaddI32_gate (s : State) (g : Guard) (d a b : Fin 64) :
    ∃ go, exec (.vaddI32 g d a b) s = s.gate { maj := 20, vregs := vtop [a.val, b.val, d.val] } [] go := by
  unfold exec execVaddI32 State.vissue
  exact ⟨_, rfl⟩

theorem exec_ld64_gate (s : State) (d a : Fin 32) (o : Fin 512) :
    ∃ go, exec (.ld64 (.g d) (.g a) o) s = s.gate { maj := 10 } [a] go := by
  unfold exec execLd64 State.loadWord
  exact ⟨_, rfl⟩

theorem exec_sysRd_gate (s : State) (d a : Fin 32) :
    ∃ go, exec (.sysRd a d) s = s.gate { maj := 53, priv := true } [a] go := by
  unfold exec execSysRd
  exact ⟨_, rfl⟩

theorem exec_add_gate (s : State) (d : Dst) (a b : Src) :
    ∃ go, exec (.add d a b) s = s.gate { maj := 5, chans := [a, b].flatMap srcChan ++ dstChan d } ([a, b].flatMap srcRegs) go := by
  unfold exec execAdd State.scalar
  exact ⟨_, rfl⟩

theorem exec_addi_gate (s : State) (d a : Fin 32) (i : Fin 1024) :
    ∃ go, exec (.addi (.g d) (.g a) i) s = s.gate { maj := 6 } [a] go := by
  unfold exec execAddi State.scalar
  exact ⟨_, rfl⟩

/-- The only channel that a word names is beyond the table (R34). -/
theorem State.gateFault_of_chan {s : State} {maj i : Nat} (hm : maj < 10) (hf : s.FeatureOn { maj := maj, chans := [i] })
    (hi : s.myCore.chcnt ≤ i) : s.gateFault { maj := maj, chans := [i] } = some (cCHAN, i) := by
  rw [State.gateFault_past_class (Nat.zero_le _) hf (classOk_of_lt hm _) rfl]
  simp [hi]

theorem State.gateFault_none_of_integer {s : State} {maj : Nat} (hm : maj < 10) (hf : s.FeatureOn { maj := maj }) :
    s.gateFault { maj := maj } = none := by
  rw [State.gateFault_past_class (Nat.zero_le _) hf (classOk_of_lt hm _) rfl]
  rfl

/-- A word of `add` whose operands name one channel, beyond the table. -/
theorem exec_add_chan {s : State} {d : Dst} {a b : Src} {i : Nat} (hx : [a, b].flatMap srcChan ++ dstChan d = [i])
    (hf : s.featlock = false ∨ bits s.featack.toNat 0 1 = 1) (hi : s.myCore.chcnt ≤ i) : exec (.add d a b) s = s.trap cCHAN i := by
  obtain ⟨go, e⟩ := exec_add_gate s d a b
  rw [e, hx]
  refine State.gate_fault ?_ go
  exact State.gateFault_of_chan (by decide) hf hi

/-- Settles O54: `State.gateFault` makes the checks in R47's order, and `State.gate` looks at registers and the count after them. -/
theorem issueChecks : Obligations.IssueChecks := by
  refine ⟨fun s g d a b => ?vector, fun s d a o => ?load, fun s d a => ?system, fun s c d hf hc => ?channel, fun s d a i hf => ?integer,
    fun s c d ht hs => ?trap⟩
  case vector =>
    obtain ⟨go, e⟩ := exec_vaddI32_gate s g d a b
    have hv := vtop_three a b d
    rw [e]
    refine ⟨fun h => State.gate_fault ?_ go, fun hd ha hb => ⟨fun hl hf => State.gate_fault ?_ go, fun hf hr => State.gate_fault ?_ go⟩⟩
    · exact State.gateFault_of_vregs (by dsimp only; omega)
    · exact State.gateFault_of_feature (by dsimp only; omega) hl hf
    · have hc : classOk s.cr 20 = false := by rcases hr with hr | hr <;> rw [hr] <;> rfl
      exact State.gateFault_of_class (by dsimp only; omega) hf hc
  case load =>
    obtain ⟨go, e⟩ := exec_ld64_gate s d a o
    rw [e]
    refine ⟨fun hl hf => State.gate_fault ?_ go, fun hf hr => State.gate_fault ?_ go⟩
    · exact State.gateFault_of_feature (Nat.zero_le _) hl hf
    · exact State.gateFault_of_class (Nat.zero_le _) hf (by rw [hr]; rfl)
  case system =>
    obtain ⟨go, e⟩ := exec_sysRd_gate s d a
    have hc : classOk s.cr 53 = true := by cases s.cr <;> rfl
    rw [e]
    refine ⟨fun hl hf => State.gate_fault ?_ go, fun hf hr => State.gate_fault ?_ go⟩
    · exact State.gateFault_of_feature (Nat.zero_le _) hl hf
    · exact State.gateFault_of_priv (Nat.zero_le _) hf hc rfl hr
  case channel => exact ⟨exec_add_chan rfl hf hc, exec_add_chan rfl hf hc, exec_add_chan rfl hf hc⟩
  case integer =>
    obtain ⟨go, e⟩ := exec_addi_gate s d a i
    have hg : s.gateFault { maj := 6 } = none := State.gateFault_none_of_integer (by decide) hf
    rw [e]
    exact ⟨fun hr => State.gate_unready hg (by simp [hr]) go,
      fun hr ht hn => State.gate_due hg (by simp [hr]) (by simp [Thread.safeDue, ht, hn]) rfl go⟩
  case trap =>
    refine ⟨_, s.me.faultHere c d 0 0, State.trap_serving ht hs c d, ?_⟩
    have hme : (s.upMyCore fun k => k.waitsNot s.cr).me = s.me := State.me_upMyCore s _ rfl
    rw [State.me_upMe, hme, State.myCore_upMe, State.myCore_upMyCore]
    exact ⟨rfl, rfl, rfl, rfl, rfl, rfl, rfl, rfl, rfl, rfl, rfl, rfl, rfl⟩

/-! # The state after reset (O55) -/

theorem State.reset_core (c : Fin 64) : State.reset.core c = Core.reset := by simp [State.reset, State.core]

theorem State.reset_thr (c : Fin 64) (r : Role) : State.reset.thr c r = Thread.reset := by
  rw [State.thr, State.reset_core]
  simp [Core.reset, Core.thr]

/-- No line differs from its tier's own poison after reset. -/
theorem State.reset_poisoned (l : Nat) : State.reset.poisoned l = poisonDefault l := by
  simp [State.poisoned, State.reset]

/-- Settles O55: every field of `State.reset` is written out in its definition. -/
theorem resetState : Obligations.ResetState := by
  refine ⟨fun c => ?chip, rfl, rfl, fun i => ?sys, ?dispatch, rfl, rfl, rfl, rfl, fun a => rfl, fun l hl => ?poison, fun l hl => ?clean,
    fun l => ?link, fun c => ?age, fun c => ?core⟩
  case chip => simp [State.reset]
  case sys => simp [State.reset]
  case dispatch => simp [State.dispatchReady, State.reset]
  case poison => simp [State.reset_poisoned, poisonDefault, hl]
  case clean => simp [State.reset_poisoned, poisonDefault, hl]
  case link => simp [State.reset, LinkDir.reset]
  case age => simp [State.reset]
  case core =>
    rw [State.reset_core]
    exact ⟨rfl, rfl, rfl, rfl, fun r => congrArg Thread.status (State.reset_thr c r)⟩

end Sys2Proof.Machine

namespace Sys2Proof.Machine

/-! # Events of the package (O52) -/

/-! ## Bit fields and sets of lines -/

/-- A field cut out of a number modulo the power of two above it. -/
theorem bits_eq_mod (x lo n : Nat) : bits x lo n = x % 2 ^ (lo + n) / 2 ^ lo := by
  rw [bits, Nat.pow_add, Nat.mod_mul_right_div_self]

/-- A number is what lies above a field, the field, and what lies below it. -/
theorem eq_of_bits (x lo n : Nat) : x = 2 ^ (lo + n) * (x / 2 ^ (lo + n)) + 2 ^ lo * bits x lo n + x % 2 ^ lo := by
  have h1 := Nat.div_add_mod x (2 ^ (lo + n))
  have h2 := Nat.div_add_mod (x % 2 ^ (lo + n)) (2 ^ lo)
  rw [← bits_eq_mod, Nat.mod_mod_of_dvd x (pow_dvd_pow 2 (Nat.le_add_right lo n))] at h2
  omega

theorem setBits_zero_le (x lo n : Nat) : setBits x lo n 0 ≤ x := by
  simp [setBits]

/-- Clearing a field leaves what lies above and below it. -/
theorem setBits_zero_eq (x lo n : Nat) : setBits x lo n 0 = 2 ^ (lo + n) * (x / 2 ^ (lo + n)) + x % 2 ^ lo := by
  have h := eq_of_bits x lo n
  rw [Nat.mul_comm (2 ^ lo)] at h
  simp only [setBits, Nat.zero_mod, Nat.zero_mul]
  omega

theorem bits_setBits_zero_same (x lo n : Nat) : bits (setBits x lo n 0) lo n = 0 := by
  rw [bits_eq_mod, setBits_zero_eq, Nat.mul_add_mod, Nat.mod_eq_of_lt, Nat.div_eq_of_lt]
  · exact Nat.mod_lt _ (Nat.two_pow_pos _)
  · exact (Nat.mod_lt _ (Nat.two_pow_pos _)).trans_le (Nat.pow_le_pow_right (by decide) (Nat.le_add_right ..))

theorem bits_setBits_zero_above {x lo n a k : Nat} (h : lo + n ≤ a) : bits (setBits x lo n 0) a k = bits x a k := by
  obtain ⟨m, rfl⟩ := Nat.exists_eq_add_of_le h
  have hr : x % 2 ^ lo / 2 ^ (lo + n) = 0 :=
    Nat.div_eq_of_lt ((Nat.mod_lt _ (Nat.two_pow_pos _)).trans_le (Nat.pow_le_pow_right (by decide) (Nat.le_add_right ..)))
  simp only [bits, Nat.pow_add _ (lo + n), ← Nat.div_div_eq_div_mul, setBits_zero_eq, Nat.mul_add_div (Nat.two_pow_pos (lo + n)), hr, Nat.add_zero]

theorem bits_setBits_zero_below {x lo n a k : Nat} (h : a + k ≤ lo) : bits (setBits x lo n 0) a k = bits x a k := by
  have hd : 2 ^ (a + k) ∣ 2 ^ (lo + n) * (x / 2 ^ (lo + n)) :=
    (pow_dvd_pow 2 (by omega)).mul_right _
  rw [bits_eq_mod, bits_eq_mod, setBits_zero_eq, Nat.add_mod, Nat.mod_eq_zero_of_dvd hd, Nat.zero_add, Nat.mod_mod,
    Nat.mod_mod_of_dvd x (pow_dvd_pow 2 h)]

@[simp] theorem mem_insertNat {x y : Nat} {l : List Nat} : y ∈ insertNat x l ↔ y = x ∨ y ∈ l := by
  induction l with
  | nil => simp [insertNat]
  | cons z t ih =>
    unfold insertNat
    split
    · simp
    split
    · next h => subst h; simp
    · simp only [List.mem_cons, ih]; tauto

@[simp] theorem mem_eraseNat {x y : Nat} {l : List Nat} : y ∈ eraseNat x l ↔ y ∈ l ∧ y ≠ x := by simp [eraseNat]

theorem linesOf_one (a : Nat) : linesOf a 1 = [a / 64] := by simp [linesOf]

theorem State.poisoned_setPoison_true (s : State) (l : Nat) : (s.setPoison l true).poisoned l = true := by
  cases h : poisonDefault l <;> simp [State.setPoison, State.poisoned, h]

theorem getElem_set_fin_ne {α : Type} {n : Nat} (v : Vector α n) {i j : Fin n} (h : j ≠ i) (x : α) : (v.set i x)[j] = v[j] :=
  Vector.getElem_set_ne i.isLt j.isLt fun e => h (Fin.ext e.symm)

/-! ## What a change of links, chiplets or channels leaves -/

/-- A part of the state that no step of a fold changes. -/
theorem foldl_keeps {α β : Type} (g : State → β) {f : State → α → State} (hf : ∀ s x, g (f s x) = g s) (l : List α) :
    ∀ s : State, g (l.foldl f s) = g s := by
  induction l with
  | nil => exact fun _ => rfl
  | cons x t ih => exact fun s => (ih _).trans (hf s x)

namespace State

variable (s : State)

/-- Fresh keys change links and the numbering of operations alone. -/
theorem keyLinks_keeps {β : Type} (g : State → β) (hg : ∀ (t : State) L n, g { t with links := L, nextOp := n } = g t) (c) :
    g (s.keyLinks c) = g s := by
  refine foldl_keeps g (fun t x => ?_) _ s
  split
  · exact hg t _ (t.nextOp + 1)
  · rfl

theorem shutLinks_keeps {β : Type} (g : State → β) (hg : ∀ (t : State) L, g { t with links := L } = g t) (c) : g (s.shutLinks c) = g s := by
  refine foldl_keeps g (fun t x => ?_) _ s
  split
  · exact hg ..
  · rfl

@[simp] theorem keyLinks_chips (c) : (s.keyLinks c).chips = s.chips := s.keyLinks_keeps State.chips (fun _ _ _ => rfl) c
@[simp] theorem keyLinks_sessions (c) : (s.keyLinks c).sessions = s.sessions := s.keyLinks_keeps State.sessions (fun _ _ _ => rfl) c
@[simp] theorem keyLinks_booted (c) : (s.keyLinks c).booted = s.booted := s.keyLinks_keeps State.booted (fun _ _ _ => rfl) c
@[simp] theorem keyLinks_wiped (c) : (s.keyLinks c).wiped = s.wiped := s.keyLinks_keeps State.wiped (fun _ _ _ => rfl) c
@[simp] theorem shutLinks_chips (c) : (s.shutLinks c).chips = s.chips := by exact s.shutLinks_keeps State.chips (fun _ _ => rfl) c
@[simp] theorem shutLinks_cores (c) : (s.shutLinks c).cores = s.cores := by exact s.shutLinks_keeps State.cores (fun _ _ => rfl) c

@[simp] theorem turnChannels_chips : s.turnChannels.chips = s.chips := by simp only [State.turnChannels]
@[simp] theorem turnChannels_sessions : s.turnChannels.sessions = s.sessions := by simp only [State.turnChannels]
@[simp] theorem turnChannels_booted : s.turnChannels.booted = s.booted := by simp only [State.turnChannels]

@[simp] theorem chooseIod1_chips : s.chooseIod1.chips = s.chips := by unfold State.chooseIod1; split <;> rfl
@[simp] theorem chooseIod1_sessions : s.chooseIod1.sessions = s.sessions := by unfold State.chooseIod1; split <;> rfl
@[simp] theorem chooseIod1_booted : s.chooseIod1.booted = s.booted := by unfold State.chooseIod1; split <;> rfl

theorem links_setLink_same (x : Fin 40) (l) : (s.setLink x l).links[x] = l := by simp [State.setLink]

theorem links_setLink_ne {x m : Fin 40} (h : m ≠ x) (l) : (s.setLink x l).links[m] = s.links[m] := getElem_set_fin_ne _ h _

/-- Every direction of the chiplet among those passed over is shut, and none is opened again. -/
theorem foldl_shut {c : Fin 18} {m : Fin 40} (hc : linkOf c m = true) (l : List (Fin 40)) :
    ∀ s : State, m ∈ l ∨ s.links[m] = LinkDir.reset →
      (l.foldl (fun (s : State) x => if linkOf c x then s.setLink x LinkDir.reset else s) s).links[m] = LinkDir.reset := by
  induction l with
  | nil => simp
  | cons x t ih =>
    intro s hm
    refine ih _ ?_
    by_cases hx : m = x
    · subst hx
      dsimp only
      rw [if_pos hc, links_setLink_same]
      exact .inr rfl
    · refine hm.imp (fun h => (List.mem_cons.1 h).resolve_left hx) fun h => ?_
      dsimp only
      split
      · rw [links_setLink_ne _ hx, h]
      · exact h

theorem links_shutLinks {c : Fin 18} {m : Fin 40} (hc : linkOf c m = true) : (s.shutLinks c).links[m] = LinkDir.reset :=
  foldl_shut hc linkDirs s (.inl (List.mem_finRange m))

/-- Of a package that has come up, the parts that neither keys nor IOD1's port nor the channels' sides concern. -/
theorem boot_keeps {β : Type} (g : State → β) (hk : ∀ t c, g (State.keyLinks t c) = g t) (hi : ∀ t, g (State.chooseIod1 t) = g t)
    (hc : ∀ t, g (State.turnChannels t) = g t) :
    g s.boot = g { s with chips := Vector.ofFn fun c => if c = 8 || s.admits c then .admitted else .quarantined, booted := true } := by
  unfold State.boot
  extract_lets s1 s2
  have h2 : g s2 = g s1 := by
    refine foldl_keeps g (fun t c => ?_) _ s1
    split
    · exact hk ..
    · rfl
  rw [hc]
  split
  · rw [hi, h2]
  · exact h2

theorem boot_chips : s.boot.chips = Vector.ofFn fun c => if c = 8 || s.admits c then .admitted else .quarantined := by
  rw [s.boot_keeps State.chips keyLinks_chips chooseIod1_chips turnChannels_chips]

theorem boot_sessions : s.boot.sessions = s.sessions := by
  rw [s.boot_keeps State.sessions keyLinks_sessions chooseIod1_sessions turnChannels_sessions]

theorem boot_booted : s.boot.booted = true := by
  rw [s.boot_keeps State.booted keyLinks_booted chooseIod1_booted turnChannels_booted]

/-- A chiplet that is no compute die is admitted alone. -/
theorem admitChip_chips_alone {c : Fin 18} (h : 4 ≤ c.val) : (s.admitChip c).chips = s.chips.set c .admitted := by
  rw [State.admitChip, if_neg (by omega), keyLinks_chips]
  rfl

theorem admitChip_chips_die (d : Fin 4) :
    (s.admitChip (Fin.ofNat 18 d.val)).chips = (s.chips.set (Fin.ofNat 18 d.val) .admitted).set (vaultOf d) .admitted := by
  have hd : (Fin.ofNat 18 d.val).val = d.val := Nat.mod_eq_of_lt (by omega)
  have hd4 : Fin.ofNat 4 (Fin.ofNat 18 d.val).val = d := Fin.ext (by rw [hd]; exact Nat.mod_eq_of_lt d.isLt)
  rw [State.admitChip, if_pos (by omega), hd4, keyLinks_chips]
  rfl

@[simp] theorem admitChip_wiped (c) : (s.admitChip c).wiped = s.wiped := by
  unfold State.admitChip
  split <;> exact keyLinks_wiped ..

@[simp] theorem joinDie_wiped (d) : (s.joinDie d).wiped = s.wiped := s.admitChip_wiped _

/-- A compute die takes part again with its vault die. -/
theorem joinDie_admits (d : Fin 4) : (s.joinDie d).chips[Fin.ofNat 18 d.val] = .admitted ∧ (s.joinDie d).chips[vaultOf d] = .admitted := by
  have h : (s.joinDie d).chips = (s.chips.set (Fin.ofNat 18 d.val) .admitted).set (vaultOf d) .admitted := s.admitChip_chips_die d
  rw [h]
  constructor
  · simp [Vector.getElem_set]
  · simp

/-! ## Attestation -/

/-- The session of a chiplet has ended: its result with the number of its transcript, and the report of a failure (R420). -/
def hear (c : Fin 18) (ok : Bool) (why : Nat) : State :=
  { s with nextOp := s.nextOp + 1, sessions := s.sessions.set c (some (ok, why, s.nextOp)),
           reports := if ok then s.reports else s.reports ++ [(c.val, why)] }

theorem attested_hear_same (c ok why) : (s.hear c ok why).attested c = ok := by simp [State.attested, State.hear]

theorem attested_hear_ne {c d : Fin 18} (h : d ≠ c) (ok why) : (s.hear c ok why).attested d = s.attested d := by
  simp only [State.attested, State.hear, getElem_set_fin_ne _ h]

/-- Whether a chiplet may be admitted rests on the sessions alone. -/
theorem admits_of_sessions {s t : State} (h : t.sessions = s.sessions) (c : Fin 18) : t.admits c = s.admits c := by
  simp only [State.admits, State.attested, h]

theorem allHeard_iff (p : Fin 18 → Bool) : s.allHeard p = true ↔ ∀ x : Fin 18, x ≠ 8 → p x = true → s.sessions[x].isSome = true := by
  simp only [State.allHeard, List.all_eq_true, List.mem_finRange, forall_const, Bool.or_eq_true, beq_iff_eq, Bool.not_eq_true']
  refine forall_congr' fun x => ?_
  cases hp : p x <;> simp [or_iff_not_imp_left]

variable {s}

/-- A quarantined chiplet's session after power-up takes effect at once. -/
theorem attest_booted {c : Fin 18} (hp : s.powered = true) (hl : s.lcs ≠ .decommissioned) (hb : s.booted = true)
    (hq : s.chips[c] = .quarantined) (hc : c ≠ 8) (ok why) : s.attest c ok why = (s.hear c ok why).reattest c ok := by
  simp only [State.attest, hp, hb, hq, hc]
  simp [State.hear, State.fresh, hl]

/-- At power-up a chiplet has one session, after those of the groups before its own (R438). -/
theorem attest_early {c : Fin 18} (hb : s.booted = false) (hc : c ≠ 8)
    (h : s.sessions[c].isSome = true ∨ s.allHeard (fun x => decide (bootGroup x < bootGroup c)) = false) (ok why) :
    s.attest c ok why = s := by
  have h' : (s.sessions[c].isSome || !(s.allHeard fun x => decide (bootGroup x < bootGroup c))) = true := by
    rcases h with h | h <;> rw [h]
    · rfl
    · exact Bool.or_true _
  simp only [State.attest, hb, hc, h']
  split <;> simp

/-- The last session of power-up admits the chiplets (R438). -/
theorem attest_last {c : Fin 18} (hp : s.powered = true) (hl : s.lcs ≠ .decommissioned) (hb : s.booted = false) (hc : c ≠ 8)
    (hn : s.sessions[c] = none) (hh : ∀ x : Fin 18, x ≠ 8 → x ≠ c → s.sessions[x].isSome = true) (ok why) :
    s.attest c ok why = (s.hear c ok why).boot := by
  have hbefore : s.allHeard (fun x => decide (bootGroup x < bootGroup c)) = true := by
    refine (allHeard_iff s _).2 fun x h8 hx => hh x h8 fun e => ?_
    subst e
    simp at hx
  have hall : (s.hear c ok why).allHeard (fun _ => true) = true := by
    refine (allHeard_iff _ _).2 fun x h8 _ => ?_
    by_cases hx : x = c
    · subst hx; simp [State.hear]
    · simpa only [State.hear, getElem_set_fin_ne _ hx] using hh x h8 hx
  have hheard : (({ s.fresh.2 with
      sessions := s.fresh.2.sessions.set c (some (ok, why, s.fresh.1)),
      reports := if ok then s.fresh.2.reports else s.fresh.2.reports ++ [(c.val, why)] } : State)) = s.hear c ok why := rfl
  simp only [State.attest, hheard]
  simp [hp, hl, hb, hc, hn, hbefore, hall]

end State

/-! ## Reset, power and attestation -/

/-- Bytes of T2 that no lost line covers are left (log 96). -/
theorem State.get_loseLines {a : Nat} (l : List Nat) : ∀ s : State, (∀ x ∈ l, a / 64 ≠ x) → (s.loseLines l).mem.get a = s.mem.get a := by
  induction l with
  | nil => exact fun _ _ => rfl
  | cons x t ih =>
    intro s h
    obtain ⟨hx, ht⟩ := List.forall_mem_cons.1 h
    refine (ih _ ht).trans ?_
    dsimp only
    split
    · refine Mem.get_write_out _ _ _ _ ?_
      simp
      omega
    · rfl

theorem State.rebootedAs_mem (s : State) (l) : (s.rebootedAs l).mem = (s.loseLines s.l2own).mem.filter fun e => decide (t2Base ≤ e.1) := rfl

theorem State.get_rebooted_below {s : State} {a : Nat} (h : a < t2Base) : s.rebooted.mem.get a = 0 := by
  rw [State.rebooted, State.rebootedAs_mem]
  refine Mem.get_absent _ _ fun e he ha => ?_
  have := (List.mem_filter.1 he).2
  simp only [decide_eq_true_eq] at this
  omega

theorem State.get_rebooted_above {s : State} {a : Nat} (h : t2Base ≤ a) (hl : ∀ l ∈ s.l2own, a / 64 ≠ l) : s.rebooted.mem.get a = s.mem.get a := by
  rw [State.rebooted, State.rebootedAs_mem, Mem.get_filter]
  · exact State.get_loseLines _ _ hl
  · rintro e rfl
    simp [h]

theorem exec_chipletAttestation (s : State) (c ok why) : exec (.chipletAttestation c ok why) s = .next (s.attest c ok why) := rfl

/-- A session that fails after power-up. -/
theorem attestation_failed {s : State} {c : Fin 18} {why : Nat} (hp : s.powered = true) (hl : s.lcs ≠ .decommissioned) (hb : s.booted = true)
    (hq : s.chips[c] = .quarantined) (hc : c ≠ 8) :
    ∃ s' n, exec (.chipletAttestation c false why) s = .next s' ∧ s'.chips = s.chips ∧ s'.sessions[c] = some (false, why, n) ∧
      s'.reports = s.reports ++ [(c.val, why)] := by
  refine ⟨_, s.nextOp, exec_chipletAttestation .., ?_⟩
  rw [State.attest_booted hp hl hb hq hc]
  exact ⟨rfl, by simp [State.reattest, State.hear], rfl⟩

/-- A base die or IOD1 is admitted by its own session. -/
theorem attestation_admits_alone {s : State} {c : Fin 18} {why : Nat} (hp : s.powered = true) (hl : s.lcs ≠ .decommissioned)
    (hb : s.booted = true) (hq : s.chips[c] = .quarantined) (hc : 8 < c.val) :
    ∃ s', exec (.chipletAttestation c true why) s = .next s' ∧ s'.chips[c] = .admitted := by
  have h : ((s.hear c true why).reattest c true).chips = s.chips.set c .admitted := by
    rw [State.reattest, if_neg (by decide), if_pos hc]
    refine Eq.trans ?_ (State.admitChip_chips_alone { s.hear c true why with wiped := (s.hear c true why).wiped.set c false } (by omega))
    split
    · exact State.chooseIod1_chips _
    · rfl
  refine ⟨_, exec_chipletAttestation .., ?_⟩
  rw [State.attest_booted hp hl hb hq (by rintro rfl; exact absurd hc (by decide)), h]
  simp

theorem vaultOf_ne (c : Fin 18) : Fin.ofNat 18 (4 + c.val) ≠ c := by
  intro e
  have := congrArg Fin.val e
  simp at this
  omega

/-- The session of a compute die rests on that of its vault die. -/
theorem admits_hear {s : State} {c : Fin 18} (h : c.val < 4) (why) :
    (s.hear c true why).admits c = s.attested (Fin.ofNat 18 (4 + c.val)) := by
  have h4 : c.val % 4 = c.val := Nat.mod_eq_of_lt h
  have hc : Fin.ofNat 18 c.val = c := Fin.ext (Nat.mod_eq_of_lt c.isLt)
  rw [State.admits, if_pos (by omega), h4, hc, State.attested_hear_same, State.attested_hear_ne _ (vaultOf_ne c)]
  rfl

theorem attestation_waits_for_vault {s : State} {c : Fin 18} {why : Nat} (hp : s.powered = true) (hl : s.lcs ≠ .decommissioned)
    (hb : s.booted = true) (hq : s.chips[c] = .quarantined) (hc : c.val < 4) (hv : s.attested (Fin.ofNat 18 (4 + c.val)) = false) :
    ∃ s', exec (.chipletAttestation c true why) s = .next s' ∧ s'.chips = s.chips := by
  refine ⟨_, exec_chipletAttestation .., ?_⟩
  rw [State.attest_booted hp hl hb hq (by rintro rfl; exact absurd hc (by decide))]
  rw [State.reattest, if_neg (by decide), if_neg (by omega), admits_hear hc, hv, if_neg (by simp)]
  rfl

theorem attestation_admits_with_vault {s : State} {c : Fin 18} {why : Nat} (hp : s.powered = true) (hl : s.lcs ≠ .decommissioned)
    (hb : s.booted = true) (hq : s.chips[c] = .quarantined) (hc : c.val < 4) (hv : s.attested (Fin.ofNat 18 (4 + c.val)) = true)
    (hw : s.wiped[c] = false) :
    ∃ s', exec (.chipletAttestation c true why) s = .next s' ∧ s'.chips[c] = .admitted ∧ s'.chips[Fin.ofNat 18 (4 + c.val)] = .admitted := by
  have h4 : (Fin.ofNat 4 c.val).val = c.val := Nat.mod_eq_of_lt hc
  have h18 : Fin.ofNat 18 (Fin.ofNat 4 c.val).val = c := Fin.ext (by rw [h4]; exact Nat.mod_eq_of_lt c.isLt)
  have hvault : vaultOf (Fin.ofNat 4 c.val) = Fin.ofNat 18 (4 + c.val) := by rw [vaultOf, h4]
  have hw' : (s.hear c true why).wiped[c] = false := hw
  refine ⟨_, exec_chipletAttestation .., ?_⟩
  rw [State.attest_booted hp hl hb hq (by rintro rfl; exact absurd hc (by decide))]
  have h := State.joinDie_admits (s.hear c true why) (Fin.ofNat 4 c.val)
  simp only [h18, hvault] at h
  rw [State.reattest, if_neg (by decide), if_neg (by omega)]
  simp only [h18, admits_hear hc, hv, hw', Bool.not_false, Bool.and_self, if_true]
  exact h

theorem attestation_boots {s : State} {c : Fin 18} {ok : Bool} {why : Nat} (hp : s.powered = true) (hl : s.lcs ≠ .decommissioned)
    (hb : s.booted = false) (hc : c ≠ 8) (hn : s.sessions[c] = none) (hh : ∀ x : Fin 18, x ≠ 8 → x ≠ c → s.sessions[x].isSome = true) :
    ∃ s', exec (.chipletAttestation c ok why) s = .next s' ∧ s'.booted = true ∧ s'.chips[(8 : Fin 18)] = .admitted ∧
      ∀ x : Fin 18, x ≠ 8 → (s'.chips[x] = .admitted ↔ s'.admits x = true) := by
  refine ⟨_, exec_chipletAttestation .., ?_⟩
  rw [State.attest_last hp hl hb hc hn hh]
  rw [State.boot_chips]
  refine ⟨State.boot_booted _, by simp, fun x hx => ?_⟩
  rw [State.admits_of_sessions (State.boot_sessions _) x]
  cases h : (s.hear c ok why).admits x <;> simp [hx, h]

/-! ## Link directions -/

section
variable {s : State} {l : Fin 40} {x : LinkDir} (hx : x = s.links[l])
include hx

theorem flitTagFailure_counts (hk : x.keyed = true) (hf : x.fails < 2) :
    exec (.flitTagFailure l) s = .next (s.setLink l { x with fails := x.fails + 1 }) := by
  change execFlitTagFailure l s = _
  simp only [execFlitTagFailure, ← hx, hk, hf, Bool.not_true, Bool.false_eq_true, if_false, if_true]

theorem keyRolloverStart_starts (hk : x.keyed = true) (hr : x.roll = .none) :
    exec (.keyRolloverStart l) s = .next (s.setLink l { x with roll := .started }) := by
  change execKeyRolloverStart l s = _
  simp only [execKeyRolloverStart, ← hx, hk, hr, beq_self_eq_true, Bool.and_self, if_true]

/-- The sender switches to a fresh key (log 97). -/
theorem keyRolloverAck_switches (hr : x.roll = .started) :
    ∃ s', exec (.keyRolloverAck l) s = .next s' ∧ s'.links[l] = { x with roll := .switched, key := s.nextOp, phase := !x.phase, stop := false } ∧
      ∀ m : Fin 40, m ≠ l → s'.links[m] = s.links[m] := by
  refine ⟨s.fresh.2.setLink l { x with roll := .switched, key := s.nextOp, phase := !x.phase, stop := false }, ?_,
    State.links_setLink_same .., fun m hm => State.links_setLink_ne _ hm _⟩
  change execKeyRolloverAck l s = _
  simp only [execKeyRolloverAck, ← hx, hr, if_true, State.fresh]

theorem drainMarker_ends_rollover (hr : x.roll = .switched) : exec (.drainMarker l) s = .next (s.setLink l { x with roll := .none }) := by
  change execDrainMarker l s = _
  simp only [execDrainMarker, ← hx, hr, if_true]

theorem rolloverSendStop_stops (hk : x.keyed = true) (hr : x.roll ≠ .switched) :
    exec (.rolloverSendStop l) s = .next (s.setLink l { x with stop := true }) := by
  change execRolloverSendStop l s = _
  simp only [execRolloverSendStop, ← hx, hk, Bool.true_and, bne_iff_ne, ne_eq, hr, not_false_iff, if_true]

theorem rolloverStopTimeout_of_running (h : x.stop = false) : exec (.rolloverStopTimeout l) s = .next s := by
  change execRolloverStopTimeout l s = _
  simp only [execRolloverStopTimeout, ← hx, h, Bool.false_eq_true, if_false]

end

theorem State.quarantine_chips_same (s : State) (c : Fin 18) : (s.quarantine c).chips[c] = .quarantined := by
  simp [State.quarantine, State.setChip]

/-- A reset of the base die at `c` quarantines it with its links. -/
theorem State.resetChip_base (s : State) {c : Fin 18} (hc : 10 ≤ c.val) :
    (s.resetChip c).chips[c] = .quarantined ∧ (∀ m : Fin 40, linkOf c m = true → (s.resetChip c).links[m] = LinkDir.reset) ∧
      (s.resetChip c).mem = s.mem ∧ (s.resetChip c).cores = s.cores := by
  have hr : s.resetChip c = s.resetBd (Fin.ofNat 8 (c.val - 10)) := by
    rw [State.resetChip, if_neg (by omega), if_neg (by rintro rfl; simp at hc), if_neg (by rintro rfl; simp at hc)]
  have hb : Fin.ofNat 18 (10 + (Fin.ofNat 8 (c.val - 10)).val) = c := by
    apply Fin.ext
    simp only [Fin.ofNat]
    omega
  rw [hr]
  refine ⟨?_, ?_, State.resetBd_mem .., ?_⟩
  · simp only [State.resetBd, hb]
    exact State.quarantine_chips_same _ _
  · simp only [State.resetBd, hb]
    exact fun m hm => State.links_shutLinks _ hm
  · simp only [State.resetBd, State.quarantine, State.shutLinks_cores]
    rfl

/-- A stopped base die is quarantined with its links; memory and cores stay. -/
theorem rolloverStopTimeout_quarantines {s : State} {l : Fin 40} (h : s.links[l].stop = true) (hc : 10 ≤ (linkEnds l).1.val) :
    ∃ s', exec (.rolloverStopTimeout l) s = .next s' ∧ s'.chips[(linkEnds l).1] = .quarantined ∧
      (∀ m : Fin 40, linkOf (linkEnds l).1 m = true → s'.links[m] = LinkDir.reset) ∧ s'.mem = s.mem ∧ s'.cores = s.cores := by
  refine ⟨s.resetChip (linkEnds l).1, ?_, s.resetChip_base hc⟩
  change execRolloverStopTimeout l s = _
  simp only [execRolloverStopTimeout, h, if_true]

/-! ## Readmission and the outside -/

theorem dieReadmission_of_unwiped {s : State} {d : Fin 4} (h : s.wiped[Fin.ofNat 18 d.val] = false) : exec (.dieReadmission d) s = .next s := by
  change Host.Outcome.next (s.readmit d) = _
  simp only [State.readmit, h, Bool.false_and, Bool.false_eq_true, if_false]

theorem State.admits_die {s : State} {d : Fin 4} (hc : s.attested (Fin.ofNat 18 d.val) = true) (hv : s.attested (Fin.ofNat 18 (4 + d.val)) = true) :
    s.admits (Fin.ofNat 18 d.val) = true := by
  have hd : (Fin.ofNat 18 d.val).val = d.val := Nat.mod_eq_of_lt (by omega)
  rw [State.admits, if_pos (by omega), hd, Nat.mod_eq_of_lt d.isLt, hc, hv]
  rfl

/-- A wiped die attested with its vault die takes part again, and memory stays (log 98). -/
theorem dieReadmission_admits {s : State} {d : Fin 4} (hw : s.wiped[Fin.ofNat 18 d.val] = true) (hc : s.attested (Fin.ofNat 18 d.val) = true)
    (hv : s.attested (Fin.ofNat 18 (4 + d.val)) = true) :
    ∃ s', exec (.dieReadmission d) s = .next s' ∧ s'.cdUp d = true ∧ s'.wiped[Fin.ofNat 18 d.val] = false ∧ s'.mem = s.mem := by
  refine ⟨s.readmit d, rfl, ?_, ?_, s.readmit_mem d⟩
  · simp only [State.readmit, hw, State.admits_die hc hv, Bool.and_self, if_true]
    obtain ⟨h1, h2⟩ := State.joinDie_admits { s with wiped := (s.wiped.set (Fin.ofNat 18 d.val) false).set (vaultOf d) false } d
    simp only [State.cdUp, State.chipUp, h1]
    exact beq_iff_eq.2 h2
  · simp only [State.readmit, hw, State.admits_die hc hv, Bool.and_self, if_true, State.joinDie_wiped]
    simp [Vector.getElem_set]

theorem routeResend_ends_drain {s : State} {a : Fin 64} {b : Fin 4} {n : Fin 256} (hn : n = Fin.ofNat 256 (4 * a.val + b.val)) :
    ∃ s', exec (.routeResend a b) s = .next s' ∧ s'.chan[n] = { s.chan[n] with drain := false } ∧
      ∀ m : Fin 256, m ≠ n → s'.chan[m] = s.chan[m] := by
  subst hn
  exact ⟨_, rfl, by simp, fun m hm => getElem_set_fin_ne _ hm _⟩

theorem portLinkChange_sets_port (s : State) (p : Fin 8) (u : Bool) :
    ∃ s', exec (.portLinkChange p none u) s = .next s' ∧
      s'.ports[p] = (u && s.powered && s.lcs != .decommissioned && (decide (p.val < 4) || s.chipUp 9)) ∧
      ∀ q : Fin 8, q ≠ p → s'.ports[q] = s.ports[q] :=
  ⟨_, rfl, Vector.getElem_set_self p.isLt, fun _ hq => getElem_set_fin_ne _ hq _⟩

/-! ## Ageing -/

theorem toNat_ageRecord (i : Nat) (x : BitVec 128) :
    (ageRecord i x).toNat = if i < 10 then setBits (setBits x.toNat 64 20 0) 16 16 0 else setBits x.toNat 64 20 0 := by
  have h1 := setBits_zero_le x.toNat 64 20
  have h2 := setBits_zero_le (setBits x.toNat 64 20 0) 16 16
  rw [ageRecord, BitVec.toNat_ofNat, Nat.mod_eq_of_lt]
  split <;> omega

/-- Of a record the controller keeps EOLH and the low halfword, and clears the reserved bits (R434). -/
theorem bits_ageRecord (i : Nat) (x : BitVec 128) :
    bits (ageRecord i x).toNat 96 32 = bits x.toNat 96 32 ∧ bits (ageRecord i x).toNat 64 20 = 0 ∧
      bits (ageRecord i x).toNat 0 16 = bits x.toNat 0 16 := by
  rw [toNat_ageRecord]
  split
  · simp only [bits_setBits_zero_above, bits_setBits_zero_below, bits_setBits_zero_same, Nat.reduceLeDiff, Nat.reduceAdd, and_self]
  · simp only [bits_setBits_zero_above, bits_setBits_zero_below, bits_setBits_zero_same, Nat.reduceLeDiff, Nat.reduceAdd, and_self]

theorem fallsShort_iff {x y : BitVec 128} : fallsShort x y = true ↔ 720 ≤ bits x.toNat 96 32 ∧ bits y.toNat 96 32 < 720 := by
  simp [fallsShort]

/-- The eighteen records as the controller keeps them. -/
def ageRecords (l : List (BitVec 128)) : Vector (BitVec 128) 18 := Vector.ofFn fun i : Fin 18 => ageRecord i.val (l.getD i.val 0)

theorem getElem_ageRecords (l : List (BitVec 128)) (i : Fin 18) : (ageRecords l)[i] = ageRecord i.val (l.getD i.val 0) :=
  Vector.getElem_ofFn i.isLt

/-- An EOLH falls below 720 hours with the new records. -/
def State.agesShort (s : State) (l : List (BitVec 128)) : Bool := (List.finRange 18).any fun i => fallsShort s.age[i] (ageRecords l)[i]

theorem State.agesShort_iff {s : State} {l : List (BitVec 128)} :
    s.agesShort l = true ↔ ∃ i : Fin 18, 720 ≤ bits s.age[i].toNat 96 32 ∧ bits (l.getD i.val 0).toNat 96 32 < 720 := by
  simp only [State.agesShort, List.any_eq_true, List.mem_finRange, true_and, fallsShort_iff, getElem_ageRecords, bits_ageRecord]

theorem exec_ageUpdate {s : State} (hp : s.powered = true) (l : List (BitVec 128)) :
    exec (.ageUpdate l) s = .next { s with age := ageRecords l, msix := if s.agesShort l then s.msix.set 1 true else s.msix } := by
  change execAgeUpdate l s = _
  simp only [execAgeUpdate, hp, Bool.not_true, Bool.false_eq_true, if_false]
  rfl

/-- The records the controller keeps, and MSI-X vector 1 where an EOLH falls below 720 hours (R434). -/
theorem ageUpdate_keeps_records {s : State} (hp : s.powered = true) (l : List (BitVec 128)) :
    ∃ s', exec (.ageUpdate l) s = .next s' ∧
      (∀ i : Fin 18, bits s'.age[i].toNat 96 32 = bits (l.getD i.val 0).toNat 96 32 ∧ bits s'.age[i].toNat 64 20 = 0 ∧
        bits s'.age[i].toNat 0 16 = bits (l.getD i.val 0).toNat 0 16) ∧
      ((∃ i : Fin 18, 720 ≤ bits s.age[i].toNat 96 32 ∧ bits (l.getD i.val 0).toNat 96 32 < 720) → s'.msix[1] = true) ∧
      ((∀ i : Fin 18, bits s.age[i].toNat 96 32 < 720 ∨ 720 ≤ bits (l.getD i.val 0).toNat 96 32) → s'.msix = s.msix) ∧ s'.mem = s.mem := by
  refine ⟨_, exec_ageUpdate hp l, fun i => ?_, fun h => ?_, fun h => ?_, rfl⟩
  · dsimp only
    rw [getElem_ageRecords]
    exact bits_ageRecord ..
  · simp only [State.agesShort_iff.2 h, if_true]
    exact Vector.getElem_set_self _
  · have hn : s.agesShort l ≠ true := fun e => by
      obtain ⟨i, h1, h2⟩ := State.agesShort_iff.1 e
      have := h i
      omega
    exact if_neg hn

/-! ## Soft errors -/

theorem softError_corrected (s : State) (a : Nat) (x : ErrArray) : exec (.softError a x true) s = .next s := by
  change execSoftError a x true s = _
  simp only [execSoftError, Bool.true_or, if_true]

section
variable {s : State} (hp : s.powered = true)
include hp

theorem softError_mem {a : Nat} (ha : tierOf a ≠ 3) :
    ∃ s', exec (.softError a .mem false) s = .next s' ∧ s'.poisoned (a / 64) = true ∧ s'.mem = s.mem := by
  refine ⟨s.setPoison (a / 64) true, ?_, State.poisoned_setPoison_true .., rfl⟩
  change execSoftError a .mem false s = _
  simp [execSoftError, hp, ha]

theorem softError_pool {a : Nat} (c : Fin 64) (ha : a < 0x800000) :
    ∃ s', exec (.softError a (.pool c) false) s = .next s' ∧ (s'.core c).anyPoison a 1 = true ∧ (s'.core c).pool = (s.core c).pool := by
  refine ⟨s.upCore c fun k => { k with ppoison := insertNat (a / 64) k.ppoison }, ?_, ?_⟩
  · change execSoftError a (.pool c) false s = _
    simp only [execSoftError, hp, Bool.not_true, Bool.or_self, Bool.false_eq_true, if_false, ha, if_true]
  · rw [State.core_upCore]
    simp [Core.anyPoison, linesOf_one]

theorem softError_column {a : Nat} (c : Fin 64) (ha : a < 2048) :
    ∃ s', exec (.softError a (.column c) false) s = .next s' ∧ a ∈ (s'.core c).cpoison ∧ (s'.core c).col = (s.core c).col := by
  refine ⟨s.upCore c fun k => { k with cpoison := insertNat a k.cpoison }, ?_, ?_⟩
  · change execSoftError a (.column c) false s = _
    simp only [execSoftError, hp, Bool.not_true, Bool.or_self, Bool.false_eq_true, if_false, ha, if_true]
  · rw [State.core_upCore]
    exact ⟨mem_insertNat.2 (.inl rfl), rfl⟩

theorem softError_tile (c : Fin 64) (n : Fin 16) :
    ∃ s', exec (.softError n.val (.tile c) false) s = .next s' ∧ ((s'.core c).mx.tiles[n]).poison = true ∧
      ∀ m : Fin 16, m ≠ n → (s'.core c).mx.tiles[m] = (s.core c).mx.tiles[m] := by
  have hn : Fin.ofNat 16 n.val = n := Fin.ext (Nat.mod_eq_of_lt n.isLt)
  refine ⟨s.upCore c fun k => k.upMx fun m => { m with tiles := m.tiles.set n { m.tiles[n] with poison := true } }, ?_, ?_⟩
  · change execSoftError n.val (.tile c) false s = _
    simp only [execSoftError, hp, Bool.not_true, Bool.or_self, Bool.false_eq_true, if_false, hn]
  · rw [State.core_upCore]
    exact ⟨by simp [Core.upMx], fun m hm => getElem_set_fin_ne _ hm _⟩

theorem softError_plane (c : Fin 64) (n : Fin 2) :
    ∃ s', exec (.softError n.val (.plane c) false) s = .next s' ∧ ((s'.core c).mx.planes[n]).poison = true ∧
      ∀ m : Fin 2, m ≠ n → (s'.core c).mx.planes[m] = (s.core c).mx.planes[m] := by
  have hn : Fin.ofNat 2 n.val = n := Fin.ext (Nat.mod_eq_of_lt n.isLt)
  refine ⟨s.upCore c fun k => k.upMx fun m => { m with planes := m.planes.set n { m.planes[n] with poison := true } }, ?_, ?_⟩
  · change execSoftError n.val (.plane c) false s = _
    simp only [execSoftError, hp, Bool.not_true, Bool.or_self, Bool.false_eq_true, if_false, hn]
  · rw [State.core_upCore]
    exact ⟨by simp [Core.upMx], fun m hm => getElem_set_fin_ne _ hm _⟩

theorem softError_l1 (a : Nat) (c : Fin 64) :
    ∃ s', exec (.softError a (.l1 c) false) s = .next s' ∧ s'.mem = s.mem ∧
      (s'.core c).l1 = (s.core c).l1.map fun y => if y.line = a / 64 then { y with bad := true } else y := by
  refine ⟨s.upCore c fun k => { k with l1 := k.l1.map fun y => if y.line = a / 64 then { y with bad := true } else y }, ?_, rfl, ?_⟩
  · change execSoftError a (.l1 c) false s = _
    simp only [execSoftError, hp, Bool.not_true, Bool.or_self, Bool.false_eq_true, if_false]
  · rw [State.core_upCore]

theorem softError_slab (a : Nat) (d : Fin 4) :
    ∃ s', exec (.softError a (.slab d) false) s = .next s' ∧ (∀ y ∈ (s'.die d).slabs, y.n = a → y.poison = true) ∧
      (s'.die d).fw = (s.die d).fw ∧ s'.mem = s.mem := by
  refine ⟨s.setSlabPoison d [a] true, ?_, ?_, ?_, rfl⟩
  · change execSoftError a (.slab d) false s = _
    simp only [execSoftError, hp, Bool.not_true, Bool.or_self, Bool.false_eq_true, if_false]
  · rw [State.setSlabPoison, State.die_setDie]
    rintro y hy hn
    obtain ⟨z, -, rfl⟩ := List.mem_map.1 hy
    split at hn
    · next hz => rw [if_pos hz]
    · next hz => exact absurd (by simp [hn]) hz
  · rw [State.setSlabPoison, State.die_setDie]

end

/-! ## Snoops and host writes -/

namespace State

variable (s : State) (pa : Nat) (bs : List Byte) (ms : Bool)

/-- A write changes memory, poison, the L2 copies, the watches and the base dies' rows alone. -/
theorem physWrite_keeps {β : Type} (g : State → β)
    (hg : ∀ (t : State) m p o w b, g { t with mem := m, pflip := p, l2own := o, watches := w, bds := b } = g t) :
    g (s.physWrite pa bs ms) = g s := by
  have hl (t : State) : g (t.landRows pa bs.length) = g t := by
    unfold State.landRows State.landWrite
    split
    · exact hg t t.mem t.pflip t.l2own t.watches _
    · rfl
  have hm (t : State) : g (t.markMem pa bs.length false) = g t :=
    foldl_keeps g (fun t l => hg t t.mem _ t.l2own t.watches t.bds) _ t
  unfold State.physWrite
  rw [hl]
  exact ((hg _ _ _ _ _ _).trans (hm _)).trans (hg s _ s.pflip s.l2own s.watches s.bds)

@[simp] theorem physWrite_mem : (s.physWrite pa bs ms).mem = s.mem.write pa bs := by simp [State.physWrite]

@[simp] theorem physWrite_cores : (s.physWrite pa bs ms).cores = s.cores := s.physWrite_keeps pa bs ms State.cores fun _ _ _ _ _ _ => rfl

@[simp] theorem physWrite_snoops : (s.physWrite pa bs ms).snoops = s.snoops := s.physWrite_keeps pa bs ms State.snoops fun _ _ _ _ _ _ => rfl

/-- With no snoop pending, the one host write held is performed. -/
theorem hostPerform_one (h : s.snoops = []) :
    s.hostPerform [] [(pa, bs)] = { s.physWrite pa bs true with hostw := [] } := by
  simp [State.hostPerform, h]

end State

theorem cxlSnoop_applied {s : State} {a : Nat} (h : s.snoops.contains (a / 64) = true) (hw : s.hostw = []) :
    exec (.cxlSnoop a) s = .next { s with snoops := s.snoops.erase (a / 64), l2own := eraseNat (a / 64) s.l2own } := by
  change execCxlSnoop a s = _
  simp only [execCxlSnoop, h, if_true, hw, State.hostPerform, List.reverse_nil]

theorem exec_cxlSnoop_one {s : State} {a : Nat} {l : List Byte} (h : s.snoops = [a / 64]) (hw : s.hostw = [(a, l)]) :
    exec (.cxlSnoop a) s =
      .next { ({ s with snoops := [], l2own := eraseNat (a / 64) s.l2own } : State).physWrite a l true with hostw := [] } := by
  rw [← State.hostPerform_one _ a l rfl]
  change execCxlSnoop a s = _
  simp only [execCxlSnoop, h, hw, List.contains_cons, beq_self_eq_true, Bool.true_or, if_true, List.erase_cons_head]

/-- The host write that waited for the snoop is performed with it. -/
theorem cxlSnoop_frees_write {s : State} {a : Nat} {l : List Byte} (h : s.snoops = [a / 64]) (hw : s.hostw = [(a, l)]) :
    ∃ s', exec (.cxlSnoop a) s = .next s' ∧ s'.snoops = [] ∧ s'.hostw = [] ∧ s'.phys a l.length = l := by
  refine ⟨_, exec_cxlSnoop_one h hw, State.physWrite_snoops .., rfl, ?_⟩
  simp only [State.phys, State.physWrite_mem]
  exact Mem.read_write_same ..

theorem cxlSnoop_arrives {s : State} {a : Nat} (h : s.snoops.contains (a / 64) = false) :
    exec (.cxlSnoop a) s = .next { s with snoops := s.snoops ++ [a / 64] } := by
  change execCxlSnoop a s = _
  simp only [execCxlSnoop, h, Bool.false_eq_true, if_false]

section
variable {s : State} {a : Nat} {l : List Byte} (hl : l ≠ []) (ht : tierOf a ≠ 3) (he : tierOf (a + l.length - 1) = tierOf a)
include hl ht he

/-- A host write within one tier is refused, held or performed. -/
theorem exec_hostWrite : exec (.hostWrite a l) s = .next (if (linesOf a l.length).all (fun x => s.hostReaches (64 * x)) = false then s
    else if s.hostWaits a l.length then { s with hostw := s.hostw ++ [(a, l)] } else s.physWrite a l true) := by
  change execHostWrite a l s = _
  simp only [execHostWrite, List.isEmpty_iff, hl, ht, he, ne_eq, not_true, or_self, if_false, Bool.not_eq_true']

theorem hostWrite_reaches_nothing (h : ∃ x ∈ linesOf a l.length, s.hostReaches (64 * x) = false) : exec (.hostWrite a l) s = .next s := by
  obtain ⟨x, hx, hr⟩ := h
  rw [exec_hostWrite hl ht he, if_pos]
  exact List.all_eq_false.2 ⟨x, hx, by simp [hr]⟩

variable (h : ∀ x ∈ linesOf a l.length, s.hostReaches (64 * x) = true)
include h

theorem hostWrite_held (hw : s.hostWaits a l.length = true) : exec (.hostWrite a l) s = .next { s with hostw := s.hostw ++ [(a, l)] } := by
  rw [exec_hostWrite hl ht he, List.all_eq_true.2 h, hw, if_neg (by decide), if_pos rfl]

theorem hostWrite_performed (hw : s.hostWaits a l.length = false) :
    ∃ s', exec (.hostWrite a l) s = .next s' ∧ s'.phys a l.length = l ∧ s'.cores = s.cores ∧
      ∀ x, x < a ∨ a + l.length ≤ x → s'.mem.get x = s.mem.get x := by
  refine ⟨s.physWrite a l true, ?_, ?_, s.physWrite_cores .., fun x hx => ?_⟩
  · rw [exec_hostWrite hl ht he, List.all_eq_true.2 h, hw, if_neg (by decide), if_neg (by decide)]
  · simp only [State.phys, State.physWrite_mem]
    exact Mem.read_write_same ..
  · rw [State.physWrite_mem]
    exact Mem.get_write_out _ _ _ _ hx

end

/-! ## The whole package -/

/-- What a package reset leaves: memory below T2 is zero, T2 stays where no lost line covered it (log 96). -/
theorem packageReset_reboots (s : State) :
    ∃ s', exec .packageReset s = .next s' ∧ s'.cores = State.reset.cores ∧ s'.dies = State.reset.dies ∧ s'.sys = State.reset.sys ∧
      s'.chips = State.reset.chips ∧ s'.tasks = [] ∧ s'.featack = 1 ∧ s'.featlock = false ∧ s'.lcs = s.lcs ∧ s'.hostq = [] ∧
      (∀ a, a < 0x80000000000 → s'.mem.get a = 0) ∧
      (∀ a, 0x80000000000 ≤ a → (∀ l ∈ s.l2own, a / 64 ≠ l) → s'.mem.get a = s.mem.get a) :=
  ⟨s.rebooted, rfl, rfl, rfl, rfl, rfl, rfl, rfl, rfl, rfl, rfl, fun _ => State.get_rebooted_below, fun _ => State.get_rebooted_above⟩

theorem powerOff_clears (s : State) :
    ∃ s', exec .powerOff s = .next s' ∧ s'.powered = false ∧ s'.hostup = false ∧ s'.cores = State.reset.cores ∧ s'.sys = State.reset.sys ∧
      s'.lcs = s.lcs ∧ (∀ c : Fin 18, s'.chips[c] = .off) ∧ ∀ a, a < 0x80000000000 → s'.mem.get a = 0 :=
  ⟨_, rfl, rfl, rfl, rfl, rfl, rfl, fun _ => by simp, fun _ => State.get_rebooted_below⟩

/-- Settles O52: kind of event by kind of event, each by its lemma above. -/
theorem packageEvents : Obligations.PackageEvents := by
  refine ⟨packageReset_reboots, powerOff_clears, ?attested, ?bringUp, ?links, ?readmission, ?resend, ?hostLink, portLinkChange_sets_port,
    ?assoc, ?ageing, ?softErrors, ?snoops, ?hostWrites⟩
  case attested =>
    intro s c ok why hp hl hb hq h8
    refine ⟨?_, ?_, ?_, ?_⟩
    · rintro rfl
      exact attestation_failed hp hl hb hq h8
    · rintro rfl hc
      exact attestation_admits_alone hp hl hb hq hc
    · rintro rfl hc hv
      exact attestation_waits_for_vault hp hl hb hq hc hv
    · rintro rfl hc hv hw
      exact attestation_admits_with_vault hp hl hb hq hc hv hw
  case bringUp =>
    intro s c ok why hp hl hb h8
    refine ⟨fun h => ?_, attestation_boots hp hl hb h8⟩
    rw [exec_chipletAttestation, State.attest_early hb h8 h]
  case links =>
    intro s l x hx
    refine ⟨flitTagFailure_counts hx, keyRolloverStart_starts hx, keyRolloverAck_switches hx, drainMarker_ends_rollover hx,
      rolloverSendStop_stops hx, rolloverStopTimeout_of_running hx, fun h hc => ?_⟩
    rw [hx] at h
    exact rolloverStopTimeout_quarantines h hc
  case readmission => exact fun s d => ⟨dieReadmission_of_unwiped, dieReadmission_admits⟩
  case resend => exact fun s a b n => routeResend_ends_drain
  case hostLink => exact fun s => ⟨rfl, rfl⟩
  case assoc => exact fun s p a u => ⟨_, rfl, rfl, rfl, rfl⟩
  case ageing => exact fun s l hp => ageUpdate_keeps_records hp l
  case softErrors =>
    intro s a x
    refine ⟨softError_corrected s a x, fun hp => ⟨?_, ?_, ?_, ?_, ?_, ?_, ?_⟩⟩
    · rintro rfl ha
      exact softError_mem hp ha
    · rintro c rfl ha
      exact softError_pool hp c ha
    · rintro c rfl ha
      exact softError_column hp c ha
    · rintro c n rfl rfl
      exact softError_tile hp c n
    · rintro c n rfl rfl
      exact softError_plane hp c n
    · rintro c rfl
      exact softError_l1 hp a c
    · rintro d rfl
      exact softError_slab hp a d
  case snoops => exact fun s a l => ⟨cxlSnoop_applied, fun h hw _ _ => cxlSnoop_frees_write h hw, cxlSnoop_arrives⟩
  case hostWrites =>
    exact fun s a l hl ht he => ⟨hostWrite_reaches_nothing hl ht he, fun h => ⟨hostWrite_held hl ht he h, hostWrite_performed hl ht he h⟩⟩

end Sys2Proof.Machine

/-! # Every word decodes to the instruction it was encoded from (O58)

A word is a sum of operands times powers of two, and `field_add_mul` reads one field of such a sum. For each MAJ one theorem says so of
its forms; `reads` collects them. -/

namespace Sys2Proof

open Laws.Fits

/-- Reading the q values of the field at p of a word to which a field at m is added: one above drops out, the one at p is read where
the rest of the word is clear, and one below drops out where it does not carry. -/
theorem field_add_mul :
    (∀ w x m p q : Nat, m % (p * q) = 0 → (w + x * m) / p % q = w / p % q) ∧
    (∀ w x m q : Nat, 0 < m → w / m % q = 0 → (w + x * m) / m % q = x % q) ∧
    (∀ w x m p q : Nat, w % p + x * m < p → (w + x * m) / p % q = w / p % q) := by
  refine ⟨fun w x m p q h => ?_, fun w x m q hm h => ?_, fun w x m p q h => ?_⟩
  · obtain ⟨c, rfl⟩ := Nat.dvd_of_mod_eq_zero h
    rcases Nat.eq_zero_or_pos p with rfl | hp
    · simp
    · rw [show w + x * (p * q * c) = w + p * (q * (x * c)) by ring, Nat.add_mul_div_left _ _ hp, Nat.add_mul_mod_self_left]
  · rw [Nat.add_mul_div_right _ _ hm, Nat.add_mod, h, Nat.zero_add, Nat.mod_mod]
  · have hp : 0 < p := by omega
    rw [show w + x * m = (w % p + x * m) + p * (w / p) by rw [Nat.add_right_comm, Nat.mod_add_div], Nat.add_mul_div_left _ _ hp,
      Nat.div_eq_of_lt h, Nat.zero_add]

/-- A field as wide as its operand holds it. -/
theorem operand_mod : (∀ (n : Nat) (x : Fin n), x.val % n = x.val) ∧ (∀ x : Src, srcBits x % 128 = srcBits x) ∧
    (∀ x : Dst, dstBits x % 64 = dstBits x) ∧ (∀ g : Guard, guardBits g % 16 = guardBits g) ∧ ∀ p : Fin 12, p.val % 64 = p.val :=
  ⟨fun _ x => Nat.mod_eq_of_lt x.isLt, fun x => Nat.mod_eq_of_lt (srcBits_lt x), fun x => Nat.mod_eq_of_lt (dstBits_lt x),
    fun g => Nat.mod_eq_of_lt (guardBits_lt g), fun p => Nat.mod_eq_of_lt (by omega)⟩

@[simp] theorem srcBad_srcBits (x : Src) : srcBad (srcBits x) = false := by
  cases x <;> rename_i i <;> revert i <;> decide

@[simp] theorem srcOf_srcBits (x : Src) : srcOf (srcBits x) = x := by
  cases x <;> rename_i i <;> revert i <;> decide

@[simp] theorem dstOf_dstBits (x : Dst) : dstOf (dstBits x) = x := by
  cases x <;> rename_i i <;> revert i <;> decide

@[simp] theorem guardOf_guardBits (g : Guard) : guardOf (guardBits g) = g := by
  cases g
  case p i => revert i; decide
  case all => rfl

@[simp] theorem guardBits_le (g : Guard) : ¬ 12 < guardBits g := by
  cases g
  case p i => exact Nat.not_lt.2 i.isLt.le
  case all => exact lt_irrefl _

/-- Only the unguarded form has guard bits 12. -/
@[simp] theorem guardBits_eq_all (g : Guard) : guardBits g = 12 ↔ g = .all := by
  cases g
  case p i => simp [guardBits, i.isLt.ne]
  case all => simp [guardBits]

@[simp] theorem predOf_val (p : Fin 12) : predOf p.val = p := by
  revert p; decide

@[simp] theorem pred_le (p : Fin 12) : ¬ 11 < p.val := by omega

/-- A check lets a word pass where its condition fails. -/
@[simp] theorem check_eq_ok {P : Prop} [Decidable P] {e : Nat} {x : Except Nat Instr} {i : Instr} :
    (if P then .error e else x) = .ok i ↔ ¬ P ∧ x = .ok i := by
  split <;> simp_all

/-- A word of `i` that passes the checks of the encoding decodes to `i`. -/
def Reads (i : Instr) : Prop :=
  ∀ n w, WellFormed i = true → encode i = some (n, w) → (n = 16 ∨ n = 32) ∧ w < 2 ^ n ∧ decodeTableWord n w = some i

theorem Reads.of32 {i : Instr} {c : Nat} (he : encode i = some (32, c)) (hlt : c < 4294967296) (hodd : c % 2 = 1)
    (hd : WellFormed i = true → decode32 c = .ok i) : Reads i := by
  intro n w hw h
  rw [he] at h
  simp only [Option.some.injEq, Prod.mk.injEq] at h
  obtain ⟨rfl, rfl⟩ := h
  refine ⟨.inr rfl, hlt, ?_⟩
  have h1 : c % 65536 + 65536 * (c / 65536) = c := by omega
  have h2 : c / 65536 < 65536 := by omega
  simp [decodeTableWord, tableHalves, decode, Nat.mod_eq_of_lt hlt, Nat.mod_eq_of_lt h2, hodd, h1, hd hw,
    Nat.mod_mod_of_dvd c (by decide : 2 ∣ 65536)]

theorem Reads.of16 {i : Instr} {c : Nat} (he : encode i = some (16, c)) (hlt : c < 65536) (heven : c % 2 = 0)
    (hd : WellFormed i = true → decode16 c = .ok i) : Reads i := by
  intro n w hw h
  rw [he] at h
  simp only [Option.some.injEq, Prod.mk.injEq] at h
  obtain ⟨rfl, rfl⟩ := h
  refine ⟨.inl rfl, hlt, ?_⟩
  simp [decodeTableWord, tableHalves, decode, Nat.mod_eq_of_lt hlt, heven, hd hw]

/-- An event has no word. -/
theorem Reads.of_none {i : Instr} (h : encode i = none) : Reads i := by
  intro n w _ he
  rw [h] at he
  exact nomatch he

@[simp] theorem reads_maj1 :
    ∀ o, Reads (.jmp o) := by
  have maj {w : Nat} (h : w / 2 ^ 1 % 2 ^ 6 = 1) : decode32 w = decMaj1 w := by rw [decode32, fld, h]; rfl
  intros
  refine .of32 rfl (by omega) (by omega) fun _ => ?_
  simp (disch := omega) only [maj, decMaj1, fld, Nat.reducePow, field_add_mul, operand_mod]
  simp

@[simp] theorem reads_maj2 :
    ∀ o, Reads (.call o) := by
  have maj {w : Nat} (h : w / 2 ^ 1 % 2 ^ 6 = 2) : decode32 w = decMaj2 w := by rw [decode32, fld, h]; rfl
  intros
  refine .of32 rfl (by omega) (by omega) fun _ => ?_
  simp (disch := omega) only [maj, decMaj2, fld, Nat.reducePow, field_add_mul, operand_mod]
  simp

@[simp] theorem reads_maj3 :
    ∀ c a b o, Reads (.conditionalBranch c a b o) := by
  have maj {w : Nat} (h : w / 2 ^ 1 % 2 ^ 6 = 3) : decode32 w = decMaj3 w := by rw [decode32, fld, h]; rfl
  intros
  refine .of32 rfl (by omega) (by omega) ?_
  simp (disch := omega) only [maj, decMaj3, fld, Nat.reducePow, field_add_mul, operand_mod]
  simp +contextual [WellFormed.eq_def]

@[simp] theorem reads_maj4 :
    Reads .nop ∧ Reads .ret ∧ (∀ a, Reads (.jr a)) ∧ (∀ a, Reads (.callr a)) ∧ (∀ c, Reads (.brk c)) ∧ (∀ d n, Reads (.csrr d n)) ∧
    (∀ a n, Reads (.csrw a n)) := by
  have maj {w : Nat} (h : w / 2 ^ 1 % 2 ^ 6 = 4) : decode32 w = decMaj4 w := by rw [decode32, fld, h]; rfl
  and_intros
  all_goals
    intros
    refine .of32 rfl (by omega) (by omega) ?_
    simp (disch := omega) only [maj, decMaj4, fld, Nat.reducePow, Nat.reduceDiv, Nat.reduceMod, field_add_mul, operand_mod]
    simp +contextual [WellFormed.eq_def]

@[simp] theorem reads_h16 :
    Reads .nopH16 ∧ (∀ g b, Reads (.movH16 g b)) ∧ (∀ g i, Reads (.liH16 g i)) ∧ (∀ g i, Reads (.addiH16 g i)) ∧
    (∀ g b, Reads (.addH16 g b)) ∧ (∀ g b, Reads (.subH16 g b)) ∧ (∀ g b, Reads (.andH16 g b)) ∧ (∀ g b, Reads (.orH16 g b)) ∧
    (∀ g b, Reads (.xorH16 g b)) ∧ (∀ g i, Reads (.slliH16 g i)) ∧ (∀ g i, Reads (.srliH16 g i)) ∧ (∀ g i, Reads (.sraiH16 g i)) ∧
    (∀ g b, Reads (.mulH16 g b)) := by
  and_intros
  all_goals
    intros
    refine .of16 rfl (by omega) (by omega) ?_
    simp (disch := omega) only [decode16, fld, Nat.reducePow, Nat.reduceDiv, Nat.reduceMod, field_add_mul, operand_mod]
    simp +contextual [WellFormed.eq_def]

@[simp] theorem reads_maj5 :
    (∀ d a b, Reads (.add d a b)) ∧ (∀ d a b, Reads (.sub d a b)) ∧ (∀ d a b, Reads (.and d a b)) ∧ (∀ d a b, Reads (.or d a b)) ∧
    (∀ d a b, Reads (.xor d a b)) ∧ (∀ d a b, Reads (.andn d a b)) ∧ (∀ d a b, Reads (.min d a b)) ∧ (∀ d a b, Reads (.max d a b)) ∧
    (∀ d a b, Reads (.minn d a b)) ∧ (∀ d a b, Reads (.maxn d a b)) ∧ (∀ d a b, Reads (.sh1add d a b)) ∧ (∀ d a b, Reads (.sh2add d a b)) ∧
    (∀ d a b, Reads (.sh3add d a b)) ∧ (∀ d a b, Reads (.sh4add d a b)) := by
  have maj {w : Nat} (h : w / 2 ^ 1 % 2 ^ 6 = 5) : decode32 w = decMaj5 w := by rw [decode32, fld, h]; rfl
  and_intros
  all_goals
    intro d a b
    have := dstBits_lt d; have := srcBits_lt a; have := srcBits_lt b
    refine .of32 rfl (by omega) (by omega) fun _ => ?_
    simp (disch := omega) only [maj, decMaj5, fld, Nat.reducePow, Nat.reduceDiv, Nat.reduceMod, field_add_mul, operand_mod]
    simp

@[simp] theorem reads_maj6 :
    (∀ d a i, Reads (.addi d a i)) ∧ (∀ d a i, Reads (.andi d a i)) ∧ (∀ d a i, Reads (.ori d a i)) ∧ (∀ d a s, Reads (.slli d a s)) ∧
    (∀ d a s, Reads (.srli d a s)) ∧ (∀ d a s, Reads (.srai d a s)) ∧ (∀ d a s, Reads (.rori d a s)) := by
  have maj {w : Nat} (h : w / 2 ^ 1 % 2 ^ 6 = 6) : decode32 w = decMaj6 w := by rw [decode32, fld, h]; rfl
  and_intros
  all_goals
    intro d a; intros
    have := dstBits_lt d; have := srcBits_lt a
    refine .of32 rfl (by omega) (by omega) fun _ => ?_
    simp (disch := omega) only [maj, decMaj6, fld, Nat.reducePow, Nat.reduceDiv, Nat.reduceMod, field_add_mul, operand_mod]
    simp

@[simp] theorem reads_maj7 :
    ∀ d i, Reads (.lih d i) := by
  have maj {w : Nat} (h : w / 2 ^ 1 % 2 ^ 6 = 7) : decode32 w = decMaj7 w := by rw [decode32, fld, h]; rfl
  intros
  refine .of32 rfl (by omega) (by omega) fun _ => ?_
  simp (disch := omega) only [maj, decMaj7, fld, Nat.reducePow, field_add_mul, operand_mod]
  simp

@[simp] theorem reads_maj8 :
    (∀ d a b, Reads (.sll d a b)) ∧ (∀ d a b, Reads (.srl d a b)) ∧ (∀ d a b, Reads (.sra d a b)) ∧ (∀ d a b, Reads (.ror d a b)) ∧
    (∀ d a b, Reads (.seq d a b)) ∧ (∀ d a b, Reads (.sne d a b)) ∧ (∀ d a b, Reads (.slt d a b)) ∧ (∀ d a b, Reads (.sge d a b)) ∧
    (∀ d a b, Reads (.sltn d a b)) ∧ (∀ d a b, Reads (.sgen d a b)) := by
  have maj {w : Nat} (h : w / 2 ^ 1 % 2 ^ 6 = 8) : decode32 w = decMaj8 w := by rw [decode32, fld, h]; rfl
  and_intros
  all_goals
    intro d a b
    have := dstBits_lt d; have := srcBits_lt a; have := srcBits_lt b
    refine .of32 rfl (by omega) (by omega) fun _ => ?_
    simp (disch := omega) only [maj, decMaj8, fld, Nat.reducePow, Nat.reduceDiv, Nat.reduceMod, field_add_mul, operand_mod]
    simp

@[simp] theorem reads_maj8_one_source :
    (∀ d a, Reads (.clz d a)) ∧ (∀ d a, Reads (.ctz d a)) ∧ (∀ d a, Reads (.popc d a)) ∧ (∀ d a, Reads (.extI8 d a)) ∧
    (∀ d a, Reads (.extI16 d a)) ∧ (∀ d a, Reads (.extI32 d a)) ∧ (∀ d a, Reads (.extN8 d a)) ∧ (∀ d a, Reads (.extN16 d a)) ∧
    (∀ d a, Reads (.extN32 d a)) := by
  have maj {w : Nat} (h : w / 2 ^ 1 % 2 ^ 6 = 8) : decode32 w = decMaj8 w := by rw [decode32, fld, h]; rfl
  and_intros
  all_goals
    intro d a
    have := dstBits_lt d; have := srcBits_lt a
    refine .of32 rfl (by omega) (by omega) fun _ => ?_
    simp (disch := omega) only [maj, decMaj8, fld, Nat.reducePow, Nat.reduceDiv, Nat.reduceMod, field_add_mul, operand_mod]
    simp

@[simp] theorem reads_maj8_sel :
    ∀ d a b, Reads (.sel d a b) := by
  have maj {w : Nat} (h : w / 2 ^ 1 % 2 ^ 6 = 8) : decode32 w = decMaj8 w := by rw [decode32, fld, h]; rfl
  intro d a b
  have := srcBits_lt a; have := srcBits_lt b
  refine .of32 rfl (by omega) (by omega) fun _ => ?_
  simp (disch := omega) only [maj, decMaj8, fld, Nat.reducePow, Nat.reduceDiv, Nat.reduceMod, field_add_mul, operand_mod]
  simp

@[simp] theorem reads_maj9 :
    (∀ d a b, Reads (.mul d a b)) ∧ (∀ d a b, Reads (.mulh d a b)) ∧ (∀ d a b, Reads (.mulhn d a b)) ∧ (∀ d a b, Reads (.div d a b)) ∧
    (∀ d a b, Reads (.divn d a b)) ∧ (∀ d a b, Reads (.rem d a b)) ∧ (∀ d a b, Reads (.remn d a b)) := by
  have maj {w : Nat} (h : w / 2 ^ 1 % 2 ^ 6 = 9) : decode32 w = decMaj9 w := by rw [decode32, fld, h]; rfl
  and_intros
  all_goals
    intro d a b
    have := dstBits_lt d; have := srcBits_lt a; have := srcBits_lt b
    refine .of32 rfl (by omega) (by omega) fun _ => ?_
    simp (disch := omega) only [maj, decMaj9, fld, Nat.reducePow, Nat.reduceDiv, Nat.reduceMod, field_add_mul, operand_mod]
    simp

@[simp] theorem reads_maj10 :
    (∀ d a o, Reads (.ldN8 d a o)) ∧ (∀ d a o, Reads (.ldI8 d a o)) ∧ (∀ d a o, Reads (.ldN16 d a o)) ∧ (∀ d a o, Reads (.ldI16 d a o)) ∧
    (∀ d a o, Reads (.ldN32 d a o)) ∧ (∀ d a o, Reads (.ldI32 d a o)) ∧ (∀ d a o, Reads (.ld64 d a o)) := by
  have maj {w : Nat} (h : w / 2 ^ 1 % 2 ^ 6 = 10) : decode32 w = decMaj10 w := by rw [decode32, fld, h]; rfl
  and_intros
  all_goals
    intro d a; intros
    have := dstBits_lt d; have := srcBits_lt a
    refine .of32 rfl (by omega) (by omega) fun _ => ?_
    simp (disch := omega) only [maj, decMaj10, fld, Nat.reducePow, Nat.reduceDiv, Nat.reduceMod, field_add_mul, operand_mod]
    simp

@[simp] theorem reads_maj11 :
    (∀ s a i, Reads (.st8 s a i)) ∧ (∀ s a i, Reads (.st16 s a i)) ∧ (∀ s a i, Reads (.st32 s a i)) ∧ (∀ s a i, Reads (.st64 s a i)) := by
  have maj {w : Nat} (h : w / 2 ^ 1 % 2 ^ 6 = 11) : decode32 w = decMaj11 w := by rw [decode32, fld, h]; rfl
  and_intros
  all_goals
    intro s a; intros
    have := srcBits_lt a
    refine .of32 rfl (by omega) (by omega) fun _ => ?_
    simp (disch := omega) only [maj, decMaj11, fld, Nat.reducePow, Nat.reduceDiv, Nat.reduceMod, field_add_mul, operand_mod]
    simp

@[simp] theorem reads_maj12 :
    (∀ g d b, Reads (.vld g d b)) ∧ (∀ g d b, Reads (.vst g d b)) ∧ (∀ g d s b, Reads (.vldS g d s b)) ∧
    (∀ g d s b, Reads (.vstS g d s b)) ∧ (∀ g d i b, Reads (.vldG g d i b)) ∧ (∀ g d i b, Reads (.vstX g d i b)) ∧
    (∀ g d b, Reads (.vldB g d b)) := by
  have maj {w : Nat} (h : w / 2 ^ 1 % 2 ^ 6 = 12) : decode32 w = decMaj12 w := by rw [decode32, fld, h]; rfl
  and_intros
  all_goals
    intro g; intros
    have := guardBits_lt g
    refine .of32 rfl (by omega) (by omega) fun _ => ?_
    simp (disch := omega) only [maj, decMaj12, fld, Nat.reducePow, Nat.reduceDiv, Nat.reduceMod, field_add_mul, operand_mod]
    simp

@[simp] theorem reads_maj13 :
    (∀ w a b d o s, Reads (.aadd w a b d o s)) ∧ (∀ w a b d o s, Reads (.aand w a b d o s)) ∧ (∀ w a b d o s, Reads (.aor w a b d o s)) ∧
    (∀ w a b d o s, Reads (.axor w a b d o s)) ∧ (∀ w a b d o s, Reads (.aminI w a b d o s)) ∧ (∀ w a b d o s, Reads (.aminN w a b d o s)) ∧
    (∀ w a b d o s, Reads (.amaxI w a b d o s)) ∧ (∀ w a b d o s, Reads (.amaxN w a b d o s)) ∧ (∀ w a b d o s, Reads (.swap w a b d o s)) ∧
    (∀ a b d o s, Reads (.cas64 a b d o s)) ∧ (∀ a b d o s, Reads (.cas128 a b d o s)) := by
  have maj {w : Nat} (h : w / 2 ^ 1 % 2 ^ 6 = 13) : decode32 w = decMaj13 w := by rw [decode32, fld, h]; rfl
  simp only [Fin.forall_fin_two]
  and_intros
  all_goals
    intros
    refine .of32 rfl (by omega) (by omega) ?_
    simp (disch := omega) only [maj, decMaj13, fld, Nat.reducePow, Nat.reduceDiv, Nat.reduceMod, field_add_mul, operand_mod, Fin.val_zero,
      Fin.val_one, Nat.zero_mul, Nat.one_mul, Nat.reduceAdd, Nat.add_zero]
    simp +contextual [WellFormed.eq_def]
  all_goals omega

@[simp] theorem reads_maj14 :
    (∀ w a b d o s, Reads (.aaddMs w a b d o s)) ∧ (∀ w a b d o s, Reads (.aandMs w a b d o s)) ∧
    (∀ w a b d o s, Reads (.aorMs w a b d o s)) ∧ (∀ w a b d o s, Reads (.axorMs w a b d o s)) ∧
    (∀ w a b d o s, Reads (.aminIMs w a b d o s)) ∧ (∀ w a b d o s, Reads (.aminNMs w a b d o s)) ∧
    (∀ w a b d o s, Reads (.amaxIMs w a b d o s)) ∧ (∀ w a b d o s, Reads (.amaxNMs w a b d o s)) ∧
    (∀ w a b d o s, Reads (.swapMs w a b d o s)) ∧ (∀ a b d o s, Reads (.cas64Ms a b d o s)) ∧
    (∀ a b d o s, Reads (.cas128Ms a b d o s)) := by
  have maj {w : Nat} (h : w / 2 ^ 1 % 2 ^ 6 = 14) : decode32 w = decMaj14 w := by rw [decode32, fld, h]; rfl
  simp only [Fin.forall_fin_two]
  and_intros
  all_goals
    intros
    refine .of32 rfl (by omega) (by omega) ?_
    simp (disch := omega) only [maj, decMaj14, fld, Nat.reducePow, Nat.reduceDiv, Nat.reduceMod, field_add_mul, operand_mod, Fin.val_zero,
      Fin.val_one, Nat.zero_mul, Nat.one_mul, Nat.reduceAdd, Nat.add_zero]
    simp +contextual [WellFormed.eq_def]
  all_goals omega

@[simp] theorem reads_maj14_no_atomic :
    (∀ a b l, Reads (.pf a b l)) ∧ (∀ a b d c, Reads (.waita a b d c)) := by
  have maj {w : Nat} (h : w / 2 ^ 1 % 2 ^ 6 = 14) : decode32 w = decMaj14 w := by rw [decode32, fld, h]; rfl
  and_intros
  all_goals
    intros
    refine .of32 rfl (by omega) (by omega) fun _ => ?_
    simp (disch := omega) only [maj, decMaj14, fld, Nat.reducePow, Nat.reduceDiv, Nat.reduceMod, field_add_mul, operand_mod]
    simp

@[simp] theorem reads_maj15 :
    (∀ s, Reads (.acq s)) ∧ (∀ s, Reads (.rel s)) ∧ (∀ s, Reads (.fen s)) := by
  have maj {w : Nat} (h : w / 2 ^ 1 % 2 ^ 6 = 15) : decode32 w = decMaj15 w := by rw [decode32, fld, h]; rfl
  and_intros
  all_goals
    intros
    refine .of32 rfl (by omega) (by omega) ?_
    simp (disch := omega) only [maj, decMaj15, fld, Nat.reducePow, Nat.reduceDiv, Nat.reduceMod, field_add_mul, operand_mod]
    simp +contextual [WellFormed.eq_def]

@[simp] theorem reads_maj16 :
    ∀ f, Reads (.efen f) := by
  have maj {w : Nat} (h : w / 2 ^ 1 % 2 ^ 6 = 16) : decode32 w = decMaj16 w := by rw [decode32, fld, h]; rfl
  intros
  refine .of32 rfl (by omega) (by omega) fun _ => ?_
  simp (disch := omega) only [maj, decMaj16, fld, Nat.reducePow, Nat.reduceDiv, Nat.reduceMod, field_add_mul, operand_mod]
  simp

@[simp] theorem reads_maj17 :
    (∀ a b k s, Reads (.tlbInv a b k s)) ∧ Reads .tlbSync := by
  have maj {w : Nat} (h : w / 2 ^ 1 % 2 ^ 6 = 17) : decode32 w = decMaj17 w := by rw [decode32, fld, h]; rfl
  and_intros
  all_goals
    intros
    refine .of32 rfl (by omega) (by omega) ?_
    simp (disch := omega) only [maj, decMaj17, fld, Nat.reducePow, Nat.reduceDiv, Nat.reduceMod, field_add_mul, operand_mod]
    simp +contextual [WellFormed.eq_def]
  all_goals omega

@[simp] theorem reads_maj18 :
    (∀ a b d w, Reads (.pgMig a b d w)) ∧ (∀ a d c, Reads (.pgPin a d c)) ∧ (∀ a d, Reads (.pgProbe a d)) := by
  have maj {w : Nat} (h : w / 2 ^ 1 % 2 ^ 6 = 18) : decode32 w = decMaj18 w := by rw [decode32, fld, h]; rfl
  and_intros
  all_goals
    intros
    refine .of32 rfl (by omega) (by omega) fun _ => ?_
    simp (disch := omega) only [maj, decMaj18, fld, Nat.reducePow, Nat.reduceDiv, Nat.reduceMod, field_add_mul, operand_mod]
    simp

@[simp] theorem reads_maj19 :
    (∀ a b d, Reads (.fcInc a b d)) ∧ (∀ a b d, Reads (.fcDec a b d)) ∧ (∀ a d, Reads (.fcRead a d)) := by
  have maj {w : Nat} (h : w / 2 ^ 1 % 2 ^ 6 = 19) : decode32 w = decMaj19 w := by rw [decode32, fld, h]; rfl
  and_intros
  all_goals
    intros
    refine .of32 rfl (by omega) (by omega) fun _ => ?_
    simp (disch := omega) only [maj, decMaj19, fld, Nat.reducePow, Nat.reduceDiv, Nat.reduceMod, field_add_mul, operand_mod]
    simp

@[simp] theorem reads_maj20 :
    (∀ g d a b, Reads (.vaddI32 g d a b)) ∧ (∀ g d a b, Reads (.vsubI32 g d a b)) ∧ (∀ g d a b, Reads (.vmulI32 g d a b)) ∧
    (∀ g d a b, Reads (.vmulhI32 g d a b)) ∧ (∀ g d a b, Reads (.vaddsI32 g d a b)) ∧ (∀ g d a b, Reads (.vsubsI32 g d a b)) ∧
    (∀ g d a b, Reads (.vaddsN32 g d a b)) ∧ (∀ g d a b, Reads (.vsubsN32 g d a b)) := by
  have maj {w : Nat} (h : w / 2 ^ 1 % 2 ^ 6 = 20) : decode32 w = decMaj20 w := by rw [decode32, fld, h]; rfl
  and_intros
  all_goals
    intro g; intros
    have := guardBits_lt g
    refine .of32 rfl (by omega) (by omega) fun _ => ?_
    simp (disch := omega) only [maj, decMaj20, fld, Nat.reducePow, Nat.reduceDiv, Nat.reduceMod, field_add_mul, operand_mod]
    simp

@[simp] theorem reads_maj21 :
    (∀ g d a b, Reads (.vaddF32 g d a b)) ∧ (∀ g d a b, Reads (.vsubF32 g d a b)) ∧ (∀ g d a b, Reads (.vmulF32 g d a b)) ∧
    (∀ g d a b, Reads (.vfmaF32 g d a b)) ∧ (∀ g d a b, Reads (.vfmsF32 g d a b)) ∧ (∀ g d a b, Reads (.vminF32 g d a b)) ∧
    (∀ g d a b, Reads (.vmaxF32 g d a b)) := by
  have maj {w : Nat} (h : w / 2 ^ 1 % 2 ^ 6 = 21) : decode32 w = decMaj21 w := by rw [decode32, fld, h]; rfl
  and_intros
  all_goals
    intro g; intros
    have := guardBits_lt g
    refine .of32 rfl (by omega) (by omega) fun _ => ?_
    simp (disch := omega) only [maj, decMaj21, fld, Nat.reducePow, Nat.reduceDiv, Nat.reduceMod, field_add_mul, operand_mod]
    simp

@[simp] theorem reads_maj22 :
    (∀ g d a, Reads (.vand g d a)) ∧ (∀ g d a, Reads (.vor g d a)) ∧ (∀ g d a, Reads (.vxor g d a)) ∧ (∀ g d a, Reads (.vandn g d a)) ∧
    (∀ g d a i, Reads (.vsll g d a i)) ∧ (∀ g d a i, Reads (.vsrl g d a i)) ∧ (∀ g d a i, Reads (.vsra g d a i)) ∧
    (∀ g d a, Reads (.vmov g d a)) := by
  have maj {w : Nat} (h : w / 2 ^ 1 % 2 ^ 6 = 22) : decode32 w = decMaj22 w := by rw [decode32, fld, h]; rfl
  and_intros
  all_goals
    intro g; intros
    have := guardBits_lt g
    refine .of32 rfl (by omega) (by omega) fun _ => ?_
    simp (disch := omega) only [maj, decMaj22, fld, Nat.reducePow, Nat.reduceDiv, Nat.reduceMod, field_add_mul, operand_mod]
    simp

@[simp] theorem reads_maj23 :
    (∀ g k c a b, Reads (.vcmpI32 g k c a b)) ∧ (∀ g k c a b, Reads (.vcmpF32 g k c a b)) ∧ (∀ g d a b, Reads (.vsel g d a b)) ∧
    (∀ g d a b, Reads (.vminI32 g d a b)) ∧ (∀ g d a b, Reads (.vmaxI32 g d a b)) ∧ (∀ g d a b, Reads (.vminN32 g d a b)) ∧
    (∀ g d a b, Reads (.vmaxN32 g d a b)) := by
  have maj {w : Nat} (h : w / 2 ^ 1 % 2 ^ 6 = 23) : decode32 w = decMaj23 w := by rw [decode32, fld, h]; rfl
  and_intros
  all_goals
    intro g; intros
    have := guardBits_lt g
    refine .of32 rfl (by omega) (by omega) ?_
    simp (disch := omega) only [maj, decMaj23, fld, Nat.reducePow, Nat.reduceDiv, Nat.reduceMod, field_add_mul, operand_mod]
    simp +contextual [WellFormed.eq_def]

@[simp] theorem reads_maj24 :
    (∀ g d a i, Reads (.vrotrImm g d a i)) ∧ (∀ g d a s, Reads (.vrotrReg g d a s)) ∧ (∀ g d a i, Reads (.vrotcImm g d a i)) ∧
    (∀ g d a s, Reads (.vrotcReg g d a s)) ∧ (∀ g d a i, Reads (.vbcrImm g d a i)) ∧ (∀ g d a s, Reads (.vbcrReg g d a s)) ∧
    (∀ g d a i, Reads (.vbccImm g d a i)) ∧ (∀ g d a s, Reads (.vbccReg g d a s)) := by
  have maj {w : Nat} (h : w / 2 ^ 1 % 2 ^ 6 = 24) : decode32 w = decMaj24 w := by rw [decode32, fld, h]; rfl
  and_intros
  all_goals
    intro g; intros
    have := guardBits_lt g
    refine .of32 rfl (by omega) (by omega) fun _ => ?_
    simp (disch := omega) only [maj, decMaj24, fld, Nat.reducePow, Nat.reduceDiv, Nat.reduceMod, field_add_mul, operand_mod]
    simp

@[simp] theorem reads_maj25 :
    (∀ g d a, Reads (.vrsumF32 g d a)) ∧ (∀ g d a, Reads (.vcsumF32 g d a)) ∧ (∀ g d a, Reads (.vrmaxF32 g d a)) ∧
    (∀ g d a, Reads (.vcmaxF32 g d a)) ∧ (∀ g d a, Reads (.vrminF32 g d a)) ∧ (∀ g d a, Reads (.vcminF32 g d a)) ∧
    (∀ g d a, Reads (.vrsumI32 g d a)) ∧ (∀ g d a, Reads (.vcsumI32 g d a)) := by
  have maj {w : Nat} (h : w / 2 ^ 1 % 2 ^ 6 = 25) : decode32 w = decMaj25 w := by rw [decode32, fld, h]; rfl
  and_intros
  all_goals
    intro g; intros
    have := guardBits_lt g
    refine .of32 rfl (by omega) (by omega) fun _ => ?_
    simp (disch := omega) only [maj, decMaj25, fld, Nat.reducePow, Nat.reduceDiv, Nat.reduceMod, field_add_mul, operand_mod]
    simp

@[simp] theorem reads_maj26 :
    (∀ g d a b, Reads (.pand g d a b)) ∧ (∀ g d a b, Reads (.por g d a b)) ∧ (∀ g d a b, Reads (.pxor g d a b)) ∧
    (∀ g d a b, Reads (.pandn g d a b)) ∧ (∀ g d a, Reads (.pnez g d a)) ∧ (∀ g d a, Reads (.vmovp g d a)) ∧
    (∀ g d i, Reads (.pset g d i)) ∧ (∀ g d a, Reads (.pfirst g d a)) := by
  have maj {w : Nat} (h : w / 2 ^ 1 % 2 ^ 6 = 26) : decode32 w = decMaj26 w := by rw [decode32, fld, h]; rfl
  and_intros
  all_goals
    intro g; intros
    have := guardBits_lt g
    refine .of32 rfl (by omega) (by omega) fun _ => ?_
    simp (disch := omega) only [maj, decMaj26, fld, Nat.reducePow, Nat.reduceDiv, Nat.reduceMod, field_add_mul, operand_mod]
    simp

@[simp] theorem reads_maj27 :
    (∀ g d s, Reads (.vlidx g d s)) ∧ (∀ g d a s, Reads (.vins g d a s)) ∧ (∀ g d a, Reads (.vbcg g d a)) ∧
    (∀ g d i, Reads (.vmovi g d i)) := by
  have maj {w : Nat} (h : w / 2 ^ 1 % 2 ^ 6 = 27) : decode32 w = decMaj27 w := by rw [decode32, fld, h]; rfl
  and_intros
  all_goals
    intro g; intros
    have := guardBits_lt g
    refine .of32 rfl (by omega) (by omega) ?_
    simp (disch := omega) only [maj, decMaj27, fld, Nat.reducePow, Nat.reduceDiv, Nat.reduceMod, field_add_mul, operand_mod]
    simp +contextual [WellFormed.eq_def]

@[simp] theorem reads_maj27_unguarded :
    (∀ d a s, Reads (.vextN32 d a s)) ∧ (∀ d a s, Reads (.vextI32 d a s)) ∧ (∀ d a, Reads (.pcnt d a)) ∧ (∀ d a, Reads (.pfind d a)) := by
  have maj {w : Nat} (h : w / 2 ^ 1 % 2 ^ 6 = 27) : decode32 w = decMaj27 w := by rw [decode32, fld, h]; rfl
  and_intros
  all_goals
    intros
    refine .of32 rfl (by omega) (by omega) fun _ => ?_
    simp (disch := omega) only [maj, decMaj27, fld, Nat.reducePow, Nat.reduceDiv, Nat.reduceMod, field_add_mul, operand_mod]
    simp

@[simp] theorem reads_maj28 :
    (∀ g d a p s r, Reads (.vcvtBf16F32 g d a p s r)) ∧ (∀ g d a p s r, Reads (.vcvtF16F32 g d a p s r)) ∧
    (∀ g d a p s r, Reads (.vcvtE4m3F32 g d a p s r)) ∧ (∀ g d a p s r, Reads (.vcvtE5m2F32 g d a p s r)) ∧
    (∀ g d a p, Reads (.vcvtF32Bf16 g d a p)) ∧ (∀ g d a p, Reads (.vcvtF32F16 g d a p)) ∧ (∀ g d a p, Reads (.vcvtF32E4m3 g d a p)) ∧
    (∀ g d a p, Reads (.vcvtF32E5m2 g d a p)) := by
  have maj {w : Nat} (h : w / 2 ^ 1 % 2 ^ 6 = 28) : decode32 w = decMaj28 w := by rw [decode32, fld, h]; rfl
  and_intros
  all_goals
    intro g; intros
    have := guardBits_lt g
    refine .of32 rfl (by omega) (by omega) ?_
    simp (disch := omega) only [maj, decMaj28, fld, Nat.reducePow, Nat.reduceDiv, Nat.reduceMod, field_add_mul, operand_mod]
    simp +contextual [WellFormed.eq_def]
  all_goals omega

@[simp] theorem reads_maj29 :
    (∀ g d a r, Reads (.vcvtI32F32 g d a r)) ∧ (∀ g d a r, Reads (.vcvtN32F32 g d a r)) ∧ (∀ g d a r, Reads (.vcvtF32I32 g d a r)) ∧
    (∀ g d a r, Reads (.vcvtF32N32 g d a r)) ∧ (∀ g d a r, Reads (.vrintF32 g d a r)) ∧ (∀ g d a m, Reads (.vcvtF32Mx g d a m)) := by
  have maj {w : Nat} (h : w / 2 ^ 1 % 2 ^ 6 = 29) : decode32 w = decMaj29 w := by rw [decode32, fld, h]; rfl
  and_intros
  all_goals
    intro g; intros
    have := guardBits_lt g
    refine .of32 rfl (by omega) (by omega) ?_
    simp (disch := omega) only [maj, decMaj29, fld, Nat.reducePow, Nat.reduceDiv, Nat.reduceMod, field_add_mul, operand_mod]
    simp +contextual [WellFormed.eq_def]

@[simp] theorem reads_maj29_unguarded :
    ∀ d a m r, Reads (.vcvtMxF32 d a m r) := by
  have maj {w : Nat} (h : w / 2 ^ 1 % 2 ^ 6 = 29) : decode32 w = decMaj29 w := by rw [decode32, fld, h]; rfl
  intros
  refine .of32 rfl (by omega) (by omega) ?_
  simp (disch := omega) only [maj, decMaj29, fld, Nat.reducePow, Nat.reduceDiv, Nat.reduceMod, field_add_mul, operand_mod]
  simp +contextual [WellFormed.eq_def]

@[simp] theorem reads_maj30 :
    (∀ g d a, Reads (.vexpF32 g d a)) ∧ (∀ g d a, Reads (.vexp2F32 g d a)) ∧ (∀ g d a, Reads (.vlog2F32 g d a)) ∧
    (∀ g d a, Reads (.vrcpF32 g d a)) ∧ (∀ g d a, Reads (.vrsqrtF32 g d a)) ∧ (∀ g d a, Reads (.vsqrtF32 g d a)) ∧
    (∀ g d a, Reads (.vtanhF32 g d a)) := by
  have maj {w : Nat} (h : w / 2 ^ 1 % 2 ^ 6 = 30) : decode32 w = decMaj30 w := by rw [decode32, fld, h]; rfl
  and_intros
  all_goals
    intro g; intros
    have := guardBits_lt g
    refine .of32 rfl (by omega) (by omega) fun _ => ?_
    simp (disch := omega) only [maj, decMaj30, fld, Nat.reducePow, Nat.reduceDiv, Nat.reduceMod, field_add_mul, operand_mod]
    simp

@[simp] theorem reads_maj31 :
    (∀ g d a k s, Reads (.vcmpr g d a k s)) ∧ (∀ g d a k s, Reads (.vtopkF32 g d a k s)) ∧ (∀ g d a e c, Reads (.vscanF32 g d a e c)) ∧
    (∀ g d a e c, Reads (.vscanI32 g d a e c)) ∧ (∀ g d s, Reads (.vrandN32 g d s)) ∧ (∀ g d s, Reads (.vrandF32 g d s)) ∧
    (∀ g d a k s, Reads (.vtopkI32 g d a k s)) := by
  have maj {w : Nat} (h : w / 2 ^ 1 % 2 ^ 6 = 31) : decode32 w = decMaj31 w := by rw [decode32, fld, h]; rfl
  and_intros
  all_goals
    intro g; intros
    have := guardBits_lt g
    refine .of32 rfl (by omega) (by omega) ?_
    simp (disch := omega) only [maj, decMaj31, fld, Nat.reducePow, Nat.reduceDiv, Nat.reduceMod, field_add_mul, operand_mod]
    simp +contextual [WellFormed.eq_def]
  all_goals omega

@[simp] theorem reads_maj32 :
    ∀ a t p k z r, Reads (.maMm a t p k z r) := by
  have maj {w : Nat} (h : w / 2 ^ 1 % 2 ^ 6 = 32) : decode32 w = decMaj32 w := by rw [decode32, fld, h]; rfl
  intros
  refine .of32 rfl (by omega) (by omega) fun _ => ?_
  simp (disch := omega) only [maj, decMaj32, fld, Nat.reducePow, field_add_mul, operand_mod]
  simp

@[simp] theorem reads_maj33 :
    (∀ a b, Reads (.maCfg a b)) ∧ (∀ p c g, Reads (.maLdb p c g)) ∧ (∀ a b c, Reads (.maLdw a b c)) := by
  have maj {w : Nat} (h : w / 2 ^ 1 % 2 ^ 6 = 33) : decode32 w = decMaj33 w := by rw [decode32, fld, h]; rfl
  and_intros
  all_goals
    intros
    refine .of32 rfl (by omega) (by omega) ?_
    simp (disch := omega) only [maj, decMaj33, fld, Nat.reducePow, Nat.reduceDiv, Nat.reduceMod, field_add_mul, operand_mod]
    simp +contextual [WellFormed.eq_def]

@[simp] theorem reads_maj34 :
    (∀ a, Reads (.maZero a)) ∧ (∀ a r c v, Reads (.maMovTv a r c v)) ∧ (∀ a r c v, Reads (.maMovVt a r c v)) ∧
    (∀ a g, Reads (.maMovTp a g)) ∧ (∀ d s n, Reads (.maMovSum d s n)) := by
  have maj {w : Nat} (h : w / 2 ^ 1 % 2 ^ 6 = 34) : decode32 w = decMaj34 w := by rw [decode32, fld, h]; rfl
  and_intros
  all_goals
    intros
    refine .of32 rfl (by omega) (by omega) ?_
    simp (disch := omega) only [maj, decMaj34, fld, Nat.reducePow, Nat.reduceDiv, Nat.reduceMod, field_add_mul, operand_mod]
    simp +contextual [WellFormed.eq_def]

@[simp] theorem reads_maj35 :
    (∀ m, Reads (.maWait m)) ∧ (∀ a, Reads (.maSave a)) ∧ (∀ a, Reads (.maRstr a)) := by
  have maj {w : Nat} (h : w / 2 ^ 1 % 2 ^ 6 = 35) : decode32 w = decMaj35 w := by rw [decode32, fld, h]; rfl
  and_intros
  all_goals
    intros
    refine .of32 rfl (by omega) (by omega) fun _ => ?_
    simp (disch := omega) only [maj, decMaj35, fld, Nat.reducePow, Nat.reduceDiv, Nat.reduceMod, field_add_mul, operand_mod]
    simp

@[simp] theorem reads_maj36 :
    (∀ a d, Reads (.cpCopy a d)) ∧ (∀ a d, Reads (.cpCopyTs a d)) ∧ (∀ a b d, Reads (.cpCopyRc a b d)) := by
  have maj {w : Nat} (h : w / 2 ^ 1 % 2 ^ 6 = 36) : decode32 w = decMaj36 w := by rw [decode32, fld, h]; rfl
  and_intros
  all_goals
    intros
    refine .of32 rfl (by omega) (by omega) fun _ => ?_
    simp (disch := omega) only [maj, decMaj36, fld, Nat.reducePow, Nat.reduceDiv, Nat.reduceMod, field_add_mul, operand_mod]
    simp

@[simp] theorem reads_maj37 :
    (∀ a b d t, Reads (.cpGath a b d t)) ∧ (∀ a b d, Reads (.cpScat a b d)) ∧ (∀ a b d t, Reads (.cpFill a b d t)) := by
  have maj {w : Nat} (h : w / 2 ^ 1 % 2 ^ 6 = 37) : decode32 w = decMaj37 w := by rw [decode32, fld, h]; rfl
  and_intros
  all_goals
    intros
    refine .of32 rfl (by omega) (by omega) fun _ => ?_
    simp (disch := omega) only [maj, decMaj37, fld, Nat.reducePow, Nat.reduceDiv, Nat.reduceMod, field_add_mul, operand_mod]
    simp

@[simp] theorem reads_maj38 :
    (∀ a b, Reads (.tsDef a b)) ∧ (∀ a d, Reads (.tsRel a d)) ∧ (∀ a d f w, Reads (.tsStat a d f w)) := by
  have maj {w : Nat} (h : w / 2 ^ 1 % 2 ^ 6 = 38) : decode32 w = decMaj38 w := by rw [decode32, fld, h]; rfl
  and_intros
  all_goals
    intros
    refine .of32 rfl (by omega) (by omega) ?_
    simp (disch := omega) only [maj, decMaj38, fld, Nat.reducePow, Nat.reduceDiv, Nat.reduceMod, field_add_mul, operand_mod]
    simp +contextual [WellFormed.eq_def]
  all_goals omega

@[simp] theorem reads_maj39 :
    (∀ a b d s, Reads (.barInit a b d s)) ∧ (∀ a d, Reads (.barArr a d)) ∧ (∀ a b d, Reads (.barWait a b d)) ∧
    (∀ a d, Reads (.barArw a d)) ∧ (∀ a b d, Reads (.barExpb a b d)) ∧ (∀ a d c, Reads (.barStat a d c)) ∧ (∀ a d, Reads (.barExp a d)) ∧
    (∀ a d, Reads (.barUnex a d)) := by
  have maj {w : Nat} (h : w / 2 ^ 1 % 2 ^ 6 = 39) : decode32 w = decMaj39 w := by rw [decode32, fld, h]; rfl
  and_intros
  all_goals
    intros
    refine .of32 rfl (by omega) (by omega) ?_
    simp (disch := omega) only [maj, decMaj39, fld, Nat.reducePow, Nat.reduceDiv, Nat.reduceMod, field_add_mul, operand_mod]
    simp +contextual [WellFormed.eq_def]

@[simp] theorem reads_maj40 :
    (∀ a b d s, Reads (.semInit a b d s)) ∧ (∀ a b d, Reads (.semSet a b d)) ∧ (∀ a b d, Reads (.semAdd a b d)) ∧
    (∀ a b d u, Reads (.semWge a b d u)) := by
  have maj {w : Nat} (h : w / 2 ^ 1 % 2 ^ 6 = 40) : decode32 w = decMaj40 w := by rw [decode32, fld, h]; rfl
  and_intros
  all_goals
    intros
    refine .of32 rfl (by omega) (by omega) ?_
    simp (disch := omega) only [maj, decMaj40, fld, Nat.reducePow, Nat.reduceDiv, Nat.reduceMod, field_add_mul, operand_mod]
    simp +contextual [WellFormed.eq_def]

@[simp] theorem reads_maj41 :
    (∀ d a b, Reads (.chCfg d a b)) ∧ (∀ d a, Reads (.chReg d a)) ∧ (∀ d a, Reads (.chEos d a)) ∧ (∀ d a p, Reads (.chTake d a p)) ∧
    (∀ d a, Reads (.chStat d a)) := by
  have maj {w : Nat} (h : w / 2 ^ 1 % 2 ^ 6 = 41) : decode32 w = decMaj41 w := by rw [decode32, fld, h]; rfl
  and_intros
  all_goals
    intros
    refine .of32 rfl (by omega) (by omega) ?_
    simp (disch := omega) only [maj, decMaj41, fld, Nat.reducePow, Nat.reduceDiv, Nat.reduceMod, field_add_mul, operand_mod]
    simp +contextual [WellFormed.eq_def]

@[simp] theorem reads_maj42 :
    (∀ a b d, Reads (.fwFu a b d)) ∧ (∀ a b d, Reads (.fwFwd a b d)) ∧ (∀ a b d, Reads (.fwUpd a b d)) := by
  have maj {w : Nat} (h : w / 2 ^ 1 % 2 ^ 6 = 42) : decode32 w = decMaj42 w := by rw [decode32, fld, h]; rfl
  and_intros
  all_goals
    intros
    refine .of32 rfl (by omega) (by omega) fun _ => ?_
    simp (disch := omega) only [maj, decMaj42, fld, Nat.reducePow, Nat.reduceDiv, Nat.reduceMod, field_add_mul, operand_mod]
    simp

@[simp] theorem reads_maj43 :
    (∀ a d, Reads (.fwOpen a d)) ∧ (∀ a d, Reads (.fwClose a d)) ∧ (∀ a d, Reads (.fwFree a d)) ∧ (∀ a b d o, Reads (.fwPage a b d o)) ∧
    (∀ a d, Reads (.fwStat a d)) := by
  have maj {w : Nat} (h : w / 2 ^ 1 % 2 ^ 6 = 43) : decode32 w = decMaj43 w := by rw [decode32, fld, h]; rfl
  and_intros
  all_goals
    intros
    refine .of32 rfl (by omega) (by omega) ?_
    simp (disch := omega) only [maj, decMaj43, fld, Nat.reducePow, Nat.reduceDiv, Nat.reduceMod, field_add_mul, operand_mod]
    simp +contextual [WellFormed.eq_def]
  all_goals omega

@[simp] theorem reads_maj44 :
    (∀ a d, Reads (.fwSnap a d)) ∧ (∀ a b d, Reads (.fwAvg a b d)) ∧ (∀ a b d, Reads (.fwRoll a b d)) ∧
    (∀ a b d, Reads (.fwMig a b d)) := by
  have maj {w : Nat} (h : w / 2 ^ 1 % 2 ^ 6 = 44) : decode32 w = decMaj44 w := by rw [decode32, fld, h]; rfl
  and_intros
  all_goals
    intros
    refine .of32 rfl (by omega) (by omega) fun _ => ?_
    simp (disch := omega) only [maj, decMaj44, fld, Nat.reducePow, Nat.reduceDiv, Nat.reduceMod, field_add_mul, operand_mod]
    simp

@[simp] theorem reads_maj45 :
    (∀ a b d, Reads (.fwLogc a b d)) ∧ (∀ a b d, Reads (.fwLogd a b d)) := by
  have maj {w : Nat} (h : w / 2 ^ 1 % 2 ^ 6 = 45) : decode32 w = decMaj45 w := by rw [decode32, fld, h]; rfl
  and_intros
  all_goals
    intros
    refine .of32 rfl (by omega) (by omega) fun _ => ?_
    simp (disch := omega) only [maj, decMaj45, fld, Nat.reducePow, Nat.reduceDiv, Nat.reduceMod, field_add_mul, operand_mod]
    simp

@[simp] theorem reads_maj46 :
    (∀ a d r, Reads (.cxStart a d r)) ∧ (∀ a d, Reads (.cxPause a d)) ∧ (∀ a d, Reads (.cxEnd a d)) ∧ (∀ a b d, Reads (.cxFork a b d)) ∧
    (∀ a b d l, Reads (.cxCancel a b d l)) ∧ (∀ a b d, Reads (.cxSpec a b d)) ∧ (∀ a b d, Reads (.cxCommit a b d)) := by
  have maj {w : Nat} (h : w / 2 ^ 1 % 2 ^ 6 = 46) : decode32 w = decMaj46 w := by rw [decode32, fld, h]; rfl
  and_intros
  all_goals
    intros
    refine .of32 rfl (by omega) (by omega) fun _ => ?_
    simp (disch := omega) only [maj, decMaj46, fld, Nat.reducePow, Nat.reduceDiv, Nat.reduceMod, field_add_mul, operand_mod]
    simp

@[simp] theorem reads_maj47 :
    (∀ a b d, Reads (.grBind a b d)) ∧ (∀ a b d s, Reads (.grStep a b d s)) ∧ (∀ a d, Reads (.grMask a d)) ∧
    (∀ a b d, Reads (.grLatt a b d)) ∧ (∀ a b d, Reads (.grSave a b d)) ∧ (∀ a b d, Reads (.grFork a b d)) ∧
    (∀ a b d, Reads (.grRoll a b d)) := by
  have maj {w : Nat} (h : w / 2 ^ 1 % 2 ^ 6 = 47) : decode32 w = decMaj47 w := by rw [decode32, fld, h]; rfl
  and_intros
  all_goals
    intros
    refine .of32 rfl (by omega) (by omega) fun _ => ?_
    simp (disch := omega) only [maj, decMaj47, fld, Nat.reducePow, Nat.reduceDiv, Nat.reduceMod, field_add_mul, operand_mod]
    simp

@[simp] theorem reads_maj48 :
    (∀ a d, Reads (.skOpen a d)) ∧ (∀ a b d f, Reads (.skClose a b d f)) ∧ (∀ a d, Reads (.skDraw a d)) := by
  have maj {w : Nat} (h : w / 2 ^ 1 % 2 ^ 6 = 48) : decode32 w = decMaj48 w := by rw [decode32, fld, h]; rfl
  and_intros
  all_goals
    intros
    refine .of32 rfl (by omega) (by omega) fun _ => ?_
    simp (disch := omega) only [maj, decMaj48, fld, Nat.reducePow, Nat.reduceDiv, Nat.reduceMod, field_add_mul, operand_mod]
    simp

@[simp] theorem reads_maj49 :
    ∀ a d, Reads (.ltExp a d) := by
  have maj {w : Nat} (h : w / 2 ^ 1 % 2 ^ 6 = 49) : decode32 w = decMaj49 w := by rw [decode32, fld, h]; rfl
  intros
  refine .of32 rfl (by omega) (by omega) fun _ => ?_
  simp (disch := omega) only [maj, decMaj49, fld, Nat.reducePow, Nat.reduceDiv, Nat.reduceMod, field_add_mul, operand_mod]
  simp

@[simp] theorem reads_maj50 :
    (∀ a b d, Reads (.sqCfg a b d)) ∧ (∀ a b d, Reads (.sqSend a b d)) ∧ (∀ a b d, Reads (.sqRecv a b d)) := by
  have maj {w : Nat} (h : w / 2 ^ 1 % 2 ^ 6 = 50) : decode32 w = decMaj50 w := by rw [decode32, fld, h]; rfl
  and_intros
  all_goals
    intros
    refine .of32 rfl (by omega) (by omega) fun _ => ?_
    simp (disch := omega) only [maj, decMaj50, fld, Nat.reducePow, Nat.reduceDiv, Nat.reduceMod, field_add_mul, operand_mod]
    simp

@[simp] theorem reads_maj51 :
    (∀ a b d, Reads (.tqPush a b d)) ∧ Reads .tkEnd ∧ (∀ a, Reads (.tkYield a)) ∧ (∀ a d, Reads (.tkCancel a d)) := by
  have maj {w : Nat} (h : w / 2 ^ 1 % 2 ^ 6 = 51) : decode32 w = decMaj51 w := by rw [decode32, fld, h]; rfl
  and_intros
  all_goals
    intros
    refine .of32 rfl (by omega) (by omega) fun _ => ?_
    simp (disch := omega) only [maj, decMaj51, fld, Nat.reducePow, Nat.reduceDiv, Nat.reduceMod, field_add_mul, operand_mod]
    simp

@[simp] theorem reads_maj52 :
    (∀ c, Reads (.safept c)) ∧ (∀ c, Reads (.trap c)) ∧ Reads .tret := by
  have maj {w : Nat} (h : w / 2 ^ 1 % 2 ^ 6 = 52) : decode32 w = decMaj52 w := by rw [decode32, fld, h]; rfl
  and_intros
  all_goals
    intros
    refine .of32 rfl (by omega) (by omega) fun _ => ?_
    simp (disch := omega) only [maj, decMaj52, fld, Nat.reducePow, Nat.reduceDiv, Nat.reduceMod, field_add_mul, operand_mod]
    simp

@[simp] theorem reads_maj53 :
    (∀ a d, Reads (.sysRd a d)) ∧ (∀ a b, Reads (.sysWr a b)) := by
  have maj {w : Nat} (h : w / 2 ^ 1 % 2 ^ 6 = 53) : decode32 w = decMaj53 w := by rw [decode32, fld, h]; rfl
  and_intros
  all_goals
    intros
    refine .of32 rfl (by omega) (by omega) fun _ => ?_
    simp (disch := omega) only [maj, decMaj53, fld, Nat.reducePow, Nat.reduceDiv, Nat.reduceMod, field_add_mul, operand_mod]
    simp

@[simp] theorem reads_maj54 :
    (∀ a d, Reads (.engRpl a d)) ∧ (∀ a d, Reads (.engDrop a d)) := by
  have maj {w : Nat} (h : w / 2 ^ 1 % 2 ^ 6 = 54) : decode32 w = decMaj54 w := by rw [decode32, fld, h]; rfl
  and_intros
  all_goals
    intros
    refine .of32 rfl (by omega) (by omega) fun _ => ?_
    simp (disch := omega) only [maj, decMaj54, fld, Nat.reducePow, Nat.reduceDiv, Nat.reduceMod, field_add_mul, operand_mod]
    simp

@[simp] theorem reads_maj55 :
    (∀ a b d, Reads (.tqCfg a b d)) ∧ (∀ a d, Reads (.tqKill a d)) ∧ (∀ a d u, Reads (.tkPre a d u)) := by
  have maj {w : Nat} (h : w / 2 ^ 1 % 2 ^ 6 = 55) : decode32 w = decMaj55 w := by rw [decode32, fld, h]; rfl
  and_intros
  all_goals
    intros
    refine .of32 rfl (by omega) (by omega) fun _ => ?_
    simp (disch := omega) only [maj, decMaj55, fld, Nat.reducePow, Nat.reduceDiv, Nat.reduceMod, field_add_mul, operand_mod]
    simp

/-- The encoding strips keep every operand: an event has no word, and a word is one of its MAJ's or of the H16 forms. -/
theorem reads (i : Instr) : Reads i := by
  cases i
  case packageReset | powerOff | chipletAttestation | flitTagFailure | keyRolloverStart | keyRolloverAck | drainMarker
      | rolloverSendStop | rolloverStopTimeout | dieReadmission | routeResend | hostLinkDown | syswr | tlbinv | feat | answer | lists
      | route | preempt | dierst | lcs | age | attest | ageUpdate | blockFetch | lineRequestReturn | requestTableGrant | storePerformed
      | atomicAtHome | waitaWake | waitaTimeout | pageWalkComplete | missTableGrant | cowBreak | pageMigrationComplete | tlbInvComplete
      | l1WrapClearDone | vectorStart | vectorComplete | matrixStart | matrixComplete | lockClear | copyStart | copyPiecePost
      | copyComplete | arriveEvent | bytesEvent | postEvent | handleResolve | linkPushLand | fwStart | fwComplete | fwDirectoryResolve
      | fwPageInDone | fwTransferComplete | seqStart | seqComplete | sinkBlockProcess | sqRecordLand | dispatchRound | taskFirstIssue
      | preemptEscalate | taskSave | taskResume | taskEnd | trapDelivery | hostEventPost | watchdogExpiry | tWatchdogExpiry
      | safeCountExpiry | hostWrite | cxlSnoop | hostLinkUp | portLinkChange | remoteCopyReceive | semEventLand | softError
      | l2LineEviction | l1LineDrop =>
    exact .of_none rfl
  all_goals simp

/-- Settles O58: each MAJ's words, and the H16 forms, decode from their encoding. -/
theorem decodeEncode : Obligations.DecodeEncode := reads

end Sys2Proof

/-! # The words of the spec, and what a step runs (O56, O57) -/

namespace Sys2Proof.Machine

/-- Settles O56: each word is decoded. -/
theorem specWordsDecode : Obligations.SpecWordsDecode := by
  refine ⟨?_, ?_, ?_, ?_, ?_, ?_, ?_, ?_, ?_, ?_, ?_, ?_⟩ <;> rfl

/-- The step that begins with the turn of a thread is `State.issue` in the state of that turn. -/
theorem step_of_thread_turn {s : State} {c : Fin 64} {r : Role} {l : Bool} {rest : List Turn}
    (h : s.agenda = (if l then .late c r else .issue c r) :: rest) : step s = { s with agenda := rest, late := l }.issue c r := by
  rw [step, h]
  cases l <;> rfl

/-- The turn of a running thread that has no pending trap and need not stop does its pending fetch or issues the word at its position. -/
theorem State.issue_of_running {s : State} {c : Fin 64} {r : Role} (hr : (s.thr c r).status = .running) (ht : (s.thr c r).trap = none)
    (hs : (s.thr c r).stopsAt r (s.preemptOf c) = none) :
    (∀ f, (s.thr c r).fetch = some f → s.issue c r = exec (.blockFetch c r) { s with cur := (c, r) }) ∧
    ∀ b, (s.thr c r).fetch = none → (s.thr c r).blk = some b → s.issue c r = State.issueWord { s with cur := (c, r) } b := by
  have hme : State.me { s with cur := (c, r) } = s.thr c r := rfl
  have hp : State.preemptOf { s with cur := (c, r) } c = s.preemptOf c := rfl
  refine ⟨fun f hf => ?_, fun b hf hb => ?_⟩
  · simp [State.issue, hme, hp, hr, ht, hs, hf]
  · simp [State.issue, hme, hp, hr, ht, hs, hf, hb]

theorem State.issueWord_of_decode {s : State} {b : Blk} :
    (∀ i n, decode (b.body.drop s.me.wpos) = .instr i n → s.issueWord b = exec i s) ∧
    ∀ d n, decode (b.body.drop s.me.wpos) = .ill d n → s.issueWord b = s.trap cILL d := by
  constructor <;> intro _ _ h <;> rw [State.issueWord, h]

/-- An event that fails no read under way, loses no store of a release and no watch leaves what its exec answers. -/
theorem State.event_of_exec {s t : State} {e : Instr} (h : exec e s = .next t) (hf : s.newFaults t = []) (hl : s.lostRels t = [])
    (hw : t.watches = []) : s.event e = .next t := by
  have ht : s.timely t = true := by simp [State.timely, hf, hl]
  have hm : s.meet t = t := by simp [State.meet, hf, hl, hw]
  rw [State.event, h]
  simp only [ht, hm, if_true]

/-- Settles O57: the turn of a thread, and that of an event. -/
theorem stepRunsDecoded : Obligations.StepRunsDecoded := by
  constructor
  · rintro s u c r l rest h rfl hr ht hs
    obtain ⟨hfetch, hword⟩ := State.issue_of_running (s := { s with agenda := rest, late := l }) hr ht hs
    rw [step_of_thread_turn h]
    refine ⟨hfetch, fun b hf hb => ?_⟩
    rw [hword b hf hb]
    exact State.issueWord_of_decode (s := { s with agenda := rest, late := l, cur := (c, r) })
  · rintro s u t e rest h rfl
    rw [step, h]
    refine ⟨fun hh => if_pos hh, fun hh he hf hl hw => ?_⟩
    exact (if_neg (by simp [hh])).trans (State.event_of_exec he hf hl hw)

end Sys2Proof.Machine

/-! # Scalar forms on operand specs, and the H16 forms (O4, O5) -/

namespace Sys2Proof.Machine

variable {s s1 s2 : State}

/-! ## The shared operation of the scalar forms -/

/-- A scalar form that issues, whose sources are read and whose destination takes the result, retires. -/
theorem State.scalar_vals {maj len : Nat} {srcs : List Src} {d : Dst} {f : List Word → Word} {vs ws : List Word}
    (h : s.Issues { maj := maj, chans := srcs.flatMap srcChan ++ dstChan d } (srcs.flatMap srcRegs)) (hs : s.srcs srcs = .vals vs s1)
    (hd : s1.dst d (f vs) = .vals ws s2) : s.scalar maj len srcs d f = .next (s2.upMe fun t => t.retire len) := by
  rw [State.scalar, State.gate_issues h, hs]
  dsimp only
  rw [hd]
  rfl

/-- A form that is the scalar operation with `f` passes any `g` that says the same. -/
theorem Passes.of_scalar {i : Instr} {maj : Nat} {srcs : List Src} {d : Dst} {f g : List Word → Word}
    (hi : ∀ s, exec i s = s.scalar maj 2 srcs d f) (hg : f = g) : Passes i maj srcs d g := by
  subst hg
  intro s s1 s2 vs ws h hs hd
  rw [hi]
  exact State.scalar_vals h hs hd

/-- A form that is the scalar operation with `f` passes every rule that holds of the values of `f`. -/
theorem PassesBy.of_scalar {i : Instr} {maj : Nat} {srcs : List Src} {d : Dst} {f : List Word → Word} {rule : List Word → Word → Prop}
    (hi : ∀ s, exec i s = s.scalar maj 2 srcs d f) (hr : ∀ vs, rule vs (f vs)) : PassesBy i maj srcs d rule := by
  intro s s1 vs h hs
  refine ⟨f vs, hr vs, fun s2 ws hd => ?_⟩
  rw [hi]
  exact State.scalar_vals h hs hd

theorem op1_congr {f g : Word → Word} (h : ∀ x, f x = g x) : op1 f = op1 g := by
  rw [funext h]

theorem op2_congr {f g : Word → Word → Word} (h : ∀ x y, f x y = g x y) : op2 f = op2 g := by
  rw [funext fun x => funext (h x)]

theorem by1_op1 {p : Word → Word → Prop} {f : Word → Word} (h : ∀ x, p x (f x)) (vs : List Word) : by1 p vs (op1 f vs) := by
  rintro x rfl
  exact h x

theorem by2_op2 {p : Word → Word → Word → Prop} {f : Word → Word → Word} (h : ∀ x y, p x y (f x y)) (vs : List Word) :
    by2 p vs (op2 f vs) := by
  rintro x y rfl
  exact h x y

/-- Sources that are g registers are read in order, and nothing changes. -/
theorem State.srcs_g (s : State) (l : List (Fin 32)) : s.srcs (l.map .g) = .vals (l.map s.me.get) s := by
  induction l with
  | nil => rfl
  | cons a l ih => simp [State.srcs, State.src, ih]

/-- A scalar form on g registers gives the value of `f` at its sources, where the rule says so of every thread. -/
theorem Gives.of_scalar {i : Instr} {maj len : Nat} {l : List (Fin 32)} {d : Fin 32} {f : List Word → Word} {rule : Thread → Word → Prop}
    (hi : ∀ s, exec i s = s.scalar maj len (l.map .g) (.g d) f) (hr : ∀ t : Thread, rule t (f (l.map t.get))) :
    Gives i { maj := maj } l len d rule := by
  intro s h
  have hc : (l.map Src.g).flatMap srcChan ++ dstChan (.g d) = [] := by simp [srcChan, dstChan, List.flatMap_map]
  have hl : (l.map Src.g).flatMap srcRegs = l := by simp [srcRegs, List.flatMap_map]
  refine ⟨_, hr s.me, ?_⟩
  have h' : s.Issues { maj := maj, chans := (l.map Src.g).flatMap srcChan ++ dstChan (.g d) } ((l.map Src.g).flatMap srcRegs) := by
    rw [hc, hl]
    exact h
  rw [State.Retires, hi, State.scalar_vals h' (s.srcs_g l) rfl, State.upMe_upMe]

/-! ## What the operations give (R93 to R98) -/

theorem minS_eq (x y : Word) : minS x y = if x.toInt < y.toInt then x else y := by
  simp [minS, BitVec.slt]

theorem maxS_eq (x y : Word) : maxS x y = if x.toInt < y.toInt then y else x := by
  simp [maxS, BitVec.slt]

theorem minU_eq (x y : Word) : minU x y = if x < y then x else y := by
  simp [minU, BitVec.ult, BitVec.lt_def]

theorem maxU_eq (x y : Word) : maxU x y = if x < y then y else x := by
  simp [maxU, BitVec.ult, BitVec.lt_def]

theorem add_shl_eq (x y : Word) (n : Nat) : x + y <<< n = x + BitVec.ofNat 64 (2 ^ n) * y := by
  congr 1
  apply BitVec.eq_of_toNat_eq
  simp [BitVec.toNat_shiftLeft, Nat.shiftLeft_eq, Nat.mul_comm]

theorem flagW_eq (b : Bool) : flagW b = if b then 1 else 0 := rfl

theorem flagW_not (b : Bool) : flagW (!b) = if b then 0 else 1 := by
  cases b <;> rfl

theorem extU_eq (n : Nat) (h : n ≤ 64) (x : Word) : extU n x = x &&& BitVec.ofNat 64 (2 ^ n - 1) := by
  have hn : 2 ^ n - 1 < 2 ^ 64 := by
    have := Nat.pow_le_pow_right (n := 2) (by decide) h
    omega
  have hx : x.toNat % 2 ^ n < 2 ^ 64 := lt_of_le_of_lt (Nat.mod_le _ _) x.isLt
  apply BitVec.eq_of_toNat_eq
  rw [extU, word, BitVec.toNat_ofNat, BitVec.toNat_and, BitVec.toNat_ofNat, Nat.mod_eq_of_lt hn, Nat.mod_eq_of_lt hx,
    Nat.and_two_pow_sub_one_eq_mod]

theorem divU_eq (x y : Word) : divU x y = if y = 0 then -1 else x / y := by
  unfold divU
  split
  · rfl
  · apply BitVec.eq_of_toNat_eq
    rw [word, BitVec.toNat_ofNat, BitVec.toNat_udiv, Nat.mod_eq_of_lt (lt_of_le_of_lt (Nat.div_le_self _ _) x.isLt)]

theorem remU_eq (x y : Word) : remU x y = if y = 0 then x else x % y := by
  unfold remU
  split
  · rfl
  · apply BitVec.eq_of_toNat_eq
    rw [word, BitVec.toNat_ofNat, BitVec.toNat_umod, Nat.mod_eq_of_lt (lt_of_le_of_lt (Nat.mod_le _ _) x.isLt)]

/-- An integer that a word holds is read back. -/
theorem toInt_ofInt_of_mem {i : Int} (h1 : -(2 ^ 63) ≤ i) (h2 : i < 2 ^ 63) : (BitVec.ofInt 64 i).toInt = i := by
  rw [BitVec.toInt_ofInt, Int.bmod_eq_of_le] <;> norm_num <;> omega

theorem toInt_mem (x : Word) : -(2 ^ 63) ≤ x.toInt ∧ x.toInt < 2 ^ 63 :=
  ⟨BitVec.le_toInt x, BitVec.toInt_lt (x := x)⟩

theorem toInt_sextW {n : Nat} (h0 : 0 < n) (h : n ≤ 64) (x : Nat) : (sextW n x).toInt = sint n x := by
  have hp : (2 : Int) ^ n = 2 * 2 ^ (n - 1) := by rw [← pow_succ']; congr 1; omega
  have hq : (2 : Int) ^ (n - 1) ≤ 2 ^ 63 := pow_le_pow_right₀ (by decide) (by omega)
  have hm : ((x % 2 ^ n : Nat) : Int) < 2 ^ n := by exact_mod_cast Nat.mod_lt _ (by positivity)
  rw [sextW]
  apply toInt_ofInt_of_mem <;> dsimp only [sint] <;> split <;> rename_i hs <;> zify at * <;> omega

theorem toInt_extS {n : Nat} (h0 : 0 < n) (h : n ≤ 64) (x : Word) : (extS n x).toInt = sint n x.toNat :=
  toInt_sextW h0 h _

theorem toInt_sshiftRight_eq (x : Word) (n : Nat) : (x.sshiftRight n).toInt = x.toInt / 2 ^ n := by
  rw [BitVec.toInt_sshiftRight, Int.shiftRight_eq_div_pow]; norm_num

theorem getLsbD_rotateRight_eq (x : Word) (n : Nat) {k : Nat} (hk : k < 64) :
    (x.rotateRight n).getLsbD k = x.getLsbD ((k + n % 64) % 64) := by
  rw [BitVec.getLsbD_rotateRight]
  have := Nat.mod_lt n (show 0 < 64 by decide)
  by_cases h : k < 64 - n % 64
  · simp only [h, decide_true, cond_true]
    congr 1; omega
  · simp only [h, decide_false, cond_false, hk, decide_true, Bool.true_and]
    congr 1; omega

/-- The length of the run of places from the start that `p` holds of. -/
theorem length_takeWhile_range (p : Nat → Bool) (n : Nat) :
    ((List.range n).takeWhile p).length ≤ n ∧ (∀ k, k < ((List.range n).takeWhile p).length → p k = true) ∧
      (((List.range n).takeWhile p).length < n → p ((List.range n).takeWhile p).length = false) := by
  induction n generalizing p with
  | zero => simp
  | succ n ih =>
    obtain ⟨h1, h2, h3⟩ := ih (p ∘ Nat.succ)
    rw [List.range_succ_eq_map, List.takeWhile_cons]
    split
    · rename_i hp
      rw [List.takeWhile_map, List.length_cons, List.length_map]
      refine ⟨by omega, fun k hk => ?_, fun hk => h3 (by omega)⟩
      cases k with
      | zero => exact hp
      | succ k => exact h2 k (by omega)
    · rename_i hp
      simpa using hp

theorem toNat_popcW (x : Word) : (popcW x).toNat = (List.range 64).countP fun k => x.getLsbD k := by
  have h : ((List.range 64).filter fun i => x.getLsbD i).length ≤ 64 := by simpa using List.length_filter_le (fun i => x.getLsbD i) (List.range 64)
  rw [popcW, word, BitVec.toNat_ofNat, List.countP_eq_length_filter, Nat.mod_eq_of_lt (by omega)]

theorem toNat_mulhU (x y : Word) : (mulhU x y).toNat = x.toNat * y.toNat / 2 ^ 64 := by
  have h : x.toNat * y.toNat / 2 ^ 64 < 2 ^ 64 := by
    rw [Nat.div_lt_iff_lt_mul (by decide)]
    exact Nat.mul_lt_mul'' x.isLt y.isLt
  rw [mulhU, word, BitVec.toNat_ofNat, Nat.mod_eq_of_lt h]

theorem toInt_mulhS (x y : Word) : (mulhS x y).toInt = x.toInt * y.toInt / 2 ^ 64 := by
  obtain ⟨hx1, hx2⟩ := toInt_mem x
  obtain ⟨hy1, hy2⟩ := toInt_mem y
  have hxy : |x.toInt * y.toInt| ≤ 2 ^ 63 * 2 ^ 63 := by
    rw [abs_mul]
    exact mul_le_mul (abs_le.2 ⟨hx1, hx2.le⟩) (abs_le.2 ⟨hy1, hy2.le⟩) (abs_nonneg _) (by norm_num)
  obtain ⟨h1, h2⟩ := abs_le.1 hxy
  exact toInt_ofInt_of_mem (by omega) (by omega)

theorem toInt_divS (x y : Word) : (divS x y).toInt = if y.toInt = 0 then -1 else
    if x.toInt = -(2 ^ 63) ∧ y.toInt = -1 then -(2 ^ 63) else x.toInt.tdiv y.toInt := by
  have h0 : y = 0 ↔ y.toInt = 0 := by rw [← BitVec.toInt_inj]; rfl
  rw [divS]
  simp only [h0]
  split
  · rfl
  · split
    · rename_i h
      rw [h.1, h.2]
      rfl
    · rename_i h
      rw [← BitVec.toInt_sdiv_of_ne_or_ne x y, BitVec.ofInt_toInt]
      contrapose! h
      rw [h.1, h.2]
      exact ⟨rfl, rfl⟩

theorem toInt_remS (x y : Word) : (remS x y).toInt = if y.toInt = 0 then x.toInt else
    if x.toInt = -(2 ^ 63) ∧ y.toInt = -1 then 0 else x.toInt.tmod y.toInt := by
  have h0 : y = 0 ↔ y.toInt = 0 := by rw [← BitVec.toInt_inj]; rfl
  rw [remS, ← Int.tmod_def, ← BitVec.toInt_srem, BitVec.ofInt_toInt]
  simp only [h0]
  split
  · rfl
  · split
    · rename_i h
      rw [BitVec.toInt_srem, h.1, h.2]
      rfl
    · rfl

/-! ## The forms -/

theorem clzW_counts (y : Word) : (clzW y).toNat ≤ 64 ∧ (∀ k, k < (clzW y).toNat → y.getLsbD (63 - k) = false) ∧
    ((clzW y).toNat < 64 → y.getLsbD (63 - (clzW y).toNat) = true) := by
  have h := length_takeWhile_range (fun i => !y.getLsbD (63 - i)) 64
  rw [clzW, word, BitVec.toNat_ofNat, Nat.mod_eq_of_lt (by omega)]
  simpa using h

theorem ctzW_counts (y : Word) : (ctzW y).toNat ≤ 64 ∧ (∀ k, k < (ctzW y).toNat → y.getLsbD k = false) ∧
    ((ctzW y).toNat < 64 → y.getLsbD (ctzW y).toNat = true) := by
  have h := length_takeWhile_range (fun i => !y.getLsbD i) 64
  rw [ctzW, word, BitVec.toNat_ofNat, Nat.mod_eq_of_lt (by omega)]
  simpa using h

/-- SEL reads both sources and takes one by gD as it was. -/
theorem exec_sel {s s1 : State} {e : Fin 32} {a b : Src} {y z : Word}
    (h : s.Issues { maj := 8, chans := [a, b].flatMap srcChan } (e :: [a, b].flatMap srcRegs)) (hs : s.srcs [a, b] = .vals [y, z] s1) :
    exec (.sel e a b) s = .next (s1.upMe fun t => (t.put e (if s.me.get e = 0 then z else y)).retire 2) := by
  have he : exec (.sel e a b) s = execSel e a b s := rfl
  rw [he, execSel, State.gate_issues h, hs]
  simp [op2, State.done_eq]

/-- Settles O5: every form but SEL is the scalar operation with its own function of the values. -/
theorem channelOperands : Obligations.ChannelOperands := by
  intro d a b x n
  have hlt (x y : Word) : x.ult y = decide (x < y) := rfl
  have hslt (x y : Word) : x.slt y = decide (x.toInt < y.toInt) := rfl
  refine ⟨.of_scalar (fun _ => rfl) rfl, .of_scalar (fun _ => rfl) rfl, .of_scalar (fun _ => rfl) rfl, .of_scalar (fun _ => rfl) rfl,
    .of_scalar (fun _ => rfl) rfl, .of_scalar (fun _ => rfl) rfl, .of_scalar (fun _ => rfl) (op2_congr minS_eq),
    .of_scalar (fun _ => rfl) (op2_congr maxS_eq), .of_scalar (fun _ => rfl) (op2_congr minU_eq),
    .of_scalar (fun _ => rfl) (op2_congr maxU_eq), .of_scalar (fun _ => rfl) (op2_congr fun x y => add_shl_eq x y 1),
    .of_scalar (fun _ => rfl) (op2_congr fun x y => add_shl_eq x y 2), .of_scalar (fun _ => rfl) (op2_congr fun x y => add_shl_eq x y 3),
    .of_scalar (fun _ => rfl) (op2_congr fun x y => add_shl_eq x y 4), .of_scalar (fun _ => rfl) rfl, .of_scalar (fun _ => rfl) rfl,
    .of_scalar (fun _ => rfl) (op2_congr fun x y => by simp [flagW_eq]), .of_scalar (fun _ => rfl) (op2_congr fun x y => by simp [flagW_eq]),
    .of_scalar (fun _ => rfl) (op2_congr fun x y => by simp [flagW_eq, hslt]),
    .of_scalar (fun _ => rfl) (op2_congr fun x y => by rw [flagW_not, hslt]; simp),
    .of_scalar (fun _ => rfl) (op2_congr fun x y => by simp [flagW_eq, hlt]),
    .of_scalar (fun _ => rfl) (op2_congr fun x y => by rw [flagW_not, hlt]; simp), .of_scalar (fun _ => rfl) rfl,
    .of_scalar (fun _ => rfl) (op2_congr divU_eq), .of_scalar (fun _ => rfl) (op2_congr remU_eq),
    .of_scalar (fun _ => rfl) (op1_congr (extU_eq 8 (by decide))), .of_scalar (fun _ => rfl) (op1_congr (extU_eq 16 (by decide))),
    .of_scalar (fun _ => rfl) (op1_congr (extU_eq 32 (by decide))), .of_scalar (fun _ => rfl) rfl, .of_scalar (fun _ => rfl) rfl,
    .of_scalar (fun _ => rfl) rfl, .of_scalar (fun _ => rfl) rfl, .of_scalar (fun _ => rfl) rfl,
    .of_scalar (fun _ => rfl) (by1_op1 fun y => toInt_sshiftRight_eq y n.val), .of_scalar (fun _ => rfl) (by1_op1 fun y k hk => ?rori),
    .of_scalar (fun _ => rfl) (by2_op2 fun y z => toInt_sshiftRight_eq y _), .of_scalar (fun _ => rfl) (by2_op2 fun y z k hk => ?ror),
    .of_scalar (fun _ => rfl) (by1_op1 clzW_counts), .of_scalar (fun _ => rfl) (by1_op1 ctzW_counts),
    .of_scalar (fun _ => rfl) (by1_op1 toNat_popcW), .of_scalar (fun _ => rfl) (by1_op1 (toInt_extS (by decide) (by decide))),
    .of_scalar (fun _ => rfl) (by1_op1 (toInt_extS (by decide) (by decide))),
    .of_scalar (fun _ => rfl) (by1_op1 (toInt_extS (by decide) (by decide))),
    .of_scalar (fun _ => rfl) (by2_op2 toInt_mulhS), .of_scalar (fun _ => rfl) (by2_op2 toNat_mulhU),
    .of_scalar (fun _ => rfl) (by2_op2 toInt_divS), .of_scalar (fun _ => rfl) (by2_op2 toInt_remS), fun e s s1 y z => exec_sel⟩
  case rori => rw [getLsbD_rotateRight_eq _ _ hk, Nat.mod_eq_of_lt n.isLt]
  case ror => rw [getLsbD_rotateRight_eq _ _ hk, Nat.mod_mod]

/-- Settles O4: each form is the scalar operation on g registers, as one halfword. -/
theorem halfwordForms : Obligations.HalfwordForms := by
  intro g b x
  refine ⟨.of_scalar (l := [b]) (fun _ => rfl) ?mov, .of_scalar (l := []) (f := fun _ => imm 6 x.val) (fun _ => rfl) ?li,
    .of_scalar (l := [g]) (fun _ => rfl) ?addi,
    .of_scalar (l := [g, b]) (fun _ => rfl) ?add, .of_scalar (l := [g, b]) (fun _ => rfl) ?sub, .of_scalar (l := [g, b]) (fun _ => rfl) ?and,
    .of_scalar (l := [g, b]) (fun _ => rfl) ?or, .of_scalar (l := [g, b]) (fun _ => rfl) ?xor, .of_scalar (l := [g, b]) (fun _ => rfl) ?mul,
    .of_scalar (l := [g]) (fun _ => rfl) ?slli, .of_scalar (l := [g]) (fun _ => rfl) ?srli, .of_scalar (l := [g]) (fun _ => rfl) ?srai⟩
  case li => exact fun _ => toInt_sextW (by decide) (by decide) _
  all_goals
    intro t
    dsimp only [List.map, op1, op2]
  case addi =>
    rw [BitVec.toNat_add, imm, sextW, BitVec.toNat_ofInt]
    omega
  case add => rw [BitVec.toNat_add]
  case sub =>
    rw [BitVec.toNat_sub]
    omega
  case and => simp
  case or => simp
  case xor => simp
  case mul => rw [BitVec.toNat_mul]
  case slli => rw [BitVec.toNat_shiftLeft, Nat.shiftLeft_eq]
  case srli => rw [BitVec.toNat_ushiftRight, Nat.shiftRight_eq_div_pow]
  case srai => exact toInt_sshiftRight_eq _ _

end Sys2Proof.Machine

/-! # Channel sources and destinations (O6) -/

namespace Sys2Proof.Machine

variable {s s1 : State}

/-! ## The scalar operation at a source or destination that stops it -/

theorem State.scalar_settles {maj len : Nat} {srcs : List Src} {d : Dst} {f : List Word → Word} {vs : List Word}
    (h : s.Issues { maj := maj, chans := srcs.flatMap srcChan ++ dstChan d } (srcs.flatMap srcRegs)) (hs : s.srcs srcs = .vals vs s1) :
    s.scalar maj len srcs d f = s.settle len (s1.dst d (f vs)) := by
  rw [State.scalar, State.gate_issues h, hs]
  rfl

/-- A first source without a value stops the word with nothing read. -/
theorem State.scalar_stops {maj len : Nat} {a : Src} {as : List Src} {d : Dst} {f : List Word → Word}
    (h : s.Issues { maj := maj, chans := (a :: as).flatMap srcChan ++ dstChan d } ((a :: as).flatMap srcRegs)) :
    (∀ w o, s.src a = .wait w o → s.scalar maj len (a :: as) d f = s.block w o) ∧
    ∀ x, s.src a = .chan x → s.scalar maj len (a :: as) d f = s.trap cCHAN x := by
  constructor <;> intros <;> rename_i ha <;> rw [State.scalar, State.gate_issues h] <;> simp only [State.srcs, ha]

/-! ## Reading a channel (R35, R134, R296 to R298) -/

theorem State.chanRead_acquiring {i : Fin 32} {pop : Bool} (ha : s.acqOpen s.cc s.cr = true) : s.chanRead i pop = .wait 10 0 := by
  simp [State.chanRead, ha]

theorem State.chanRead_link {i : Fin 32} {pop : Bool} (ha : s.acqOpen s.cc s.cr = false) (hl : (s.myCore.chans[i]).link = true) :
    s.chanRead i pop = .chan (0x100 + i.val) := by
  simp only [State.chanRead, ha, hl, if_true, Bool.false_eq_true, if_false]

theorem State.chanRead_empty {i : Fin 32} {pop : Bool} (ha : s.acqOpen s.cc s.cr = false) (hl : (s.myCore.chans[i]).link = false)
    (hr : (s.myCore.chans[i]).ring = []) :
    s.chanRead i pop = if (s.myCore.chans[i]).closed then .chan (0x300 + i.val) else .wait 2 i.val := by
  simp only [State.chanRead, ha, hl, hr, Bool.false_eq_true, if_false]

theorem State.chanRead_eos {i : Fin 32} {pop : Bool} {e : ChEnt} {t : List ChEnt} {p : Nat} (ha : s.acqOpen s.cc s.cr = false)
    (hl : (s.myCore.chans[i]).link = false) (hr : (s.myCore.chans[i]).ring = e :: t) (he : e.eos = some p) :
    s.chanRead i pop = .chan (0x200 + i.val) := by
  simp only [State.chanRead, ha, hl, hr, he, Bool.false_eq_true, if_false]

theorem State.chanRead_value {i : Fin 32} {pop : Bool} {e : ChEnt} {t : List ChEnt} (ha : s.acqOpen s.cc s.cr = false)
    (hl : (s.myCore.chans[i]).link = false) (hr : (s.myCore.chans[i]).ring = e :: t) (he : e.eos = none) (hp : e.pend = none) :
    s.chanRead i pop = .vals [word (s.myCore.pool.nat ((s.myCore.chans[i]).base + 8 * e.pos) 8)]
      (if pop then s.upMyCore fun k => k.setChan i { s.myCore.chans[i] with ring := t } else s) := by
  simp only [State.chanRead, ha, hl, hr, he, hp, Bool.false_eq_true, if_false]

/-! ## Pushing on an own ring (R133, R296, R297) -/

theorem State.push_releasing {i : Fin 32} {v : Word} {p : Option Nat} (h : s.relOpen s.cc s.cr = true) : s.push i v p = .wait 10 0 := by
  simp [State.push, h]

/-- What a push on an own ring gives, where no release is open. -/
theorem State.push_own {i : Fin 32} {v : Word} {p : Option Nat} (h : s.relOpen s.cc s.cr = false) (hl : (s.myCore.chans[i]).link = false) :
    s.push i v p = if (s.myCore.chans[i]).refuses (pidOf s.myCore s.cr) then .chan (0x400 + i.val)
      else if (s.myCore.chans[i]).full then .wait 1 i.val
      else .vals [] (s.upMyCore fun k => { k.setChan i ((s.myCore.chans[i]).enqueue none p) with
        pool := k.pool.write ((s.myCore.chans[i]).base + 8 * (s.myCore.chans[i]).tail) (leBytes 8 v.toNat) }) := by
  simp only [State.push, h, hl, Bool.false_eq_true, if_false]

/-! ## ADD with a channel operand -/

/-- ADD of any source and a g register to a g register: a source without a value stops it, and a value is added. -/
theorem exec_add_of_src {d b : Fin 32} {a : Src} (h : s.Issues { maj := 5, chans := srcChan a } (srcRegs a ++ [b])) :
    (∀ w o, s.src a = .wait w o → exec (.add (.g d) a (.g b)) s = s.block w o) ∧
    (∀ x, s.src a = .chan x → exec (.add (.g d) a (.g b)) s = s.trap cCHAN x) ∧
    ∀ v s1, s.src a = .vals [v] s1 →
      exec (.add (.g d) a (.g b)) s = .next (s1.upMe fun x => (x.put d (v + s1.me.get b)).retire 2) := by
  have he : exec (.add (.g d) a (.g b)) s = s.scalar 5 2 [a, .g b] (.g d) (op2 fun x y => x + y) := rfl
  have hi : s.Issues { maj := 5, chans := [a, .g b].flatMap srcChan ++ dstChan (.g d) } ([a, .g b].flatMap srcRegs) := by
    simpa [srcChan, dstChan, srcRegs] using h
  rw [he]
  refine ⟨(State.scalar_stops hi).1, (State.scalar_stops hi).2, fun v s1 ha => ?_⟩
  have hg : s1.src (.g b) = .vals [s1.me.get b] s1 := rfl
  have hv : s.srcs [a, .g b] = .vals [v, s1.me.get b] s1 := by
    simp only [State.srcs, ha, hg]
  rw [State.scalar_settles hi hv]
  simp only [State.dst, State.settle, State.done_eq, State.upMe_upMe, op2]

/-- ADD of g registers that ends with a push on channel i. -/
theorem exec_add_of_push {i a b : Fin 32} (h : s.Issues { maj := 5, chans := [i.val] } [a, b]) :
    exec (.add (.ch i) (.g a) (.g b)) s = s.settle 2 (s.push i (s.me.get a + s.me.get b) none) := by
  have he : exec (.add (.ch i) (.g a) (.g b)) s = s.scalar 5 2 [.g a, .g b] (.ch i) (op2 fun x y => x + y) := rfl
  have hs : s.srcs [.g a, .g b] = .vals [s.me.get a, s.me.get b] s := s.srcs_g [a, b]
  rw [he, State.scalar_settles h hs]
  rfl

theorem exec_add_of_value {d i b : Fin 32} {e : ChEnt} {t : List ChEnt} (h : s.Issues { maj := 5, chans := [i.val] } [b])
    (ha : s.acqOpen s.cc s.cr = false) (hl : (s.myCore.chans[i]).link = false) (hr : (s.myCore.chans[i]).ring = e :: t)
    (he : e.eos = none) (hp : e.pend = none) :
    ∃ v : Word, v = word (s.myCore.pool.nat ((s.myCore.chans[i]).base + 8 * e.pos) 8) + s.me.get b ∧
      exec (.add (.g d) (.peek i) (.g b)) s = .next (s.upMe fun x => (x.put d v).retire 2) ∧
      exec (.add (.g d) (.pop i) (.g b)) s =
        .next ((s.upMyCore fun k => k.setChan i { k.chans[i] with ring := t }).upMe fun x => (x.put d v).retire 2) := by
  refine ⟨_, rfl, (exec_add_of_src (a := .peek i) h).2.2 _ _ (State.chanRead_value ha hl hr he hp), ?_⟩
  have hm : (s.upMyCore fun k => k.setChan i { s.myCore.chans[i] with ring := t }).me = s.me := State.me_upMyCore s _ rfl
  refine ((exec_add_of_src (a := .pop i) h).2.2 _ _ (State.chanRead_value ha hl hr he hp)).trans ?_
  simp only [if_true, hm]
  rfl

theorem exec_add_pushes {i a b : Fin 32} (h : s.Issues { maj := 5, chans := [i.val] } [a, b]) (hr : s.relOpen s.cc s.cr = false)
    (hl : (s.myCore.chans[i]).link = false) (hf : (s.myCore.chans[i]).refuses (pidOf s.myCore s.cr) = false)
    (hu : (s.myCore.chans[i]).full = false) :
    ∃ s', exec (.add (.ch i) (.g a) (.g b)) s = .next s' ∧
      s'.me = s.me.retire 2 ∧ s'.mem = s.mem ∧
      s'.myCore.pool = s.myCore.pool.write ((s.myCore.chans[i]).base + 8 * (s.myCore.chans[i]).tail)
        (leBytes 8 (s.me.get a + s.me.get b).toNat) ∧
      (s'.myCore.chans[i]).ring = (s.myCore.chans[i]).ring ++ [{ pos := (s.myCore.chans[i]).tail, eos := none, pend := none }] ∧
      (s'.myCore.chans[i]).tail = ((s.myCore.chans[i]).tail + 1) % 2 ^ (s.myCore.chans[i]).capl ∧
      ∀ j : Fin 32, j ≠ i → s'.myCore.chans[j] = s.myCore.chans[j] := by
  rw [exec_add_of_push h, State.push_own hr hl]
  simp only [hf, hu, Bool.false_eq_true, if_false]
  refine ⟨_, rfl, ?_, rfl, ?_, ?_, ?_, fun j hj => ?_⟩
  · rw [State.me_upMe, State.me_upMyCore]
    rfl
  all_goals simp only [State.myCore_upMe, State.myCore_upMyCore, Core.setThr, Core.setChan]
  · simp [Chan.enqueue]
  · simp [Chan.enqueue]
  · exact Vector.getElem_set_ne _ _ (fun hij => hj (Fin.ext hij.symm))

/-- Settles O6: outcome by outcome of the read and of the push. -/
theorem channelAccess : Obligations.ChannelAccess := by
  refine ⟨⟨fun s d i b e t => exec_add_of_value, fun s d i b h ha hl hr => ?_, fun s d i b e t p h ha hl hr he => ?_,
    fun s d i b h ha hl => ?_, fun s d i b h ha => ⟨?_, ?_⟩⟩, fun s i a b => exec_add_pushes, fun s i a b h hr hl hf => ?_,
    fun s i a b h hr hl hf hu => ?_, fun s i a b h hr => ?_⟩
  · have hc := State.chanRead_empty (pop := true) ha hl hr
    split at hc
    · exact ((exec_add_of_src (a := .pop i) h).2.1 _ hc).trans (if_pos ‹_›).symm
    · exact ((exec_add_of_src (a := .pop i) h).1 _ _ hc).trans (if_neg ‹_›).symm
  · exact (exec_add_of_src (a := .pop i) h).2.1 _ (State.chanRead_eos ha hl hr he)
  · exact (exec_add_of_src (a := .pop i) h).2.1 _ (State.chanRead_link ha hl)
  · exact (exec_add_of_src (a := .pop i) h).1 _ _ (State.chanRead_acquiring ha)
  · exact (exec_add_of_src (a := .peek i) h).1 _ _ (State.chanRead_acquiring ha)
  · rw [exec_add_of_push h, State.push_own hr hl, if_pos hf]
    rfl
  · rw [exec_add_of_push h, State.push_own hr hl, if_neg (ne_true_of_eq_false hf), if_pos hu]
    rfl
  · rw [exec_add_of_push h, State.push_releasing hr]
    rfl

end Sys2Proof.Machine

/-! # Control transfers (O7) -/

namespace Sys2Proof.Machine

variable {s : State}

/-- What a change of the current thread leaves depends only on what it makes of that thread. -/
theorem State.upMe_congr {f g : Thread → Thread} (h : f s.me = g s.me) : s.upMe f = s.upMe g := by
  rw [State.upMe, State.upMe, h]

/-- An address moves by a signed amount modulo 2^64. -/
theorem addrAdd_cast (a : Nat) (i : Int) : (addrAdd a i : Int) = (a + i) % 2 ^ 64 := by
  have h : 0 ≤ ((a : Int) + i) % 2 ^ 64 := Int.emod_nonneg _ (by decide)
  rw [addrAdd, ofInt]
  push_cast
  omega

/-- A relative target (R32). -/
theorem Thread.target_eq (t : Thread) (n off : Nat) : (t.target n off : Int) = (t.pc + 2 * sint n off) % 2 ^ 64 := addrAdd_cast _ _

/-- The six conditions of R86. -/
theorem condHolds_iff {c : Nat} (hc : c < 6) (x y : Word) : condHolds c x y = true ↔
    (c = 0 ∧ x = y) ∨ (c = 1 ∧ x ≠ y) ∨ (c = 2 ∧ x.toInt < y.toInt) ∨ (c = 3 ∧ y.toInt ≤ x.toInt) ∨ (c = 4 ∧ x.toNat < y.toNat) ∨
      (c = 5 ∧ y.toNat ≤ x.toNat) := by
  interval_cases c <;> simp [condHolds, BitVec.slt, BitVec.ult]

theorem exec_jmp {o : Fin 33554432} (h : s.Issues { maj := 1 } []) :
    exec (.jmp o) s = .next (s.upMe fun t => t.transfer (s.me.target 25 o.val) t.pc .jump) := by
  show execJmp o s = _
  rw [execJmp, State.gate_issues h]
  rfl

theorem exec_call {o : Fin 33554432} (h : s.Issues { maj := 2 } []) :
    exec (.call o) s = .next (s.upMe fun t => (t.put 31 (word t.nextHdr)).transfer (s.me.target 25 o.val) t.pc .call) := by
  show execCall o s = _
  rw [execCall, State.gate_issues h]
  rfl

theorem exec_conditionalBranch {c : Fin 8} {a b : Fin 32} {p : Fin 4096} (h : s.Issues { maj := 3 } [a, b]) :
    exec (.conditionalBranch c a b p) s = .next (s.upMe fun t =>
      if condHolds c.val (t.get a) (t.get b) then t.transfer (s.me.target 12 p.val) t.pc .jump else t.retire 2) := by
  show execConditionalBranch c a b p s = _
  rw [execConditionalBranch, State.gate_issues h]
  split
  · exact congrArg _ (State.upMe_congr (if_pos ‹_›).symm)
  · exact congrArg _ (State.upMe_congr (if_neg ‹_›).symm)

theorem exec_ret (h : s.Issues { maj := 4 } [31]) : exec .ret s = s.indirect (s.me.get 31) .jump false := by
  show execRet s = _
  rw [execRet, State.gate_issues h]

theorem exec_jr {a : Fin 32} (h : s.Issues { maj := 4 } [a]) : exec (.jr a) s = s.indirect (s.me.get a) .jump false := by
  show execJr a s = _
  rw [execJr, State.gate_issues h]

theorem exec_callr {a : Fin 32} (h : s.Issues { maj := 4 } [a]) : exec (.callr a) s = s.indirect (s.me.get a) .call true := by
  show execCallr a s = _
  rw [execCallr, State.gate_issues h]

theorem nop_retires (h : s.Issues { maj := 4 } []) : s.Retires .nop 2 id := by
  show execNop s = _
  rw [execNop, State.gate_issues h]
  rfl

theorem nopH16_retires (h : s.Issues { maj := 5 } []) : s.Retires .nopH16 1 id := by
  show execNopH16 s = _
  rw [execNopH16, State.gate_issues h]
  rfl

/-- Settles O7: a relative transfer by the arithmetic of its target, an indirect one by `State.indirect`. -/
theorem controlTransfers : Obligations.ControlTransfers := by
  intro s o c p a b
  refine ⟨fun h => ⟨_, s.me.target_eq 25 o.val, exec_jmp h⟩, fun h => ⟨_, s.me.target_eq 25 o.val, exec_call h⟩,
    fun h hc => ⟨_, s.me.target_eq 12 p.val, ?_⟩, exec_ret, exec_jr, exec_callr, nop_retires, nopH16_retires⟩
  rw [exec_conditionalBranch h]
  simp only [condHolds_iff hc]

end Sys2Proof.Machine

/-! # Traps of TRAP and BRK, and TRET (O9, O10) -/

namespace Sys2Proof.Machine

variable {s : State} {c : Fin 64} {r : Role} {k : Core} {p : PTrap}

/-! ## Taking a trap (R49, R397, R399) -/

/-- Whether a thread's earlier work is complete is seen from its registers, its stores, and the queues of its core. -/
theorem State.quiescent_setCore (ho : (k.thr r).own = (s.thr c r).own) (hs : (k.thr r).stores = (s.thr c r).stores)
    (hq : k.reqs = (s.core c).reqs) (hr : k.recs = (s.core c).recs) (hv : k.vq = (s.core c).vq) (hm : k.mx = (s.core c).mx) :
    (s.setCore c k).quiescent c r = s.quiescent c r := by
  have ht : (s.setCore c k).thr c r = k.thr r := by simp [State.thr]
  have hl : (s.setCore c k).undeliverable c = s.undeliverable c := rfl
  have hw : k.recOwes = (s.core c).recOwes := by
    funext id
    simp only [Core.recOwes, hr]
  simp only [State.quiescent, State.regsBack, State.readsBack, Core.vectorBack, Thread.ready, ht, hl, hw, State.core_setCore, ho, hs, hq,
    hv, hm]

/-- The core in which thread r has raised a trap. -/
def Core.raised (k : Core) (r : Role) (p : PTrap) : Core :=
  (k.waitsNot r).setThr r { k.thr r with trap := some p, why := 0, obj := 0 }

theorem Core.thr_raised : (k.raised r p).thr r = { k.thr r with trap := some p, why := 0, obj := 0 } := by
  simp [Core.raised]

theorem State.trapAt_eq : s.trapAt c r p = (s.setCore c ((s.core c).raised r p)).deliverTrap c r := by
  have h : (s.upCore c fun k => k.waitsNot r).upThr c r (fun t => { t with trap := some p, why := 0, obj := 0 }) =
      s.setCore c ((s.core c).raised r p) := by
    simp [State.upThr, State.setThr, State.upCore, State.thr, Core.raised, Core.waitsNot, Core.thr]
  rw [State.trapAt, h]

/-- A role thread's trap that can be taken puts the core into the state in which T serves it; the machine is otherwise as it was. -/
theorem State.trapAt_taken (hr : r ≠ .T) (hrun : (s.thr c r).status = .running) (hq : s.quiescent c r = true)
    (hf : (s.core c).served = none) (hp : s.posting c = false) (hh : toHost (s.core c).view p.cause = false) :
    s.trapAt c r p = s.setCore c (((s.core c).raised r p).takeTrap c r p) := by
  have ht : (s.setCore c ((s.core c).raised r p)).thr c r = { s.thr c r with trap := some p, why := 0, obj := 0 } := by
    simp [State.thr, Core.thr_raised]
  have ho : (((s.core c).raised r p).thr r).own = (s.thr c r).own ∧ (((s.core c).raised r p).thr r).stores = (s.thr c r).stores := by
    rw [Core.thr_raised]
    exact ⟨rfl, rfl⟩
  have hq' : (s.setCore c ((s.core c).raised r p)).quiescent c r = true :=
    (State.quiescent_setCore (k := (s.core c).raised r p) ho.1 ho.2 rfl rfl rfl rfl).trans hq
  have hf' : ((s.core c).raised r p).served = none := hf
  have hp' : (s.setCore c ((s.core c).raised r p)).posting c = false := hp
  have hh' : toHost ((s.core c).raised r p).view p.cause = false := hh
  have hc : (s.setCore c ((s.core c).raised r p)).canTake c r = true := by
    simp [State.canTake, hq', ht, hrun, hf', hp']
  simp only [State.trapAt_eq, State.deliverTrap, hc, ht, hr, State.core_setCore, hh', if_true, if_false, Bool.false_eq_true, State.upCore,
    State.setCore_setCore]

/-- The trap that `State.trapAfter` raises. -/
def State.softTrap (s : State) (n cause detail : Nat) : PTrap :=
  { cause := cause, detail := detail, trapa := s.me.pc,
    trappc := match (s.me.retire n).fetch with
      | some f => f.target + 4
      | none => (s.me.retire n).pc
    fva := 0, kind := 0, hdr := s.me.hdr, reps := s.me.reps, wpos := s.me.wpos }

/-- A word that traps after it has retired, where its trap can be taken. -/
theorem State.trapAfter_taken {n cause detail : Nat} (hr : s.cr ≠ .T) (hrun : s.me.status = .running)
    (hq : s.quiescent s.cc s.cr = true) (hf : s.myCore.served = none) (hp : s.posting s.cc = false)
    (hh : toHost s.myCore.view cause = false) :
    s.trapAfter n cause detail = .next (s.setCore s.cc
      (((s.myCore.setThr s.cr (s.me.retire n)).raised s.cr (s.softTrap n cause detail)).takeTrap s.cc s.cr (s.softTrap n cause detail))) := by
  have hk : (s.myCore.setThr s.cr (s.me.retire n)).thr s.cr = s.me.retire n := Core.thr_setThr _ _ _
  have ht : (s.setCore s.cc (s.myCore.setThr s.cr (s.me.retire n))).thr s.cc s.cr = s.me.retire n := by
    rw [State.thr, State.core_setCore, hk]
  have hc : (s.setCore s.cc (s.myCore.setThr s.cr (s.me.retire n))).core s.cc = s.myCore.setThr s.cr (s.me.retire n) :=
    s.core_setCore s.cc _
  have ho : ((s.myCore.setThr s.cr (s.me.retire n)).thr s.cr).own = s.me.own ∧
      ((s.myCore.setThr s.cr (s.me.retire n)).thr s.cr).stores = s.me.stores := by
    rw [hk]
    exact ⟨Thread.retire_own _ _, Thread.retire_stores _ _⟩
  have hq' : (s.setCore s.cc (s.myCore.setThr s.cr (s.me.retire n))).quiescent s.cc s.cr = true :=
    (State.quiescent_setCore (k := s.myCore.setThr s.cr (s.me.retire n)) ho.1 ho.2 rfl rfl rfl rfl).trans hq
  have hs := State.trapAt_taken (p := s.softTrap n cause detail) hr (by rw [ht, Thread.retire_status, hrun]) hq' (by rw [hc]; exact hf) hp
    (by rw [hc]; exact hh)
  rw [hc, State.setCore_setCore] at hs
  exact congrArg Host.Outcome.next hs

/-! ## What T finds (R80, R394, R395, R397) -/

theorem Core.takeTrap_thr_T : (k.takeTrap c r p).thr .T =
    { ((k.thr .T).put 1 (word (ownWin (frameAt r)))).put 2 (word (k.view.mimg + 0x200000 * c.val)) with
      status := .running, blk := none, ahead := none, reps := 0, wpos := 0, hdr := k.view.tvec, why := 0, obj := 0, trap := none,
      stage := .none, fetch := some { target := k.view.tvec, src := k.view.tvec, kind := .entry } } :=
  Core.thr_setThr _ _ _

theorem Core.takeTrap_thr (hr : r ≠ .T) : (k.takeTrap c r p).thr r = { k.thr r with why := 12, obj := 0, blk := none } :=
  (Core.thr_setThr_ne _ _ hr).trans (Core.thr_setThr _ _ _)

theorem length_frameBytes (th n : Nat) : (frameBytes th n p).length = 64 := by simp [frameBytes]

theorem Core.takeTrap_pool {x : Nat} (hx : x < frameAt r ∨ frameAt r + 64 ≤ x) : (k.takeTrap c r p).pool.get x = k.pool.get x :=
  Mem.get_write_out _ _ _ _ (by rwa [length_frameBytes])

theorem Core.takeTrap_get : ((k.takeTrap c r p).thr .T).get 1 = word (ownWin (frameAt r)) ∧
    ((k.takeTrap c r p).thr .T).get 2 = word (k.view.mimg + 0x200000 * c.val) ∧
    ∀ j : Fin 32, j ≠ 1 → j ≠ 2 → ((k.takeTrap c r p).thr .T).get j = (k.thr .T).get j := by
  rw [Core.takeTrap_thr_T]
  refine ⟨?_, Thread.get_put_same _ 2 _ (by decide), fun j h1 h2 => ?_⟩
  · exact (Thread.get_put_ne _ 2 1 _ (by decide)).trans (Thread.get_put_same _ 1 _ (by decide))
  · exact (Thread.get_put_ne _ 2 j _ h2).trans (Thread.get_put_ne _ 1 j _ h1)

/-- Settles O9: TRAP and BRK are `State.trapAfter`, and T takes the trap. -/
theorem softwareTraps : Obligations.SoftwareTraps := by
  intro s code bc c d i hi hr hrun hq hf hp hh
  have he : exec i s = s.trapAfter 2 c d := by
    rcases hi with ⟨rfl, rfl, rfl, h⟩ | ⟨rfl, rfl, rfl, h⟩
    · show execTrap code s = _
      rw [execTrap, State.gate_issues h]
    · show execBrk bc s = _
      rw [execBrk, State.gate_issues h]
  have hT : ((s.myCore.setThr s.cr (s.me.retire 2)).raised s.cr (s.softTrap 2 c d)).thr .T = s.thr s.cc .T := by
    refine (Core.thr_setThr_ne _ _ hr.symm).trans ?_
    exact Core.thr_setThr_ne _ _ hr.symm
  obtain ⟨hg1, hg2, hgj⟩ := Core.takeTrap_get (k := (s.myCore.setThr s.cr (s.me.retire 2)).raised s.cr (s.softTrap 2 c d)) (c := s.cc) (r := s.cr)
    (p := s.softTrap 2 c d)
  refine ⟨_, he.trans (State.trapAfter_taken hr hrun hq hf hp hh), ?_⟩
  simp only [State.thr, State.core_setCore]
  rw [Core.takeTrap_thr hr]
  refine ⟨rfl, rfl, rfl, rfl, rfl, ?_, ?_, ?_, hg2, fun j h1 h2 => ?_, ?_, rfl, fun x hx => Core.takeTrap_pool hx, rfl, rfl,
    fun m hm => State.core_setCore_ne _ _ hm⟩
  · rw [Core.takeTrap_thr_T]
  · rw [Core.takeTrap_thr_T]
    rfl
  · rw [hg1, ownWin, frameAt, ← Nat.add_assoc]
  · rw [hgj j h1 h2, hT]
    rfl
  · rw [Core.thr_raised, Core.thr_setThr, Thread.retire_g]

/-! ## Returning from a trap (R44, R255, R413) -/

/-- The core with other slots and another matrix queue. -/
def Core.withQueue (k : Core) (sl : Vector Slot 64) (q : List MEnt) : Core := { k with slots := sl, mx := { k.mx with queue := q } }

/-- The halted products of a thread go on: only slots and the matrix queue change. -/
theorem Core.unhalt_eq (k : Core) (r : Role) : ∃ sl q, k.unhalt r = k.withQueue sl q := by
  unfold Core.unhalt
  generalize k.mx.queue = l
  suffices h : ∀ sl q, ∃ sl' q', l.foldl _ (k.withQueue sl q) = k.withQueue sl' q' from h k.slots k.mx.queue
  induction l with
  | nil => exact fun sl q => ⟨sl, q, rfl⟩
  | cons e l ih =>
    intro sl q
    rw [List.foldl_cons]
    split
    · split
      · exact ih _ _
      · exact ih _ _
    · exact ih _ _

/-- T, and the thread that it served, after TRET. -/
theorem Core.leaveTrap_threads (hs : k.served = some r) (hr : r ≠ .T) :
    k.leaveTrap.thr .T = { k.thr .T with status := .idle, fetch := none, blk := none, scnt := 0, why := 0, obj := 0 } ∧
    k.leaveTrap.thr r = (k.thr r).resume k.tpcw k.trappc.toNat := by
  have h : k.leaveTrap = { ((k.setThr r ((k.thr r).resume k.tpcw k.trappc.toNat)).setThr .T
      { k.thr .T with status := .idle, fetch := none, blk := none, scnt := 0, why := 0, obj := 0 }) with served := none, tpcw := false } := by
    simp only [Core.leaveTrap, hs, Core.thr_setThr_ne _ _ hr.symm]
  rw [h]
  exact ⟨Core.thr_setThr _ _ _, (Core.thr_setThr_ne _ _ hr).trans (Core.thr_setThr _ _ _)⟩

theorem Core.leaveTrap_rest (hs : k.served = some r) :
    k.leaveTrap.served = none ∧ k.leaveTrap.mx = k.mx ∧ k.leaveTrap.pool = k.pool := by
  simp only [Core.leaveTrap, hs]
  exact ⟨trivial, rfl, rfl⟩

/-- The core that TRET leaves. -/
def Core.returned (k : Core) (r : Role) : Core :=
  ((((k.upMx fun m => { m with frozen := false }).setThr .T ((k.thr .T).retire 2))).unhalt r).leaveTrap

theorem exec_tret (h : s.Issues { maj := 52, priv := true } []) (hs : s.myCore.served = some r) (hp : s.myCore.mx.parked = false)
    (ht : s.myCore.tpcw = false) : exec .tret s = .next (s.upMyCore fun k => k.returned r) := by
  have hb : s.badTrappc s.cc = none := by
    have ht' : (s.core s.cc).tpcw = false := ht
    simp [State.badTrappc, ht']
  show execTret s = _
  rw [execTret, State.gate_issues h]
  simp only [hs, hp, hb, ht, Bool.false_eq_true, if_false]
  rfl

theorem Core.returned_threads (hs : k.served = some r) (hr : r ≠ .T) :
    (k.returned r).thr .T = { (k.thr .T).retire 2 with status := .idle, fetch := none, blk := none, scnt := 0, why := 0, obj := 0 } ∧
    (k.returned r).thr r = (k.thr r).resume k.tpcw k.trappc.toNat := by
  obtain ⟨sl, q, hu⟩ := ((k.upMx fun m => { m with frozen := false }).setThr .T ((k.thr .T).retire 2)).unhalt_eq r
  obtain ⟨hT, hr'⟩ := Core.leaveTrap_threads (k := ((k.upMx fun m => { m with frozen := false }).setThr .T ((k.thr .T).retire 2)).withQueue sl q)
    hs hr
  have h1 : (((k.upMx fun m => { m with frozen := false }).setThr .T ((k.thr .T).retire 2)).withQueue sl q).thr .T = (k.thr .T).retire 2 :=
    Core.thr_setThr _ _ _
  have h2 : (((k.upMx fun m => { m with frozen := false }).setThr .T ((k.thr .T).retire 2)).withQueue sl q).thr r = k.thr r :=
    Core.thr_setThr_ne _ _ hr
  rw [Core.returned, hu, hT, hr', h1, h2]
  exact ⟨rfl, rfl⟩

theorem Core.returned_rest (hs : k.served = some r) :
    (k.returned r).served = none ∧ (k.returned r).mx.frozen = false ∧ (k.returned r).pool = k.pool := by
  obtain ⟨sl, q, hu⟩ := ((k.upMx fun m => { m with frozen := false }).setThr .T ((k.thr .T).retire 2)).unhalt_eq r
  obtain ⟨h1, h2, h3⟩ := Core.leaveTrap_rest (k := ((k.upMx fun m => { m with frozen := false }).setThr .T ((k.thr .T).retire 2)).withQueue sl q)
    hs
  rw [Core.returned, hu, h1, h2, h3]
  exact ⟨rfl, rfl, rfl⟩

/-- Settles O10: the core that TRET leaves, and nothing else, is another. -/
theorem trapReturn : Obligations.TrapReturn := by
  intro s r h hc hr hs hp ht
  obtain ⟨hT, hr'⟩ := Core.returned_threads hs hr
  obtain ⟨h1, h2, h3⟩ := Core.returned_rest hs
  have hk : (s.upMyCore fun k => k.returned r).core s.cc = s.myCore.returned r := s.myCore_upMyCore _
  have hme : s.me = s.myCore.thr .T := by rw [State.me, hc]; rfl
  refine ⟨_, exec_tret h hs hp ht, ?_⟩
  simp only [State.thr, hk, hT, hr', h1, h2, h3, ht, hme, Thread.retire_g, Thread.resume, Bool.false_eq_true, if_false]
  refine ⟨trivial, trivial, trivial, trivial, trivial, trivial, trivial, rfl, rfl, fun hf => ?_, fun f hf => ?_, rfl, trivial, rfl,
    fun m hm => State.core_upCore_ne s _ hm⟩
  · have hf' : (s.myCore.thr r).fetch = none := hf
    simp only [hf']
    rfl
  · have hf' : (s.myCore.thr r).fetch = some f := hf
    simp only [hf']

end Sys2Proof.Machine

/-! # Block fetch (O11) -/

namespace Sys2Proof.Machine

variable {s : State} {c : Fin 64} {r : Role} {f : Fetch} {b : Blk}

/-! ## Entering a block (R39, R43, R44) -/

/-- The thread at the first word of a block, with the header's count. -/
def Thread.start (t : Thread) (b : Blk) : Thread :=
  { t with hdr := b.hdr, blk := some b, fetch := none, ahead := none, why := 0, obj := 0, reps := t.count b.head.toNat, wpos := 0 }

theorem Thread.safePoint_eq (t : Thread) (p l : Nat) : ∃ st, t.safePoint p l = { t with scnt := 0, status := st } := by
  rw [Thread.safePoint]
  split
  · exact ⟨_, rfl⟩
  · exact ⟨_, rfl⟩

/-- A transfer or a fall-through starts at the first word; an entry header is a safe point of L, C and S. -/
theorem Thread.enter_eq_start (t : Thread) {k : FetchKind} {p : Nat} (hk : ∀ n w, k ≠ .resume n w) :
    t.enter b k r p = if bits b.head.toNat 30 2 = 1 ∧ r ≠ .T then (t.start b).safePoint p allLive else t.start b := by
  cases k with
  | resume n w => exact absurd rfl (hk n w)
  | _ => rfl

theorem Thread.enter_start (t : Thread) {k : FetchKind} {p : Nat} (hk : ∀ n w, k ≠ .resume n w) :
    (t.enter b k r p).blk = some b ∧ (t.enter b k r p).hdr = b.hdr ∧ (t.enter b k r p).wpos = 0 ∧ (t.enter b k r p).fetch = none ∧
    (t.enter b k r p).g = t.g ∧ (t.enter b k r p).reps = t.count b.head.toNat ∧
    (bits b.head.toNat 30 2 = 1 → r ≠ .T → (t.enter b k r p).scnt = 0) := by
  obtain ⟨st, hs⟩ := (t.start b).safePoint_eq p allLive
  rw [Thread.enter_eq_start t hk, hs]
  split
  · exact ⟨rfl, rfl, rfl, rfl, rfl, rfl, fun _ _ => rfl⟩
  · rename_i h
    exact ⟨rfl, rfl, rfl, rfl, rfl, rfl, fun h1 h2 => absurd ⟨h1, h2⟩ h⟩

/-- A resume goes on with the saved repeats and word. -/
theorem Thread.enter_resume (t : Thread) {n w p : Nat} : t.enter b (.resume n w) r p =
    { t with hdr := b.hdr, blk := some b, fetch := none, ahead := none, why := 0, obj := 0, reps := n, wpos := w } := rfl

/-! ## The outcomes of a fetch -/

/-- The thread waits for the register that the header's count stands in; a resume has its count (R39, R44, R82). -/
def Thread.awaitsCount (t : Thread) (b : Blk) : FetchKind → Bool
  | .resume _ _ => false
  | _ => bits b.head.toNat 17 1 == 1 && !(t.ready (Fin.ofNat 32 (bits b.head.toNat 18 5)))

theorem Thread.awaitsCount_eq_false {t : Thread} {k : FetchKind} (h : (∀ n w, k ≠ .resume n w) → bits b.head.toNat 17 1 = 1 →
    t.ready (Fin.ofNat 32 (bits b.head.toNat 18 5)) = true) : t.awaitsCount b k = false := by
  cases k with
  | resume n w => rfl
  | _ =>
    by_cases hb : bits b.head.toNat 17 1 = 1
    · simp only [Thread.awaitsCount, h nofun hb, Bool.not_true, Bool.and_false]
    · simp only [Thread.awaitsCount, beq_false_of_ne hb, Bool.false_and]

section
theorem State.blockFetch_acquiring (ha : s.acqOpen c r = true) : s.blockFetch c r = s := by
  simp [State.blockFetch, ha]

variable (hf : (s.thr c r).fetch = some f) (hr : (s.thr c r).status = .running) (ht : (s.thr c r).trap = none)
  (ha : s.acqOpen c r = false)
include hf hr ht ha

/-- What BLOCK_FETCH does is told by what the fetch finds. -/
theorem State.blockFetch_eq : s.blockFetch c r = match s.findBlock c r (s.thr c r) f with
    | .held => s
    | .miss => s.upCore c fun k => k.awaitWalk (.fetch r)
    | .busy => s.upThr c r fun t => { t with why := 13, obj := 0 }
    | .bad ca d va kind => s.trapAt c r { (s.thr c r).faultHere ca d va kind with trapa := f.src, trappc := f.target }
    | .ok b =>
      if (s.thr c r).awaitsCount b f.kind then s
      else (s.upCore c fun k => k.unwaitWalk (.fetch r)).upThr c r fun t => t.enter b f.kind r (s.preemptOf c) := by
  have hn : ¬((s.thr c r).status ≠ .running ∨ (s.thr c r).trap.isSome = true ∨ s.acqOpen c r = true) := by
    simp [hr, ht, ha]
  rw [State.blockFetch]
  simp only [hn, if_false, hf]
  rfl

/-- A fetch that finds its block enters it. -/
theorem State.blockFetch_enters (hb : s.findBlock c r (s.thr c r) f = .ok b)
    (hg : (∀ n w, f.kind ≠ .resume n w) → bits b.head.toNat 17 1 = 1 → (s.thr c r).ready (Fin.ofNat 32 (bits b.head.toNat 18 5)) = true) :
    ∃ s', s.blockFetch c r = s' ∧ s'.thr c r = (s.thr c r).enter b f.kind r (s.preemptOf c) ∧ s'.mem = s.mem ∧ s'.sys = s.sys := by
  have hw := Thread.awaitsCount_eq_false hg
  rw [State.blockFetch_eq hf hr ht ha, hb]
  simp only [hw, Bool.false_eq_true, if_false]
  exact ⟨_, rfl, by rw [State.thr_upThr]; simp [State.thr, State.upCore, Core.unwaitWalk, Core.thr], rfl, rfl⟩

end

/-- Settles O11: outcome by outcome of what the fetch finds. -/
theorem blockFetch : Obligations.BlockFetch := by
  intro s c r f hf hr ht
  have he : exec (.blockFetch c r) s = .next (s.blockFetch c r) := rfl
  rw [he]
  refine ⟨fun ha => congrArg _ (State.blockFetch_acquiring ha), fun ha => ⟨fun b hb hk hg => ?enters, fun b n w hb hk => ?resumes,
    fun h => ?busy, fun h => ?held, fun h => ?miss, fun ho hn => ?odd⟩⟩
  case enters =>
    obtain ⟨s', h, h', hm, hs⟩ := State.blockFetch_enters hf hr ht ha hb fun _ => hg
    obtain ⟨h1, h2, h3, h4, h5, h6, h7⟩ := (s.thr c r).enter_start (b := b) (r := r) (p := s.preemptOf c) hk
    refine ⟨s', congrArg _ h, ?_⟩
    rw [h']
    exact ⟨h1, h2, h3, h4, h5, h6, h7, hm, hs⟩
  case resumes =>
    obtain ⟨s', h, h', hm, -⟩ := State.blockFetch_enters hf hr ht ha hb fun h => absurd hk (h n w)
    refine ⟨s', congrArg _ h, ?_⟩
    rw [h', hk, Thread.enter_resume]
    exact ⟨rfl, rfl, rfl, rfl, rfl, hm⟩
  case busy => rw [State.blockFetch_eq hf hr ht ha, h]
  case held => rw [State.blockFetch_eq hf hr ht ha, h]
  case miss => rw [State.blockFetch_eq hf hr ht ha, h]
  case odd =>
    have hb : s.findBlock c r (s.thr c r) f = .bad cBTGT 3 0 0 := by
      simp only [State.findBlock, hn, ho, if_true]
    rw [State.blockFetch_eq hf hr ht ha, hb]

end Sys2Proof.Machine

/-! # Scalar loads and stores (O12, O13) -/

namespace Sys2Proof.Machine

variable {s s0 s1 s2 t u : State}

/-! ## What an access leaves of the machine -/

/-- A core but for its port TLBs, its request table and the queues before the tables. -/
def Core.kept (k : Core) : Core :=
  { k with ptlb := Core.reset.ptlb, reqs := [], reqwait := [], walkwait := [] }

/-- From s to t, memory, system registers, the turn's thread and what `Core.kept` shows of every core stay as they are. -/
structure State.Keeps (s t : State) : Prop where
  mem : t.mem = s.mem
  sys : t.sys = s.sys
  cur : t.cur = s.cur
  core : ∀ k : Fin 64, (t.core k).kept = (s.core k).kept

theorem State.Keeps.refl (s : State) : s.Keeps s := ⟨rfl, rfl, rfl, fun _ => rfl⟩

theorem State.Keeps.trans (h : s.Keeps t) (h' : t.Keeps u) : s.Keeps u :=
  ⟨h'.mem.trans h.mem, h'.sys.trans h.sys, h'.cur.trans h.cur, fun k => (h'.core k).trans (h.core k)⟩

theorem State.keeps_upMyCore (s : State) {f : Core → Core} (h : (f s.myCore).kept = s.myCore.kept) : s.Keeps (s.upMyCore f) := by
  refine ⟨rfl, rfl, rfl, fun k => ?_⟩
  by_cases hk : k = s.cc
  · subst hk
    exact (congrArg Core.kept (s.myCore_upMyCore f)).trans h
  · exact congrArg Core.kept (State.core_upCore_ne s f hk)

theorem State.keeps_nextOp (s : State) (n : Nat) : s.Keeps { s with nextOp := n } := ⟨rfl, rfl, rfl, fun _ => rfl⟩

/-- What is read of a core without its tables is read alike in both states. -/
theorem State.Keeps.read {α : Type} (h : s.Keeps t) (p : Core → α) (k : Fin 64) (hp : ∀ k : Core, p k.kept = p k := by exact fun _ => rfl) :
    p (t.core k) = p (s.core k) := by
  rw [← hp, h.core, hp]

theorem State.Keeps.thr (h : s.Keeps t) (k : Fin 64) (r : Role) : t.thr k r = s.thr k r := h.read (·.thr r) k

theorem State.Keeps.me (h : s.Keeps t) : t.me = s.me := by
  rw [State.me, State.me, State.cc, State.cr, State.cc, State.cr, h.cur, h.thr]

/-- A change of the current thread leaves the rest of every core. -/
theorem State.core_upMe_threads (s : State) (f : Thread → Thread) (k : Fin 64) :
    ∃ th, (s.upMe f).core k = { s.core k with threads := th } := by
  by_cases hk : k = s.cc
  · subst hk
    exact ⟨_, s.myCore_upMe f⟩
  · exact ⟨_, State.core_upMe_ne s f hk⟩

theorem State.thr_upMe_ne (s : State) (f : Thread → Thread) {k : Fin 64} {r : Role} (h : (k, r) ≠ s.cur) :
    (s.upMe f).thr k r = s.thr k r := by
  by_cases hk : k = s.cc
  · subst hk
    exact State.thr_upThr_ne s f fun hr => h (by rw [hr]; rfl)
  · rw [State.thr, State.core_upMe_ne s f hk, State.thr]

/-- The frame of a memory word, whose thread changes by `f` beside its tables. -/
theorem State.Keeps.frame (h : s.Keeps t) {f : Thread → Thread}
    (hf : (f t.me).fpcr = t.me.fpcr ∧ (f t.me).rngseed = t.me.rngseed ∧ (f t.me).rngctr = t.me.rngctr) : s.Frame (t.upMe f) := by
  refine ⟨h.mem, h.sys, h.cur, fun k r hk => ?_, ?_, fun k => ?_, fun k => ?_, fun k => ?_⟩
  · rw [State.thr_upMe_ne t f (by rwa [h.cur]), h.thr]
  · rw [State.me_upMe, ← h.me]
    exact hf
  all_goals
    obtain ⟨th, hc⟩ := t.core_upMe_threads f k
    rw [hc]
  · exact ⟨h.read Core.pool k, h.read Core.preds k, h.read Core.mx k⟩
  · exact ⟨h.read Core.chans k, h.read Core.slots k⟩
  · exact ⟨h.read Core.trapc k, h.read Core.trapa k, h.read Core.trappc k, h.read Core.trapw k⟩

/-! ## An access that passes its checks (R127) -/

theorem Core.kept_fillPort (k : Core) (p : Fin 6) (asid va e : Nat) : (k.fillPort p asid va e).kept = k.kept := by
  rw [Core.fillPort]
  split
  · rfl
  · rfl

/-- A state that the access goes on in keeps what it does not concern. -/
def SiteRes.KeptFrom (s : State) : SiteRes → Prop
  | .ok _ s1 => s.Keeps s1
  | _ => True

theorem State.breakCow_kept (s u : State) (va e kind : Nat) : (s.breakCow va e kind).KeptFrom u := by
  rw [State.breakCow]
  split
  · trivial
  · trivial

theorem State.startWalk_kept (s u : State) (va : Nat) : (s.startWalk va).KeptFrom u := by
  unfold State.startWalk
  dsimp only
  split
  · trivial
  split
  · trivial
  split
  · trivial
  split
  · trivial
  · trivial

theorem State.underLeaf_kept (s : State) (va n : Nat) (a : Acc) (ms : Option Bool) (wr : Nat → Bool) (e : Nat) :
    (s.underLeaf va n a ms wr e).KeptFrom s := by
  unfold State.underLeaf
  dsimp only
  split
  · trivial
  split
  · trivial
  split
  · trivial
  split
  · exact breakCow_kept ..
  split
  · trivial
  split
  · trivial
  split
  · trivial
  · exact keeps_upMyCore s (Core.kept_fillPort ..)

theorem SiteRes.KeptFrom.after {r : SiteRes} (h : r.KeptFrom t) (hs : s.Keeps t) : r.KeptFrom s := by
  cases r with
  | ok x s1 => exact hs.trans h
  | _ => trivial

theorem State.site_kept (s : State) (va n : Nat) (a : Acc) (al : Nat) (ms : Option Bool) (wr : Nat → Bool) :
    (s.site va n a al ms wr).KeptFrom s := by
  unfold State.site
  extract_lets bad
  split
  · trivial
  · split
    · trivial
    extract_lets poison
    split
    · trivial
    · exact Keeps.refl s
  split
  · trivial
  split
  · trivial
  split
  · exact (underLeaf_kept ..).after (keeps_upMyCore s rfl)
  split
  · exact startWalk_kept ..
  split
  · exact startWalk_kept ..
  split
  · trivial
  split
  · trivial
  · exact underLeaf_kept ..

theorem State.site_keeps {va n al : Nat} {a : Acc} {ms : Option Bool} {wr : Nat → Bool} {x : Site}
    (h : s.site va n a al ms wr = .ok x s1) : s.Keeps s1 := by
  have hk := s.site_kept va n a al ms wr
  rwa [h] at hk

/-! ## Loads (R116) -/

variable {v w : Word} {vs ws zs : List Word} {x : Site} {va n : Nat} {signed plain : Bool} {d : Dst} {a : Src} {off : Nat}

theorem State.chanRead_cur {i : Fin 32} {pop : Bool} (h : s.chanRead i pop = .vals vs t) : t.cur = s.cur := by
  unfold State.chanRead at h
  dsimp only at h
  split at h
  · nomatch h
  split at h
  · nomatch h
  split at h
  · split at h <;> nomatch h
  split at h
  · nomatch h
  · nomatch h
  · cases pop <;> obtain ⟨-, rfl⟩ := SrcRes.vals.inj h <;> rfl

theorem State.src_cur (h : s.src a = .vals vs t) : t.cur = s.cur := by
  cases a with
  | g i =>
    obtain ⟨-, rfl⟩ := SrcRes.vals.inj h
    rfl
  | peek i => exact State.chanRead_cur h
  | pop i => exact State.chanRead_cur h

/-- Reading one source with a value is reading that source. -/
theorem State.src_of_srcs (h : s.srcs [a] = .vals [v] t) : s.src a = .vals [v] t := by
  simp only [State.srcs] at h
  split at h
  · next hx =>
    rw [hx]
    exact h
  · next h1 h2 =>
    obtain ⟨h3, -⟩ := SrcRes.vals.inj h
    nomatch h3
  · exact h

/-- A load from a pool: what the thread sees there, or a request. -/
theorem State.loadAt_of_pool {m : Fin 64} (hx : x.pool s.cc = some m) :
    (s.poolLater m x.addr n = false →
      s0.loadAt s x va n signed plain d = s0.settle 2 (s.dst d (loadValue n signed (s.poolBytes m x.addr n)))) ∧
    (s.poolLater m x.addr n = true → s0.loadAt s x va n signed plain d =
      s0.settle 2 ((s.addPoolReq m x.addr va plain (.load (destOf d) n signed)).2.claim d s.nextOp)) := by
  cases x with
  | dev pa e => nomatch hx
  | _ =>
    obtain rfl := Option.some.inj hx
    refine ⟨fun hl => ?_, fun hl => ?_⟩
    all_goals
      dsimp only [Site.addr] at hl ⊢
      simp only [State.loadAt, hl, if_true, Bool.false_eq_true, if_false]
      rfl

/-- A load from device memory whose lookup does not stall: the L1's bytes, or a request where there is room. -/
theorem State.loadAt_of_dev {pa e : Nat} (hc : leafL1 e = true → s.myCore.l1clear = false) :
    (∀ bs, s.l1Bytes pa n e = some bs → s0.loadAt s (.dev pa e) va n signed plain d = s0.settle 2 (s.dst d (loadValue n signed bs))) ∧
    (s.l1Bytes pa n e = none → s.room 1 = true → s0.loadAt s (.dev pa e) va n signed plain d =
      s0.settle 2 ((s.addReq pa va e plain (.load (destOf d) n signed)).2.claim d s.nextOp)) := by
  have hn : ¬(leafL1 e = true ∧ s.myCore.l1clear = true) := fun h => by simp [hc h.1] at h
  constructor
  · intro bs hb
    simp only [State.loadAt, hn, if_false, hb]
    rfl
  · intro hb hr
    simp only [State.loadAt, hn, if_false, hb, hr, Bool.not_true, Bool.false_eq_true]
    rfl

/-- t is s with request q of the current thread in its core's request table, under the next number. -/
structure State.Adds (s t : State) (q : Req) : Prop where
  keeps : s.Keeps t
  reqs : t.myCore.reqs = s.myCore.reqs ++ [q]
  id : q.id = s.nextOp
  role : q.role = s.cr

theorem State.adds_upMyCore {f : Core → Core} {q : Req} (hk : ∀ k : Core, (f k).kept = k.kept) (hq : ∀ k : Core, (f k).reqs = k.reqs ++ [q])
    (hi : q.id = s.nextOp) (hr : q.role = s.cr) : s.Adds (State.upMyCore { s with nextOp := s.nextOp + 1 } f) q := by
  refine ⟨(s.keeps_nextOp _).trans (State.keeps_upMyCore _ (hk _)), ?_, hi, hr⟩
  rw [State.myCore_upMyCore, hq]
  rfl

theorem State.addPoolReq_adds (s : State) (m : Fin 64) (off va : Nat) (plain : Bool) (kind : ReqKind) :
    ∃ q, s.Adds (s.addPoolReq m off va plain kind).2 q ∧ q.pool = some m ∧ q.addr = off ∧ q.kind = kind := by
  refine ⟨{ id := s.nextOp, role := s.cr, addr := off, pool := some m, va := va, pages := 1, word := s.me.here, nth := s.me.issued + 1,
             plain := plain, gen := s.myCore.l1gen, l1ok := false, ms := false, kind := kind }, ?_, rfl, rfl, rfl⟩
  exact State.adds_upMyCore (f := fun k => { k with reqs := k.reqs ++ [_] }) (fun _ => rfl) (fun _ => rfl) rfl rfl

theorem State.addReq_adds (s : State) (pa va e : Nat) (plain : Bool) (kind : ReqKind) :
    ∃ q, s.Adds (s.addReq pa va e plain kind).2 q ∧ q.pool = none ∧ q.addr = pa ∧ q.kind = kind := by
  refine ⟨{ id := s.nextOp, role := s.cr, addr := pa, pool := none, va := va, pages := sizeFrames (leafSize e), word := s.me.here,
             nth := s.me.issued + 1, plain := plain, gen := s.myCore.l1gen, l1ok := leafL1 e, ms := leafBd e, kind := kind }, ?_, rfl, rfl, rfl⟩
  exact State.adds_upMyCore (f := fun k => { k.unwait (.thr s.cr) with reqs := k.reqs ++ [_] }) (fun _ => rfl) (fun _ => rfl) rfl rfl

/-- A load whose source has a value, whose destination has room and whose site passes its checks is made at that site. -/
theorem State.loadWord_passes (h : s.Issues { maj := 10, chans := srcChan a ++ dstChan d } (srcRegs a))
    (ha : s.acqOpen s.cc s.cr = false) (hs : s.srcs [a] = .vals [v] s0) (hd : s0.dst d 0 = .vals zs t)
    (hva : (va : Int) = (v.toNat + sint 9 off * n) % 2 ^ 64) (hx : s.site va n .read n none (fun _ => false) = .ok x s1)
    (hw : s1.srcs [a] = .vals [w] s2) :
    s.loadWord n signed d a off = s1.loadAt s2 x va n signed (s.me.plainLoad a d) d := by
  have hv : addrAdd v.toNat (sint 9 off * n) = va := by
    have := addrAdd_cast v.toNat (sint 9 off * n)
    omega
  rw [State.loadWord, State.gate_issues h]
  simp only [ha, Bool.false_eq_true, if_false, hs, List.headD_cons, hv, hd, hx, hw]

theorem State.settle_vals {len : Nat} : s.settle len (.vals ws t) = .next (t.upMe fun u => u.retire len) := rfl

/-- Every scalar load passes its operand specs (R34, R35). -/
theorem loadPasses_of {i : Dst → Src → Fin 512 → Instr} (hi : ∀ d a o s, exec (i d a o) s = s.loadWord n signed d a o.val) :
    LoadPasses i n signed := by
  intro s s0 s1 s2 t d a o v w zs va x h ha hs hd hva hx hw
  have he : exec (i d a o) s = s1.loadAt s2 x va n signed (s.me.plainLoad a d) d :=
    (hi d a o s).trans (State.loadWord_passes h ha hs hd hva hx hw)
  have hcur : s2.cur = s.cur := (State.src_cur (State.src_of_srcs hw)).trans (State.site_keeps hx).cur
  have hcc : s.cc = s2.cc := by rw [State.cc, State.cc, hcur]
  have hcr : s.cr = s2.cr := by rw [State.cr, State.cr, hcur]
  rw [he, hcc, hcr]
  constructor
  · intro bs hb s3 ws h3
    have hl : s1.loadAt s2 x va n signed (s.me.plainLoad a d) d = s1.settle 2 (s2.dst d (loadValue n signed bs)) := by
      rcases hb with ⟨m, hm, hl, rfl⟩ | ⟨pa, e, rfl, hc, hb⟩
      · exact (State.loadAt_of_pool hm).1 hl
      · exact (State.loadAt_of_dev hc).1 bs hb
    rw [hl, loadValue, h3, State.settle_vals]
  · intro hb
    have hl : ∃ (s3 : State) (q : Req), s2.Adds s3 q ∧ q.pool = x.pool s2.cc ∧ q.addr = x.addr ∧ q.kind = .load (destOf d) n signed ∧
        s1.loadAt s2 x va n signed (s.me.plainLoad a d) d = s1.settle 2 (s3.claim d q.id) := by
      rcases hb with ⟨m, hm, hl⟩ | ⟨pa, e, rfl, hc, hb, hr⟩
      · obtain ⟨q, hq, hp, hk⟩ := s2.addPoolReq_adds m x.addr va (s.me.plainLoad a d) (.load (destOf d) n signed)
        refine ⟨_, q, hq, hp.trans hm.symm, hk.1, hk.2, ?_⟩
        rw [(State.loadAt_of_pool hm).2 hl, hq.id]
      · obtain ⟨q, hq, hp, hk⟩ := s2.addReq_adds pa va e (s.me.plainLoad a d) (.load (destOf d) n signed)
        refine ⟨_, q, hq, hp, hk.1, hk.2, ?_⟩
        rw [(State.loadAt_of_dev hc).2 hb hr, hq.id]
    obtain ⟨s3, q, hq, hp, had, hk, hl⟩ := hl
    have hcc3 : s3.cc = s2.cc := by rw [State.cc, State.cc, hq.keeps.cur]
    refine ⟨s3, q, hq.reqs, hq.id, hq.role, hp, had, hk, hq.keeps.mem, hq.keeps.me, ?_, ?_, fun s4 ws h4 => ?_⟩
    · rw [State.myCore, hcc3]
      exact hq.keeps.read Core.pool _
    · rw [State.myCore, hcc3]
      exact hq.keeps.read Core.chans _
    · rw [hl, h4, State.settle_vals]

theorem Thread.owe_own (t : Thread) {i : Fin 32} (h : i ≠ 0) (id : Nat) : (t.owe i id).own[i] = some id := by
  simp [Thread.owe, h]

/-- A load that adds its request: its register waits for it, and the frame of a memory word holds. -/
theorem State.Adds.owes {q : Req} (h : s.Adds t q) (hs : s0.Keeps s) (d : Fin 32) :
    ∃ s', (t.upMe fun u => u.owe d q.id).upMe (fun u => u.retire 2) = s' ∧ s0.Frame s' ∧ s'.me.g = s0.me.g ∧
      (d ≠ 0 → s'.me.own[d] = some q.id) ∧ s'.myCore.reqs = s.myCore.reqs ++ [q] := by
  refine ⟨_, t.upMe_upMe _ _, (hs.trans h.keeps).frame (by simp), ?_, fun h0 => ?_, ?_⟩
  · simp [h.keeps.me, hs.me]
  · rw [State.me_upMe, Thread.retire_own]
    exact t.me.owe_own h0 q.id
  · rw [← h.reqs, State.myCore_upMe]
    rfl

/-- The own-pool window over the scratchpad (R106). -/
theorem State.site_own {o : Nat} {wr : Nat → Bool} (hv : s.myCore.bndv * 65536 ≤ o) (hs : o < s.myCore.bnds * 65536) (ho : o < 0x780000)
    (ha : (0x00FF000000000000 + o) % n = 0) (hp : s.poolPoison s.me s.cc s.nextOp o n = false) :
    s.site (0x00FF000000000000 + o) n .read n none wr = .ok (.own o) s := by
  have hw : s.window s.cc s.cr (0x00FF000000000000 + o) .read = some (.ok (.own o)) := by
    have h1 : inWindow (0x00FF000000000000 + o) = true := by simp [inWindow]; omega
    have h2 : 0x00FF000000000000 + o < 0x00FF000000800000 := by omega
    have hv' : ¬(o < (s.core s.cc).bndv * 65536) := by simpa [State.myCore] using hv
    have hs' : o < (s.core s.cc).bnds * 65536 := hs
    simp [State.window, h1, h2, hv', hs']
  simp [State.site, hw, ha, hp]

/-- Every scalar load of g registers keeps to R116: the case of `State.loadWord_passes` without channels. -/
theorem loadRule_of {i : Fin 32 → Fin 32 → Fin 512 → Instr} (hi : ∀ d a o s, exec (i d a o) s = s.loadWord n signed (.g d) (.g a) o.val) :
    LoadRule i n signed := by
  intro s d a o va h ha hva
  have he {x : Site} {s1 : State} (hx : s.site va n .read n none (fun _ => false) = .ok x s1) :
      exec (i d a o) s = s1.loadAt s1 x va n signed (s.me.plainLoad (.g a) (.g d)) (.g d) :=
    (hi d a o s).trans (State.loadWord_passes (a := .g a) (d := .g d) h ha rfl rfl hva hx rfl)
  refine ⟨fun o hx hv hs ho hal hp => ?pool, fun pa e s1 bs hx hb hc => ?line, fun pa e s1 hx hb hr hc => ?request⟩
  case pool =>
    subst hx
    rw [State.Retires, he (State.site_own hv hs ho hal hp)]
    obtain ⟨hnow, hlater⟩ := State.loadAt_of_pool (s := s) (s0 := s) (x := .own o) (va := 0x00FF000000000000 + o) (n := n) (signed := signed)
      (plain := s.me.plainLoad (.g a) (.g d)) (d := .g d) rfl
    refine ⟨fun hl => ?_, fun hl => ?_⟩
    · rw [hnow hl, loadValue, State.dst, State.settle_vals, State.upMe_upMe]
      rfl
    · obtain ⟨q, hq, hk⟩ := s.addPoolReq_adds s.cc o (0x00FF000000000000 + o) (s.me.plainLoad (.g a) (.g d)) (.load (.g d) n signed)
      obtain ⟨s', hs', hf, hg, hw, hr⟩ := hq.owes (State.Keeps.refl s) d
      rw [hq.id] at hs' hw
      refine ⟨s', (hlater hl).trans (congrArg _ hs'), hf, hg, hw, q, hr, hq.id, hq.role, hk⟩
  case line =>
    rw [he hx, (State.loadAt_of_dev hc).1 bs hb, loadValue, State.dst, State.settle_vals, State.upMe_upMe]
  case request =>
    obtain ⟨q, hq, hp⟩ := s1.addReq_adds pa va e (s.me.plainLoad (.g a) (.g d)) (.load (.g d) n signed)
    obtain ⟨s', hs', hf, hg, hw, hr'⟩ := hq.owes (State.site_keeps hx) d
    rw [hq.id] at hs' hw
    refine ⟨s', (he hx).trans (((State.loadAt_of_dev hc).2 hb hr).trans (congrArg _ hs')), hf, hg, hw, q, hr', hq.id, ?_, hp⟩
    rw [hq.role, State.cr, State.cr, (State.site_keeps hx).cur]

/-- Settles O12: the seven loads are `State.loadWord`, on g registers and on any specs. -/
theorem scalarLoads : Obligations.ScalarLoads :=
  ⟨loadRule_of fun _ _ _ _ => rfl, loadRule_of fun _ _ _ _ => rfl, loadRule_of fun _ _ _ _ => rfl, loadRule_of fun _ _ _ _ => rfl,
    loadRule_of fun _ _ _ _ => rfl, loadRule_of fun _ _ _ _ => rfl, loadRule_of fun _ _ _ _ => rfl, loadPasses_of fun _ _ _ _ => rfl,
    loadPasses_of fun _ _ _ _ => rfl, loadPasses_of fun _ _ _ _ => rfl, loadPasses_of fun _ _ _ _ => rfl,
    loadPasses_of fun _ _ _ _ => rfl, loadPasses_of fun _ _ _ _ => rfl, loadPasses_of fun _ _ _ _ => rfl⟩

/-! ## Stores (R117) -/

theorem leBytes_eq_map (n x : Nat) : leBytes n x = (List.range n).map fun j => BitVec.ofNat 8 (x / 256 ^ j) := by
  induction n generalizing x with
  | zero => rfl
  | succ n ih => simp [leBytes, ih, List.range_succ_eq_map, Function.comp_def, Nat.div_div_eq_div_mul, Nat.pow_succ']

/-- The cells of a store: byte j of its value at place j from its address. -/
def storeCells (addr n v : Nat) : List (Nat × Byte) := (List.range n).zip (leBytes n v) |>.map fun e => (addr + e.1, e.2)

theorem mem_storeCells {addr n v : Nat} {e : Nat × Byte} :
    e ∈ storeCells addr n v ↔ ∃ j, j < n ∧ e = (addr + j, BitVec.ofNat 8 (v / 256 ^ j)) := by
  simp only [storeCells, leBytes_eq_map, ← List.map_prod_left_eq_zip, List.map_map, List.mem_map, List.mem_range, Function.comp, eq_comm]

/-- A store to device memory waits for its entry no more. -/
def State.pastWait (s : State) (x : Site) : State := s.upMyCore fun k => if x.isDev then k.unwait (.thr s.cr) else k

theorem State.keeps_pastWait (s : State) (x : Site) : s.Keeps (s.pastWait x) := by
  refine State.keeps_upMyCore s ?_
  split
  · rfl
  · rfl

/-- What a scalar store of n bytes of v at site x leaves. -/
def State.stored (s : State) (x : Site) (va n : Nat) (v : Word) : State :=
  ((s.pastWait x).bufferStore x va s.nextOp (storeCells x.addr n v.toNat)).upMe fun t => t.retire 2

/-- The entry of that store in the buffer. -/
def State.newStore (s : State) (x : Site) (va n : Nat) (v : Word) : Store :=
  { id := s.nextOp, addr := x.addr, pool := x.pool s.cc, bytes := storeCells x.addr n v.toNat, ms := x.ms, va := va, pages := x.pages,
    whole := s.nextOp }

theorem State.bufferStore_pastWait (s : State) (x : Site) (va n : Nat) (v : Word) :
    (s.pastWait x).bufferStore x va s.nextOp (storeCells x.addr n v.toNat) =
      State.upMe { s.pastWait x with nextOp := s.nextOp + 1 } fun t => { t with stores := t.stores ++ [s.newStore x va n v] } := rfl

/-- One store joins the buffer of the thread, whose word retires; the machine is otherwise as it was. -/
theorem State.stored_spec (s : State) (x : Site) (va n : Nat) (v : Word) : ∃ u : State, s.Keeps u ∧
    s.stored x va n v = u.upMe fun t => { t with stores := t.stores ++ [s.newStore x va n v] }.retire 2 := by
  refine ⟨{ s.pastWait x with nextOp := s.nextOp + 1 }, (s.keeps_pastWait x).trans (State.keeps_nextOp _ _), ?_⟩
  rw [State.stored, State.bufferStore_pastWait, State.upMe_upMe]

/-- A store past releases and acquires, whose site passes its checks, meets no lock and finds room, joins the buffer. -/
theorem State.storeWord_passes {d : Fin 32} (h : s.Issues { maj := 11, chans := srcChan a } (d :: srcRegs a)) (ha : s.asyncOpen = false)
    (hs : s.srcs [a] = .vals [v] s0) (hva : (va : Int) = (v.toNat + sint 10 off * n) % 2 ^ 64)
    (hx : s.site va n .write n none (fun _ => true) = .ok x s1) (hl : s1.siteLocked x va n = false)
    (hr : x.isDev = true → s1.room 1 = true) (hd : x.dead = false) (hw : s1.srcs [a] = .vals [w] s2) :
    s.storeWord n d a off = .next (s2.stored x va n (s.me.get d)) := by
  have hv : addrAdd v.toNat (sint 10 off * n) = va := by
    have := addrAdd_cast v.toNat (sint 10 off * n)
    omega
  have hr' : ¬(x.isDev = true ∧ (!s1.room 1) = true) := fun h => by simp [hr h.1] at h
  have hcr : s.cr = s2.cr := by
    rw [State.cr, State.cr, State.src_cur (State.src_of_srcs hw), (State.site_keeps hx).cur]
  rw [State.storeWord, State.gate_issues h]
  simp only [ha, Bool.false_eq_true, if_false, hs, List.headD_cons, hv, hx, hl, hr', hw, hd, hcr]
  rfl

/-- Every scalar store passes its operand specs (R34, R35). -/
theorem storePasses_of {i : Fin 32 → Src → Fin 1024 → Instr} (hi : ∀ d a o s, exec (i d a o) s = s.storeWord n d a o.val) :
    StorePasses i n := by
  intro s s0 s1 s2 d a o v w va x h ha hs hva hx hl hr hd hw
  have hcc : s.cc = s2.cc := by
    rw [State.cc, State.cc, State.src_cur (State.src_of_srcs hw), (State.site_keeps hx).cur]
  obtain ⟨u, hk, hu⟩ := s2.stored_spec x va n (s.me.get d)
  have he : exec (i d a o) s = .next (s2.stored x va n (s.me.get d)) :=
    (hi d a o s).trans (State.storeWord_passes h ha hs hva hx hl hr hd hw)
  rw [hu] at he
  refine ⟨_, s2.newStore x va n (s.me.get d), he, ?_, by rw [hcc]; rfl, rfl, rfl, fun _ => mem_storeCells, hk.mem, ?_, hk.sys, fun k => ?_⟩
  · rw [State.me_upMe, Thread.retire_stores, hk.me]
  · rw [State.me_upMe, Thread.retire_g, hk.me]
  · obtain ⟨th, hc⟩ := u.core_upMe_threads (fun t => { t with stores := t.stores ++ [s2.newStore x va n (s.me.get d)] }.retire 2) k
    rw [hc]
    exact ⟨hk.read Core.pool k, hk.read Core.chans k, hk.read Core.preds k⟩

/-- Every scalar store of g registers keeps to R117: the case of `State.storeWord_passes` without channels. -/
theorem storeRule_of {i : Fin 32 → Fin 32 → Fin 1024 → Instr} (hi : ∀ d a o s, exec (i d a o) s = s.storeWord n d (.g a) o.val) :
    StoreRule i n := by
  intro s s1 d a o va x h ha hva hx hl hr hd
  obtain ⟨u, hk, hu⟩ := s1.stored_spec x va n (s.me.get d)
  have hs := State.site_keeps hx
  have he : exec (i d a o) s = .next (s1.stored x va n (s.me.get d)) :=
    (hi d a o s).trans (State.storeWord_passes (a := .g a) h ha rfl hva hx hl hr hd rfl)
  rw [hu] at he
  refine ⟨_, he, (hs.trans hk).frame (by simp), ?_, s1.newStore x va n (s.me.get d), ?_, ?_, rfl, rfl, fun _ => mem_storeCells⟩
  · rw [State.me_upMe, Thread.retire_g, hk.me, hs.me]
  · rw [State.me_upMe, Thread.retire_stores, hk.me, hs.me]
  · rw [State.newStore, State.cc, State.cc, hs.cur]

/-- Settles O13: the four stores are `State.storeWord`, on g registers and on any source spec. -/
theorem scalarStores : Obligations.ScalarStores :=
  ⟨storeRule_of fun _ _ _ _ => rfl, storeRule_of fun _ _ _ _ => rfl, storeRule_of fun _ _ _ _ => rfl, storeRule_of fun _ _ _ _ => rfl,
    storePasses_of fun _ _ _ _ => rfl, storePasses_of fun _ _ _ _ => rfl, storePasses_of fun _ _ _ _ => rfl,
    storePasses_of fun _ _ _ _ => rfl⟩

end Sys2Proof.Machine

/-! # Control and status registers (O8) -/

namespace Sys2Proof.Machine

variable {s : State} {d a : Fin 32} {n : Fin 128}

/-! ## Where PRIV is raised (R47, R101) -/

/-- To a word that passes its checks, privilege adds PRIV outside T and nothing else. -/
theorem State.gateFault_withPriv {m : Need} (h : s.gateFault m = none) (p : Bool) :
    s.gateFault { m with priv := p } = if p && s.cr != .T then some (cPRIV, 0) else none := by
  unfold State.gateFault at h ⊢
  split_ifs at h with hv hf hc hp
  simp only [hv, hf, hc, h, if_false, Bool.false_eq_true]

/-- A word with privilege issues in T as one without it does. -/
theorem State.Issues.withPriv {m : Need} {reads : List (Fin 32)} {p : Bool} (h : s.Issues m reads) (hp : p = false ∨ s.cr = .T) :
    s.Issues { m with priv := p } reads := by
  refine ⟨?_, h.ready, h.count⟩
  rw [State.gateFault_withPriv h.pass]
  rcases hp with hp | hp <;> simp [hp]

/-- Outside T, a word with privilege that passes its other checks raises PRIV, whatever it reads and whatever the count. -/
theorem State.gate_priv {m : Need} {reads : List (Fin 32)} {p : Bool} (h : s.gateFault m = none) (hp : p = true) (hr : s.cr ≠ .T)
    (go : Unit → Out) : s.gate { m with priv := p } reads go = s.trap cPRIV 0 := by
  refine State.gate_fault ?_ go
  rw [State.gateFault_withPriv h]
  simp [hp, hr]

theorem exec_csrr_priv (h : s.gateFault { maj := 4 } = none) (hp : csrPrivR n.val = true) (hr : s.cr ≠ .T) :
    exec (.csrr d n) s = s.trap cPRIV 0 := by
  show execCsrr d n s = _
  rw [execCsrr]
  exact State.gate_priv h hp hr _

theorem exec_csrw_priv (h : s.gateFault { maj := 4 } = none) (hp : csrPrivW n.val = true) (hr : s.cr ≠ .T) :
    exec (.csrw a n) s = s.trap cPRIV 0 := by
  show execCsrw a n s = _
  rw [execCsrw]
  exact State.gate_priv h hp hr _

/-! ## The word that issues (R99, R100) -/

/-- CSRR puts the value of the register into gD; of FPCR, once no floating instruction of the thread is queued (R68). -/
theorem csrr_retires (h : s.Issues { maj := 4 } []) (hp : csrPrivR n.val = false ∨ s.cr = .T)
    (hq : n.val = 0 → s.myCore.vq.any (fun e => e.role == s.cr && floatOp e.op) = false) :
    s.Retires (.csrr d n) 2 fun t => t.put d (s.csr s.cc s.cr n.val) := by
  have hw : ¬(n.val = 0 ∧ s.myCore.vq.any (fun e => e.role == s.cr && floatOp e.op) = true) :=
    fun ⟨hn, ht⟩ => Bool.false_ne_true ((hq hn).symm.trans ht)
  show execCsrr d n s = _
  rw [execCsrr, State.gate_issues (h.withPriv hp), if_neg hw, State.done_eq, State.upMe_upMe]

/-- CSRW writes the register and retires. -/
theorem exec_csrw (h : s.Issues { maj := 4 } [a]) (hp : csrPrivW n.val = false ∨ s.cr = .T) :
    exec (.csrw a n) s = .next ((s.csrSet s.cc s.cr n.val (s.me.get a)).upMe fun t => t.retire 2) := by
  show execCsrw a n s = _
  rw [execCsrw, State.gate_issues (h.withPriv hp), State.done_eq]

/-- CSRW of a register of the thread changes that thread alone. -/
theorem csrw_retires {f : Thread → Thread} (h : s.Issues { maj := 4 } [a]) (hp : csrPrivW n.val = false ∨ s.cr = .T)
    (hf : s.csrSet s.cc s.cr n.val (s.me.get a) = s.upMe f) : s.Retires (.csrw a n) 2 f := by
  rw [State.Retires, exec_csrw h hp, hf, State.upMe_upMe]

/-- BND*, L1GEN, the team, context and task numbers, WSR, FEATCAP and FEATACK1 to 3 ignore a write (R100). -/
theorem State.csrSet_ignored (s : State) (c : Fin 64) (r : Role) (v : Word) {n : Nat}
    (hn : 0x08 ≤ n ∧ n ≤ 0x18 ∨ 0x30 ≤ n ∧ n ≤ 0x33 ∨ 0x35 ≤ n ∧ n ≤ 0x37) : s.csrSet c r n v = s := by
  unfold State.csrSet
  split
  case h_10 => rfl
  all_goals omega

theorem csrw_ignored (h : s.Issues { maj := 4 } [a]) (hp : csrPrivW n.val = false ∨ s.cr = .T)
    (hn : 0x08 ≤ n.val ∧ n.val ≤ 0x18 ∨ 0x30 ≤ n.val ∧ n.val ≤ 0x33 ∨ 0x35 ≤ n.val ∧ n.val ≤ 0x37) :
    s.Retires (.csrw a n) 2 id := by
  rw [State.Retires, exec_csrw h hp, s.csrSet_ignored _ _ _ hn]
  rfl

/-- A register that takes the low m bits of the written word. -/
theorem and_mask_eq_word_bits (v : Word) {m : Nat} (hm : m ≤ 64) : v &&& BitVec.ofNat 64 (2 ^ m - 1) = word (bits v.toNat 0 m) := by
  rw [← extU_eq m hm, extU, bits, Nat.pow_zero, Nat.div_one]

/-! ## What CSRR reads (R100, R102) -/

theorem State.csr_rngseed_toNat (s : State) (c : Fin 64) (r : Role) : (s.csr c r 0x01).toNat = (s.thr c r).rngseed.toNat :=
  BitVec.toNat_setWidth_of_le (by decide)

theorem State.csr_rngctr_toNat (s : State) (c : Fin 64) (r : Role) : (s.csr c r 0x02).toNat = (s.thr c r).rngctr.toNat :=
  BitVec.toNat_setWidth_of_le (by decide)

theorem State.csr_coreloc_toNat (s : State) (c : Fin 64) (r : Role) : (s.csr c r 0x12).toNat = c.val :=
  Nat.mod_eq_of_lt (c.isLt.trans (by decide))

/-- CTXID of a core with no context is bit 63 alone (R102). -/
theorem State.csr_ctxid_none (s : State) (c : Fin 64) (r : Role) (h : (s.core c).ctx = none) :
    s.csr c r 0x13 = 0x8000000000000000 := by
  simp only [State.csr, h]
  rfl

theorem State.csr_ctxid_some (s : State) (c : Fin 64) (r : Role) {i : Nat} (h : (s.core c).ctx = some i) :
    s.csr c r 0x13 = word i := by
  simp only [State.csr, h]

theorem State.csr_featlock_toNat (s : State) (c : Fin 64) (r : Role) : (s.csr c r 0x38).toNat = if s.featlock then 1 else 0 := by
  show (flagW s.featlock).toNat = _
  cases s.featlock <;> rfl

/-! ## The fields of FPCR (R66) -/

/-- A write keeps RM or takes it; the other fields are always the written ones. -/
theorem fpcrWrite_eq (old v : Word) :
    fpcrWrite old v = v &&& 0x1C1F ||| (if 6 ≤ bits v.toNat 5 3 then old else v) &&& 0xE0 := by
  unfold fpcrWrite
  split
  · rfl
  · rw [← BitVec.and_or_distrib_left]
    rfl

/-- The flags, DAZ, FTZ and SAT take the written bits. -/
theorem getLsbD_fpcrWrite_field (old v : Word) {k : Nat} (hk : k < 5 ∨ k = 10 ∨ k = 11 ∨ k = 12) :
    (fpcrWrite old v).getLsbD k = v.getLsbD k := by
  have hm : (0x1C1F#64).getLsbD k = true ∧ (0xE0#64).getLsbD k = false := by
    rcases hk with hk | rfl | rfl | rfl
    · interval_cases k <;> decide
    all_goals decide
  simp [fpcrWrite_eq, hm]

/-- The reserved bits are clear. -/
theorem getLsbD_fpcrWrite_reserved (old v : Word) {k : Nat} (hk : 13 ≤ k ∨ k = 8 ∨ k = 9) :
    (fpcrWrite old v).getLsbD k = false := by
  have hm : (0x1C1F#64 ||| 0xE0#64).getLsbD k = false := by
    rcases hk with hk | rfl | rfl
    · exact Nat.testBit_lt_two_pow (lt_of_lt_of_le (b := 2 ^ 13) (by decide) (Nat.pow_le_pow_right (by decide) hk))
    all_goals decide
  rw [BitVec.getLsbD_or, Bool.or_eq_false_iff] at hm
  simp [fpcrWrite_eq, hm]

theorem bits_toNat_eq_extractLsb' (x : Word) (lo len : Nat) : bits x.toNat lo len = (x.extractLsb' lo len).toNat := by
  rw [bits, BitVec.extractLsb'_toNat, Nat.shiftRight_eq_div_pow]

/-- RM takes the written value, and keeps its own for a written 6 or 7. -/
theorem bits_fpcrWrite_rm (old v : Word) :
    bits (fpcrWrite old v).toNat 5 3 = if 6 ≤ bits v.toNat 5 3 then bits old.toNat 5 3 else bits v.toNat 5 3 := by
  have hfields : (0x1C1F : Word).extractLsb' 5 3 = 0#3 := by decide
  have hrm : (0xE0 : Word).extractLsb' 5 3 = BitVec.allOnes 3 := by decide
  rw [fpcrWrite_eq, bits_toNat_eq_extractLsb', BitVec.extractLsb'_or, BitVec.extractLsb'_and, BitVec.extractLsb'_and, hfields, hrm,
    BitVec.and_zero, BitVec.zero_or, BitVec.and_allOnes, ← bits_toNat_eq_extractLsb']
  split <;> rfl

/-! ## The statement -/

/-- Settles O8: CSRR reads `State.csr` and CSRW writes `State.csrSet`, register by register; PRIV is the gate's. -/
theorem csrWords : Obligations.CsrWords := by
  refine ⟨fun s d n => ⟨exec_csrr_priv, fun h hp hq => ⟨_, csrr_retires h hp hq, ?_⟩⟩,
    fun s a n => ⟨exec_csrw_priv, fun h hp => ?_⟩⟩
  case refine_1 =>
    have hread {k : Nat} {v : Word} (hv : s.csr s.cc s.cr k = v) (hn : n.val = k) : s.csr s.cc s.cr n.val = v := hn ▸ hv
    exact ⟨hread rfl, fun hn => hn ▸ s.csr_rngseed_toNat _ _, fun hn => hn ▸ s.csr_rngctr_toNat _ _, hread rfl, hread rfl, hread rfl,
      hread rfl, hread rfl, hread rfl, fun hn => hn ▸ s.csr_coreloc_toNat _ _, fun hn hc => hread (s.csr_ctxid_none _ _ hc) hn,
      fun _ hn hc => hread (s.csr_ctxid_some _ _ hc) hn, hread rfl, hread rfl, hread rfl, hread rfl, hread rfl, hread rfl, hread rfl,
      Or.rec (hread rfl) (Or.rec (hread rfl) (hread rfl)), hread rfl, Or.rec (hread rfl) (Or.rec (hread rfl) (hread rfl)),
      fun hn => hn ▸ s.csr_featlock_toNat _ _⟩
  case refine_2 =>
    have hwrite {k : Nat} {t : State} (ht : s.csrSet s.cc s.cr k (s.me.get a) = t) (hn : n.val = k) :
        exec (.csrw a n) s = .next (t.upMe fun u => u.retire 2) := by
      rw [exec_csrw h hp, hn, ht]
    have hretires {k : Nat} {f : Thread → Thread} (hf : s.csrSet s.cc s.cr k (s.me.get a) = s.upMe f) (hn : n.val = k) :
        s.Retires (.csrw a n) 2 f := csrw_retires h hp (hn ▸ hf)
    refine ⟨hretires rfl, hretires rfl, fun hn => ⟨fpcrWrite s.me.fpcr (s.me.get a), hretires rfl hn,
        fun _ => getLsbD_fpcrWrite_field _ _, fun _ => getLsbD_fpcrWrite_reserved _ _, bits_fpcrWrite_rm _ _⟩,
      csrw_ignored h hp, hwrite ?_, hwrite rfl, hwrite ?_, hwrite rfl, hwrite rfl, hwrite rfl⟩
    · exact congrArg (fun v => s.upMyCore fun k => { k with trapc := v }) (and_mask_eq_word_bits (m := 10) _ (by decide))
    · exact congrArg (fun v => s.upMyCore fun k => { k with trapw := v }) (and_mask_eq_word_bits (m := 32) _ (by decide))

end Sys2Proof.Machine

/-! # Scalar arithmetic on g registers (O1 to O3) -/

namespace Sys2Proof.Machine

/-! ## What the operations give, as the rows state it (R93 to R98) -/

theorem toInt_minS (x y : Word) : (minS x y).toInt = min x.toInt y.toInt := by
  rw [minS_eq, min_def]
  split <;> split <;> omega

theorem toInt_maxS (x y : Word) : (maxS x y).toInt = max x.toInt y.toInt := by
  rw [maxS_eq, max_def]
  split <;> split <;> omega

theorem toNat_minU (x y : Word) : (minU x y).toNat = min x.toNat y.toNat := by
  rw [minU_eq, min_def]
  simp only [BitVec.lt_def]
  split <;> split <;> omega

theorem toNat_maxU (x y : Word) : (maxU x y).toNat = max x.toNat y.toNat := by
  rw [maxU_eq, max_def]
  simp only [BitVec.lt_def]
  split <;> split <;> omega

theorem toNat_sub_eq (x y : Word) : (x - y).toNat = (x.toNat + 2 ^ 64 - y.toNat) % 2 ^ 64 := by
  rw [BitVec.toNat_sub]
  have := y.isLt
  congr 1
  omega

theorem toNat_add_shl (x y : Word) (n : Nat) : (x + y <<< n).toNat = (x.toNat + y.toNat * 2 ^ n) % 2 ^ 64 := by
  rw [BitVec.toNat_add, BitVec.toNat_shiftLeft, Nat.shiftLeft_eq, Nat.add_mod_mod]

theorem toNat_shl (x : Word) (n : Nat) : (x <<< n).toNat = x.toNat * 2 ^ n % 2 ^ 64 := by
  rw [BitVec.toNat_shiftLeft, Nat.shiftLeft_eq]

theorem toNat_shr (x : Word) (n : Nat) : (x >>> n).toNat = x.toNat / 2 ^ n := by
  rw [BitVec.toNat_ushiftRight, Nat.shiftRight_eq_div_pow]

/-- A word and an immediate added, as numbers modulo 2^64. -/
theorem toNat_add_imm (x : Word) (n i : Nat) : ((x + imm n i).toNat : Int) = (x.toNat + sint n i) % 2 ^ 64 := by
  rw [BitVec.toNat_add, imm, sextW, BitVec.toNat_ofInt]
  omega

/-- An immediate times 1,024, as LIH loads it. -/
theorem toNat_imm_shl (n i : Nat) : ((imm n i <<< 10).toNat : Int) = sint n i * 1024 % 2 ^ 64 := by
  rw [toNat_shl, imm, sextW, BitVec.toNat_ofInt]
  omega

theorem toNat_extU (n : Nat) (x : Word) : (extU n x).toNat = x.toNat % 2 ^ n := by
  have hn : x.toNat % 2 ^ n < 2 ^ 64 := (Nat.mod_le _ _).trans_lt x.isLt
  rw [extU, word, BitVec.toNat_ofNat, Nat.mod_eq_of_lt hn]

theorem toNat_divU (x y : Word) : (divU x y).toNat = if y.toNat = 0 then 2 ^ 64 - 1 else x.toNat / y.toNat := by
  have h0 : y = 0 ↔ y.toNat = 0 := BitVec.toNat_inj.symm
  rw [divU_eq]
  simp only [h0]
  split
  · rfl
  · exact BitVec.toNat_udiv

theorem toNat_remU (x y : Word) : (remU x y).toNat = if y.toNat = 0 then x.toNat else x.toNat % y.toNat := by
  have h0 : y = 0 ↔ y.toNat = 0 := BitVec.toNat_inj.symm
  rw [remU_eq]
  simp only [h0]
  split
  · rfl
  · exact BitVec.toNat_umod

theorem flagW_slt (x y : Word) : flagW (x.slt y) = if x.toInt < y.toInt then 1 else 0 := by
  simp [flagW_eq, BitVec.slt]

theorem flagW_not_slt (x y : Word) : flagW (!x.slt y) = if y.toInt ≤ x.toInt then 1 else 0 := by
  rw [flagW_eq]
  simp [BitVec.slt]

theorem flagW_ult (x y : Word) : flagW (x.ult y) = if x.toNat < y.toNat then 1 else 0 := by
  simp [flagW_eq, BitVec.ult]

theorem flagW_not_ult (x y : Word) : flagW (!x.ult y) = if y.toNat ≤ x.toNat then 1 else 0 := by
  rw [flagW_eq]
  simp [BitVec.ult]

/-- SEL on g registers: gD is the condition as it was. -/
theorem sel_gives (d a b : Fin 32) :
    Gives (.sel d (.g a) (.g b)) { maj := 8 } [d, a, b] 2 d fun t v => v = if t.get d = 0 then t.get b else t.get a :=
  fun s h => ⟨_, rfl, exec_sel h (s.srcs_g [a, b])⟩

/-! ## The forms -/

/-- Settles O1: each form is the scalar operation on g registers. -/
theorem arithmeticForms : Obligations.ArithmeticForms := by
  refine ⟨fun d a b => ⟨?add, ?sub, ?and, ?or, ?xor, ?andn, ?min, ?max, ?minn, ?maxn, ?sh1add, ?sh2add, ?sh3add, ?sh4add⟩,
    fun d a x n u => ⟨?addi, ?andi, ?ori, ?slli, ?srli, ?srai, ?rori, ?lih⟩⟩
  case lih => exact .of_scalar (l := []) (f := fun _ => imm 20 u.val <<< 10) (fun _ => rfl) fun _ => toNat_imm_shl 20 u.val
  case addi => exact .of_scalar (l := [a]) (f := op1 fun y => y + imm 10 x.val) (fun _ => rfl) fun t => toNat_add_imm _ 10 x.val
  case andi => exact .of_scalar (l := [a]) (fun _ => rfl) fun t k => BitVec.getLsbD_and
  case ori => exact .of_scalar (l := [a]) (fun _ => rfl) fun t k => BitVec.getLsbD_or
  case slli => exact .of_scalar (l := [a]) (fun _ => rfl) fun t => toNat_shl _ n.val
  case srli => exact .of_scalar (l := [a]) (fun _ => rfl) fun t => toNat_shr _ n.val
  case srai => exact .of_scalar (l := [a]) (fun _ => rfl) fun t => toInt_sshiftRight_eq _ n.val
  case rori =>
    refine .of_scalar (l := [a]) (fun _ => rfl) fun t k hk => (getLsbD_rotateRight_eq _ n.val hk).trans ?_
    rw [Nat.mod_eq_of_lt n.isLt]
  all_goals refine .of_scalar (l := [a, b]) (fun _ => rfl) fun t => ?_
  case add => exact BitVec.toNat_add ..
  case sub => exact toNat_sub_eq ..
  case and => exact fun k => BitVec.getLsbD_and
  case or => exact fun k => BitVec.getLsbD_or
  case xor => exact fun k => BitVec.getLsbD_xor
  case andn =>
    intro k hk
    simp [op2, hk]
  case min => exact toInt_minS ..
  case max => exact toInt_maxS ..
  case minn => exact toNat_minU ..
  case maxn => exact toNat_maxU ..
  case sh1add => exact toNat_add_shl _ _ 1
  case sh2add => exact toNat_add_shl _ _ 2
  case sh3add => exact toNat_add_shl _ _ 3
  case sh4add => exact toNat_add_shl _ _ 4

/-- Settles O2: each form but SEL is the scalar operation on g registers. -/
theorem shiftCountCompare : Obligations.ShiftCountCompare := by
  intro d a b
  refine ⟨?sll, ?srl, ?sra, ?ror, ?clz, ?ctz, ?popc, ?seq, ?sne, ?slt, ?sge, ?sltn, ?sgen, ?extI8, ?extI16, ?extI32, ?extN8, ?extN16,
    ?extN32, sel_gives d a b⟩
  case clz => exact .of_scalar (l := [a]) (fun _ => rfl) fun t => clzW_counts _
  case ctz => exact .of_scalar (l := [a]) (fun _ => rfl) fun t => ctzW_counts _
  case popc => exact .of_scalar (l := [a]) (fun _ => rfl) fun t => toNat_popcW _
  case extI8 => exact .of_scalar (l := [a]) (fun _ => rfl) fun t => toInt_extS (by decide) (by decide) _
  case extI16 => exact .of_scalar (l := [a]) (fun _ => rfl) fun t => toInt_extS (by decide) (by decide) _
  case extI32 => exact .of_scalar (l := [a]) (fun _ => rfl) fun t => toInt_extS (by decide) (by decide) _
  case extN8 => exact .of_scalar (l := [a]) (fun _ => rfl) fun t => toNat_extU _ _
  case extN16 => exact .of_scalar (l := [a]) (fun _ => rfl) fun t => toNat_extU _ _
  case extN32 => exact .of_scalar (l := [a]) (fun _ => rfl) fun t => toNat_extU _ _
  all_goals refine .of_scalar (l := [a, b]) (fun _ => rfl) fun t => ?_
  case sll => exact toNat_shl ..
  case srl => exact toNat_shr ..
  case sra => exact toInt_sshiftRight_eq ..
  case ror =>
    intro k hk
    refine (getLsbD_rotateRight_eq _ _ hk).trans ?_
    rw [Nat.mod_mod]
  case seq => simp [op2, flagW_eq]
  case sne => simp [op2, flagW_eq]
  case slt => exact flagW_slt ..
  case sge => exact flagW_not_slt ..
  case sltn => exact flagW_ult ..
  case sgen => exact flagW_not_ult ..

/-- Settles O3: each form is the scalar operation on g registers. -/
theorem multiplyDivide : Obligations.MultiplyDivide := by
  intro d a b
  refine ⟨?mul, ?mulh, ?mulhn, ?div, ?divn, ?rem, ?remn⟩
  all_goals refine .of_scalar (l := [a, b]) (fun _ => rfl) fun t => ?_
  case mul => exact BitVec.toNat_mul ..
  case mulh => exact toInt_mulhS ..
  case mulhn => exact toNat_mulhU ..
  case div => exact toInt_divS ..
  case divn => exact toNat_divU ..
  case rem => exact toInt_remS ..
  case remn => exact toNat_remU ..

end Sys2Proof.Machine

/-! # Issue of the vector moves, reductions and predicate words (O22) -/

namespace Sys2Proof.Machine

theorem stochastic_iff (r : Nat) (fpcr : Word) : stochastic r fpcr = true ↔ r = 5 ∨ r = 7 ∧ bits fpcr.toNat 5 3 = 5 := by
  simp only [stochastic, convRm, beq_iff_eq]
  split <;> omega

/-- A word that is the shared vector issue enters the queue as its entry of `vspec` says (R193, R194). -/
theorem Queues.of_vissue {i : Instr} {maj : Nat} {sub : Bool} {vregs : Nat} {gs : List (Fin 32)} {wg : Option (Fin 32)} {rm : Option Nat}
    (hi : ∀ s, exec i s = s.vissue maj sub i) (hv : vtop ((vspec i).rv ++ (vspec i).wv) = vregs) (hg : (vspec i).gs = gs)
    (hw : (vspec i).wg = wg) (hr : (vspec i).rmo = rm) : Queues i { maj := maj, sub := sub, vregs := vregs } gs wg rm := by
  subst hv hg
  intro s h ha hf
  rw [hi, State.vissue]
  dsimp only
  rw [State.gate_issues h, ha, hf, hw, hr]
  simp only [Bool.false_eq_true, if_false, State.fresh, State.done_eq, State.upMe_upMe]
  refine congrArg Host.Outcome.next (State.upMe_congr ?_)
  rw [State.me_upMyCore _ _ rfl]
  have hc : s.me.fpcr = (State.me { s with nextOp := s.nextOp + 1 }).fpcr := rfl
  cases rm with
  | none => cases wg <;> rfl
  | some r => cases wg <;> simp [stochastic_iff, hc]

/-- The highest register named does not depend on the order in which they are named. -/
theorem vtop_perm {l l' : List Nat} (h : l.Perm l') : vtop l = vtop l' :=
  h.foldl_eq' (fun x _ y _ z => by omega) 0

theorem vtop_swap (a b : Nat) : vtop [a, b] = vtop [b, a] := vtop_perm (.swap b a [])

/-- Settles O22: each word is the shared vector issue of its major, with its entry of `vspec`. -/
theorem vectorIssueMoves : Obligations.VectorIssueMoves := by
  refine ⟨?vrotrImm, ?vrotrReg, ?vrotcImm, ?vrotcReg, ?vbcrImm, ?vbcrReg, ?vbccImm, ?vbccReg, ?vrsumF32, ?vcsumF32, ?vrmaxF32, ?vcmaxF32,
    ?vrminF32, ?vcminF32, ?vrsumI32, ?vcsumI32, ?pand, ?por, ?pxor, ?pandn, ?pnez, ?vmovp, ?pset, ?pfirst, ?vlidx, ?vextN32, ?vextI32, ?vins,
    ?vbcg, ?vmovi, ?pcnt, ?pfind⟩
  all_goals intros
  case vrotrImm | vrotrReg | vrotcImm | vrotcReg | vbcrImm | vbcrReg | vbccImm | vbccReg | vrsumF32 | vcsumF32 | vrmaxF32 | vcmaxF32 |
      vrminF32 | vcminF32 | vrsumI32 | vcsumI32 =>
    exact .of_vissue (fun _ => rfl) (vtop_swap ..) rfl rfl rfl
  all_goals exact .of_vissue (fun _ => rfl) rfl rfl rfl rfl

end Sys2Proof.Machine

/-! # What the hardware's own writes leave of tasks, events and cores (O47) -/

namespace Sys2Proof.Machine

variable {β : Type} {g : State → β} {s t : State}

/-- What g shows of a state lies outside memory and what stands beside it: a write at its home, a change of a die and a fresh number leave it. -/
structure HomeBlind (g : State → β) : Prop where
  home : ∀ (t : State) m p o w b, g { t with mem := m, pflip := p, l2own := o, watches := w, bds := b } = g t
  dies : ∀ (t : State) d, g { t with dies := d } = g t
  nums : ∀ (t : State) n f, g { t with nextOp := n, free := f } = g t

/-- It lies outside the cores too. -/
structure CoreBlind (g : State → β) : Prop extends HomeBlind g where
  cores : ∀ (t : State) k, g { t with cores := k } = g t

theorem homeBlind_cores : HomeBlind State.cores := ⟨fun _ _ _ _ _ _ => rfl, fun _ _ => rfl, fun _ _ _ => rfl⟩

theorem coreBlind_tasks : CoreBlind State.tasks := ⟨⟨fun _ _ _ _ _ _ => rfl, fun _ _ => rfl, fun _ _ _ => rfl⟩, fun _ _ => rfl⟩

theorem coreBlind_hostq : CoreBlind State.hostq := ⟨⟨fun _ _ _ _ _ _ => rfl, fun _ _ => rfl, fun _ _ _ => rfl⟩, fun _ _ => rfl⟩

/-! ## Memory, tables and lists -/

section
variable (hg : HomeBlind g)
include hg

theorem HomeBlind.physWrite (s : State) (pa bs ms) : g (s.physWrite pa bs ms) = g s := s.physWrite_keeps pa bs ms g hg.home

theorem HomeBlind.setPoison (s : State) (l b) : g (s.setPoison l b) = g s := hg.home s s.mem _ s.l2own s.watches s.bds

theorem HomeBlind.msServe (s : State) (pa n ms) : g (s.msServe pa n ms) = g s := by
  unfold State.msServe
  split
  · exact hg.home s s.mem s.pflip _ s.watches s.bds
  · rfl

theorem HomeBlind.withFree (s : State) (f) : g { s with free := f } = g s := hg.nums s s.nextOp f

theorem HomeBlind.withNextOp (s : State) (n) : g { s with nextOp := n } = g s := hg.nums s n s.free

theorem HomeBlind.setDie (s : State) (d x) : g (s.setDie d x) = g s := hg.dies s _

theorem HomeBlind.writeLeaf (s : State) (pa old new) : g (s.writeLeaf pa old new) = g s :=
  foldl_keeps g (fun s _ => hg.physWrite s ..) _ s

theorem HomeBlind.treeBusy (s : State) (level f b) : g (s.treeBusy level f b) = g s :=
  foldl_keeps g (fun s _ => hg.writeLeaf s ..) _ s

/-- The pieces of a store are written in turn, once every page has been found. -/
theorem HomeBlind.hwStore {die asid va bs} (h : s.hwStore die asid va bs = .ok t) : g t = g s := by
  have hp (l : List (Nat × Nat)) : ∀ a : State × List Byte,
      g (l.foldl (fun (acc : State × List Byte) p => (acc.1.physWrite p.1 (acc.2.take p.2) true, acc.2.drop p.2)) a).1 = g a.1 := by
    induction l with
    | nil => exact fun _ => rfl
    | cons p l ih => exact fun a => (ih _).trans (hg.physWrite ..)
  unfold State.hwStore at h
  dsimp only at h
  split at h
  · cases h
  · cases h
    exact hp ..

theorem HomeBlind.qcrSet (s : State) (die q o n v) : g (s.qcrSet die q o n v) = g s := by
  unfold State.qcrSet
  split
  · rfl
  · next h => exact hg.hwStore h

theorem HomeBlind.charge (s : State) (die n o d) : g (s.charge die n o d) = g s := by
  unfold State.charge
  split
  · rfl
  refine foldl_keeps g (fun s x => ?_) _ s
  split
  · rfl
  split
  · rfl
  · next h => exact hg.hwStore h

theorem HomeBlind.freeSlab (s : State) (d n) : g (s.freeSlab d n) = g s := by
  unfold State.freeSlab
  split
  · rfl
  · exact (hg.charge ..).trans (hg.setDie ..)

theorem HomeBlind.takeFrame {die va x} (h : s.takeFrame die va = some x) : g x.2 = g s := by
  unfold State.takeFrame at h
  dsimp only at h
  repeat' split at h
  all_goals cases h
  exact hg.hwStore ‹_›

theorem HomeBlind.giveFrame (s : State) (die va frame) : g (s.giveFrame die va frame) = g s := by
  unfold State.giveFrame
  split
  · rfl
  dsimp only
  split
  · rfl
  split
  · rfl
  next s1 h1 =>
  split
  · rfl
  · next h2 => exact (hg.hwStore h2).trans (hg.hwStore h1)

theorem HomeBlind.clearLock (s : State) (die i) : g (s.clearLock die i) = g s := by
  unfold State.clearLock
  split
  · rfl
  split
  · next h => exact hg.hwStore h
  · rfl

theorem HomeBlind.faultDomain (s : State) (die fd) : g (s.faultDomain die fd) = g s := by
  refine foldl_keeps g (fun s q => ?_) _ s
  split
  · rfl
  split
  · split
    · exact hg.qcrSet ..
    · rfl
  · rfl

/-- A store to a context record is at most 32 stores of its words. -/
theorem HomeBlind.ctxStore {d i fs new} (h : s.ctxStore d i fs new = .ok t) : g t = g s := by
  unfold State.ctxStore at h
  split at h
  · cases h
  dsimp only at h
  refine List.foldlRecOn (motive := fun r : Except (Nat × Nat) State => ∀ t, r = .ok t → g t = g s) _ _ ?_ (fun r hr w _ t ht => ?_) t h
  · rintro _ ⟨⟩
    rfl
  · split at ht
    · cases ht
    next u =>
    split at ht
    · exact hr t ht
    · exact (hg.hwStore ht).trans (hr u rfl)

theorem HomeBlind.forkUnmark (s : State) (e) : g (s.forkUnmark e) = g s := by
  unfold State.forkUnmark
  split
  · exact hg.treeBusy ..
  · rfl

theorem HomeBlind.unlock (s : State) (c e) : g (s.unlock c e) = g s := by
  refine (foldl_keeps g (fun s i => ?_) _ _).trans (hg.forkUnmark s e)
  split
  · rfl
  split
  · next h => exact hg.ctxStore h
  · rfl

theorem HomeBlind.dropSeq (s : State) (c) : g (s.dropSeq c) = g s := by
  refine foldl_keeps g (fun s e => ?_) _ s
  have h : g (e.locked.foldl (fun (s : State) i => s.clearLock (dieOf c) i) (s.forkUnmark e)) = g s :=
    (foldl_keeps g (fun s _ => hg.clearLock s ..) _ _).trans (hg.forkUnmark s e)
  dsimp only
  split
  · exact (hg.setDie ..).trans h
  · exact h

theorem HomeBlind.unpin (s : State) (c) : g (s.unpin c) = g s := by
  unfold State.unpin
  split
  · exact hg.writeLeaf ..
  · rfl

theorem HomeBlind.giveBlocks (s : State) (d l) : g (s.giveBlocks d l) = g s := foldl_keeps g (fun s _ => hg.giveFrame s ..) l s

theorem HomeBlind.takeBlocks {d n} {l : List Nat} {x} (h : State.takeBlocks d n s l = some x) : g x.2 = g s := by
  induction n generalizing s l with
  | zero =>
    cases h
    rfl
  | succ n ih =>
    unfold State.takeBlocks at h
    split at h
    · cases h
    · next hf => exact (ih h).trans (hg.takeFrame hf)

theorem HomeBlind.addPass (s : State) (d c) : g (s.addPass d c) = g s := by
  unfold State.addPass
  dsimp only
  split
  · next h => exact hg.hwStore h
  · rfl

theorem HomeBlind.writePage (s : State) (pa ms l bad) : g (s.writePage pa ms l bad) = g s := by
  refine (hg.withFree ..).trans ?_
  exact (foldl_keeps g (fun s _ => hg.setPoison s ..) _ _).trans (foldl_keeps g (fun s _ => hg.physWrite s ..) _ s)

end

/-! ## Engines -/

section
variable (hg : CoreBlind g)
include hg

theorem CoreBlind.upCore (s : State) (c f) : g (s.upCore c f) = g s := hg.cores s _

theorem CoreBlind.foldl_upCore {α : Type} (c : α → Fin 64) (f : α → Core → Core) (l : List α) (s : State) :
    g (l.foldl (fun s x => s.upCore (c x) (f x)) s) = g s :=
  foldl_keeps g (fun s _ => hg.upCore s ..) l s

/-- An engine's access that completes fills its TLB at most. -/
theorem CoreBlind.engAt {c port asid va a typed pa e} (h : s.engAt c port asid va a typed = .ok pa e t) : g t = g s := by
  unfold State.engAt at h
  dsimp only at h
  unfold State.engUnder at h
  repeat' split at h
  all_goals cases h
  exact hg.upCore ..

theorem CoreBlind.askCowFor {d region asid va e} (h : s.askCowFor d region asid va e = .wait t) : g t = g s := by
  unfold State.askCowFor at h
  dsimp only at h
  repeat' split at h
  all_goals cases h
  · exact (hg.setDie ..).trans (hg.withNextOp ..)
  · rfl
  · exact hg.setDie ..

theorem CoreBlind.ask (s : State) (c i w) : g (s.ask c i w) = g s := by
  have hout : g (s.upCore c fun k => k.unwaitWalk i) = g s := hg.upCore ..
  cases w with
  | cow asid va e =>
    unfold State.ask
    dsimp only
    split
    · next h => exact (hg.askCowFor h).trans hout
    · exact hout
  | room j => exact (hg.upCore _ c fun k => k.await j).trans hout
  | miss => exact hg.upCore s c fun k => k.awaitWalk i
  | wait | mark | fault => exact hout

theorem CoreBlind.tryRec {c x} (h : s.tryRec c x = some t) : g t = g s := by
  unfold State.tryRec at h
  split at h
  · cases h
  cases h
  refine (hg.withFree _ _).trans ((hg.upCore ..).trans ?_)
  unfold State.cowOver
  dsimp only
  split
  · exact hg.setDie ..
  · rfl

theorem CoreBlind.fillFault (s : State) (c e i x) : g (s.fillFault c e i x) = g s := by
  unfold State.fillFault
  split
  · next h => exact (hg.upCore ..).trans (hg.tryRec h)
  · exact hg.upCore ..

theorem CoreBlind.fillGroup {c e i} (h : s.fillGroup c e i = .ok t) : g t = g s := by
  unfold State.fillGroup at h
  dsimp only at h
  split at h
  · cases h
  next hs =>
  split at h
  · cases h
  split at h
  · cases h
  cases h
  exact (hg.upCore ..).trans ((hg.msServe ..).trans ((hg.msServe ..).trans (hg.engAt hs)))

theorem CoreBlind.fillRun (c e n i) (s : State) : g (State.fillRun c e n i s).1 = g s := by
  induction n generalizing i s with
  | zero => rfl
  | succ n ih =>
    unfold State.fillRun
    split
    · next h => exact (ih _ _).trans (hg.fillGroup h)
    · rfl

theorem CoreBlind.fillGo (s : State) (c e n) : g (s.fillGo c e n) = g s := by
  unfold State.fillGo
  split
  · exact hg.fillFault ..
  have h2 (f : Core → Core) := (hg.upCore (State.fillRun c e (min n (e.fillLen - e.done)) e.done s).1 c f).trans (hg.fillRun c e _ _ s)
  dsimp only
  split
  · exact (hg.fillFault ..).trans (h2 _)
  · exact (hg.ask ..).trans (h2 _)
  · split
    · exact (hg.upCore ..).trans (h2 _)
    · exact h2 _

theorem CoreBlind.freezeEnt (s : State) (c e) : g (s.freezeEnt c e) = g s := by
  have hf := hg.withFree s (s.free + 2)
  unfold State.freezeEnt
  dsimp only
  split
  · rfl
  split
  · exact (hg.upCore ..).trans hf
  · split
    · exact hf
    · exact (hg.fillGo ..).trans hf
  · exact hf

theorem CoreBlind.freeze (s : State) (c) : g (s.freeze c) = g s := by
  unfold State.freeze
  split
  · rfl
  · exact (hg.upCore ..).trans (foldl_keeps g (fun s e => hg.freezeEnt s c e) _ s)

theorem CoreBlind.cancelSeq (s : State) (c) : g (s.cancelSeq c) = g s :=
  foldl_keeps g (fun s e => (hg.upCore ..).trans (hg.unlock s c e)) _ s

theorem CoreBlind.freezeFor (s : State) (c) : g (s.freezeFor c) = g s := by
  unfold State.freezeFor
  exact (hg.upCore ..).trans (hg.freeze s c)

theorem CoreBlind.cutEngines (s : State) (c) : g (s.cutEngines c) = g s :=
  (hg.upCore ((s.freezeFor c).cancelSeq c) c _).trans ((hg.cancelSeq ..).trans (hg.freezeFor s c))

theorem CoreBlind.writeBlock (c b n i done) (s : State) : g (State.writeBlock c b n i done s).s = g s := by
  induction n generalizing i done s with
  | zero => rfl
  | succ n ih =>
    unfold State.writeBlock
    split
    · exact ih ..
    split
    · rfl
    · next h => exact (ih ..).trans ((hg.writePage ..).trans (hg.engAt h))

theorem CoreBlind.writeBlocks (pages l skip done) (s : State) : g (State.writeBlocks pages l skip done s).s = g s := by
  induction l generalizing skip done s with
  | nil => rfl
  | cons _ _ ih =>
    unfold State.writeBlocks
    dsimp only
    split
    · exact (ih ..).trans (hg.writeBlock ..)
    · exact hg.writeBlock ..

end

end Sys2Proof.Machine

/-! # The first issue of a task and its escalation (O47) -/

namespace Sys2Proof.Machine

variable {s s1 : State} {t : Task} {n : Nat} {k : Fin 64} {ks : List (Fin 64)}

/-! ## Cores changed one after another -/

section
variable {α β : Type} {c : α → Fin 64} {f : α → Core → Core}

theorem State.core_of_cores_eq {s t : State} (h : t.cores = s.cores) (j : Fin 64) : t.core j = s.core j := by
  rw [State.core, State.core, h]

/-- What no change touches stays in every core. -/
theorem core_foldl_upCore_keeps (p : Core → β) (hp : ∀ x k, p (f x k) = p k) (l : List α) (j : Fin 64) :
    ∀ s : State, p ((l.foldl (fun s x => s.upCore (c x) (f x)) s).core j) = p (s.core j) := by
  induction l with
  | nil => exact fun _ => rfl
  | cons x l ih =>
    refine fun s => (ih _).trans ?_
    by_cases h : j = c x
    · subst h
      rw [State.core_upCore, hp]
    · rw [State.core_upCore_ne s _ h]

/-- A core that none of the changes is for stays. -/
theorem core_foldl_upCore_of_notMem {l : List α} {j : Fin 64} (h : j ∉ l.map c) :
    ∀ s : State, (l.foldl (fun s x => s.upCore (c x) (f x)) s).core j = s.core j := by
  induction l with
  | nil => exact fun _ => rfl
  | cons x l ih =>
    obtain ⟨hx, hl⟩ := List.ne_and_not_mem_of_not_mem_cons h
    exact fun s => (ih hl _).trans (s.core_upCore_ne _ hx)

/-- What every change brings about holds of each core that one of them is for. -/
theorem core_foldl_upCore_of_mem {P : Core → Prop} {l : List α} (hP : ∀ x ∈ l, ∀ k, P (f x k)) {j : Fin 64} (h : j ∈ l.map c) (s : State) :
    P ((l.foldl (fun s x => s.upCore (c x) (f x)) s).core j) := by
  induction l generalizing s with
  | nil => cases h
  | cons x l ih =>
    by_cases hj : j ∈ l.map c
    · exact ih (fun y hy => hP y (List.mem_cons_of_mem _ hy)) hj _
    · obtain rfl : j = c x := (List.mem_cons.1 h).resolve_right hj
      rw [List.foldl_cons, core_foldl_upCore_of_notMem hj, State.core_upCore]
      exact hP x List.mem_cons_self _

/-- Where the changes are for distinct cores, each finds its core as it was. -/
theorem core_foldl_upCore_of_nodup {l : List α} (hn : (l.map c).Nodup) {x : α} (h : x ∈ l) (s : State) :
    (l.foldl (fun s x => s.upCore (c x) (f x)) s).core (c x) = f x (s.core (c x)) := by
  induction l generalizing s with
  | nil => cases h
  | cons y l ih =>
    obtain ⟨hy, hl⟩ := List.nodup_cons.1 hn
    rcases List.mem_cons.1 h with rfl | h
    · rw [List.foldl_cons, core_foldl_upCore_of_notMem hy, State.core_upCore]
    · have hne : c x ≠ c y := fun e => hy (e ▸ List.mem_map_of_mem h)
      rw [List.foldl_cons, ih hl h, State.core_upCore_ne s _ hne]

end

/-- The same change of several cores. -/
def State.upCores (s : State) (l : List (Fin 64)) (f : Core → Core) : State := l.foldl (fun s c => s.upCore c f) s

section
variable {f : Core → Core} {l : List (Fin 64)} {j : Fin 64}

theorem CoreBlind.upCores {β : Type} {g : State → β} (hg : CoreBlind g) (s : State) (l f) : g (s.upCores l f) = g s :=
  hg.foldl_upCore (fun c => c) _ l s

@[simp] theorem State.upCores_tasks (s : State) (l f) : (s.upCores l f).tasks = s.tasks := coreBlind_tasks.upCores ..

@[simp] theorem State.upCores_mem (s : State) (l f) : (s.upCores l f).mem = s.mem := foldl_mem (fun s c => s.upCore_mem c f) l s

theorem State.core_upCores_of_mem {P : Core → Prop} (hP : ∀ k, P (f k)) (h : j ∈ l) (s : State) : P ((s.upCores l f).core j) :=
  core_foldl_upCore_of_mem (c := fun c => c) (fun _ _ => hP) (by simpa using h) s

theorem State.core_upCores_of_notMem (h : j ∉ l) (s : State) : (s.upCores l f).core j = s.core j :=
  core_foldl_upCore_of_notMem (c := fun c => c) (by simpa using h) s

theorem State.core_upCores_keeps {β : Type} (p : Core → β) (hp : ∀ k, p (f k) = p k) (s : State) : p ((s.upCores l f).core j) = p (s.core j) :=
  core_foldl_upCore_keeps (c := fun c => c) p (fun _ => hp) l j s

end

/-! ## The list of tasks -/

theorem State.task_id (h : s.task n = some t) : t.id = n := by
  simpa using List.find?_some h

theorem State.task_of_tasks {s u : State} (h : u.tasks = s.tasks) (n : Nat) : u.task n = s.task n := by
  rw [State.task, State.task, h]

/-- A change that leaves TASKIDs alone is found in the task it is for. -/
theorem State.task_upTask (s : State) (n : Nat) {f : Task → Task} (hf : ∀ t, (f t).id = t.id) : (s.upTask n f).task n = (s.task n).map f := by
  have hp : ((·.id == n) ∘ fun t : Task => if t.id = n then f t else t) = (·.id == n) := by
    funext t
    dsimp only [Function.comp]
    split
    · rw [hf]
    · rfl
  rw [State.task, State.upTask, List.find?_map, hp]
  refine Option.map_congr fun t ht => ?_
  rw [if_pos (State.task_id ht)]

@[simp] theorem State.core_upTask (s : State) (n f) (c : Fin 64) : (s.upTask n f).core c = s.core c := rfl

theorem State.mem_tasks_upTask {f : Task → Task} {x : Task} (h : x ∈ (s.upTask n f).tasks) (hx : x.id = n) :
    ∃ y ∈ s.tasks, y.id = n ∧ x = f y := by
  obtain ⟨y, hy, rfl⟩ := List.mem_map.1 h
  split at hx
  · next hi => exact ⟨y, hy, hi, if_pos hi⟩
  · next hi => exact absurd hx hi

/-! ## The first issue (R81, R385) -/

theorem exec_taskFirstIssue (s : State) (n : Nat) : exec (.taskFirstIssue n) s = .next (s.firstIssue n) := rfl

/-- The role threads of the member cores start, and the task runs. -/
def State.startTask (s : State) (t : Task) : State :=
  (s.upCores t.cores fun k => k.startThreads t.entries).upTask t.id fun t => { t with phase := .running }

theorem State.firstIssue_starts (ht : s.task n = some t) (hp : t.phase = .formed) (hk : t.cores = k :: ks) (hc : t.ctx = none) :
    s.firstIssue n = s.startTask t := by
  obtain rfl := State.task_id ht
  simp only [State.firstIssue, ht, hp, hk, hc, State.startTask, State.upCores]

theorem Core.startThreads_thr (k : Core) (l : List Nat) :
    (k.startThreads l).thr .L = startThread .L (l.getD 0 0) ∧ (k.startThreads l).thr .C = startThread .C (l.getD 1 0) ∧
      (k.startThreads l).thr .S = startThread .S (l.getD 2 0) := by
  refine ⟨?_, ?_, Core.thr_setThr ..⟩
  · exact (Core.thr_setThr_ne _ _ (by decide)).trans ((Core.thr_setThr_ne _ _ (by decide)).trans (Core.thr_setThr ..))
  · exact (Core.thr_setThr_ne _ _ (by decide)).trans (Core.thr_setThr ..)

@[simp] theorem Core.startThreads_pool (k : Core) (l : List Nat) : (k.startThreads l).pool = k.pool := rfl

theorem taskFirstIssue_starts (ht : s.task n = some t) (hp : t.phase = .formed) (hk : t.cores = k :: ks) (hc : t.ctx = none) :
    ∃ s', exec (.taskFirstIssue n) s = .next s' ∧ s'.task n = some { t with phase := .running } ∧ s'.mem = s.mem ∧
      (∀ j ∈ t.cores, (s'.core j).thr .L = startThread .L (t.entries.getD 0 0) ∧ (s'.core j).thr .C = startThread .C (t.entries.getD 1 0) ∧
        (s'.core j).thr .S = startThread .S (t.entries.getD 2 0) ∧ (s'.core j).pool = (s.core j).pool) ∧
      ∀ j, j ∉ t.cores → s'.core j = s.core j := by
  refine ⟨s.startTask t, (exec_taskFirstIssue s n).trans (congrArg _ (State.firstIssue_starts ht hp hk hc)), ?_, ?_, fun j hj => ?_,
    fun j hj => ?_⟩
  · obtain rfl := State.task_id ht
    rw [State.startTask, State.task_upTask, State.task_of_tasks (State.upCores_tasks ..), ht]
    · rfl
    · exact fun _ => rfl
  · rw [State.startTask, State.upTask_mem, State.upCores_mem]
  · rw [State.startTask, State.core_upTask]
    obtain ⟨hL, hC, hS⟩ := State.core_upCores_of_mem (P := fun k => k.thr .L = startThread .L (t.entries.getD 0 0) ∧
      k.thr .C = startThread .C (t.entries.getD 1 0) ∧ k.thr .S = startThread .S (t.entries.getD 2 0))
      (fun k => k.startThreads_thr t.entries) hj s
    exact ⟨hL, hC, hS, State.core_upCores_keeps Core.pool (fun k => k.startThreads_pool t.entries) s⟩
  · rw [State.startTask, State.core_upTask, State.core_upCores_of_notMem hj]

/-- At its start a thread's registers hold g1, the argument copy, and else nothing. -/
theorem startThread_clean (r : Role) (n : Nat) : (∀ i : Fin 32, (startThread r n).get i = if i = 1 then 0x00FF000000780800 else 0) ∧
    (startThread r n).fpcr = 0 ∧ (startThread r n).rngseed = 0 ∧ (startThread r n).rngctr = 0 := by
  have hg : (startThread r n).g = Thread.reset.g.set 1 (word (ownWin 0x780800)) := by
    unfold startThread
    dsimp only
    split <;> rfl
  have hz : ∀ i : Fin 32, (startThread r n).get i = if i = 1 then 0x00FF000000780800 else 0 := by
    intro i
    rw [Thread.get, hg]
    revert i
    decide
  refine ⟨hz, ?_⟩
  unfold startThread
  dsimp only
  split <;> exact ⟨rfl, rfl, rfl⟩

/-! ## The escalation (R389) -/

theorem preemptEscalate_makes_urgent (ht : s.task n = some t) : ∃ s', exec (.preemptEscalate n) s = .next s' ∧
    s'.task n = some (if t.preempt = 1 then { t with preempt := 2 } else t) ∧ s'.mem = s.mem ∧ s'.cores = s.cores := by
  refine ⟨_, rfl, ?_, rfl, rfl⟩
  rw [State.task_upTask, ht]
  · rfl
  · intro t
    split <;> rfl

end Sys2Proof.Machine

/-! # The end of a task (O47) -/

namespace Sys2Proof.Machine

variable {s s1 : State} {t : Task} {n : Nat} {k j : Fin 64} {ks : List (Fin 64)} {r : Role} {p : PTrap}

/-! ## A task leaves (R377, R408) -/

/-- A fold whose steps all leave the state it starts from. -/
theorem foldl_eq_self {α : Type} {f : State → α → State} {l : List α} (h : ∀ x ∈ l, f s x = s) : l.foldl f s = s := by
  induction l with
  | nil => rfl
  | cons x l ih =>
    rw [List.foldl_cons, h x List.mem_cons_self]
    exact ih fun y hy => h y (List.mem_cons_of_mem _ hy)

theorem State.dropSeq_of_empty (h : (s.core j).sq = []) : s.dropSeq j = s := by
  rw [State.dropSeq, h]
  rfl

theorem State.unpin_of_unpinned (h : ∀ pa e, (s.thr j .T).stage ≠ .pin pa e) : s.unpin j = s := by
  unfold State.unpin
  split
  · next hs => exact absurd hs (h _ _)
  · rfl

theorem State.task_removeTask (s : State) (t : Task) : (s.removeTask t).task t.id = none := by
  unfold State.removeTask State.task
  simp

/-- Every core that the task leaves is free. -/
theorem State.core_removeTask (h : j ∈ t.cores) (s : State) : ((s.removeTask t).core j).taskid = 0 ∧ ((s.removeTask t).core j).chcnt = 0 := by
  have hv (u : State) := State.core_upCores_of_mem (f := Core.vacate) (P := fun k => k.taskid = 0 ∧ k.chcnt = 0) (fun _ => ⟨rfl, rfl⟩) h u
  unfold State.removeTask
  dsimp only [State.core, Fin.getElem_fin]
  rw [Vector.getElem_map]
  exact hv _

/-- Of device memory the end of a task whose engines hold nothing changes the use counters of its regions alone. -/
theorem State.removeTask_mem (hk : t.cores = k :: ks) (hq : ∀ j ∈ t.cores, (s.core j).sq = [])
    (hp : ∀ j ∈ t.cores, ∀ pa e, (s.thr j .T).stage ≠ .pin pa e) (hh : (t.cores.map s.core ++ t.saved).flatMap Core.heldSlabs = []) :
    (s.removeTask t).mem = (s.charge (dieOf k) t.region 128 (-(t.size : Int))).mem := by
  have hc := State.core_of_cores_eq (homeBlind_cores.charge s (dieOf k) t.region 128 (-(t.size : Int)))
  generalize hu : s.charge (dieOf k) t.region 128 (-(t.size : Int)) = u at hc ⊢
  have h1 : t.cores.foldl State.dropSeq u = u := foldl_eq_self fun j hj => State.dropSeq_of_empty (by rw [hc, hq j hj])
  have h2 : t.cores.foldl State.unpin u = u :=
    foldl_eq_self fun j hj => State.unpin_of_unpinned (by rw [State.thr, hc]; exact hp j hj)
  have h3 : (t.cores.map u.core ++ t.saved).flatMap Core.heldSlabs = [] := by
    rw [show u.core = s.core from funext hc, hh]
  unfold State.removeTask
  extract_lets die s2 s3 held s4 s5
  have e2 : s2 = u := by simp only [s2, die, hk, hu, List.isEmpty_cons, Bool.false_eq_true, if_false]
  have e3 : s3 = u := by simp only [s3, e2, h1, h2]
  have e4 : s4 = u := by simp only [s4, held, e3, h3, List.foldl_nil]
  exact (State.upCores_mem s4 t.cores Core.vacate).trans (congrArg State.mem e4)

/-! ## The normal end, and its trap (R142, R382, R408) -/

theorem exec_taskEnd (s : State) (n : Nat) : exec (.taskEnd n) s = .next (s.taskEnd n) := rfl

/-- Core j holds nothing that the normal end of its task waits for. -/
structure State.EndsOn (s : State) (j : Fin 64) : Prop where
  finished : (s.core j).finished = true
  quietT   : ((s.core j).thr .T).quietT false = true
  drained  : s.drained j = true
  idle     : (s.core j).enginesIdle = true
  empty    : (s.core j).sq = []

theorem State.endsOn_of {s : State} {j : Fin 64} (h : (s.core j).finished = true ∧ ((s.core j).thr .T).quietT false = true ∧
    s.drained j = true ∧ (s.core j).enginesIdle = true ∧ (s.core j).sq = []) : s.EndsOn j := by
  obtain ⟨h1, h2, h3, h4, h5⟩ := h
  exact ⟨h1, h2, h3, h4, h5⟩

theorem State.endsOn_all {l : List (Fin 64)} : (l.all fun c => (s.core c).finished && ((s.core c).thr .T).quietT false && s.drained c &&
    (s.core c).enginesIdle && (s.core c).sq.isEmpty) = true ↔ ∀ j ∈ l, s.EndsOn j := by
  simp only [List.all_eq_true, Bool.and_eq_true, List.isEmpty_iff]
  refine forall₂_congr fun j _ => ⟨fun ⟨⟨⟨⟨h1, h2⟩, h3⟩, h4⟩, h5⟩ => ⟨h1, h2, h3, h4, h5⟩, fun h => ?_⟩
  exact ⟨⟨⟨⟨h.finished, h.quietT⟩, h.drained⟩, h.idle⟩, h.empty⟩

theorem State.taskEnd_unfinished (ht : s.task n = some t) (h3 : t.preempt ≠ 3) (h : ∃ j ∈ t.cores, (s.core j).finished = false) :
    s.taskEnd n = s := by
  obtain ⟨j, hj, hf⟩ := h
  have hn : ¬ ∀ j ∈ t.cores, s.EndsOn j := fun ha => by simpa [hf] using (ha j hj).finished
  unfold State.taskEnd
  rw [ht]
  dsimp only
  split
  · rw [if_neg h3, if_neg]
    simp only [Bool.and_eq_true, State.endsOn_all, hn, false_and, not_false_iff]
  · rfl

section
variable (ht : s.task n = some t) (hp : t.phase = .running) (hk : t.cores = k :: ks) (h3 : t.preempt ≠ 3)
  (ha : ∀ j ∈ t.cores, s.EndsOn j) (hx : s.transfers t = false)
include ht hp hk h3 ha hx

theorem State.taskEnd_normal (hr : s.endRecord t = none) : s.taskEnd n = s.endNormal t (dieOf k) := by
  unfold State.taskEnd
  rw [ht]
  dsimp only
  split
  · next c l _ hc =>
    obtain ⟨rfl, -⟩ := List.cons.inj (hk.symm.trans hc)
    rw [if_neg h3, if_pos, hr]
    simp only [Bool.and_eq_true, State.endsOn_all, hx]
    exact ⟨ha, rfl⟩
  · next h => exact absurd hk (h _ _ hp)

theorem State.taskEnd_record (hr : s.endRecord t = some (j, r)) :
    s.taskEnd n = (s.upThr j r fun t => { t with status := .running }).trapAt j r ((s.thr j r).faultHere cENG 0x01 0 0) := by
  unfold State.taskEnd
  rw [ht]
  dsimp only
  split
  · rw [if_neg h3, if_pos, hr]
    simp only [Bool.and_eq_true, State.endsOn_all, hx]
    exact ⟨ha, rfl⟩
  · next h => exact absurd hk (h _ _ hp)

end

/-- What the normal end writes before the task leaves, and that the task then leaves. -/
theorem State.endNormal_removes (s : State) (t : Task) (d : Fin 4) : ∃ u : State, s.endNormal t d = u.removeTask t := ⟨_, rfl⟩

/-- NCHUNK of the context, where the task has one that can be reached, and EVF of its queue (R382, R408). -/
theorem State.endNormal_eq {b : List Byte} {d : Fin 4}
    (h1 : t.ctx = none ∧ s1 = s ∨ ∃ i n, t.ctx = some i ∧ s.hwRead d 0 (s.ctxAddr i + 8) 8 = .ok n ∧
      s.hwStore d 0 (s.ctxAddr i + 8) (leBytes 8 ((leNat n + 1) % 2 ^ 64)) = .ok s1) (hb : s1.qcrRead d t.queue = .ok b) :
    s.endNormal t d = (s1.qcrSet d t.queue 32 4 (qEVF b ||| t.sigm)).removeTask t := by
  rcases h1 with ⟨hc, rfl⟩ | ⟨i, m, hc, hr, hw⟩
  · simp only [State.endNormal, hc, hb]
    rfl
  · simp only [State.endNormal, hc, hr, hw, hb]
    rfl

theorem State.cores_of_nchunk {d : Fin 4}
    (h1 : t.ctx = none ∧ s1 = s ∨ ∃ i n, t.ctx = some i ∧ s.hwRead d 0 (s.ctxAddr i + 8) 8 = .ok n ∧
      s.hwStore d 0 (s.ctxAddr i + 8) (leBytes 8 ((leNat n + 1) % 2 ^ 64)) = .ok s1) : s1.cores = s.cores := by
  rcases h1 with ⟨-, rfl⟩ | ⟨i, m, -, -, hw⟩
  · rfl
  · exact homeBlind_cores.hwStore hw

/-- A role thread's trap stays pending while T serves another (R399). -/
theorem State.trapAt_held (hr : r ≠ .T) (h : (s.core j).served.isSome = true) (p : PTrap) :
    s.trapAt j r p = s.setCore j ((s.core j).raised r p) := by
  have hs : ((s.core j).raised r p).served ≠ none := Option.isSome_iff_ne_none.1 h
  have hc : (s.setCore j ((s.core j).raised r p)).canTake j r = false := by
    simp [State.canTake, hr, hs]
  rw [State.trapAt_eq, State.deliverTrap, hc]
  rfl

theorem State.role_of_endRecord (h : s.endRecord t = some (j, r)) : r ≠ .T := by
  obtain ⟨c, -, hc⟩ := List.exists_of_findSome?_eq_some h
  obtain ⟨q, hq, he⟩ := Option.map_eq_some_iff.1 hc
  cases he
  rintro rfl
  simpa using List.mem_of_find?_eq_some hq

theorem taskEnd_waits (ht : s.task n = some t) (h3 : t.preempt ≠ 3) (h : ∃ j ∈ t.cores, (s.core j).finished = false) :
    exec (.taskEnd n) s = .next s :=
  (exec_taskEnd s n).trans (congrArg _ (State.taskEnd_unfinished ht h3 h))

section
variable (ht : s.task n = some t) (hp : t.phase = .running) (hk : t.cores = k :: ks) (h3 : t.preempt ≠ 3)
  (ha : ∀ j ∈ t.cores, s.EndsOn j) (hx : s.transfers t = false)
include ht hp hk h3 ha hx

/-- The normal end: the cores are free, and memory has NCHUNK, EVF and the use counters (log 137). -/
theorem taskEnd_ends (hr : s.endRecord t = none) : ∃ s', exec (.taskEnd n) s = .next s' ∧ s'.task n = none ∧
    (∀ j ∈ t.cores, (s'.core j).taskid = 0 ∧ (s'.core j).chcnt = 0) ∧
    ∀ (s1 : State) (b : List Byte), (t.ctx = none ∧ s1 = s ∨ ∃ i n, t.ctx = some i ∧ s.hwRead (dieOf k) 0 (s.ctxAddr i + 8) 8 = .ok n ∧
        s.hwStore (dieOf k) 0 (s.ctxAddr i + 8) (leBytes 8 ((leNat n + 1) % 2 ^ 64)) = .ok s1) →
      s1.qcrRead (dieOf k) t.queue = .ok b → (∀ j ∈ t.cores, ∀ pa e, (s.thr j .T).stage ≠ .pin pa e) →
      (t.cores.map s.core ++ t.saved).flatMap Core.heldSlabs = [] →
      s'.mem = ((s1.qcrSet (dieOf k) t.queue 32 4 (qEVF b ||| t.sigm)).charge (dieOf k) t.region 128 (-(t.size : Int))).mem := by
  refine ⟨s.endNormal t (dieOf k), (exec_taskEnd s n).trans (congrArg _ (State.taskEnd_normal ht hp hk h3 ha hx hr)), ?_, ?_, ?_⟩
  · obtain ⟨u, hu⟩ := s.endNormal_removes t (dieOf k)
    rw [hu, ← State.task_id ht]
    exact u.task_removeTask t
  · obtain ⟨u, hu⟩ := s.endNormal_removes t (dieOf k)
    rw [hu]
    exact fun j hj => State.core_removeTask hj u
  · intro s1 b h1 hb hpin hheld
    have hc := State.core_of_cores_eq ((homeBlind_cores.qcrSet s1 (dieOf k) t.queue 32 4 (qEVF b ||| t.sigm)).trans (State.cores_of_nchunk h1))
    rw [State.endNormal_eq h1 hb]
    refine State.removeTask_mem hk (fun j hj => ?_) (fun j hj => ?_) ?_
    · rw [hc]
      exact (ha j hj).empty
    · rw [State.thr, hc]
      exact hpin j hj
    · rw [show (s1.qcrSet (dieOf k) t.queue 32 4 (qEVF b ||| t.sigm)).core = s.core from funext hc, hheld]

/-- A store of an ended thread that is a record: ENG 0x01 is raised there, and waits while T serves another (R142, R148). -/
theorem taskEnd_raises (hr : s.endRecord t = some (j, r)) (hs : (s.core j).served.isSome = true) :
    ∃ s' p, exec (.taskEnd n) s = .next s' ∧ s'.task n = some t ∧ (s'.thr j r).trap = some p ∧ p.cause = cENG ∧ p.detail = 0x01 ∧
      s'.mem = s.mem := by
  have hs' : ((s.upThr j r fun t => { t with status := .running }).core j).served.isSome = true := by
    rw [State.upThr, State.core_setThr]
    exact hs
  have he := (State.taskEnd_record ht hp hk h3 ha hx hr).trans (State.trapAt_held (State.role_of_endRecord hr) hs' _)
  refine ⟨_, (s.thr j r).faultHere cENG 0x01 0 0, (exec_taskEnd s n).trans (congrArg _ he), ?_, ?_, rfl, rfl, ?_⟩
  · exact ht
  · rw [State.thr, State.core_setCore, Core.thr_raised]
  · rfl

end

end Sys2Proof.Machine

/-! # The resume and the save of a task (O47) -/

namespace Sys2Proof.Machine

variable {s s1 u : State} {t : Task} {n pages : Nat} {k j : Fin 64} {ks : List (Fin 64)} {bs : List Nat} {r : SaveRes}

/-! ## The resume (R387, R392, R393) -/

theorem exec_taskResume (s : State) (n : Nat) : exec (.taskResume n) s = .next (s.taskResume n savePages) := rfl

theorem Core.bumpL1_keeps {β : Type} (p : Core → β) (hp : ∀ (k : Core) g l c, p { k with l1gen := g, l1 := l, l1clear := c } = p k) (k : Core) :
    p k.bumpL1 = p k := by
  unfold Core.bumpL1
  split
  · exact hp ..
  · exact hp k _ k.l1 k.l1clear

theorem Core.uncancel_keeps {β : Type} (p : Core → β) (hp : ∀ (k : Core) x q, p { k with recs := x, cq := q } = p k) (k : Core) :
    p k.uncancel = p k := by
  refine List.foldlRecOn (motive := fun k' => p k' = p k) _ _ rfl fun k' h i _ => ?_
  split
  · exact (hp ..).trans h
  · exact h

/-- A core takes the contents saved, its stopped threads set going. -/
theorem Core.restore_keeps {β : Type} (p : Core → β) (k snap : Core) (t : Task) (i : Nat) (v : View)
    (hb : ∀ (k : Core) g l c, p { k with l1gen := g, l1 := l, l1clear := c } = p k) (hu : ∀ (k : Core) x q, p { k with recs := x, cq := q } = p k)
    (hj : ∀ k : Core, p (k.join t i v) = p k) (ht : ∀ (k' : Core) x y, p { k' with ptlb := x, ctlb := y } = p k') :
    p (k.restore snap t i v) = p { snap with threads := snap.threads.map Thread.restart } := by
  unfold Core.restore
  rw [Core.bumpL1_keeps p hb, hj, Core.uncancel_keeps p hu]
  exact (hb _ _ snap.l1 _).trans (ht { snap with threads := snap.threads.map Thread.restart } _ _)

theorem Core.restore_pool (k snap : Core) (t : Task) (i : Nat) (v : View) : (k.restore snap t i v).pool = snap.pool :=
  Core.restore_keeps Core.pool k snap t i v (fun _ _ _ _ => rfl) (fun _ _ _ => rfl) (fun _ => rfl) fun _ _ _ => rfl

theorem Core.restore_preds (k snap : Core) (t : Task) (i : Nat) (v : View) : (k.restore snap t i v).preds = snap.preds :=
  Core.restore_keeps Core.preds k snap t i v (fun _ _ _ _ => rfl) (fun _ _ _ => rfl) (fun _ => rfl) fun _ _ _ => rfl

theorem Core.restore_thr (k snap : Core) (t : Task) (i : Nat) (v : View) (r : Role) :
    (k.restore snap t i v).thr r = (snap.thr r).restart := by
  have h := Core.restore_keeps Core.threads k snap t i v (fun _ _ _ _ => rfl) (fun _ _ _ => rfl) (fun _ => rfl) fun _ _ _ => rfl
  rw [Core.thr, h]
  exact Vector.getElem_map ..

theorem Thread.restart_regs (t : Thread) : t.restart.g = t.g ∧ t.restart.fpcr = t.fpcr := by
  unfold Thread.restart
  dsimp only
  split <;> exact ⟨rfl, rfl⟩

theorem map_fst_zip_sublist {α β : Type} (l : List α) (m : List β) : ((l.zip m).map Prod.fst).Sublist l := by
  induction l generalizing m with
  | nil => exact .slnil
  | cons x l ih =>
    cases m with
    | nil => exact List.nil_sublist _
    | cons y m => exact (ih m).cons_cons x

/-- The cores of the task take their saved contents. -/
def State.restoreCores (s : State) (t : Task) (snaps : List Core) : State :=
  (t.cores.zip snaps).zipIdx.foldl (fun (s : State) x => s.upCore x.1.1 fun k => k.restore x.1.2 t x.2 k.view) s

theorem State.core_restoreCores {l : List Core} {i : Nat} {m : Core} (hn : t.cores.Nodup) (hj : t.cores[i]? = some j) (hm : l[i]? = some m)
    (s : State) : (s.restoreCores t l).core j = (s.core j).restore m t i (s.core j).view := by
  have hkeys : ((t.cores.zip l).zipIdx.map fun x => x.1.1) = (t.cores.zip l).map Prod.fst := by
    rw [← Function.comp_def Prod.fst Prod.fst, ← List.map_map, List.zipIdx_map_fst]
  have hmem : ((j, m), i) ∈ (t.cores.zip l).zipIdx := by
    rw [List.mem_zipIdx_iff_getElem?, List.getElem?_zip_eq_some]
    exact ⟨hj, hm⟩
  refine core_foldl_upCore_of_nodup (c := fun x : (Fin 64 × Core) × Nat => x.1.1) ?_ hmem s
  rw [hkeys]
  exact hn.sublist (map_fst_zip_sublist ..)

theorem State.applyHeld_of_none (hr : t.results = []) (hh : t.heldEv = []) : s.applyHeld t = s := by
  simp only [State.applyHeld, hr, hh, List.foldl_nil]

theorem State.reload_cores {l : List Core} {d : Fin 4} (hr : t.results = []) (hh : t.heldEv = []) :
    (s.reload t d l).cores = (s.restoreCores t l).cores := by
  have h : ((s.restoreCores t l).applyHeld t).cores = (s.restoreCores t l).cores := congrArg State.cores (State.applyHeld_of_none hr hh)
  exact (homeBlind_cores.giveBlocks _ d t.blocks).trans h

theorem State.taskResume_reloads {l : List Core} (ht : s.task n = some t) (hp : t.phase = .resuming) (hk : t.cores = k :: ks) (hc : t.ctx = none)
    (hl : s.readBlocks (dieOf k) pages (t.saved.zip t.blocks) = .ok l) : s.taskResume n pages = s.reload t (dieOf k) l := by
  unfold State.taskResume
  rw [ht]
  dsimp only
  split
  · next c l' _ hc' =>
    obtain ⟨rfl, -⟩ := List.cons.inj (hk.symm.trans hc')
    rw [hl, hc]
  · next h => exact absurd hk (h _ _ hp)

theorem taskResume_restores {l : List Core} (ht : s.task n = some t) (hp : t.phase = .resuming) (hk : t.cores = k :: ks) (hc : t.ctx = none)
    (hl : s.readBlocks (dieOf k) savePages (t.saved.zip t.blocks) = .ok l) (hr : t.results = []) (hh : t.heldEv = []) (hn : t.cores.Nodup) :
    ∃ s', exec (.taskResume n) s = .next s' ∧ (∀ x ∈ s'.tasks, x.id = n → x.phase = .running ∧ x.saved = [] ∧ x.blocks = []) ∧
      ∀ (i : Nat) (j : Fin 64) (m : Core), t.cores[i]? = some j → l[i]? = some m → ∀ r : Role,
        (s'.thr j r).g = (m.thr r).g ∧ (s'.thr j r).fpcr = (m.thr r).fpcr ∧ (s'.core j).pool = m.pool ∧ (s'.core j).preds = m.preds := by
  refine ⟨_, (exec_taskResume s n).trans (congrArg _ (State.taskResume_reloads ht hp hk hc hl)), fun x hx hi => ?_, fun i j m hj hm r => ?_⟩
  · obtain rfl := State.task_id ht
    obtain ⟨y, -, -, rfl⟩ := State.mem_tasks_upTask hx hi
    exact ⟨rfl, rfl, rfl⟩
  · have hcore := (State.core_of_cores_eq (State.reload_cores (s := s) (d := dieOf k) (l := l) hr hh) j).trans (State.core_restoreCores hn hj hm s)
    obtain ⟨hg, hf⟩ := (m.thr r).restart_regs
    rw [State.thr, hcore, Core.restore_thr]
    exact ⟨hg, hf, Core.restore_pool .., Core.restore_preds ..⟩

/-! ## The save (R377, R387, R391, R392, R418) -/

theorem exec_taskSave (s : State) (n : Nat) : exec (.taskSave n) s = .next (s.taskSave n savePages) := rfl

theorem State.taskSave_of_unready (ht : s.task n = some t) (h : t.preempt = 0 ∨ t.preempt = 3 ∨ s.saveReady t = false) :
    s.taskSave n pages = s := by
  unfold State.taskSave
  rw [ht]
  dsimp only
  split
  · rw [if_pos]
    rcases h with h | h | h <;> simp [h]
  · rfl

/-- What a save does that has written as far as `r`: it ends, or a fault pauses it. -/
theorem State.taskSave_written (ht : s.task n = some t) (hp : t.phase = .running) (hk : t.cores = k :: ks) (h : t.preempt = 1 ∨ t.preempt = 2)
    (hr : s.saveReady t = true) (hb : State.takeBlocks (dieOf k) (t.size - t.blocks.length) s t.blocks = some (bs, s1))
    (hw : r = State.writeBlocks pages (t.cores.zip bs) t.written 0 s1) :
    (r.stop = none → s.taskSave n pages =
      (r.s.upTask n fun t => { t with blocks := bs, written := r.n }).finishSave { t with blocks := bs } (dieOf k)) ∧
    ∀ x, r.stop = some (.fault x) → x.cause ≠ cDIEX → s.taskSave n pages =
      (r.s.upTask n fun t => { t with blocks := bs, written := r.n }).saveStops t (t.cores.getD (r.n / pages) k) x := by
  have hpre : ¬ (!(t.preempt == 1 || t.preempt == 2) || !(s.saveReady t)) = true := by
    rcases h with h | h <;> simp [h, hr]
  subst hw
  unfold State.taskSave
  rw [ht]
  dsimp only
  split
  · next c l _ hc =>
    obtain ⟨rfl, -⟩ := List.cons.inj (hk.symm.trans hc)
    rw [if_neg hpre, hb]
    refine ⟨fun hs => ?_, fun x hs hx => ?_⟩
    · simp only [hs]
    · simp only [hs, if_neg hx]
  · next hn => exact absurd hk (hn _ _ hp)

/-- What keeping its state off its cores makes of a task: it is saved, with one core's contents for each of `n`. -/
structure Task.SavedAs (n : Nat) (x y : Task) : Prop where
  id      : y.id = x.id
  phase   : y.phase = .saved
  cores   : y.cores = []
  preempt : y.preempt = 0
  blocks  : y.blocks = x.blocks
  saved   : y.saved.length = n

theorem State.keepSaved_tasks (s : State) (t : Task) (d : Fin 4) :
    ∃ f, (∀ x, Task.SavedAs t.cores.length x (f x)) ∧ (s.keepSaved t d).tasks = (s.upTask t.id f).tasks := by
  unfold State.keepSaved
  extract_lets s1 snaps mine s2 s3
  have h1 : s1.tasks = s.tasks := by
    refine foldl_keeps State.tasks (fun s c => ?_) _ s
    split
    · exact coreBlind_tasks.cutEngines s c
    · exact coreBlind_tasks.cancelSeq s c
  have h3 : s3.tasks = s2.tasks := coreBlind_tasks.upCores s2 t.cores Core.vacate
  obtain ⟨f, hf, h2⟩ : ∃ f, (∀ x, Task.SavedAs t.cores.length x (f x)) ∧ s2 = s1.upTask t.id f :=
    ⟨_, fun _ => ⟨rfl, rfl, rfl, rfl, rfl, by simp [snaps]⟩, rfl⟩
  refine ⟨f, hf, ?_⟩
  show (s3.charge d t.region 128 (-(t.size : Int))).tasks = _
  rw [coreBlind_tasks.charge, h3, h2, State.upTask, State.upTask, h1]

theorem State.core_keepSaved (h : j ∈ t.cores) (s : State) (d : Fin 4) : ((s.keepSaved t d).core j).taskid = 0 ∧
    ((s.keepSaved t d).core j).posts = [] ∧ ((s.keepSaved t d).core j).reqs = [] := by
  unfold State.keepSaved
  extract_lets s1 snaps mine s2 s3
  have h3 : (s3.core j).taskid = 0 ∧ (s3.core j).posts = [] ∧ (s3.core j).reqs = [] := by
    have hv := State.core_upCores_of_mem (f := Core.vacate) (P := fun k => k.taskid = 0 ∧ k.posts = [] ∧ k.reqs = [])
      (fun _ => ⟨rfl, rfl, rfl⟩) h s2
    unfold s3 State.forgetTask
    dsimp only [State.core, Fin.getElem_fin]
    rw [Vector.getElem_map]
    exact hv
  have hc := State.core_of_cores_eq (homeBlind_cores.charge s3 d t.region 128 (-(t.size : Int))) j
  rw [← hc] at h3
  exact h3

theorem State.task_saveStops (u : State) (t : Task) (c : Fin 64) (x : XFault) :
    (u.saveStops t c x).task t.id = (u.task t.id).map fun t => { t with phase := .savef } := State.task_upTask _ _ fun _ => rfl

section
variable (ht : s.task n = some t) (hp : t.phase = .running) (hk : t.cores = k :: ks) (h : t.preempt = 1 ∨ t.preempt = 2)
  (hr : s.saveReady t = true) (hb : State.takeBlocks (dieOf k) (t.size - t.blocks.length) s t.blocks = some (bs, s1))
  (hw : r = State.writeBlocks savePages (t.cores.zip bs) t.written 0 s1)
include hb hw

theorem State.tasks_written : r.s.tasks = s.tasks := by
  rw [hw]
  exact (coreBlind_tasks.writeBlocks ..).trans (coreBlind_tasks.takeBlocks hb)

include ht

theorem State.task_written : (r.s.upTask n fun t => { t with blocks := bs, written := r.n }).task n =
    some { t with blocks := bs, written := r.n } := by
  rw [State.task_upTask, State.task_of_tasks (State.tasks_written hb hw), ht]
  · rfl
  · exact fun _ => rfl

include hp hk h hr

theorem taskSave_keeps (hs : r.stop = none) (hc : t.cancel = false) : ∃ s', exec (.taskSave n) s = .next s' ∧
    s'.tasks.length = s.tasks.length ∧
    (∀ x ∈ s'.tasks, x.id = n → x.phase = .saved ∧ x.cores = [] ∧ x.preempt = 0 ∧ x.blocks = bs ∧ x.saved.length = t.cores.length) ∧
    ∀ j ∈ t.cores, (s'.core j).taskid = 0 ∧ (s'.core j).posts = [] ∧ (s'.core j).reqs = [] := by
  have he := (State.taskSave_written ht hp hk h hr hb hw).1 hs
  have hf (u : State) : u.finishSave { t with blocks := bs } (dieOf k) = u.keepSaved { t with blocks := bs } (dieOf k) := by
    simp only [State.finishSave, hc]
    rfl
  rw [hf] at he
  obtain ⟨f, hkeep, htasks⟩ := State.keepSaved_tasks (r.s.upTask n fun t => { t with blocks := bs, written := r.n })
    { t with blocks := bs } (dieOf k)
  have hid : t.id = n := State.task_id ht
  refine ⟨_, (exec_taskSave s n).trans (congrArg _ he), ?_, fun x hx hi => ?_,
    fun j hj => State.core_keepSaved (t := { t with blocks := bs }) hj _ _⟩
  · rw [htasks, State.upTask, List.length_map, State.upTask, List.length_map, State.tasks_written hb hw]
  · rw [htasks, hid] at hx
    obtain ⟨y, hy, hyi, rfl⟩ := State.mem_tasks_upTask hx hi
    obtain ⟨z, -, -, rfl⟩ := State.mem_tasks_upTask hy hyi
    obtain ⟨-, h1, h2, h3, h4, h5⟩ := hkeep { z with blocks := bs, written := r.n }
    exact ⟨h1, h2, h3, h4, h5⟩

theorem taskSave_cancels (hs : r.stop = none) (hc : t.cancel = true) : ∃ s', exec (.taskSave n) s = .next s' ∧ s'.task n = none := by
  refine ⟨_, (exec_taskSave s n).trans (congrArg _ ((State.taskSave_written ht hp hk h hr hb hw).1 hs)), ?_⟩
  obtain rfl := State.task_id ht
  unfold State.finishSave
  dsimp only
  rw [hc]
  simp only [Bool.not_true, Bool.false_eq_true, if_false]
  split
  · next x hx =>
    rw [← State.task_id hx]
    exact State.task_removeTask _ x
  · next hx => exact hx

/-- A fault that the driver must help with: SAVEF is posted, and the task stays where it is with what is written (R392). -/
theorem taskSave_pauses (x : XFault) (hs : r.stop = some (.fault x)) (hx : x.cause ≠ cDIEX) : ∃ s' y, exec (.taskSave n) s = .next s' ∧
    s'.task n = some y ∧ y.phase = .savef ∧ y.written = r.n ∧ y.blocks = bs ∧ y.cores = t.cores ∧
    ∃ h ∈ s'.hostq, h.kind = 2 ∧ h.task = n ∧ h.cause = x.cause := by
  have he := (State.taskSave_written ht hp hk h hr hb hw).2 x hs hx
  have htask := State.task_written ht hb hw
  have hid : t.id = n := State.task_id ht
  refine ⟨_, { t with blocks := bs, written := r.n, phase := .savef }, (exec_taskSave s n).trans (congrArg _ he), ?_, rfl, rfl, rfl, rfl,
    _, List.mem_append_right _ (List.mem_singleton_self _), rfl, hid, rfl⟩
  have hstop := State.task_saveStops (r.s.upTask n fun t => { t with blocks := bs, written := r.n }) t (t.cores.getD (r.n / savePages) k) x
  rw [hid, htask] at hstop
  exact hstop

end

end Sys2Proof.Machine

/-! # The dispatch of a task, and the statement (O47) -/

namespace Sys2Proof.Machine

variable {s s1 s2 : State} {d : Fin 4} {c : Cand} {l : List Cand} {q p : Nat} {cores : List (Fin 64)}

/-! ## A round (R383) -/

theorem exec_dispatchRound (s : State) (d : Fin 4) : exec (.dispatchRound d) s = .next (s.dispatchRound d) := rfl

theorem State.dispatchRound_idle (h : s.lcs ≠ .operational ∨ s.dispatchReady = false ∨ s.cdUp d = false) : s.dispatchRound d = s := if_pos h

theorem State.dispatchRound_chooses (hl : s.lcs = .operational) (hr : s.dispatchReady = true) (hd : s.cdUp d = true) :
    s.dispatchRound d = ((s.refreshViews d).sweep d).choose d (((s.refreshViews d).sweep d).cands d) :=
  if_neg (by simp [hl, hr, hd])

theorem firstShort_of_fits {n : Nat} (h : ∀ x ∈ l, x.size ≤ n) : firstShort n l = none := by
  induction l with
  | nil => rfl
  | cons x l ih =>
    obtain ⟨hx, hl⟩ := List.forall_mem_cons.1 h
    rw [firstShort, if_neg (by omega), ih hl]

/-- With no cores held back, and room for every candidate, the first one is dispatched. -/
theorem State.choose_first (hh : s.heldCand d (c :: l) = none) (hf : ∀ x ∈ c :: l, x.size ≤ (s.freeCores d).length) :
    s.choose d (c :: l) = (s.dispatch d c).countBypasses d ((c :: l).filter (·.what != c.what)) := by
  have hc : (c :: l).find? (fun c => decide (c.size ≤ (s.freeCores d).length)) = some c :=
    List.find?_cons_of_pos (by simpa using hf c List.mem_cons_self)
  simp only [State.choose, hh, firstShort_of_fits hf, hc]

/-! ## What counting bypasses leaves (R20) -/

theorem State.addBypass_cores (s : State) (d h) : (s.addBypass d h).cores = s.cores := by
  unfold State.addBypass
  cases h <;> dsimp only <;> split <;> rfl

theorem State.addBypass_hostq (s : State) (d h) : (s.addBypass d h).hostq = s.hostq := by
  unfold State.addBypass
  cases h <;> dsimp only <;> split <;> rfl

theorem State.countBypasses_cores (s : State) (d l) : (s.countBypasses d l).cores = s.cores :=
  foldl_keeps State.cores (fun s _ => s.addBypass_cores ..) l s

theorem State.countBypasses_hostq (s : State) (d l) : (s.countBypasses d l).hostq = s.hostq :=
  foldl_keeps State.hostq (fun s _ => s.addBypass_hostq ..) l s

/-- A task stays but for its count of bypasses. -/
theorem State.mem_tasks_addBypass {x : Task} (h : x ∈ s.tasks) (e : Held) : ∃ b, { x with bypass := b } ∈ (s.addBypass d e).tasks := by
  have hs : ∃ b, { x with bypass := b } ∈ (match e with
      | .saved id => s.upTask id fun t => { t with bypass := min 64 (s.bypasses e + 1) }
      | .record _ _ => s).tasks := by
    cases e with
    | saved id =>
      by_cases hi : x.id = id
      · exact ⟨_, List.mem_map.2 ⟨x, h, if_pos hi⟩⟩
      · exact ⟨x.bypass, List.mem_map.2 ⟨x, h, if_neg hi⟩⟩
    | record q p => exact ⟨x.bypass, h⟩
  obtain ⟨b, hb⟩ := hs
  refine ⟨b, ?_⟩
  unfold State.addBypass
  cases e <;> dsimp only <;> split <;> exact hb

theorem State.mem_tasks_countBypasses {x : Task} (h : x ∈ s.tasks) (l : List Cand) :
    ∃ b, { x with bypass := b } ∈ (s.countBypasses d l).tasks := by
  induction l generalizing s x with
  | nil => exact ⟨x.bypass, h⟩
  | cons e l ih =>
    obtain ⟨b, hb⟩ := State.mem_tasks_addBypass (d := d) h e.what
    exact ih (x := { x with bypass := b }) hb

/-! ## A record's dispatch (R384, R385) -/

/-- The task that a record taken in s becomes. -/
def State.newTask (s : State) (c : Cand) (q p : Nat) (cores : List (Fin 64)) : Task :=
  { id := s.nextTask, region := c.region, queue := q, pos := p, ctx := rContext c.rec_, chunk := rCHUNK c.rec_, size := c.size,
    sigm := rSIGM c.rec_, entries := [], phase := .formed, cores := cores, preempt := 0, order := s.nextOp, bypass := 0, written := 0,
    cancel := false, saved := [], blocks := [], heldEv := [], results := [], invals := [] }

/-- The team stands on its cores, charged to its region, and nothing of its kernel is loaded. -/
def State.formTeam (s : State) (d : Fin 4) (c : Cand) (t : Task) : State :=
  t.cores.zipIdx.foldl (fun (s : State) x => s.upCore x.1 fun k => k.join t x.2 (viewOf c.region c.chain))
    (({ s with nextTask := s.nextTask + 1, nextOp := s.nextOp + 1, tasks := s.tasks ++ [t] }.charge d c.region 128 c.size).addPass d c)

theorem State.formTeam_tasks (s : State) (d c) (t : Task) : (s.formTeam d c t).tasks = s.tasks ++ [t] :=
  (coreBlind_tasks.foldl_upCore (fun x : Fin 64 × Nat => x.1) _ _ _).trans ((coreBlind_tasks.addPass ..).trans (coreBlind_tasks.charge ..))

theorem State.core_formTeam {t : Task} {k : Fin 64} (h : k ∈ t.cores) (s : State) (d c) :
    ((s.formTeam d c t).core k).taskid = t.id ∧ ((s.formTeam d c t).core k).teamsz = t.size :=
  core_foldl_upCore_of_mem (c := fun x : Fin 64 × Nat => x.1) (P := fun k => k.taskid = t.id ∧ k.teamsz = t.size)
    (fun _ _ _ => ⟨rfl, rfl⟩) (by rwa [List.zipIdx_map_fst]) _

theorem State.dispatchRecord_taken (h : s.takeRecord d q (chainAsid c.chain) c.qcr c.rec_ p = .ok s2) :
    (∃ (x : XFault) (th : Nat), s.dispatchRecord d c q p cores =
      ((s2.formTeam d c (s2.newTask c q p cores)).freeBits 2).2.endFaulted s2.nextTask 3 x.cause th x.detail x.va 0) ∨
    ∃ kn slots args, s.dispatchRecord d c q p cores =
      ((s2.formTeam d c (s2.newTask c q p cores)).upTask s2.nextTask fun t => { t with entries := kn.entries }).upCores cores
        fun k => k.load kn slots args := by
  unfold State.dispatchRecord
  extract_lets asid v
  rw [h]
  dsimp only
  split
  · exact .inl ⟨_, _, rfl⟩
  · exact .inr ⟨_, _, _, rfl⟩

theorem Core.load_keeps_team (k : Core) (kn slots args) : (k.load kn slots args).taskid = k.taskid ∧ (k.load kn slots args).teamsz = k.teamsz :=
  ⟨Core.bumpL1_keeps Core.taskid (fun _ _ _ _ => rfl) _, Core.bumpL1_keeps Core.teamsz (fun _ _ _ _ => rfl) _⟩

theorem Core.load_clears (k : Core) (kn slots args) : (k.load kn slots args).chcnt = 0 ∧
    (k.load kn slots args).preds = Vector.replicate 12 0 :=
  ⟨Core.bumpL1_keeps Core.chcnt (fun _ _ _ _ => rfl) _, Core.bumpL1_keeps Core.preds (fun _ _ _ _ => rfl) _⟩

/-! ## The events of a task that ends FAULTED (R385, R403) -/

/-- A task that leaves takes none of the pending events along. -/
theorem State.mem_hostq_removeTask {h : HostEvent} (hm : h ∈ s.hostq) (t : Task) :
    ∃ h' ∈ (s.removeTask t).hostq, h'.kind = h.kind ∧ h'.task = h.task := by
  unfold State.removeTask
  extract_lets die s2 s3 held s4 s5
  have h2 : s2.hostq = s.hostq := by
    unfold s2
    split
    · rfl
    · exact coreBlind_hostq.charge ..
  have h3 : s3.hostq = s2.hostq :=
    (foldl_keeps State.hostq (fun s _ => coreBlind_hostq.unpin s _) _ _).trans
      (foldl_keeps State.hostq (fun s _ => coreBlind_hostq.dropSeq s _) _ _)
  have h4 : s4.hostq = s3.hostq := foldl_keeps State.hostq (fun s _ => coreBlind_hostq.freeSlab s ..) _ _
  have h5 : s5.hostq = s4.hostq := coreBlind_hostq.upCores s4 t.cores Core.vacate
  refine ⟨_, List.mem_map_of_mem (h5.trans (h4.trans (h3.trans h2)) ▸ hm), ?_⟩
  split <;> exact ⟨rfl, rfl⟩

theorem State.mem_hostq_faultEnd {h : HostEvent} (hm : h ∈ s.hostq) (t : Task) :
    ∃ h' ∈ (s.faultEnd t).hostq, h'.kind = h.kind ∧ h'.task = h.task := by
  obtain ⟨h', hm', he⟩ := State.mem_hostq_removeTask hm t
  refine ⟨h', ?_, he⟩
  unfold State.faultEnd
  dsimp only
  split
  · rw [coreBlind_hostq.faultDomain]
    exact hm'
  · exact hm'

theorem State.endFaulted_posts {n : Nat} {t : Task} (ht : s.task n = some t) (kind cause thread detail fva trapa : Nat) :
    ∃ h ∈ (s.endFaulted n kind cause thread detail fva trapa).hostq, h.kind = kind ∧ h.task = n := by
  unfold State.endFaulted
  rw [ht]
  obtain ⟨h, hm, hk, ht'⟩ := State.mem_hostq_faultEnd (s := s.postHost (taskEvent kind (s.viewFor t) t cause thread detail fva trapa))
    (List.mem_append_right _ (List.mem_singleton_self _)) t
  exact ⟨h, hm, hk, ht'.trans (State.task_id ht)⟩

/-! ## The outcome of a dispatch, and the statement -/

/-- The first candidate, a record, ends FAULTED with an event, or its team stands on the lowest free cores. -/
theorem dispatchRecord_outcome (h : s.takeRecord d q (chainAsid c.chain) c.qcr c.rec_ p = .ok s2) (l : List Cand) :
    (∃ e ∈ ((s.dispatchRecord d c q p cores).countBypasses d l).hostq, e.kind = 3 ∧ e.task = s2.nextTask) ∨
    ∃ x ∈ ((s.dispatchRecord d c q p cores).countBypasses d l).tasks, x.id = s2.nextTask ∧ x.region = c.region ∧ x.queue = q ∧ x.pos = p ∧
      x.phase = .formed ∧ x.size = c.size ∧ x.cores = cores ∧
      ∀ k ∈ x.cores, (((s.dispatchRecord d c q p cores).countBypasses d l).core k).taskid = x.id ∧
        (((s.dispatchRecord d c q p cores).countBypasses d l).core k).teamsz = c.size ∧
        (((s.dispatchRecord d c q p cores).countBypasses d l).core k).chcnt = 0 ∧
        (((s.dispatchRecord d c q p cores).countBypasses d l).core k).preds = Vector.replicate 12 0 := by
  have hteam := State.formTeam_tasks s2 d c (s2.newTask c q p cores)
  have hmem : s2.newTask c q p cores ∈ (s2.formTeam d c (s2.newTask c q p cores)).tasks := by
    rw [hteam]
    exact List.mem_append_right _ (List.mem_singleton_self _)
  rcases State.dispatchRecord_taken (cores := cores) h with ⟨x, th, he⟩ | ⟨kn, slots, args, he⟩
  · left
    obtain ⟨y, hy⟩ : ∃ y, (s2.formTeam d c (s2.newTask c q p cores)).task s2.nextTask = some y := by
      rw [← Option.isSome_iff_exists, State.task, List.find?_isSome]
      exact ⟨_, hmem, beq_self_eq_true _⟩
    rw [State.countBypasses_hostq, he]
    exact State.endFaulted_posts (s := ((s2.formTeam d c (s2.newTask c q p cores)).freeBits 2).2) (t := y) hy ..
  · right
    have hcore (k : Fin 64) := State.core_of_cores_eq (State.countBypasses_cores (s.dispatchRecord d c q p cores) d l) k
    have htask : { s2.newTask c q p cores with entries := kn.entries } ∈ (s.dispatchRecord d c q p cores).tasks := by
      rw [he, State.upCores_tasks]
      exact List.mem_map.2 ⟨_, hmem, if_pos rfl⟩
    obtain ⟨b, hb⟩ := State.mem_tasks_countBypasses (d := d) htask l
    refine ⟨_, hb, rfl, rfl, rfl, rfl, rfl, rfl, rfl, fun k hk => ?_⟩
    obtain ⟨hid, hsz⟩ := State.core_formTeam (t := s2.newTask c q p cores) hk s2 d c
    obtain ⟨hch, hpr⟩ := State.core_upCores_of_mem (f := fun k => k.load kn slots args) (l := cores)
      (P := fun k => k.chcnt = 0 ∧ k.preds = Vector.replicate 12 0) (fun k => k.load_clears kn slots args) hk
      ((s2.formTeam d c (s2.newTask c q p cores)).upTask s2.nextTask fun t => { t with entries := kn.entries })
    rw [hcore, he]
    refine ⟨?_, ?_, hch, hpr⟩
    · exact (State.core_upCores_keeps Core.taskid (fun k => (k.load_keeps_team kn slots args).1) _).trans hid
    · exact (State.core_upCores_keeps Core.teamsz (fun k => (k.load_keeps_team kn slots args).2) _).trans hsz

/-- The round dispatches the first candidate, a record that fits. -/
theorem State.dispatchRound_first (hl : s.lcs = .operational) (hr : s.dispatchReady = true) (hd : s.cdUp d = true)
    (h1 : s1 = (s.refreshViews d).sweep d) (hc : s1.cands d = c :: l) (hh : s1.heldCand d (c :: l) = none) (hw : c.what = .record q p)
    (hf : ∀ x ∈ c :: l, x.size ≤ (s1.freeCores d).length) : s.dispatchRound d =
      (s1.dispatchRecord d c q p ((s1.freeCores d).take c.size)).countBypasses d ((c :: l).filter (·.what != c.what)) := by
  rw [State.dispatchRound_chooses hl hr hd, ← h1, hc, State.choose_first hh hf]
  simp only [State.dispatch, hw]

/-- Settles O47: the round, the first issue, the escalation, the save, the resume and the end, each by the lemmas on its function. -/
theorem taskEvents : Obligations.TaskEvents := by
  refine ⟨?round, ?issue, ?clean, ?escalate, ?save, ?resume, ?finish⟩
  case issue => exact fun s n t k ks => taskFirstIssue_starts
  case clean => exact startThread_clean
  case escalate => exact fun s n t => preemptEscalate_makes_urgent
  case resume => exact fun s n t k ks l => taskResume_restores
  case round =>
    intro s s1 s2 d c l q p
    refine ⟨fun h => ?_, fun hl hr hd h1 hc hh hw hf ht => ?_⟩
    · exact (exec_dispatchRound s d).trans (congrArg _ (State.dispatchRound_idle h))
    · exact ⟨_, (exec_dispatchRound s d).trans (congrArg _ (State.dispatchRound_first hl hr hd h1 hc hh hw hf)), dispatchRecord_outcome ht _⟩
  case save =>
    intro s s1 r n t k ks bs ht hp hk
    refine ⟨fun h => ?_, fun h hs hb hw => ?_⟩
    · exact (exec_taskSave s n).trans (congrArg _ (State.taskSave_of_unready ht h))
    · exact ⟨taskSave_keeps ht hp hk h hs hb hw, taskSave_cancels ht hp hk h hs hb hw, taskSave_pauses ht hp hk h hs hb hw⟩
  case finish =>
    intro s n t k ks ht hp hk h3
    refine ⟨taskEnd_waits ht h3, fun ha hx => ?_⟩
    have he : ∀ j ∈ t.cores, s.EndsOn j := fun j hj => State.endsOn_of (ha j hj)
    exact ⟨taskEnd_ends ht hp hk h3 he hx, fun j r => taskEnd_raises ht hp hk h3 he hx⟩

end Sys2Proof.Machine

/-! # A buffered store is performed (O14) -/

namespace Sys2Proof.Machine

variable {s out : State} {c : Fin 64} {r : Role} {i : Nat} {st : Store}

/-! ## What a change of one core or thread leaves of every core and thread -/

/-- What a change of one core leaves of it stays in every core. -/
theorem State.core_upCore_keeps {α : Type} (s : State) {c : Fin 64} {f : Core → Core} (p : Core → α) (hf : p (f (s.core c)) = p (s.core c))
    (k : Fin 64) : p ((s.upCore c f).core k) = p (s.core k) := by
  by_cases hk : k = c
  · subst hk
    rw [State.core_upCore, hf]
  · rw [State.core_upCore_ne s f hk]

/-- A change of a core that leaves its threads leaves every thread. -/
theorem State.thr_upCore (s : State) {c : Fin 64} {f : Core → Core} (hf : (f (s.core c)).threads = (s.core c).threads) (k : Fin 64) (q : Role) :
    (s.upCore c f).thr k q = s.thr k q :=
  s.core_upCore_keeps (·.thr q) (congrArg (·[rix q]) hf) k

/-- What a change of one thread leaves of it stays in every thread. -/
theorem State.thr_upThr_keeps {α : Type} (s : State) {c : Fin 64} {r : Role} {f : Thread → Thread} (p : Thread → α)
    (hf : p (f (s.thr c r)) = p (s.thr c r)) (k : Fin 64) (q : Role) : p ((s.upThr c r f).thr k q) = p (s.thr k q) := by
  refine s.core_upCore_keeps (f := fun k => k.setThr r (f (s.thr c r))) (fun x => p (x.thr q)) ?_ k
  by_cases hq : q = r
  · subst hq
    rw [Core.thr_setThr, hf, State.thr]
  · rw [Core.thr_setThr_ne _ _ hq]

/-- A change of one thread leaves what lies beside the threads of every core. -/
theorem State.core_upThr_keeps {α : Type} (s : State) (c : Fin 64) (r : Role) (f : Thread → Thread) (p : Core → α)
    (hp : ∀ (k : Core) t, p (k.setThr r t) = p k) (k : Fin 64) : p ((s.upThr c r f).core k) = p (s.core k) :=
  s.core_upCore_keeps (f := fun k => k.setThr r (f (s.thr c r))) p (hp _ _) k

/-- Cells written at a home change memory, poison, the L2 copies, the watches and the base dies' rows alone. -/
theorem HomeBlind.physCells {β : Type} {g : State → β} (hg : HomeBlind g) (s : State) (l ms) : g (s.physCells l ms) = g s := by
  have hm (m : Mem) : g { s with mem := m } = g s := hg.home s m s.pflip s.l2own s.watches s.bds
  have hw (t : State) (a lines has) : g (t.landWrite a lines has) = g t := by
    unfold State.landWrite
    split
    · exact hg.home t t.mem t.pflip t.l2own t.watches _
    · rfl
  unfold State.physCells
  split
  · rfl
  extract_lets ln whole s1 s2 s3 s4
  have h2 : g s2 = g s1 := by
    unfold s2
    split
    · exact hg.setPoison s1 ..
    · rfl
  have h4 : g s4 = g s2 := hg.home s2 s2.mem s2.pflip _ _ s2.bds
  rw [hw, h4, h2, hm]

@[simp] theorem State.physCells_cores (s : State) (l ms) : (s.physCells l ms).cores = s.cores := homeBlind_cores.physCells s l ms

@[simp] theorem State.physCells_mem (s : State) (l ms) : (s.physCells l ms).mem = s.mem.writeCells l := by
  unfold State.physCells
  split
  · rfl
  · simp only [State.landWrite_mem, State.fire_mem, State.ownLines_mem]
    split <;> rfl

/-- The pool of core m takes the cells; its threads stay. -/
theorem State.poolCells_spec (s : State) (m : Fin 64) (cells : List (Nat × Byte)) :
    ((s.poolCells m cells).core m).pool = (s.core m).pool.writeCells cells ∧ (s.poolCells m cells).mem = s.mem ∧
    (∀ k q, (s.poolCells m cells).thr k q = s.thr k q) ∧ ∀ k, k ≠ m → ((s.poolCells m cells).core k).pool = (s.core k).pool := by
  cases cells with
  | nil => exact ⟨rfl, rfl, fun _ _ => rfl, fun _ _ => rfl⟩
  | cons e t =>
    unfold State.poolCells
    dsimp only
    refine ⟨?_, rfl, s.thr_upCore ?_, fun k hk => ?_⟩
    · rw [State.core_upCore]
      split <;> rfl
    · split <;> rfl
    · rw [State.core_upCore_ne s _ hk]

/-! ## A store that nothing holds back (R117, R132, R133, R242) -/

/-- The thread's buffer without its store i. -/
def State.dropStore (s : State) (c : Fin 64) (r : Role) (i : Nat) : State := s.upThr c r fun t => { t with stores := t.stores.eraseIdx i }

theorem State.thr_dropStore (s : State) (c : Fin 64) (r : Role) (i : Nat) :
    ((s.dropStore c r i).thr c r).stores = (s.thr c r).stores.eraseIdx i ∧ ∀ k q, ((s.dropStore c r i).thr k q).g = (s.thr k q).g :=
  ⟨congrArg Thread.stores (s.thr_upThr c r _), s.thr_upThr_keeps (·.g) rfl⟩

theorem State.pool_dropStore (s : State) (c : Fin 64) (r : Role) (i : Nat) (k : Fin 64) : ((s.dropStore c r i).core k).pool = (s.core k).pool :=
  s.core_upThr_keeps c r _ (·.pool) (fun _ _ => rfl) k

section
variable (hi : (s.thr c r).stores[i]? = some st)
  (he : (((s.thr c r).stores.take i).any fun x =>
    x.pool == st.pool && x.ms == st.ms && x.bytes.any fun e => st.bytes.any fun f => e.1 == f.1) = false)
  (hq : ((s.core c).reqs.any fun q =>
    q.role == r && q.isRead && decide (q.id < st.id) && st.bytes.any fun e => q.touches st.pool st.ms e.1 1) = false)
  (hl : s.storeLocked c r st = false) (hs : (s.core c).seenBefore st = false) (h16 : i < 65536)
  (ht : (st.pool == none && s.tripHeld c st.addr) = false)
include hi he hq hl hs h16 ht

theorem State.storePerform_takes (hd : (if st.pool.isSome then none else s.lost (dieOf c) st.addr) = none) :
    s.storePerform c r i = (s.dropStore c r i).storeTake c st := by
  have hm : i % 65536 = i := Nat.mod_eq_of_lt h16
  have h1 : i / 65536 ≠ 1 := by omega
  simp only [State.storePerform, hm, hi, he, hq, hl, hs, ht, hd, h1, Bool.or_self, Bool.false_eq_true, if_false]
  rfl

theorem State.storePerform_sees : s.storePerform c r (65536 + i) = s.storeSeen c r st := by
  have hm : (65536 + i) % 65536 = i := by omega
  have h1 : (65536 + i) / 65536 = 1 := by omega
  simp only [State.storePerform, hm, hi, he, hq, hl, hs, ht, h1, Bool.or_self, Bool.false_eq_true, if_false, if_true]

end

/-! ## Where it goes (R110, R133, R140) -/

theorem State.storeTake_pool {m : Fin 64} (h : st.pool = some m) : out.storeTake c st = out.poolCells m st.bytes := by
  simp only [State.storeTake, h]

/-- A store to device memory leaves every pool and every thread. -/
theorem State.storeTake_dev (h : st.pool = none) : (out.storeTake c st).mem = out.mem.writeCells st.bytes ∧
    (∀ k q, (out.storeTake c st).thr k q = out.thr k q) ∧ ∀ k, ((out.storeTake c st).core k).pool = (out.core k).pool := by
  have hc (k : Fin 64) : (out.physCells st.bytes st.ms).core k = out.core k := State.core_of_cores_eq (out.physCells_cores ..) k
  simp only [State.storeTake, h]
  refine ⟨out.physCells_mem .., fun k q => ?_, fun k => ?_⟩
  · rw [State.thr_upCore _ (by split <;> rfl), State.thr, State.thr, hc]
  · rw [State.core_upCore_keeps _ (·.pool) (by split <;> rfl), hc]

/-- The L1 takes bytes of the store, or nothing: memory, the pools and the registers stay. -/
theorem State.storeSeen_keeps (s : State) (c : Fin 64) (r : Role) (st : Store) : (s.storeSeen c r st).mem = s.mem ∧
    (∀ k q, ((s.storeSeen c r st).thr k q).g = (s.thr k q).g) ∧ ∀ k, ((s.storeSeen c r st).core k).pool = (s.core k).pool := by
  unfold State.storeSeen
  split
  · exact ⟨rfl, fun _ _ => rfl, fun _ => rfl⟩
  · refine ⟨rfl, fun k q => ?_, fun k => ?_⟩
    · refine (State.thr_upThr_keeps _ (·.g) rfl k q).trans (congrArg Thread.g ?_)
      exact State.thr_upCore { s with nextOp := s.nextOp + 1 } rfl k q
    · refine (State.core_upThr_keeps _ c r _ (·.pool) (fun _ _ => rfl) k).trans ?_
      exact State.core_upCore_keeps { s with nextOp := s.nextOp + 1 } (·.pool) rfl k

/-- A cached store that hits in every line and that the L1 has not taken yet is taken and marked. -/
theorem State.storeSeen_hits (hp : st.pool = none) (hm : st.ms = false) (hn : st.seen = none)
    (hh : ∀ e ∈ st.bytes, ((s.core c).l1hit (e.1 / 64)).isSome = true) :
    ((s.storeSeen c r st).core c).l1 = ((s.core c).l1store st.bytes).l1 ∧ ((s.storeSeen c r st).thr c r).stores =
      (s.thr c r).stores.map fun x => if x.id = st.id then { x with seen := some s.nextOp } else x := by
  have hall : (st.bytes.all fun e => ((s.core c).l1hit (e.1 / 64)).isSome) = true := List.all_eq_true.2 hh
  simp only [State.storeSeen, hp, hm, hn, hall, Option.isSome_none, Bool.or_self, Bool.not_true, Bool.false_eq_true, if_false, State.fresh]
  refine ⟨?_, ?_⟩
  · refine (State.core_upThr_keeps _ c r _ (·.l1) (fun _ _ => rfl) c).trans ?_
    rw [State.core_upCore]
    rfl
  · rw [State.thr_upThr, State.thr_upCore _ rfl]
    rfl

/-- Any other store is not taken so. -/
theorem State.storeSeen_other (h : st.ms = true ∨ st.seen ≠ none ∨ ∃ e ∈ st.bytes, (s.core c).l1hit (e.1 / 64) = none) :
    s.storeSeen c r st = s := by
  refine if_pos ?_
  rcases h with h | h | ⟨e, he, h⟩
  · simp [h]
  · simp [Option.isSome_iff_ne_none.2 h]
  · have hall : (st.bytes.all fun e => ((s.core c).l1hit (e.1 / 64)).isSome) = false :=
      List.all_eq_false.2 ⟨e, he, by simp [h]⟩
    simp [hall]

/-- Settles O14: `State.storePerform` past what holds a store back is `State.storeTake`, or for the later number `State.storeSeen`. -/
theorem storePerformed : Obligations.StorePerformed := by
  intro s c r i st hi he hq hl h16 hs
  obtain ⟨hst, hg⟩ := s.thr_dropStore c r i
  have hpool := s.pool_dropStore c r i
  refine ⟨fun m hm => ?pool, fun hp hd ht => ?dev, fun hp ht => ?seen⟩
  case pool =>
    obtain ⟨hw, hmem, hthr, hne⟩ := (s.dropStore c r i).poolCells_spec m st.bytes
    refine ⟨(s.dropStore c r i).poolCells m st.bytes, congrArg Host.Outcome.next ?_, ?_, ?_, hmem, fun k q => ?_, fun k hk => ?_⟩
    · rw [State.storePerform_takes hi he hq hl hs h16 (by simp [hm]) (by simp [hm]), State.storeTake_pool hm]
    · rw [hthr, hst]
    · rw [hw, hpool]
    · rw [hthr, hg]
    · rw [hne k hk, hpool]
  case dev =>
    obtain ⟨hmem, hthr, hk⟩ := State.storeTake_dev (out := s.dropStore c r i) (c := c) hp
    refine ⟨(s.dropStore c r i).storeTake c st, congrArg Host.Outcome.next ?_, ?_, hmem, fun k q => ?_, fun k => ?_⟩
    · exact State.storePerform_takes hi he hq hl hs h16 (by simp [ht]) (by simp [hp, hd])
    · rw [hthr, hst]
    · rw [hthr, hg]
    · rw [hk, hpool]
  case seen =>
    obtain ⟨hmem, hg, hk⟩ := s.storeSeen_keeps c r st
    exact ⟨s.storeSeen c r st, congrArg Host.Outcome.next (State.storePerform_sees hi he hq hl hs h16 (by simp [ht])), hmem, hg, hk,
      fun hm hn hh => State.storeSeen_hits hp hm hn hh, State.storeSeen_other⟩

end Sys2Proof.Machine

/-! # Atomics at issue, and WAITA (O17, O20) -/

namespace Sys2Proof.Machine

variable {s s1 t : State}

theorem State.Keeps.cc (h : s.Keeps t) : t.cc = s.cc := by rw [State.cc, State.cc, h.cur]

theorem State.Keeps.cr (h : s.Keeps t) : t.cr = s.cr := by rw [State.cr, State.cr, h.cur]

theorem State.Keeps.myCore {α : Type} (h : s.Keeps t) (p : Core → α) (hp : ∀ k : Core, p k.kept = p k := by exact fun _ => rfl) :
    p t.myCore = p s.myCore := by
  rw [State.myCore, State.myCore, h.cc, h.read p _ hp]

/-- A word that has added its request and changes its thread by `f` leaves the rest of the machine as a memory word does. -/
theorem State.Adds.upMe {q : Req} (h : s1.Adds t q) (hs : s.Keeps s1) (f : Thread → Thread) :
    (t.upMe f).me = f s.me ∧ (t.upMe f).myCore.reqs = s1.myCore.reqs ++ [q] ∧ (t.upMe f).mem = s.mem ∧
    (((f s.me).fpcr = s.me.fpcr ∧ (f s.me).rngseed = s.me.rngseed ∧ (f s.me).rngctr = s.me.rngctr) → s.Frame (t.upMe f)) := by
  have hk := hs.trans h.keeps
  refine ⟨?_, ?_, hk.mem, fun hf => hk.frame ?_⟩
  · rw [State.me_upMe, hk.me]
  · rw [State.myCore_upMe, ← h.reqs]
    rfl
  · rw [hk.me]
    exact hf

/-! ## Atomics (R120 to R123) -/

/-- The value of an operand of an atomic: a register, or for CAS_128 the pair that begins with it. -/
def State.operand (s : State) (op : Nat) (i : Fin 32) : Nat := (s.me.get i).toNat + if op = 19 then (s.me.get (i + 1)).toNat * 2 ^ 64 else 0

/-- The registers that an atomic reads. -/
def atomicReads (op : Nat) (a b d : Fin 32) : List (Fin 32) := [a, b, d] ++ if op = 19 then [b + 1, d + 1] else []

/-- The result of an atomic is owed: gD, and gD + 1 for CAS_128. -/
def Thread.oweAtomic (t : Thread) (op : Nat) (d : Fin 32) (id : Nat) : Thread := if op = 19 then (t.owe d id).owe (d + 1) id else t.owe d id

theorem Thread.oweAtomic_own (t : Thread) (op : Nat) {d : Fin 32} (h : d ≠ 0) (id : Nat) : (t.oweAtomic op d id).own[d] = some id := by
  unfold Thread.oweAtomic
  split
  · by_cases h1 : d + 1 = 0
    · rw [Thread.owe, if_pos h1]
      exact t.owe_own h id
    · have hne : d ≠ d + 1 := by omega
      rw [Thread.owe, if_neg h1]
      exact (getElem_set_fin_ne _ hne _).trans (t.owe_own h id)
  · exact t.owe_own h id

theorem Thread.oweAtomic_keeps {α : Type} (p : Thread → α) (hp : ∀ (t : Thread) i id, p (t.owe i id) = p t) (t : Thread) (op : Nat) (d : Fin 32)
    (id : Nat) : p (t.oweAtomic op d id) = p t := by
  unfold Thread.oweAtomic
  split
  · rw [hp, hp]
  · exact hp ..

/-- An atomic that issues past releases and acquires, whose address passes its checks and whose release is complete, adds its request where
there is room; its page is not shared. -/
theorem State.atomic_adds {maj op ord sc pa e : Nat} {a b d : Fin 32} (h : s.Issues { maj := maj } (atomicReads op a b d)) (ha : s.asyncOpen = false)
    (hw : s.window s.cc s.cr (s.me.get a).toNat .atomic = none) (hal : (s.me.get a).toNat % atomicWidth op = 0)
    (hr : 2 ≤ ord → s.release sc = .go)
    (hx : s.site (s.me.get a).toNat (atomicWidth op) .atomic (atomicWidth op) (some (maj == 14))
      (fun pa => atomicWrites op (s.physNat pa (atomicWidth op)) (s.operand op d)) = .ok (.dev pa e) s1)
    (hroom : s1.room 1 = true) (hc : leafCow e = false) :
    s.atomic maj op a b d ord sc = .next ((s1.addReq pa (s.me.get a).toNat e true
      (.atomic op (s.operand op b) (s.operand op d) d.val sc (ord % 2 == 1))).2.upMe fun t => (t.oweAtomic op d s1.nextOp).retire 2) := by
  have hrel : (if 2 ≤ ord then s.release sc else .go) = .go := by
    split
    · next h2 => exact hr h2
    · rfl
  unfold State.operand at hx
  unfold State.atomic
  refine (State.gate_issues h _).trans ?_
  dsimp only
  simp only [ha, hw, hal, hrel, hx, hroom, hc, ne_eq, not_true, if_false, Bool.false_eq_true, Bool.not_true, Bool.false_and, State.done_eq,
    State.upMe_upMe]
  rfl

theorem atomicIssue_of {maj op : Nat} {i : Instr} {a b d : Fin 32} {o : Fin 4} {c : Fin 8} {reads : List (Fin 32)} {bv ev : Nat}
    (hi : exec i s = s.atomic maj op a b d o.val c.val) (hr : reads = atomicReads op a b d) (hb : bv = s.operand op b)
    (he : ev = s.operand op d) : AtomicIssue s maj op i a b d o c reads bv ev := by
  subst hr hb he
  intro s1 pa e h ha hw hal hr hx hroom hc
  have hs := State.site_keeps hx
  obtain ⟨q, hq, hp, haddr, hkind⟩ := s1.addReq_adds pa (s.me.get a).toNat e true
    (.atomic op (s.operand op b) (s.operand op d) d.val c.val (o.val % 2 == 1))
  obtain ⟨hme, hreqs, -, hframe⟩ := hq.upMe hs fun t => (t.oweAtomic op d s1.nextOp).retire 2
  refine ⟨_, hi.trans (State.atomic_adds h ha hw hal hr hx hroom hc), hframe ⟨?_, ?_, ?_⟩, ?_, fun hd => ?_, q, hreqs, hq.id, hq.role.trans hs.cr,
    haddr, hkind⟩
  · exact (Thread.retire_fpcr _ _).trans (Thread.oweAtomic_keeps (·.fpcr) (fun _ _ _ => Thread.owe_fpcr ..) ..)
  · exact (Thread.retire_rngseed _ _).trans (Thread.oweAtomic_keeps (·.rngseed) (fun _ _ _ => Thread.owe_rngseed ..) ..)
  · exact (Thread.retire_rngctr _ _).trans (Thread.oweAtomic_keeps (·.rngctr) (fun _ _ _ => Thread.owe_rngctr ..) ..)
  · rw [hme, Thread.retire_g]
    exact Thread.oweAtomic_keeps (·.g) (fun _ _ _ => Thread.owe_g ..) ..
  · rw [hme, Thread.retire_own]
    exact s.me.oweAtomic_own op hd s1.nextOp

/-- The two widths of a read-modify-write form are not pairs. -/
theorem atomicRule_of {maj op : Nat} {i : Fin 2 → Fin 32 → Fin 32 → Fin 32 → Fin 4 → Fin 8 → Instr} (hop : op < 18)
    (hi : ∀ n a b d o c s, exec (i n a b d o c) s = s.atomic maj (op + n.val) a b d o.val c.val) : AtomicRule maj i op := by
  intro s n a b d o c
  have h19 : op + n.val ≠ 19 := by omega
  refine atomicIssue_of (hi ..) ?_ ?_ ?_
  · simp [atomicReads, h19]
  · simp [State.operand, h19]
  · simp [State.operand, h19]

/-- Settles O17: every form is `State.atomic` with its major and its operation. -/
theorem atomicsIssue : Obligations.AtomicsIssue := by
  refine ⟨?aadd, ?aand, ?aor, ?axor, ?aminI, ?aminN, ?amaxI, ?amaxN, ?swap, ?aaddMs, ?aandMs, ?aorMs, ?axorMs, ?aminIMs, ?aminNMs, ?amaxIMs,
    ?amaxNMs, ?swapMs, fun s a b d o c => ⟨?cas64, ?cas64Ms⟩, fun s a bp dp o c b d hb hd => ?pair⟩
  case cas64 | cas64Ms => exact atomicIssue_of rfl rfl rfl rfl
  case pair =>
    obtain rfl : b = Fin.ofNat 32 (2 * bp.val) := Fin.ext (by simp; omega)
    obtain rfl : d = Fin.ofNat 32 (2 * dp.val) := Fin.ext (by simp; omega)
    exact ⟨atomicIssue_of rfl rfl rfl rfl, atomicIssue_of rfl rfl rfl rfl⟩
  all_goals exact atomicRule_of (by decide) fun _ _ _ _ _ _ _ => rfl

/-! ## WAITA (R125, R126, R303) -/

/-- WAITA whose address passes its checks adds its arming read, where there is room, and blocks. -/
theorem exec_waita_arms {a b d : Fin 32} {c : Fin 2} {pa e : Nat} (h : s.Issues { maj := 14 } [a, b, d]) (hn : s.me.stage = .none)
    (ha : s.acqOpen s.cc s.cr = false) (hw : inWindow (s.me.get a).toNat = false) (hal : c.val = 1 → (s.me.get a).toNat % 8 = 0)
    (hx : s.site (s.me.get a).toNat (if c.val = 1 then 8 else 1) .watch (if c.val = 1 then 8 else 1) none (fun _ => false) = .ok (.dev pa e) s1)
    (hp : c.val = 1 → s1.readsPoison s1.me (leafBd e) s1.nextOp pa 8 = false) (hr : s1.room 1 = true) :
    exec (.waita a b d c) s = .next ((s1.addReq pa (s.me.get a).toNat e true
      (.arm (c.val == 1) (s.me.get b != 0) (s.me.get d).toNat s1.nextOp)).2.upMe fun t =>
        { t with stage := .watch s1.nextOp, why := 7, obj := 0 }) := by
  have hmod : (s.me.get a).toNat % (if c.val = 1 then 8 else 1) = 0 := by
    split
    · next h1 => exact hal h1
    · exact Nat.mod_one _
  have hpois : ¬(c.val = 1 ∧ s1.readsPoison s1.me (leafBd e) s1.nextOp pa 8 = true) := fun ⟨h1, h2⟩ => by simp [hp h1] at h2
  change execWaita a b d c s = _
  unfold execWaita
  rw [State.gate_issues h]
  dsimp only
  simp only [hn, ha, hw, beq_iff_eq, hmod, hx, hpois, hr, ne_eq, not_true, if_false, Bool.false_eq_true, Bool.not_true, State.block_eq,
    State.upMe_upMe]
  rfl

/-- WAITA whose wait has ended puts the cause into gD and WCODE. -/
theorem exec_waita_ends {a b d : Fin 32} {c : Fin 2} {v : Nat} (h : s.Issues { maj := 14 } [a, b, d]) (hv : s.me.stage = .result v) :
    exec (.waita a b d c) s = .next (s.upMe fun t => { t.put d (word v) with wcode := v }.retire 2) := by
  change execWaita a b d c s = _
  unfold execWaita
  rw [State.gate_issues h]
  simp only [hv, State.waitaEnd, State.done_eq, State.upMe_upMe]

/-- The thread's wait is over with cause v. -/
def State.wakes (s : State) (c : Fin 64) (r : Role) (id v : Nat) : State :=
  { (s.upThr c r fun t => { t with stage := .result v, why := 0, obj := 0 }) with watches := s.watches.filter fun x => x.id ≠ id }

theorem State.waitaWake_fired {c : Fin 64} {r : Role} {id v : Nat} {w : Watch} (hs : (s.thr c r).stage = .watch id)
    (hf : (s.watches.find? fun w => w.id == id && w.core == c && w.role == r) = some w) (hv : w.fired = some v) :
    s.waitaWake c r = s.wakes c r id v := by
  simp only [State.waitaWake, hs, hf, hv]
  rfl

theorem State.wakes_thr (s : State) (c : Fin 64) (r : Role) (id v : Nat) :
    (s.wakes c r id v).thr c r = { s.thr c r with stage := .result v, why := 0, obj := 0 } :=
  s.thr_upThr c r fun t => { t with stage := .result v, why := 0, obj := 0 }

/-- The one watch of a wait is found. -/
theorem find_watch {l : List Watch} {w : Watch} (h : w ∈ l) (hu : ∀ x ∈ l, x.id = w.id → x = w) :
    (l.find? fun x => x.id == w.id && x.core == w.core && x.role == w.role) = some w := by
  cases hf : l.find? fun x => x.id == w.id && x.core == w.core && x.role == w.role with
  | none => exact absurd (List.find?_eq_none.1 hf w h) (by simp)
  | some x =>
    have hx : x.id = w.id := by
      have := List.find?_some hf
      simp only [Bool.and_eq_true, beq_iff_eq] at this
      exact this.1.1
    rw [hu x (List.mem_of_find?_eq_some hf) hx]

/-- The timeout fires a timed watch of the thread that has not fired. -/
def Watch.expire (c : Fin 64) (r : Role) (w : Watch) : Watch :=
  if w.core = c ∧ w.role = r ∧ w.timed ∧ w.fired = none then { w with fired := some 1 } else w

theorem Watch.expire_place (c : Fin 64) (r : Role) (w : Watch) :
    (w.expire c r).id = w.id ∧ (w.expire c r).core = w.core ∧ (w.expire c r).role = w.role := by
  unfold Watch.expire
  split <;> exact ⟨rfl, rfl, rfl⟩

theorem exec_waitaTimeout (s : State) (c : Fin 64) (r : Role) :
    exec (.waitaTimeout c r) s = .next ({ s with watches := s.watches.map (Watch.expire c r) }.waitaWake c r) := rfl

/-- Settles O20: arming and the end are `execWaita`, the wake and the timeout are `State.waitaWake` with the one watch of the wait. -/
theorem waita : Obligations.Waita := by
  refine ⟨?arms, fun s a b d c v h hv => exec_waita_ends h hv, ?wake, ?timeout⟩
  case arms =>
    intro s s1 a b d c pa e h hn ha hw hal hx hp hr
    have hs := State.site_keeps hx
    obtain ⟨q, hq, -, haddr, hkind⟩ := s1.addReq_adds pa (s.me.get a).toNat e true
      (.arm (c.val == 1) (s.me.get b != 0) (s.me.get d).toNat s1.nextOp)
    obtain ⟨hme, hreqs, hmem, -⟩ := hq.upMe hs fun t => { t with stage := .watch s1.nextOp, why := 7, obj := 0 }
    refine ⟨_, exec_waita_arms h hn ha hw hal hx hp hr, ?_, ?_, ?_, hmem, q, hreqs, haddr, ?_, hkind⟩
    · rw [hme]
    · rw [hme]
    · rw [hme]
    · exact hq.role.trans hs.cr
  case wake =>
    rintro s c r w v hs hw rfl rfl hv hu
    refine ⟨s.wakes w.core w.role w.id v, congrArg Host.Outcome.next (State.waitaWake_fired hs (find_watch hw hu) hv), ?_, ?_, rfl, rfl⟩
    · rw [State.wakes_thr]
    · rw [State.wakes_thr]
  case timeout =>
    rintro s c r w hs hw rfl rfl ht hf hu
    have hexp : w.expire w.core w.role = { w with fired := some 1 } := if_pos ⟨rfl, rfl, ht, hf⟩
    have hfind := find_watch (l := s.watches.map (Watch.expire w.core w.role)) (List.mem_map_of_mem hw) (fun x hx hid => by
      obtain ⟨y, hy, rfl⟩ := List.mem_map.1 hx
      rw [(Watch.expire_place ..).1, (Watch.expire_place ..).1] at hid
      rw [hu y hy hid])
    rw [hexp] at hfind
    refine ⟨State.wakes { s with watches := s.watches.map (Watch.expire w.core w.role) } w.core w.role w.id 1,
      (exec_waitaTimeout ..).trans (congrArg Host.Outcome.next (State.waitaWake_fired hs hfind rfl)), ?_, ?_, rfl⟩
    · rw [State.wakes_thr]
    · rw [State.wakes_thr]

end Sys2Proof.Machine

/-! # An atomic performs at its home (O18) -/

namespace Sys2Proof.Machine

variable {s : State} {c : Fin 64} {i : Nat} {q : Req} {op b e gd sc : Nat} {acq : Bool}

/-! ## The new value (R121, R122) -/

/-- A byte string of n bytes holds a number modulo its width. -/
theorem leBytes_mod (n x : Nat) : leBytes n (x % 256 ^ n) = leBytes n x := by
  induction n generalizing x with
  | zero => rfl
  | succ n ih =>
    have hb : BitVec.ofNat 8 (x % 256 ^ (n + 1)) = BitVec.ofNat 8 x := by
      refine BitVec.eq_of_toNat_eq ?_
      rw [BitVec.toNat_ofNat, BitVec.toNat_ofNat]
      exact Nat.mod_mod_of_dvd x (Dvd.intro_left (256 ^ n) rfl)
    rw [leBytes, leBytes, hb, Nat.pow_succ', Nat.mod_mul_right_div_self, ih]

theorem atomicNew_word (h : op < 16) (h2 : op % 2 = 0) (x b : Nat) : atomicNew op x b =
    let y := b % 2 ^ 32
    if op = 0 then (x + y) % 2 ^ 32 else if op = 2 then x &&& y else if op = 4 then x ||| y else if op = 6 then x ^^^ y
    else if op = 8 then (if sint 32 x < sint 32 y then x else y) else if op = 10 then min x y
    else if op = 12 then (if sint 32 x < sint 32 y then y else x) else max x y := by
  have hop : op = 0 ∨ op = 2 ∨ op = 4 ∨ op = 6 ∨ op = 8 ∨ op = 10 ∨ op = 12 ∨ op = 14 := by omega
  rcases hop with rfl | rfl | rfl | rfl | rfl | rfl | rfl | rfl <;> simp [atomicNew, atomicWidth]

theorem atomicNew_double (h : op < 16) (h2 : op % 2 = 1) (x b : Nat) : atomicNew op x b =
    let y := b % 2 ^ 64
    if op = 1 then (x + y) % 2 ^ 64 else if op = 3 then x &&& y else if op = 5 then x ||| y else if op = 7 then x ^^^ y
    else if op = 9 then (if sint 64 x < sint 64 y then x else y) else if op = 11 then min x y
    else if op = 13 then (if sint 64 x < sint 64 y then y else x) else max x y := by
  have hop : op = 1 ∨ op = 3 ∨ op = 5 ∨ op = 7 ∨ op = 9 ∨ op = 11 ∨ op = 13 ∨ op = 15 := by omega
  rcases hop with rfl | rfl | rfl | rfl | rfl | rfl | rfl | rfl <;> simp [atomicNew, atomicWidth]

theorem leBytes_swap (x b : Nat) : leBytes 4 (atomicNew 16 x b) = leBytes 4 b ∧ leBytes 8 (atomicNew 17 x b) = leBytes 8 b :=
  ⟨leBytes_mod 4 b, leBytes_mod 8 b⟩

/-! ## The indivisible step (R122) -/

theorem State.rmw_mem (s : State) (pa op b e : Nat) (ms : Bool) : (s.rmw pa op b e ms).2.mem =
    if atomicWrites op (s.physNat pa (atomicWidth op)) e then
      s.mem.write pa (leBytes (atomicWidth op) (if op < 18 then atomicNew op (s.physNat pa (atomicWidth op)) b else b))
    else s.mem := by
  unfold State.rmw
  dsimp only
  split
  · exact State.physWrite_mem ..
  · exact State.msServe_mem ..

theorem State.rmw_cores (s : State) (pa op b e : Nat) (ms : Bool) : (s.rmw pa op b e ms).2.cores = s.cores := by
  unfold State.rmw
  dsimp only
  split
  · exact State.physWrite_cores ..
  · exact homeBlind_cores.msServe ..

/-- An operation but a compare writes its new value. -/
theorem State.rmw_mem_lt (h : op < 18) (s : State) (pa b e : Nat) (ms : Bool) : (s.rmw pa op b e ms).2.mem =
    s.mem.write pa (leBytes (atomicWidth op) (atomicNew op (s.physNat pa (atomicWidth op)) b)) := by
  rw [State.rmw_mem]
  simp [atomicWrites, h]

/-- A compare writes where it matches. -/
theorem State.rmw_mem_cas (h : 18 ≤ op) (s : State) (pa b e : Nat) (ms : Bool) : (s.rmw pa op b e ms).2.mem =
    if s.physNat pa (atomicWidth op) = e then s.mem.write pa (leBytes (atomicWidth op) b) else s.mem := by
  have h' : ¬op < 18 := by omega
  rw [State.rmw_mem]
  simp [atomicWrites, h']

/-! ## The result -/

theorem Thread.get_congr {t u : Thread} (h : t.g = u.g) (i : Fin 32) : t.get i = u.get i := by
  rw [Thread.get, Thread.get, h]

theorem Thread.deliver_owed {t : Thread} {i : Fin 32} {id : Nat} (h : t.own[i] = some id) (v : Word) : t.deliver i id v = t.put i v := if_pos h

theorem Thread.put_own_ne (t : Thread) {i j : Fin 32} (h : j ≠ i) (v : Word) : (t.put i v).own[j] = t.own[j] := by
  unfold Thread.put
  split
  · rfl
  · exact getElem_set_fin_ne _ h _

/-- The registers that an atomic's old value goes to. -/
def Thread.takeAtomic (t : Thread) (op gd id x : Nat) : Thread :=
  if op = 19 then (t.deliver (Fin.ofNat 32 gd) id (word x)).deliver (Fin.ofNat 32 (gd + 1)) id (word (x / 2 ^ 64))
  else t.deliver (Fin.ofNat 32 gd) id (atomicExt op x)

theorem State.atomicResult_eq (s : State) (c : Fin 64) (r : Role) (op gd id x : Nat) :
    s.atomicResult c r op gd id x = s.upThr c r fun t => t.takeAtomic op gd id x := by
  unfold State.atomicResult Thread.takeAtomic
  split
  · rfl
  · rfl

theorem ofNat_of_val {g : Fin 32} {n : Nat} (h : g.val = n) : Fin.ofNat 32 n = g := Fin.ext (by simp; omega)

theorem Thread.get_takeAtomic {t : Thread} {g : Fin 32} {id x : Nat} (hg : g.val = gd) (h0 : g ≠ 0) (ho : t.own[g] = some id) (hop : op < 19) :
    (t.takeAtomic op gd id x).get g = atomicExt op x := by
  have h19 : op ≠ 19 := by omega
  rw [Thread.takeAtomic, if_neg h19, ofNat_of_val hg, Thread.deliver_owed ho, Thread.get_put_same _ _ _ h0]

theorem Thread.get_takeAtomic_pair {t : Thread} {g : Fin 32} {id x : Nat} (hg : g.val = gd) (h31 : gd < 31) (ho : t.own[g] = some id)
    (ho' : t.own[g + 1] = some id) : (g ≠ 0 → (t.takeAtomic 19 gd id x).get g = word x) ∧
      (t.takeAtomic 19 gd id x).get (g + 1) = word (x / 2 ^ 64) := by
  have h1 : (g + 1).val = gd + 1 := by omega
  have hne : g + 1 ≠ g := by omega
  have h10 : g + 1 ≠ 0 := by omega
  have he : t.takeAtomic 19 gd id x = (t.put g (word x)).put (g + 1) (word (x / 2 ^ 64)) := by
    rw [Thread.takeAtomic, if_pos rfl, ofNat_of_val hg, ofNat_of_val h1, Thread.deliver_owed ho, Thread.deliver_owed]
    rw [Thread.put_own_ne _ hne, ho']
  rw [he]
  exact ⟨fun h0 => by rw [Thread.get_put_ne _ _ _ _ hne.symm, Thread.get_put_same _ _ _ h0], Thread.get_put_same _ _ _ h10⟩

/-! ## What a completed acquire leaves (R134) -/

theorem State.acquired_core_keeps {α : Type} (p : Core → α) (ht : ∀ (k : Core) r t, p (k.setThr r t) = p k)
    (hp : ∀ (k : Core) g l c, p { k with l1gen := g, l1 := l, l1clear := c } = p k) (s : State) (c : Fin 64) (r : Role) (sc : Nat) (k : Fin 64) :
    p ((s.acquired c r sc).core k) = p (s.core k) := by
  have h1 (n : Nat) : p ((if sc = 0 then s else s.upThr c r fun t => { t with sysAcq := n == 5 }).core k) = p (s.core k) := by
    split
    · rfl
    · exact s.core_upThr_keeps c r _ p (ht · r) k
  unfold State.acquired
  dsimp only
  split
  · exact (State.core_upCore_keeps _ p (Core.bumpL1_keeps p hp _) k).trans (h1 sc)
  · exact h1 sc

theorem State.acquired_g (s : State) (c : Fin 64) (r : Role) (sc : Nat) (k : Fin 64) (q : Role) :
    ((s.acquired c r sc).thr k q).g = (s.thr k q).g := by
  have h1 : ((if sc = 0 then s else s.upThr c r fun t => { t with sysAcq := sc == 5 }).thr k q).g = (s.thr k q).g := by
    split
    · rfl
    · exact s.thr_upThr_keeps (·.g) rfl k q
  unfold State.acquired
  dsimp only
  split
  · exact (congrArg Thread.g (State.thr_upCore _ (Core.bumpL1_keeps (·.threads) (fun _ _ _ _ => rfl) _) k q)).trans h1
  · exact h1

/-! ## The step of a request, and what it leaves in the table -/

/-- The atomic has been done at its home, its line is out of the L1 and its result in its registers. -/
def State.atomicDone (s : State) (c : Fin 64) (q : Req) (op b e gd : Nat) : State :=
  ((s.rmw q.addr op b e q.ms).2.upCore c fun k => k.l1drop (q.addr / 64)).upThr c q.role fun t =>
    t.takeAtomic op gd q.id (s.physNat q.addr (atomicWidth op))

theorem State.atomicDone_core {α : Type} (p : Core → α) (ht : ∀ (k : Core) r t, p (k.setThr r t) = p k)
    (hp : ∀ (k : Core) l, p { k with l1 := l } = p k) (s : State) (c : Fin 64) (q : Req)
    (op b e gd : Nat) (k : Fin 64) : p ((s.atomicDone c q op b e gd).core k) = p (s.core k) := by
  refine (State.core_upThr_keeps _ c q.role _ p (ht · q.role) k).trans ((State.core_upCore_keeps _ p (hp _ _) k).trans ?_)
  rw [State.core_of_cores_eq (s.rmw_cores ..)]

theorem State.atomicDone_thr (s : State) (c : Fin 64) (q : Req) (op b e gd : Nat) :
    (s.atomicDone c q op b e gd).thr c q.role = (s.thr c q.role).takeAtomic op gd q.id (s.physNat q.addr (atomicWidth op)) := by
  refine (State.thr_upThr _ c q.role fun t => t.takeAtomic op gd q.id (s.physNat q.addr (atomicWidth op))).trans (congrArg (Thread.takeAtomic · ..) ?_)
  rw [State.thr_upCore _ (by rfl), State.thr, State.thr, State.core_of_cores_eq (s.rmw_cores ..)]

/-- The request table of core c is l. -/
def State.withReqs (s : State) (c : Fin 64) (l : List Req) : State := s.upCore c fun k => { k with reqs := l }

/-- Whether the acquire of request i, which has performed, still waits (R134). -/
def State.acquireWaits (s : State) (c : Fin 64) (i : Nat) (q : Req) (sc : Nat) : Bool :=
  s.snoopWaits sc || ((s.core c).reqs.eraseIdx i).any fun x => x.role == q.role && x.isRead && decide (x.id < q.id)

/-- The three ends of an atomic at its home: without an acquire, with one that waits, with one that is complete. -/
theorem State.atomicAct_eq (hk : q.kind = .atomic op b e gd sc acq) : s.atomicAct c i q =
    if acq = false then (s.atomicDone c q op b e gd).withReqs c ((s.core c).reqs.eraseIdx i)
    else if s.acquireWaits c i q sc then (s.atomicDone c q op b e gd).withReqs c ((s.core c).reqs.set i { q with kind := .acquire sc })
    else ((s.atomicDone c q op b e gd).withReqs c ((s.core c).reqs.eraseIdx i)).acquired c q.role sc := by
  have hr : ((s.atomicDone c q op b e gd).core c).reqs = (s.core c).reqs :=
    State.atomicDone_core (·.reqs) (fun _ _ _ => rfl) (fun _ _ => rfl) ..
  have hu (f : List Req → List Req) : ((s.atomicDone c q op b e gd).upCore c fun k => { k with reqs := f k.reqs }) =
      (s.atomicDone c q op b e gd).withReqs c (f (s.core c).reqs) := by
    rw [State.withReqs, State.upCore, State.upCore, hr]
  have hd : ((s.rmw q.addr op b e q.ms).2.upCore c fun k => k.l1drop (q.addr / 64)).atomicResult c q.role op gd q.id
      (s.rmw q.addr op b e q.ms).1 = s.atomicDone c q op b e gd := State.atomicResult_eq ..
  have hc : (((s.atomicDone c q op b e gd).withReqs c ((s.core c).reqs.eraseIdx i)).core c).reqs = (s.core c).reqs.eraseIdx i :=
    congrArg Core.reqs (State.core_upCore ..)
  simp only [State.atomicAct, hk, hd, hu (List.eraseIdx · i), hu (List.set · i { q with kind := .acquire sc }), hc, State.acquireWaits]
  cases acq
  · rfl
  · rfl

/-- Whatever its end, memory, the pools and the registers are those of the step. -/
theorem State.atomicAct_keeps (hk : q.kind = .atomic op b e gd sc acq) :
    (s.atomicAct c i q).mem = (s.rmw q.addr op b e q.ms).2.mem ∧
    ((s.atomicAct c i q).thr c q.role).g = ((s.thr c q.role).takeAtomic op gd q.id (s.physNat q.addr (atomicWidth op))).g ∧
    ∀ k, ((s.atomicAct c i q).core k).pool = (s.core k).pool := by
  have hg (l : List Req) : (((s.atomicDone c q op b e gd).withReqs c l).thr c q.role).g =
      ((s.thr c q.role).takeAtomic op gd q.id (s.physNat q.addr (atomicWidth op))).g := by
    rw [State.withReqs, State.thr_upCore _ (by rfl), State.atomicDone_thr]
  have hp (l : List Req) (k : Fin 64) : (((s.atomicDone c q op b e gd).withReqs c l).core k).pool = (s.core k).pool :=
    (State.core_upCore_keeps _ (·.pool) rfl k).trans (State.atomicDone_core (·.pool) (fun _ _ _ => rfl) (fun _ _ => rfl) ..)
  rw [State.atomicAct_eq hk]
  split
  · exact ⟨rfl, hg _, hp _⟩
  split
  · exact ⟨rfl, hg _, hp _⟩
  · exact ⟨State.acquired_mem .., (State.acquired_g ..).trans (hg _),
      fun k => (State.acquired_core_keeps (·.pool) (fun _ _ _ => rfl) (fun _ _ _ _ => rfl) ..).trans (hp _ k)⟩

/-- The request leaves the table, or stays there for its acquire. -/
theorem State.atomicAct_reqs (hk : q.kind = .atomic op b e gd sc acq) :
    (acq = false ∨ s.acquireWaits c i q sc = false → ((s.atomicAct c i q).core c).reqs = (s.core c).reqs.eraseIdx i) ∧
    (acq = true → s.acquireWaits c i q sc = true →
      ((s.atomicAct c i q).core c).reqs = (s.core c).reqs.set i { q with kind := .acquire sc }) := by
  have hw (l : List Req) : (((s.atomicDone c q op b e gd).withReqs c l).core c).reqs = l := congrArg Core.reqs (State.core_upCore ..)
  rw [State.atomicAct_eq hk]
  refine ⟨fun h => ?_, fun h1 h2 => ?_⟩
  · split
    · exact hw _
    · next ha =>
      rw [if_neg (by simp [h.resolve_left ha])]
      exact (State.acquired_core_keeps (·.reqs) (fun _ _ _ => rfl) (fun _ _ _ _ => rfl) ..).trans (hw _)
  · rw [if_neg (by simp [h1]), if_pos h2]
    exact hw _

theorem exec_atomicAtHome_acts (hi : (s.core c).reqs[i]? = some q) (hk : q.kind = .atomic op b e gd sc acq) (hh : s.readHeld c q = false)
    (hf : s.readFault c q = none) (ht : s.tripHeld c q.addr = false) (hb : s.atomicBehind c q = false) :
    exec (.atomicAtHome c i) s = .next (s.atomicAct c i q) := by
  refine congrArg Host.Outcome.next ?_
  simp only [State.atomicHome, hi, hk, hb, hh, hf, ht, Bool.or_self, Bool.false_eq_true, if_false]

/-- The width of an operation on one register. -/
theorem atomicWidth_eq (h : op < 19) : atomicWidth op = if op = 18 ∨ op % 2 = 1 then 8 else 4 := by
  unfold atomicWidth
  split_ifs <;> omega

theorem atomicExt_eq (f : Nat → Nat) (h : op < 19) : atomicExt op (f (atomicWidth op)) =
    if op = 8 ∨ op = 12 then sextW 32 (f 4) else word (f (if op = 18 ∨ op % 2 = 1 then 8 else 4)) := by
  rw [atomicWidth_eq h, atomicExt]
  by_cases h8 : op = 8 ∨ op = 12
  · have hw : ¬(op = 18 ∨ op % 2 = 1) := by omega
    rw [if_pos h8, if_pos h8, if_neg hw]
  · rw [if_neg h8, if_neg h8]

/-- Settles O18: past what holds it back the request is `State.atomicAct`, whose step is `State.rmw`. -/
theorem atomicAtHome : Obligations.AtomicAtHome := by
  intro s c i q op b e gd sc acq hi hk hop hh hf ht hb
  obtain ⟨hmem, hg, hpool⟩ := State.atomicAct_keeps (s := s) (c := c) (i := i) hk
  have hget (g : Fin 32) := Thread.get_congr hg g
  refine ⟨_, exec_atomicAtHome_acts hi hk hh hf ht hb, State.atomicAct_reqs hk, fun h16 h2 => ?word, fun h16 h2 => ?double, ?swap32, ?swap64,
    ?cas64, ?cas128, ?pair, ?single, hpool⟩
  case word =>
    have hw : atomicWidth op = 4 := (atomicWidth_eq (by omega)).trans (if_neg (by omega))
    rw [hmem, State.rmw_mem_lt (by omega), hw, atomicNew_word h16 h2]
  case double =>
    have hw : atomicWidth op = 8 := (atomicWidth_eq (by omega)).trans (if_pos (by omega))
    rw [hmem, State.rmw_mem_lt (by omega), hw, atomicNew_double h16 h2]
  case swap32 =>
    rintro rfl
    rw [hmem, State.rmw_mem_lt (by omega)]
    exact congrArg _ (leBytes_swap _ b).1
  case swap64 =>
    rintro rfl
    rw [hmem, State.rmw_mem_lt (by omega)]
    exact congrArg _ (leBytes_swap _ b).2
  case cas64 =>
    rintro rfl
    exact hmem.trans (State.rmw_mem_cas (by omega) ..)
  case cas128 =>
    rintro rfl
    exact hmem.trans (State.rmw_mem_cas (by omega) ..)
  case pair =>
    rintro g hgd h31 ho ho' rfl
    rw [hget, hget]
    exact Thread.get_takeAtomic_pair hgd h31 ho ho'
  case single =>
    intro g hgd h0 ho h19
    rw [hget, Thread.get_takeAtomic hgd h0 ho h19]
    exact atomicExt_eq (s.physNat q.addr) h19

end Sys2Proof.Machine

/-! # Returning reads, grants, walks and prefetches (O19) -/

namespace Sys2Proof.Machine

variable {s : State} {c : Fin 64} {i : Nat} {q : Req}

/-! ## A read that nothing holds back (R114, R129, R130, R132) -/

section
variable (hi : (s.core c).reqs[i]? = some q) (h16 : i < 65536) (hh : s.readHeld c q = false) (hm : (s.core c).mayReturn q = true)
include hi h16 hh hm

/-- A load or an arming read whose bytes can be had is served. -/
theorem State.lineReturn_serves (hk : (∃ d n signed, q.kind = .load d n signed) ∨ ∃ cmp timed e w, q.kind = .arm cmp timed e w)
    (hf : s.readFault c q = none) (ht : q.pool = none → s.tripHeld c q.addr = false) : s.lineReturn c i = s.serveRead c i q 0 := by
  have hmod : i % 65536 = i := Nat.mod_eq_of_lt h16
  have hdiv : i / 65536 = 0 := Nat.div_eq_of_lt h16
  have ht' : ¬((q.pool == none && s.tripHeld c q.addr) = true) := by simpa using ht
  rcases hk with ⟨d, n, signed, hk⟩ | ⟨cmp, timed, e, w, hk⟩ <;>
    simp only [State.lineReturn, hmod, hdiv, hi, hh, hm, hk, hf, ht', Bool.not_true, Bool.or_self, Bool.false_eq_true, if_false]

/-- A load that fails, and whose word can be taken back, fails. -/
theorem State.lineReturn_fails {d : Dest} {n ca dt : Nat} {signed : Bool} (hk : q.kind = .load d n signed)
    (hf : s.readFault c q = some (ca, dt)) (hp : q.plain = true) (hl : (s.thr c q.role).lastIs q.nth = true) :
    s.lineReturn c i = s.failRead c q ca dt := by
  have hmod : i % 65536 = i := Nat.mod_eq_of_lt h16
  have hfail : s.failable c q = true := by simp only [State.failable, hk, hp, hl, Bool.and_self]
  simp only [State.lineReturn, hmod, hi, hh, hm, hk, hf, hfail, Bool.not_true, Bool.or_self, Bool.false_eq_true, if_false, if_true]

end

/-! ## The served read (R110, R115, R116, R125) -/

/-- A thread without a buffered store sees what is there. -/
theorem Thread.overlay_of_no_stores {t : Thread} (h : t.stores = []) (pool ms id) (a : Nat) (bs : List Byte) : t.overlay pool ms id a bs = bs := by
  induction bs generalizing a with
  | nil => rfl
  | cons b bs ih => rw [Thread.overlay, ih, Thread.overlayByte, h, List.foldl_nil]

theorem State.returned_of_no_stores (h : (s.thr c q.role).stores = []) (a n : Nat) :
    (q.pool = none → leNat (s.returned c q a n) = s.physNat a n) ∧
    ∀ m : Fin 64, q.pool = some m → leNat (s.returned c q a n) = (s.core m).pool.nat a n := by
  unfold State.returned
  rw [Thread.overlay_of_no_stores h]
  exact ⟨fun hp => by rw [hp]; rfl, fun m hp => by rw [hp]; rfl⟩

theorem State.msServe_cores (s : State) (pa n : Nat) (ms : Bool) : (s.msServe pa n ms).cores = s.cores := homeBlind_cores.msServe ..

theorem State.returned_msServe (s : State) (c : Fin 64) (q : Req) (a n : Nat) (ms : Bool) (b k : Nat) :
    (s.msServe a n ms).returned c q b k = s.returned c q b k := by
  unfold State.returned State.phys
  rw [State.thr, State.thr, State.core_of_cores_eq (s.msServe_cores ..), State.msServe_mem]
  cases q.pool with
  | none => rfl
  | some m =>
    dsimp only
    rw [State.core_of_cores_eq (s.msServe_cores ..)]

/-- The request has been served by its home and has left the table. -/
def State.served (s : State) (c : Fin 64) (i : Nat) (q : Req) : State :=
  (s.msServe q.addr 1 q.ms).upCore c fun k => { k with reqs := k.reqs.eraseIdx i }

/-- Its line may fill the L1. -/
def State.fillLine (s : State) (c : Fin 64) (q : Req) : State :=
  if q.l1ok then s.upCore c fun k => k.l1fill (q.addr / 64) q.gen (s.phys (64 * (q.addr / 64)) 64) else s

theorem Core.l1fill_keeps {α : Type} (p : Core → α) (hp : ∀ (k : Core) l, p { k with l1 := l } = p k) (k : Core) (ln tag : Nat) (bs : List Byte) :
    p (k.l1fill ln tag bs) = p k := by
  unfold Core.l1fill
  split
  · exact hp ..
  · exact hp ..

theorem State.fillLine_core {α : Type} (p : Core → α) (hp : ∀ (k : Core) l, p { k with l1 := l } = p k) (s : State) (c : Fin 64) (q : Req)
    (k : Fin 64) : p ((s.fillLine c q).core k) = p (s.core k) := by
  unfold State.fillLine
  split
  · exact State.core_upCore_keeps _ p (Core.l1fill_keeps p hp ..) k
  · rfl

theorem State.served_core {α : Type} (p : Core → α) (hp : ∀ (k : Core) l, p { k with reqs := l } = p k)
    (s : State) (c : Fin 64) (i : Nat) (q : Req) (k : Fin 64) : p ((s.served c i q).core k) = p (s.core k) := by
  refine (State.core_upCore_keeps _ p (hp ..) k).trans ?_
  rw [State.core_of_cores_eq (s.msServe_cores ..)]

theorem State.served_reqs (s : State) (c : Fin 64) (i : Nat) (q : Req) : ((s.served c i q).core c).reqs = (s.core c).reqs.eraseIdx i := by
  refine (congrArg Core.reqs (State.core_upCore ..)).trans ?_
  rw [State.core_of_cores_eq (s.msServe_cores ..)]

theorem State.serveRead_load {d : Fin 32} {n : Nat} {signed : Bool} (hk : q.kind = .load (.g d) n signed) : s.serveRead c i q 0 =
    ((s.served c i q).fillLine c q).upThr c q.role fun t => t.deliver d q.id (loadValue n signed (s.returned c q q.addr n)) := by
  rw [← s.returned_msServe c q q.addr 1 q.ms]
  simp only [State.serveRead, hk]
  rfl

/-- What a returning load leaves: its registers but gD, every pool, and the table without it; gD takes the value it still waits for. -/
theorem State.serveRead_load_spec {d : Fin 32} {n : Nat} {signed : Bool} (hk : q.kind = .load (.g d) n signed) :
    ((s.serveRead c i q 0).core c).reqs = (s.core c).reqs.eraseIdx i ∧ ((s.serveRead c i q 0).core c).pool = (s.core c).pool ∧
    (s.serveRead c i q 0).thr c q.role = (s.thr c q.role).deliver d q.id (loadValue n signed (s.returned c q q.addr n)) := by
  rw [State.serveRead_load hk]
  refine ⟨?_, ?_, ?_⟩
  · exact (State.core_upThr_keeps _ c q.role _ (·.reqs) (fun _ _ => rfl) c).trans
      ((State.fillLine_core (·.reqs) (fun _ _ => rfl) ..).trans (s.served_reqs ..))
  · exact (State.core_upThr_keeps _ c q.role _ (·.pool) (fun _ _ => rfl) c).trans
      ((State.fillLine_core (·.pool) (fun _ _ => rfl) ..).trans (State.served_core (·.pool) (fun _ _ => rfl) ..))
  · rw [State.thr_upThr]
    exact congrArg (Thread.deliver · d q.id _) ((State.fillLine_core (·.thr q.role) (fun _ _ => rfl) ..).trans
      (State.served_core (·.thr q.role) (fun _ _ => rfl) ..))

theorem Thread.get_deliver_ne (t : Thread) {j k : Fin 32} (h : k ≠ j) (id : Nat) (v : Word) : (t.deliver j id v).get k = t.get k := by
  unfold Thread.deliver
  split
  · exact Thread.get_put_ne _ _ _ _ h
  · rfl

/-- The watch that an arming read leaves. -/
def Req.watch (q : Req) (c : Fin 64) (timed : Bool) (w : Nat) (fired : Option Nat) : Watch :=
  { id := w, core := c, role := q.role, line := q.addr / 64, va := q.va, timed := timed, fired := fired }

/-- A wait whose one watch is the last of the list, and has not fired, goes on. -/
theorem State.waitaWake_armed {l : List Watch} {timed : Bool} {w : Nat} (hs : (s.thr c q.role).stage = .watch w)
    (hw : s.watches = l ++ [q.watch c timed w none]) (hu : ∀ x ∈ l, x.id ≠ w) : s.waitaWake c q.role = s := by
  have hnone : (l.find? fun x => x.id == w && x.core == c && x.role == q.role) = none :=
    List.find?_eq_none.2 fun x hx => by simp [hu x hx]
  have hf : (s.watches.find? fun x => x.id == w && x.core == c && x.role == q.role) = some (q.watch c timed w none) := by
    rw [hw, List.find?_append, hnone]
    simp [Req.watch]
  simp only [State.waitaWake, hs, hf, Req.watch]

theorem State.serveRead_arm {cmp timed : Bool} {e w : Nat} (hk : q.kind = .arm cmp timed e w)
    (he : cmp = false ∨ leNat (s.returned c q q.addr 8) = e) (hs : (s.thr c q.role).stage = .watch w) (hu : ∀ x ∈ s.watches, x.id ≠ w) :
    (s.serveRead c i q 0).watches = s.watches ++ [q.watch c timed w none] := by
  have hms : (s.msServe q.addr 1 q.ms).watches = s.watches := by
    unfold State.msServe
    split
    · rfl
    · rfl
  have hret : ¬(cmp = true ∧ leNat ((s.msServe q.addr 1 q.ms).returned c q q.addr 8) ≠ e) := by
    rw [s.returned_msServe]
    rintro ⟨h1, h2⟩
    exact he.elim (fun h => by simp [h] at h1) h2
  simp only [State.serveRead, hk, if_neg hret, hms]
  refine congrArg State.watches (State.waitaWake_armed (q := q) (l := s.watches) ?_ rfl hu)
  refine (congrArg Thread.stage ?_).trans hs
  exact (State.core_upCore_keeps (s.served c i q) (f := fun k => k.l1drop (q.addr / 64)) (·.thr q.role) rfl c).trans
    (State.served_core (·.thr q.role) (fun _ _ => rfl) ..)

/-! ## A load that is taken back (R49, R129, R130) -/

/-- The requests of the last word of a thread. -/
def Core.lastIds (k : Core) (r : Role) : List Nat := (k.reqs.filter fun q => q.role == r && q.nth == (k.thr r).issued).map (·.id)

/-- A thread that stands at the word at `w` again, with none of its requests owed. -/
def Thread.takenBack (t : Thread) (w : At) (ids : List Nat) : Thread :=
  { t with own := t.own.map fun x => if x.any ids.contains then none else x,
           blk := if t.hdr = w.hdr then t.blk else none, hdr := w.hdr, reps := w.reps, wpos := w.wpos, fetch := none,
           ahead := none, status := .running, trap := none, why := 0, obj := 0, stage := .none, xwalk := none,
           scnt := t.scnt - 1, issued := t.issued - 1 }

theorem Core.takeBack_thr (k : Core) (r : Role) (w : At) : (k.takeBack r w).thr r = (k.thr r).takenBack w (k.lastIds r) := Core.thr_setThr ..

theorem Core.takeBack_reqs (k : Core) (r : Role) (w : At) : (k.takeBack r w).reqs = k.reqs.filter fun q => !(k.lastIds r).contains q.id := rfl

theorem Thread.takenBack_own {t : Thread} {j : Fin 32} {id : Nat} {ids : List Nat} (ho : t.own[j] = some id) (hid : ids.contains id = true)
    (w : At) : (t.takenBack w ids).own[j] = none := by
  simp only [Thread.takenBack, Fin.getElem_fin, Vector.getElem_map]
  rw [← Fin.getElem_fin, ho, Option.any_some, if_pos hid]

theorem Core.lastIds_contains {k : Core} {r : Role} {q : Req} (hq : q ∈ k.reqs) (hr : q.role = r) (hn : q.nth = (k.thr r).issued) :
    (k.lastIds r).contains q.id = true := by
  refine List.contains_iff_mem.2 (List.mem_map_of_mem (List.mem_filter.2 ⟨hq, ?_⟩))
  simp [hr, hn]

/-- No request of a word that is taken back stays in the table. -/
theorem Core.takeBack_leaves_none {k : Core} {r : Role} {w : At} {q : Req} (hq : q ∈ (k.takeBack r w).reqs) (hr : q.role = r) :
    q.nth ≠ (k.thr r).issued := by
  intro hn
  rw [Core.takeBack_reqs] at hq
  obtain ⟨hin, hout⟩ := List.mem_filter.1 hq
  rw [Core.lastIds_contains hin hr hn] at hout
  exact absurd hout (by decide)

theorem State.failRead_load {d : Dest} {n ca dt : Nat} {signed : Bool} (hk : q.kind = .load d n signed) : s.failRead c q ca dt =
    (s.upCore c fun k => k.takeBack q.role q.word).trapAt c q.role
      (((s.upCore c fun k => k.takeBack q.role q.word).thr c q.role).faultHere ca dt q.va 1) := by
  have hr : ((s.upCore c fun k => k.takeBack q.role q.word).thr c q.role).status = .running := by
    rw [State.thr, State.core_upCore, Core.takeBack_thr]
    rfl
  have hkind : q.faultKind = 1 := by simp only [Req.faultKind, hk]
  simp only [State.failRead, hk, hr, hkind, or_true, if_true]

theorem Thread.issued_of_lastIs {t : Thread} {n : Nat} (h : t.lastIs n = true) : t.issued = n := by
  simp only [Thread.lastIs, Bool.and_eq_true, beq_iff_eq] at h
  exact h.1.1

/-! ## A completed walk (R176, R177) -/

/-- A thread that joined walk w takes its result. -/
def Thread.takeWalk (w : Walk) (res : WalkRes) (r : Role) (t : Thread) : Thread :=
  if t.status = .running ∧ t.fetch = none then { t with xwalk := some (w.vpage, res, w.roles.takeWhile (· ≠ r)) } else t

theorem Thread.takeWalk_takeWalk (w : Walk) (res : WalkRes) (r : Role) (t : Thread) :
    (t.takeWalk w res r).takeWalk w res r = t.takeWalk w res r := by
  by_cases h : t.status = .running ∧ t.fetch = none
  · have he : t.takeWalk w res r = { t with xwalk := some (w.vpage, res, w.roles.takeWhile (· ≠ r)) } := if_pos h
    rw [he]
    exact if_pos h
  · have he : t.takeWalk w res r = t := if_neg h
    rw [he, he]

theorem Thread.takeWalk_g (w : Walk) (res : WalkRes) (r : Role) (t : Thread) : (t.takeWalk w res r).g = t.g := by
  unfold Thread.takeWalk
  split
  · rfl
  · rfl

/-- Threads of one core that are changed in turn, each by a change that a second time adds nothing: each is changed once. -/
theorem State.thr_foldl_upThr {f : Role → Thread → Thread} (hf : ∀ r t, f r (f r t) = f r t) (l : List Role) (r : Role) :
    ∀ s : State, (l.foldl (fun s r => s.upThr c r (f r)) s).thr c r = if r ∈ l then f r (s.thr c r) else s.thr c r := by
  induction l with
  | nil => exact fun _ => rfl
  | cons x l ih =>
    intro s
    rw [List.foldl_cons, ih]
    by_cases hx : r = x
    · subst hx
      rw [if_pos List.mem_cons_self, State.thr_upThr, hf, ite_self]
    · simp only [State.thr_upThr_ne _ _ hx, List.mem_cons, hx, false_or]

theorem State.core_foldl_upThr {α : Type} (p : Core → α) (hp : ∀ (k : Core) r t, p (k.setThr r t) = p k)
    (f : Role → Thread → Thread) (l : List Role) :
    ∀ s : State, p ((l.foldl (fun s r => s.upThr c r (f r)) s).core c) = p (s.core c) := by
  induction l with
  | nil => exact fun _ => rfl
  | cons x l ih => exact fun s => (ih _).trans (s.core_upThr_keeps c x _ p (hp · x) c)

/-- The walk leaves the miss table, and its leaf fills the TLBs where it may. -/
def State.walkGone (s : State) (c : Fin 64) (i : Nat) (w : Walk) : State :=
  let s1 := s.upCore c fun k => { k with walks := k.walks.eraseIdx i }
  match s.walk (dieOf c) w.asid (w.vpage * 4096) with
  | .leaf _ e => if leafBusy e then s1 else (s1.upCore c fun k => k.fillTlb w.asid (w.vpage * 4096) e).fillWalk (dieOf c) w.asid (w.vpage * 4096) e
  | .stop _ _ _ => s1

theorem Core.fillTlb_eq (k : Core) (asid va e : Nat) : ∃ l, k.fillTlb asid va e = { k with ctlb := l } := by
  unfold Core.fillTlb
  dsimp only
  split
  · exact ⟨k.ctlb, rfl⟩
  · exact ⟨_, rfl⟩

theorem State.walkGone_core (s : State) (c : Fin 64) (i : Nat) (w : Walk) :
    ∃ l, (s.walkGone c i w).core c = { s.core c with walks := (s.core c).walks.eraseIdx i, ctlb := l } := by
  have h1 : ((s.upCore c fun k => { k with walks := k.walks.eraseIdx i }).core c) = { s.core c with walks := (s.core c).walks.eraseIdx i } :=
    State.core_upCore ..
  unfold State.walkGone
  dsimp only
  split
  · next e _ =>
    split
    · exact ⟨_, h1⟩
    · obtain ⟨l, hl⟩ := Core.fillTlb_eq { s.core c with walks := (s.core c).walks.eraseIdx i } w.asid (w.vpage * 4096) e
      refine ⟨l, (State.core_upCore _ c fun k => k.fillTlb w.asid (w.vpage * 4096) e).trans ?_⟩
      rw [h1, hl]
  · exact ⟨_, h1⟩

theorem State.walkDone_eq {w : Walk} (hw : (s.core c).walks[i]? = some w) (hb : s.walksBefore c w.id < 512)
    (hh : s.walkHeld c w.asid (w.vpage * 4096) = false) : s.walkDone c i =
      w.roles.foldl (fun s' r => s'.upThr c r (Thread.takeWalk w (s.walk (dieOf c) w.asid (w.vpage * 4096)) r)) (s.walkGone c i w) := by
  have hb' : ¬512 ≤ s.walksBefore c w.id := by omega
  simp only [State.walkDone, hw, hb', hh, Bool.false_eq_true, or_self, if_false]
  rfl

/-! ## Prefetch (R124) -/

theorem State.prefetchLine_keeps (s : State) (l1 : Bool) (va : Nat) : s.Keeps (s.prefetchLine l1 va) := by
  unfold State.prefetchLine
  dsimp only
  split
  · exact State.Keeps.refl s
  split
  · exact State.Keeps.refl s
  split
  · exact State.Keeps.refl s
  · obtain ⟨q, hq, -⟩ := s.addReq_adds _ va _ true (.prefetch l1)
    exact hq.keeps

theorem State.Keeps.foldl {α : Type} {f : State → α → State} (hf : ∀ (s : State) x, s.Keeps (f s x)) (l : List α) :
    ∀ s : State, s.Keeps (l.foldl f s) := by
  induction l with
  | nil => exact State.Keeps.refl
  | cons x l ih => exact fun s => (hf s x).trans (ih _)

/-- PF asks for its lines, of which length 0 has none, and retires. -/
theorem exec_pf {a b : Fin 32} {l : Fin 2} (h : s.Issues { maj := 14 } [a, b]) : ∃ t : State, s.Keeps t ∧
    exec (.pf a b l) s = .next (t.upMe fun u => u.retire 2) ∧ (s.me.get b = 0 → t = s) := by
  refine ⟨_, State.Keeps.foldl (fun t i => State.prefetchLine_keeps t (l.val == 1) (((s.me.get a).toNat / 64 * 64 + 64 * i) % 2 ^ 64))
    (List.range (if (s.me.get b).toNat = 0 then 0 else min (((s.me.get a).toNat % 64 + (s.me.get b).toNat + 63) / 64) 1024)) s,
    ?_, fun h0 => ?_⟩
  · change execPf a b l s = _
    unfold execPf
    rw [State.gate_issues h]
    rfl
  · rw [h0]
    rfl

/-! ## The statement -/

theorem State.next_requestTableGrant {r : Role} {t : List Issuer} (h : (s.core c).reqwait = .thr r :: t) (he : s.entries c < 8192) :
    exec (.requestTableGrant c) s = .next (s.upThr c r fun t => { t with why := 0, obj := 0 }) := by
  change execRequestTableGrant c s = _
  simp only [execRequestTableGrant, h, he, if_true]

theorem State.next_missTableGrant {r : Role} {t : List Issuer} (h : (s.core c).walkwait = .thr r :: t) (he : (s.core c).walks.length < 128) :
    exec (.missTableGrant c) s = .next (s.upThr c r fun t => { t with why := 0, obj := 0 }) := by
  change execMissTableGrant c s = _
  simp only [execMissTableGrant, h, he, if_true]

/-- Settles O19: reads return by `State.serveRead` or `State.failRead`, a walk ends by `State.walkDone`, and PF is its prefetched lines. -/
theorem memoryEvents : Obligations.MemoryEvents := by
  refine ⟨⟨?load, ?arm, ?back⟩, fun s c r t h he => State.next_requestTableGrant h he, fun s c r t h he => State.next_missTableGrant h he, ?walk,
    fun _ _ => rfl, fun _ _ _ => rfl, fun _ _ => rfl, ?prefetch⟩
  case load =>
    intro s c i q d n signed hi hk h16 hh hm hf ht
    obtain ⟨hreqs, hpool, hthr⟩ := State.serveRead_load_spec (s := s) (c := c) (i := i) hk
    refine ⟨s.serveRead c i q 0, congrArg Host.Outcome.next (State.lineReturn_serves hi h16 hh hm (.inl ⟨_, _, _, hk⟩) hf ht), hreqs,
      State.serveRead_mem .., fun hd ho hst => ?_, fun k hne => ?_, hpool⟩
    · obtain ⟨hmem, hpl⟩ := State.returned_of_no_stores hst q.addr n
      rw [hthr, Thread.deliver_owed ho, Thread.get_put_same _ _ _ hd, loadValue]
      exact ⟨fun hp => by rw [hmem hp], fun m hp => by rw [hpl m hp]⟩
    · rw [hthr]
      exact Thread.get_deliver_ne _ hne ..
  case arm =>
    intro s c i q cmp timed e w hi hk h16 hh hm hf ht he hs hu
    exact ⟨s.serveRead c i q 0, congrArg Host.Outcome.next (State.lineReturn_serves hi h16 hh hm (.inr ⟨_, _, _, _, hk⟩) hf ht),
      State.serveRead_mem .., State.serveRead_arm hk he hs hu⟩
  case back =>
    intro s c i q dst n signed ca d hi hk h16 hh hm hf hp hl
    have hcore : (s.upCore c fun k => k.takeBack q.role q.word).core c = (s.core c).takeBack q.role q.word := State.core_upCore ..
    have hthr : (s.upCore c fun k => k.takeBack q.role q.word).thr c q.role = (s.thr c q.role).takenBack q.word ((s.core c).lastIds q.role) := by
      rw [State.thr, hcore, Core.takeBack_thr, State.thr]
    have hn : (s.thr c q.role).issued = q.nth := Thread.issued_of_lastIs hl
    have hids := Core.lastIds_contains (List.mem_of_getElem? hi) rfl hn.symm
    refine ⟨_, _, congrArg Host.Outcome.next ((State.lineReturn_fails hi h16 hh hm hk hf hp hl).trans (State.failRead_load hk)),
      rfl, rfl, rfl, rfl, ?_⟩
    rw [hthr, hcore]
    exact ⟨rfl, rfl, rfl, rfl, rfl, rfl, rfl, rfl, fun k ho => Thread.takenBack_own ho hids _,
      fun x hx hr => hn ▸ Core.takeBack_leaves_none hx hr, rfl, rfl⟩
  case walk =>
    intro s c i w hw hb hh
    obtain ⟨_, hgone⟩ := s.walkGone_core c i w
    have hthr (r : Role) : (s.walkGone c i w).thr c r = s.thr c r := congrArg (·.thr r) hgone
    have hfold (r : Role) := State.thr_foldl_upThr (c := c) (Thread.takeWalk_takeWalk w (s.walk (dieOf c) w.asid (w.vpage * 4096))) w.roles r
      (s.walkGone c i w)
    refine ⟨s.walkDone c i, rfl, ?_, State.walkDone_mem .., fun r hr hrun hfe => ?_, fun r => ?_⟩
    · rw [State.walkDone_eq hw hb hh]
      exact (State.core_foldl_upThr (·.walks) (fun _ _ _ => rfl) ..).trans (congrArg Core.walks hgone)
    · rw [State.walkDone_eq hw hb hh, hfold, if_pos hr, hthr]
      exact congrArg Thread.xwalk (if_pos ⟨hrun, hfe⟩)
    · rw [State.walkDone_eq hw hb hh, hfold, hthr]
      split
      · exact Thread.takeWalk_g ..
      · rfl
  case prefetch =>
    intro s a b l h
    obtain ⟨t, hk, he, h0⟩ := exec_pf (l := l) h
    obtain ⟨th, hc⟩ := t.core_upMe_threads (fun u => u.retire 2) s.cc
    refine ⟨_, he, hk.mem, ?_, ?_, fun hb => by rw [h0 hb]⟩
    · rw [State.me_upMe, hk.me]
    · rw [State.myCore, State.cc_upMe, State.cc, hk.cur]
      exact (congrArg Core.pool hc).trans (hk.read Core.pool s.cc)

end Sys2Proof.Machine

/-! # Vector loads (O15) -/

namespace Sys2Proof.Machine

variable {s s1 t : State}

/-! ## Lanes in groups -/

section
variable {α κ : Type} [DecidableEq κ] {key : α → κ} {l : List α}

theorem length_eraseDups_le (l : List κ) : l.eraseDups.length ≤ l.length := by
  match l with
  | [] => exact Nat.le_refl _
  | a :: l =>
    have hf : (l.filter fun b => !b == a).length ≤ l.length := List.length_filter_le ..
    have ih := length_eraseDups_le (l.filter fun b => !b == a)
    rw [List.eraseDups_cons, List.length_cons, List.length_cons]
    omega
termination_by l.length
decreasing_by exact Nat.lt_succ_of_le (List.length_filter_le ..)

theorem length_groupBy_le : (groupBy key l).length ≤ l.length := by
  simpa [groupBy] using length_eraseDups_le (l.map key)

theorem mem_groupBy_of_mem {x : α} (h : x ∈ l) : (key x, l.filter fun y => key y = key x) ∈ groupBy key l :=
  List.mem_map_of_mem (f := fun k => (k, l.filter fun y => key y = k)) (List.mem_eraseDups.2 (List.mem_map_of_mem h))

theorem mem_of_mem_groupBy {g : κ × List α} (h : g ∈ groupBy key l) {x : α} (hx : x ∈ g.2) : x ∈ l ∧ key x = g.1 := by
  obtain ⟨k, -, rfl⟩ := List.mem_map.1 h
  simpa using List.mem_filter.1 hx

theorem exists_mem_of_mem_groupBy {g : κ × List α} (h : g ∈ groupBy key l) : ∃ x, x ∈ g.2 := by
  obtain ⟨k, hk, rfl⟩ := List.mem_map.1 h
  obtain ⟨x, hx, rfl⟩ := List.mem_map.1 (List.mem_eraseDups.1 hk)
  exact ⟨x, List.mem_filter.2 ⟨hx, by simp⟩⟩

end

/-! ## The lanes of a word and their sites (R118, R119, R192) -/

theorem mem_activeLanes {preds : Vector PredBits 12} {g : Guard} {l : Nat} : l ∈ activeLanes preds g ↔ l < 1024 ∧ guardOn preds g l = true := by
  simp [activeLanes]

theorem nodup_activeLanes (preds : Vector PredBits 12) (g : Guard) : (activeLanes preds g).Nodup := List.nodup_range.filter _

theorem length_activeLanes_le (preds : Vector PredBits 12) (g : Guard) : (activeLanes preds g).length ≤ 1024 :=
  (List.length_filter_le ..).trans_eq List.length_range

/-- The active lanes with their addresses. -/
def lanesAt (preds : Vector PredBits 12) (g : Guard) (addr : Nat → Nat) : List (Nat × Nat) := (activeLanes preds g).map fun l => (l, addr l)

theorem mem_lanesAt {preds : Vector PredBits 12} {g : Guard} {addr : Nat → Nat} {x : Nat × Nat} :
    x ∈ lanesAt preds g addr ↔ x.1 < 1024 ∧ guardOn preds g x.1 = true ∧ x.2 = addr x.1 := by
  unfold lanesAt
  rw [List.mem_map]
  constructor
  · rintro ⟨l, hl, rfl⟩
    obtain ⟨h1024, hg⟩ := mem_activeLanes.1 hl
    exact ⟨h1024, hg, rfl⟩
  · rintro ⟨h1024, hg, hx⟩
    exact ⟨x.1, mem_activeLanes.2 ⟨h1024, hg⟩, Prod.ext rfl hx.symm⟩

/-- Lanes that pass their checks keep their numbers and addresses; the checks touch nothing but tables. -/
theorem State.laneSites_ok {a : Acc} {l : List (Nat × Nat)} {xs : List (Nat × Nat × Site)} (h : s.laneSites a l = .ok xs s1) :
    xs.map (fun x => (x.1, x.2.1)) = l ∧ s.Keeps s1 := by
  induction l generalizing s xs with
  | nil =>
    obtain ⟨rfl, rfl⟩ := LanesRes.ok.inj h
    exact ⟨rfl, State.Keeps.refl s⟩
  | cons x l ih =>
    simp only [State.laneSites] at h
    split at h
    · next hx =>
      split at h
      · next ht =>
        obtain ⟨rfl, rfl⟩ := LanesRes.ok.inj h
        obtain ⟨hl, hk⟩ := ih ht
        exact ⟨by rw [List.map_cons, hl], (State.site_keeps hx).trans hk⟩
      · next hne => exact absurd h (hne _ _)
    · cases h

theorem State.laneSites_lanes {a : Acc} {preds : Vector PredBits 12} {g : Guard} {addr : Nat → Nat} {xs : List (Nat × Nat × Site)}
    (h : s.laneSites a (lanesAt preds g addr) = .ok xs s1) : xs.map (·.1) = activeLanes preds g := by
  have hl := congrArg (List.map Prod.fst) (State.laneSites_ok h).1
  simpa [lanesAt, Function.comp_def] using hl

/-- An address of the own pool passes its checks. -/
theorem State.site_of_own {va n al o : Nat} {a : Acc} {ms : Option Bool} {wr : Nat → Bool}
    (hw : s.window s.cc s.cr va a = some (.ok (.own o))) (hal : va % al = 0) (hp : a = .read → s.poolPoison s.me s.cc s.nextOp o n = false) :
    s.site va n a al ms wr = .ok (.own o) s := by
  have hpois : ¬(a = .read ∧ s.poolPoison s.me s.cc s.nextOp o n = true) := fun ⟨h1, h2⟩ => by simp [hp h1] at h2
  simp only [State.site, hw, hal, ne_eq, not_true, if_false, hpois]

theorem State.laneSites_own {a : Acc} {l : List (Nat × Nat)} {place : Nat → Nat}
    (h : ∀ x ∈ l, s.site x.2 4 a 4 none (fun _ => a.writes) = .ok (.own (place x.1)) s) :
    s.laneSites a l = .ok (l.map fun x => (x.1, x.2, .own (place x.1))) s := by
  induction l with
  | nil => rfl
  | cons x l ih =>
    simp only [State.laneSites, h x List.mem_cons_self, ih fun y hy => h y (List.mem_cons_of_mem _ hy), List.map_cons]

/-- The active lanes of a word whose addresses lie in the own pool pass their checks there. -/
theorem State.laneSites_window {a : Acc} {g : Guard} {addr place : Nat → Nat}
    (h : ∀ l, l < 1024 → guardOn s.myCore.preds g l = true → s.window s.cc s.cr (addr l) a = some (.ok (.own (place l))) ∧ addr l % 4 = 0 ∧
      (a = .read → s.poolPoison s.me s.cc s.nextOp (place l) 4 = false)) :
    ∃ xs, s.laneSites a (lanesAt s.myCore.preds g addr) = .ok xs s ∧ (∀ x ∈ xs, x.2.2 = .own (place x.1)) ∧
      ∀ l, l < 1024 → guardOn s.myCore.preds g l = true → (l, addr l, .own (place l)) ∈ xs := by
  refine ⟨_, State.laneSites_own (place := place) fun x hx => ?_, fun x hx => ?_, fun l hl hg => ?_⟩
  · obtain ⟨hl, hg, hx⟩ := mem_lanesAt.1 hx
    obtain ⟨hw, hal, hp⟩ := h x.1 hl hg
    rw [hx]
    exact State.site_of_own hw hal hp
  · obtain ⟨y, -, rfl⟩ := List.mem_map.1 hx
    rfl
  · exact List.mem_map.2 ⟨(l, addr l), mem_lanesAt.2 ⟨hl, hg, rfl⟩, rfl⟩

/-- Room for n entries is room for fewer. -/
theorem State.room_of_le {m n : Nat} (h : s.room n = true) (hm : m ≤ n) : s.room m = true := by
  simp only [State.room, State.roomFor, Bool.or_eq_true, Bool.and_eq_true, decide_eq_true_eq] at h ⊢
  rcases h with rfl | ⟨h, hw⟩
  · exact .inl (Nat.le_zero.1 hm)
  · exact .inr ⟨by omega, hw⟩

/-! ## Lanes written to a register (R109) -/

/-- Bytes written at the places of lanes of register v. -/
def Mem.putLanes (m : Mem) (v : Nat) (l : List (Nat × List Byte)) : Mem := l.foldl (fun m e => m.write (laneOff v e.1) e.2) m

section
variable {v : Nat} {l : List (Nat × List Byte)} (hl : ∀ e ∈ l, e.2.length ≤ 4)
include hl

theorem Mem.read_putLanes_of_notMem {n : Nat} (hn : n ∉ l.map (·.1)) (m : Mem) :
    (m.putLanes v l).read (laneOff v n) 4 = m.read (laneOff v n) 4 := by
  induction l generalizing m with
  | nil => rfl
  | cons e l ih =>
    obtain ⟨hne, hn⟩ := List.ne_and_not_mem_of_not_mem_cons hn
    have hne : n ≠ e.1 := hne
    have h4 := hl e List.mem_cons_self
    refine (ih (fun x hx => hl x (List.mem_cons_of_mem _ hx)) hn _).trans (Mem.read_write_out _ _ _ _ _ ?_)
    unfold laneOff
    omega

theorem Mem.read_putLanes_of_mem (hn : (l.map (·.1)).Nodup) {n : Nat} {bs : List Byte} (h : (n, bs) ∈ l) (h4 : bs.length = 4) (m : Mem) :
    (m.putLanes v l).read (laneOff v n) 4 = bs := by
  induction l generalizing m with
  | nil => cases h
  | cons e l ih =>
    have hl' : ∀ e ∈ l, e.2.length ≤ 4 := fun x hx => hl x (List.mem_cons_of_mem _ hx)
    obtain ⟨hne, hn⟩ := List.nodup_cons.1 hn
    rcases List.mem_cons.1 h with rfl | h
    · refine (Mem.read_putLanes_of_notMem hl' hne _).trans ?_
      have hw := Mem.read_write_same m (laneOff v n) bs
      rwa [h4] at hw
    · exact ih hl' hn h _

/-- Bytes outside the register stay. -/
theorem Mem.get_putLanes_out (hn : ∀ e ∈ l, e.1 < 1024) {x : Nat} (hx : x < 4096 * v ∨ 4096 * v + 4096 ≤ x) (m : Mem) :
    (m.putLanes v l).get x = m.get x := by
  induction l generalizing m with
  | nil => rfl
  | cons e l ih =>
    have h4 := hl e List.mem_cons_self
    have h1024 := hn e List.mem_cons_self
    refine (ih (fun x hx => hl x (List.mem_cons_of_mem _ hx)) (fun x hx => hn x (List.mem_cons_of_mem _ hx)) _).trans
      (Mem.get_write_out _ _ _ _ ?_)
    unfold laneOff
    omega

end

/-! ## Lanes at hand, and the others (R109, R114, R198) -/

theorem Thread.length_overlay (t : Thread) (pool ms id) (a : Nat) (bs : List Byte) : (t.overlay pool ms id a bs).length = bs.length := by
  induction bs generalizing a with
  | nil => rfl
  | cons b bs ih => rw [Thread.overlay, List.length_cons, List.length_cons, ih]

theorem State.length_poolBytes (s : State) (m : Fin 64) (off n : Nat) : (s.poolBytes m off n).length = n := by
  rw [State.poolBytes, Thread.length_overlay, Mem.length_read]

theorem State.length_laneNow {x : Site} {bs : List Byte} (h : s.laneNow x = some bs) : bs.length ≤ 4 := by
  have hpool {m : Fin 64} {off : Nat} (h : (if s.poolLater m off 4 then none else some (s.poolBytes m off 4)) = some bs) : bs.length ≤ 4 := by
    split at h
    · cases h
    · obtain rfl := Option.some.inj h
      exact (s.length_poolBytes ..).le
  cases x with
  | own off => exact hpool h
  | peer m off => exact hpool h
  | dev pa e =>
    simp only [State.laneNow, State.l1Bytes] at h
    split at h
    · obtain ⟨x, -, rfl⟩ := Option.map_eq_some_iff.1 h
      rw [Thread.length_overlay]
      exact List.length_take_le ..
    · cases h

/-- The lanes whose values are at hand, with their bytes. -/
def State.lanesNow (s : State) (xs : List (Nat × Nat × Site)) : List (Nat × List Byte) :=
  xs.filterMap fun x => (s.laneNow x.2.2).map fun b => (x.1, b)

/-- The other lanes. -/
def State.lanesLeft (s : State) (xs : List (Nat × Nat × Site)) : List (Nat × Nat × Site) := xs.filter fun x => (s.laneNow x.2.2).isNone

theorem State.mem_lanesNow {xs : List (Nat × Nat × Site)} {n : Nat} {bs : List Byte} :
    (n, bs) ∈ s.lanesNow xs ↔ ∃ va x, (n, va, x) ∈ xs ∧ s.laneNow x = some bs := by
  simp only [State.lanesNow, List.mem_filterMap, Option.map_eq_some_iff, Prod.mk.injEq, Prod.exists]
  constructor
  · rintro ⟨_, va, x, hx, _, hb, rfl, rfl⟩
    exact ⟨va, x, hx, hb⟩
  · rintro ⟨va, x, hx, hb⟩
    exact ⟨n, va, x, hx, bs, hb, rfl, rfl⟩

theorem State.lanesNow_length (s : State) (xs : List (Nat × Nat × Site)) : ∀ e ∈ s.lanesNow xs, e.2.length ≤ 4 := by
  rintro ⟨n, bs⟩ h
  obtain ⟨_, _, -, hb⟩ := State.mem_lanesNow.1 h
  exact State.length_laneNow hb

theorem State.lanesNow_sublist (s : State) (xs : List (Nat × Nat × Site)) : ((s.lanesNow xs).map (·.1)).Sublist (xs.map (·.1)) := by
  induction xs with
  | nil => exact List.Sublist.refl _
  | cons x xs ih =>
    rw [State.lanesNow, List.filterMap_cons]
    cases s.laneNow x.2.2 with
    | none => exact ih.cons _
    | some b => exact ih.cons_cons _

/-- Where lanes are distinct, one that is not at hand is none of those at hand. -/
theorem State.notMem_lanesNow {xs : List (Nat × Nat × Site)} (hn : (xs.map (·.1)).Nodup) {n va : Nat} {x : Site} (hx : (n, va, x) ∈ xs)
    (h : s.laneNow x = none) : n ∉ (s.lanesNow xs).map (·.1) := by
  intro hm
  obtain ⟨⟨_, bs⟩, hb, rfl⟩ := List.mem_map.1 hm
  obtain ⟨va', x', hx', hb'⟩ := State.mem_lanesNow.1 hb
  have he := List.inj_on_of_nodup_map hn hx hx' rfl
  obtain ⟨-, rfl⟩ : va = va' ∧ x = x' := by simpa using he
  rw [h] at hb'
  cases hb'

/-- A lane that no entry names is none of them. -/
theorem State.notMem_lanesNow_of_inactive {xs : List (Nat × Nat × Site)} {p : Nat → Bool} (h : ∀ x ∈ xs, x.1 < 1024 ∧ p x.1 = true) {n : Nat}
    (hp : p n = false) : n ∉ (s.lanesNow xs).map (·.1) := by
  intro hm
  obtain ⟨x, hx, rfl⟩ := List.mem_map.1 ((s.lanesNow_sublist xs).subset hm)
  rw [(h x hx).2] at hp
  cases hp

/-! ## The requests of a vector load -/

/-- What the lanes of one request share: the pool, the line there, and in device memory the line of their addresses. -/
def laneKey (c : Fin 64) (x : Nat × Nat × Site) : Option (Fin 64) × Nat × Nat :=
  (x.2.2.pool c, x.2.2.addr / 64, if x.2.2.isDev then x.2.1 / 64 else 0)

/-- One request for the lanes of a group. -/
def State.requestLanes (vd : Nat) (whole : List Nat) (plain : Bool) (s : State)
    (g : (Option (Fin 64) × Nat × Nat) × List (Nat × Nat × Site)) : State :=
  match g.2 with
  | [] => s
  | (_, va, x) :: _ =>
    let kind := ReqKind.vload vd (g.2.map fun y => (y.1, y.2.2.addr)) whole
    match x with
    | .dev pa e => (s.addReq pa va e plain kind).2
    | .own off => (s.addPoolReq s.cc off va plain kind).2
    | .peer m off => (s.addPoolReq m off va plain kind).2

theorem State.requestLanes_adds (s : State) {vd : Nat} {whole : List Nat} {plain : Bool}
    {g : (Option (Fin 64) × Nat × Nat) × List (Nat × Nat × Site)} {x : Nat × Nat × Site} {l : List (Nat × Nat × Site)} (h : g.2 = x :: l) :
    ∃ q, s.Adds (s.requestLanes vd whole plain g) q ∧ q.pool = x.2.2.pool s.cc ∧ q.kind = .vload vd (g.2.map fun y => (y.1, y.2.2.addr)) whole := by
  obtain ⟨k, ys⟩ := g
  obtain rfl : ys = x :: l := h
  obtain ⟨n, va, x⟩ := x
  cases x with
  | own off =>
    obtain ⟨q, hq, hp, -, hk⟩ := s.addPoolReq_adds s.cc off va plain _
    exact ⟨q, hq, hp, hk⟩
  | peer m off =>
    obtain ⟨q, hq, hp, -, hk⟩ := s.addPoolReq_adds m off va plain _
    exact ⟨q, hq, hp, hk⟩
  | dev pa e =>
    obtain ⟨q, hq, hp, -, hk⟩ := s.addReq_adds pa va e plain _
    exact ⟨q, hq, hp, hk⟩

/-- The request of a group in which x stands. -/
def Req.asks (q : Req) (r : Role) (c : Fin 64) (vd : Nat) (x : Nat × Nat × Site) : Prop :=
  q.role = r ∧ q.pool = x.2.2.pool c ∧ ∃ lanes whole, q.kind = .vload vd lanes whole ∧ (x.1, x.2.2.addr) ∈ lanes

/-- Groups whose lanes share their pool add one request each, which asks for all their lanes. -/
theorem State.foldl_requestLanes {vd : Nat} {whole : List Nat} {plain : Bool} {c : Fin 64}
    {gs : List ((Option (Fin 64) × Nat × Nat) × List (Nat × Nat × Site))} (hg : ∀ g ∈ gs, ∀ x ∈ g.2, laneKey c x = g.1) :
    ∀ s : State, s.cc = c → ∃ new, s.Keeps (gs.foldl (State.requestLanes vd whole plain) s) ∧
      (gs.foldl (State.requestLanes vd whole plain) s).myCore.reqs = s.myCore.reqs ++ new ∧
      ∀ g ∈ gs, ∀ x ∈ g.2, ∃ q ∈ new, q.asks s.cr c vd x := by
  induction gs with
  | nil => exact fun s _ => ⟨[], State.Keeps.refl s, (List.append_nil _).symm, fun _ hg => by cases hg⟩
  | cons g gs ih =>
    intro s hc
    have ih := ih fun g hm => hg g (List.mem_cons_of_mem _ hm)
    have hg := hg g List.mem_cons_self
    rw [List.foldl_cons]
    cases h2 : g.2 with
    | nil =>
      have hs : s.requestLanes vd whole plain g = s := by
        unfold State.requestLanes
        rw [h2]
      rw [hs]
      obtain ⟨new, hk, hr, hq⟩ := ih s hc
      refine ⟨new, hk, hr, fun g' hg' x hx => ?_⟩
      rcases List.mem_cons.1 hg' with rfl | hg'
      · rw [h2] at hx
        cases hx
      · exact hq g' hg' x hx
    | cons y l =>
      obtain ⟨q, hq, hp, hkind⟩ := s.requestLanes_adds (vd := vd) (whole := whole) (plain := plain) h2
      obtain ⟨new, hk, hr, hn⟩ := ih (s.requestLanes vd whole plain g) (hq.keeps.cc.trans hc)
      refine ⟨q :: new, hq.keeps.trans hk, ?_, fun g' hg' x hx => ?_⟩
      · rw [hr, hq.reqs, List.append_assoc, List.singleton_append]
      · rcases List.mem_cons.1 hg' with rfl | hg'
        · have hy : laneKey c y = g'.1 := hg y (h2 ▸ List.mem_cons_self)
          have hpool : y.2.2.pool c = x.2.2.pool c := congrArg Prod.fst (hy.trans (hg x hx).symm)
          exact ⟨q, List.mem_cons_self, hq.role, by rw [hp, hc, hpool], _, _, hkind, List.mem_map_of_mem hx⟩
        · obtain ⟨q', hq', ha⟩ := hn g' hg' x hx
          rw [hq.keeps.cr] at ha
          exact ⟨q', List.mem_cons_of_mem _ hq', ha⟩

/-! ## A vector load whose lanes have passed their checks -/

/-- The lanes at hand are written to the register. -/
def State.withLanes (s : State) (vd : Nat) (xs : List (Nat × Nat × Site)) : State :=
  s.upMyCore fun k => k.putLoaded vd (s.lanesNow xs) (coveredLines (xs.map (·.1))) ((s.lanesLeft xs).map (·.1))

theorem State.myCore_withLanes (s : State) (vd : Nat) (xs : List (Nat × Nat × Site)) : (s.withLanes vd xs).myCore =
    s.myCore.putLoaded vd (s.lanesNow xs) (coveredLines (xs.map (·.1))) ((s.lanesLeft xs).map (·.1)) := State.myCore_upMyCore ..

/-- What the load leaves before it retires: the lanes at hand in the register, and the requests of the others. -/
def State.vloaded (s : State) (vd : Nat) (xs : List (Nat × Nat × Site)) : State :=
  (groupBy (laneKey s.cc) (s.lanesLeft xs)).foldl (State.requestLanes vd (coveredLines (xs.map (·.1))) (s.lanesNow xs).isEmpty)
    (s.withLanes vd xs)

theorem State.vloadAt_eq {vd : Nat} {xs : List (Nat × Nat × Site)} (hc : s.myCore.l1clear = true → ∀ x ∈ xs, x.2.2.isDev = false)
    (hr : s.room (s.lanesLeft xs).length = true) : s.vloadAt vd xs = .next ((s.vloaded vd xs).upMe fun t => t.retire 2) := by
  have hstall : ¬(s.myCore.l1clear = true ∧ (xs.any fun x => match x.2.2 with | .dev _ e => leafL1 e | _ => false) = true) := by
    rintro ⟨h1, h2⟩
    obtain ⟨⟨n, va, x⟩, hx, hl⟩ := List.any_eq_true.1 h2
    have hd := hc h1 _ hx
    cases x with
    | dev pa e => cases hd
    | _ => cases hl
  have hroom : ¬(0 < ((groupBy (laneKey s.cc) (s.lanesLeft xs)).filter fun g => g.1.1 == none).length ∧
      (!s.room ((groupBy (laneKey s.cc) (s.lanesLeft xs)).filter fun g => g.1.1 == none).length) = true) := by
    rintro ⟨-, h⟩
    rw [State.room_of_le hr ((List.length_filter_le ..).trans length_groupBy_le)] at h
    cases h
  unfold State.vloadAt
  exact (if_neg hstall).trans ((if_neg hroom).trans rfl)

/-- The lanes that are not at hand are asked for, which changes nothing but tables. -/
theorem State.vloaded_requests (s : State) (vd : Nat) (xs : List (Nat × Nat × Site)) : ∃ new, (s.withLanes vd xs).Keeps (s.vloaded vd xs) ∧
    (s.vloaded vd xs).myCore.reqs = s.myCore.reqs ++ new ∧ ∀ x ∈ xs, s.laneNow x.2.2 = none → ∃ q ∈ new, q.asks s.cr s.cc vd x := by
  obtain ⟨new, hk, hr, hn⟩ := State.foldl_requestLanes (vd := vd) (whole := coveredLines (xs.map (·.1))) (plain := (s.lanesNow xs).isEmpty)
    (fun g hg x hx => (mem_of_mem_groupBy (key := laneKey s.cc) (l := s.lanesLeft xs) hg hx).2) (s.withLanes vd xs) rfl
  refine ⟨new, hk, hr.trans ?_, fun x hx h => ?_⟩
  · rw [s.myCore_withLanes]
    rfl
  · have hleft : x ∈ s.lanesLeft xs := List.mem_filter.2 ⟨hx, by simp [h]⟩
    exact hn _ (mem_groupBy_of_mem hleft) x (List.mem_filter.2 ⟨hleft, by simp⟩)

section
variable {vd : Nat} {xs : List (Nat × Nat × Site)}

/-- The load leaves memory, system registers, threads and predicates, and the pools of the other cores. -/
theorem State.vloaded_keeps (s : State) (vd : Nat) (xs : List (Nat × Nat × Site)) : (s.vloaded vd xs).mem = s.mem ∧
    (s.vloaded vd xs).sys = s.sys ∧ (s.vloaded vd xs).cur = s.cur ∧ (∀ k r, (s.vloaded vd xs).thr k r = s.thr k r) ∧
    (s.vloaded vd xs).myCore.preds = s.myCore.preds ∧ ∀ k, k ≠ s.cc → ((s.vloaded vd xs).core k).pool = (s.core k).pool := by
  obtain ⟨-, hk, -⟩ := s.vloaded_requests vd xs
  refine ⟨hk.mem, hk.sys, hk.cur, fun k r => ?_, ?_, fun k hne => ?_⟩
  · exact (hk.thr k r).trans (State.thr_upCore s rfl k r)
  · refine (hk.myCore (·.preds)).trans ?_
    rw [s.myCore_withLanes]
    rfl
  · exact (hk.read (·.pool) k).trans (congrArg Core.pool (s.core_upCore_ne _ hne))

theorem State.vloaded_me (s : State) (vd : Nat) (xs : List (Nat × Nat × Site)) : (s.vloaded vd xs).me = s.me := by
  obtain ⟨-, -, hcur, hthr, -⟩ := s.vloaded_keeps vd xs
  rw [State.me, State.cc, State.cr, hcur, hthr]
  rfl

theorem State.vloaded_pool (s : State) (vd : Nat) (xs : List (Nat × Nat × Site)) :
    (s.vloaded vd xs).myCore.pool = s.myCore.pool.putLanes vd (s.lanesNow xs) := by
  obtain ⟨-, hk, -⟩ := s.vloaded_requests vd xs
  exact (hk.myCore (·.pool)).trans (congrArg Core.pool (s.myCore_withLanes vd xs))

/-- A lane at hand takes its bytes. -/
theorem State.vloaded_lane_now (hn : (xs.map (·.1)).Nodup) {n va : Nat} {x : Site} {bs : List Byte} (hx : (n, va, x) ∈ xs)
    (hb : s.laneNow x = some bs) (h4 : bs.length = 4) : (s.vloaded vd xs).myCore.lane vd n = leNat bs := by
  rw [Core.lane, s.vloaded_pool, Mem.nat, Mem.read_putLanes_of_mem (s.lanesNow_length xs) (hn.sublist (s.lanesNow_sublist xs))
    (State.mem_lanesNow.2 ⟨va, x, hx, hb⟩) h4]

/-- Every other lane stays. -/
theorem State.vloaded_lane_other {n : Nat} (h : n ∉ (s.lanesNow xs).map (·.1)) : (s.vloaded vd xs).myCore.lane vd n = s.myCore.lane vd n := by
  rw [Core.lane, s.vloaded_pool, Mem.nat, Mem.read_putLanes_of_notMem (s.lanesNow_length xs) h]
  rfl

theorem State.vloaded_out (hl : ∀ x ∈ xs, x.1 < 1024) {y : Nat} (hy : y < 4096 * vd ∨ 4096 * vd + 4096 ≤ y) :
    (s.vloaded vd xs).myCore.pool.get y = s.myCore.pool.get y := by
  rw [s.vloaded_pool, Mem.get_putLanes_out (s.lanesNow_length xs) (fun e he => ?_) hy]
  obtain ⟨va, x, hx, -⟩ := State.mem_lanesNow.1 he
  exact hl _ hx

end

/-! ## The words (R118, R119) -/

section
variable {i : Instr} {n : Need} {reads : List (Fin 32)} {g : Guard} {vd : Nat} {idx : List Nat} {addr : Nat → Nat}

/-- A vector load that issues and whose lanes pass their checks. -/
theorem State.vload_loads {xs : List (Nat × Nat × Site)} (h : s.Issues n reads) (ha : s.acqOpen s.cc s.cr = false) (hv : s.vloading vd = false)
    (hi : idx.any s.vloading = false) (hx : s.laneSites .read (lanesAt s.myCore.preds g addr) = .ok xs s1)
    (hc : s1.myCore.l1clear = true → ∀ x ∈ xs, x.2.2.isDev = false) (hr : s1.room (s1.lanesLeft xs).length = true) :
    s.vload n reads g vd idx addr = .next ((s1.vloaded vd xs).upMe fun t => t.retire 2) := by
  unfold lanesAt at hx
  rw [State.vload, State.gate_issues h]
  simp only [ha, hv, hi, hx, Bool.false_eq_true, or_self, if_false, State.vloadAt_eq hc hr]

/-- The lanes of a word's sites are its active lanes, each once. -/
theorem State.lanes_of_laneSites {a : Acc} {xs : List (Nat × Nat × Site)} (hx : s.laneSites a (lanesAt s.myCore.preds g addr) = .ok xs s1) :
    (xs.map (·.1)).Nodup ∧ (∀ x ∈ xs, x.1 < 1024 ∧ guardOn s.myCore.preds g x.1 = true) ∧ xs.length ≤ 1024 := by
  have hl := State.laneSites_lanes hx
  refine ⟨hl ▸ nodup_activeLanes .., fun x hm => mem_activeLanes.1 (hl ▸ List.mem_map_of_mem hm), ?_⟩
  rw [← List.length_map (·.1), hl]
  exact length_activeLanes_le ..

theorem vloadRule_of (hi : exec i s = s.vload n reads g vd idx addr) : VloadRule s i n reads g vd idx addr := by
  intro place h ha hv hidx hl
  obtain ⟨xs, hx, hown, hmem⟩ := State.laneSites_window (a := .read) (addr := addr) (place := place) fun l h1024 hg => by
    obtain ⟨hw, hal, hp, -⟩ := hl l h1024 hg
    exact ⟨hw, hal, fun _ => hp⟩
  obtain ⟨hn, hact, -⟩ := State.lanes_of_laneSites hx
  have hnow {x : Nat × Nat × Site} (hm : x ∈ xs) : s.laneNow x.2.2 = some (s.poolBytes s.cc (place x.1) 4) := by
    obtain ⟨h1024, hg⟩ := hact x hm
    obtain ⟨-, -, -, hlate⟩ := hl x.1 h1024 hg
    rw [hown x hm, State.laneNow, hlate]
    rfl
  have hleft : s.lanesLeft xs = [] := List.filter_eq_nil_iff.2 fun x hm => by simp [hnow hm]
  have he := State.vload_loads h ha hv hidx hx (fun _ x hm => by rw [hown x hm]; rfl) (by rw [hleft]; rfl)
  obtain ⟨hmemory, hsys, hcur, hthr, hpreds, -⟩ := s.vloaded_keeps vd xs
  refine ⟨_, hi.trans he, ?_, hmemory, hsys, fun k r hne => ?_, ?_, fun l h1024 hg => ?_, fun l h1024 hg => ?_, fun y hy => ?_⟩
  · rw [State.me_upMe, State.vloaded_me]
  · exact (State.thr_upMe_ne _ _ (by rwa [hcur])).trans (hthr k r)
  · rw [State.myCore_upMe]
    exact hpreds
  · rw [State.myCore_upMe]
    exact State.vloaded_lane_now hn (hmem l h1024 hg) (hnow (hmem l h1024 hg)) (s.length_poolBytes ..)
  · rw [State.myCore_upMe]
    exact State.vloaded_lane_other (State.notMem_lanesNow_of_inactive hact hg)
  · rw [State.myCore_upMe]
    exact State.vloaded_out (fun x hm => (hact x hm).1) hy

theorem vloadSites_of (hi : exec i s = s.vload n reads g vd idx addr) : VloadSites s i n reads g vd idx addr := by
  intro xs s1 h ha hv hidx hx hc hroom
  obtain ⟨hn, hact, hlen⟩ := State.lanes_of_laneSites hx
  obtain ⟨-, hs⟩ := State.laneSites_ok hx
  have he := State.vload_loads h ha hv hidx hx (fun h1 => by rw [hc] at h1; cases h1)
    (State.room_of_le hroom ((List.length_filter_le ..).trans hlen))
  obtain ⟨hmemory, hsys, hcur, -, hpreds, hpools⟩ := s1.vloaded_keeps vd xs
  obtain ⟨new, -, hreqs, hasks⟩ := s1.vloaded_requests vd xs
  refine ⟨_, new, hi.trans he, hmemory, hsys, ?_, ?_, ?_, ?_, fun l va x bs hm hb h4 => ?_, fun l va x hm hb => ⟨?_, ?_⟩, fun l h1024 hg => ?_,
    fun y hy => ?_, fun k hne => ?_⟩
  · rw [State.me_upMe, Thread.retire_g, State.vloaded_me, hs.me]
  · rw [State.me_upMe, Thread.retire_stores, State.vloaded_me]
  · rw [State.myCore_upMe]
    exact hreqs
  · rw [State.myCore_upMe]
    exact hpreds
  · rw [State.myCore_upMe]
    exact State.vloaded_lane_now hn hm hb h4
  · rw [State.myCore_upMe]
    exact State.vloaded_lane_other (State.notMem_lanesNow hn hm hb)
  · obtain ⟨q, hq, hrole, hpool, hkind⟩ := hasks _ hm hb
    exact ⟨q, hq, hrole.trans hs.cr, by rw [hpool, hs.cc], hkind⟩
  · rw [State.myCore_upMe]
    exact State.vloaded_lane_other (State.notMem_lanesNow_of_inactive hact hg)
  · rw [State.myCore_upMe]
    exact State.vloaded_out (fun x hm => (hact x hm).1) hy
  · have hne' : k ≠ s1.cc := by rwa [hs.cc]
    refine (congrArg Core.pool (State.core_upMe_ne _ _ ?_)).trans (hpools k hne')
    rwa [State.cc, hcur]

end

theorem vtop_one (a : Nat) : vtop [a] = a + 1 := by simp [vtop]

theorem vtop_two (a b : Nat) : vtop [a, b] = max (a + 1) (b + 1) := by simp [vtop]

theorem indexAddr_eq (k : Core) (base vi : Nat) : indexAddr k base vi = fun l => (((base : Int) + sint 32 (k.lane vi l)) % 2 ^ 64).toNat := rfl

section
variable (s : State) (g : Guard) (d vi : Fin 64) (st b : Fin 32)

/-! Each word is the shared vector load, with the need and the addresses that the spec gives it. -/

theorem exec_vld : exec (.vld g d b) s = s.vload { maj := 12, vregs := d.val + 1 } [b] g d.val [] fun l =>
    ((s.me.get b).toNat + 4 * l) % 2 ^ 64 := by
  rw [← vtop_one]
  rfl

theorem exec_vldS : exec (.vldS g d st b) s = s.vload { maj := 12, vregs := d.val + 1 } [b, st] g d.val [] fun l =>
    ((s.me.get b).toNat + l / 64 * (s.me.get st).toNat + 4 * (l % 64)) % 2 ^ 64 := by
  rw [← vtop_one]
  rfl

theorem exec_vldG : exec (.vldG g d vi b) s = s.vload { maj := 12, vregs := max (d.val + 1) (vi.val + 1) } [b] g d.val [vi.val] fun l =>
    ((((s.me.get b).toNat : Int) + sint 32 (s.myCore.lane vi.val l)) % 2 ^ 64).toNat := by
  rw [← vtop_two, ← indexAddr_eq]
  rfl

theorem exec_vldB : exec (.vldB g d b) s = s.vload { maj := 12, vregs := d.val + 1 } [b] g d.val [] fun l =>
    ((s.me.get b).toNat + 4 * (l % 64)) % 2 ^ 64 := by
  rw [← vtop_one]
  rfl

end

/-- Settles O15: each word is `State.vload`, for lanes of the own pool and for lanes at any sites. -/
theorem vectorLoads : Obligations.VectorLoads :=
  ⟨fun g d b s => vloadRule_of (exec_vld s g d b), fun g d st b s => vloadRule_of (exec_vldS s g d st b),
    fun g d vi b s => vloadRule_of (exec_vldG s g d vi b), fun g d b s => vloadRule_of (exec_vldB s g d b),
    fun g d vi st b s => ⟨vloadSites_of (exec_vld s g d b), vloadSites_of (exec_vldS s g d st b), vloadSites_of (exec_vldG s g d vi b),
      vloadSites_of (exec_vldB s g d b)⟩⟩

end Sys2Proof.Machine

/-! # Vector stores (O16) -/

namespace Sys2Proof.Machine

variable {s s1 : State}

/-! ## The stores of a word's groups (R117, R119) -/

/-- What the lanes of one store share: the pool and the line there. -/
def storeKey (c : Fin 64) (x : Nat × Nat × Site) : Option (Fin 64) × Nat := (x.2.2.pool c, x.2.2.addr / 64)

/-- The bytes of a lane of register vs at its site. -/
def Core.laneCells (k : Core) (vs : Nat) (x : Nat × Nat × Site) : List (Nat × Byte) := storeCells x.2.2.addr 4 (k.lane vs x.1)

/-- One store of the lanes of a group, which is a part of the write `whole`. -/
def State.storeGroup (k : Core) (vs whole : Nat) (s : State) (g : (Option (Fin 64) × Nat) × List (Nat × Nat × Site)) : State :=
  match g.2 with
  | [] => s
  | (_, va, y) :: _ => s.bufferStore y va whole (g.2.flatMap (k.laneCells vs))

/-- Stores have joined the buffer of the thread, under fresh numbers. -/
def State.withStores (s : State) (n : Nat) (new : List Store) : State :=
  State.upMe { s with nextOp := n } fun t => { t with stores := t.stores ++ new }

theorem State.withStores_nil (s : State) : ∃ n, s = s.withStores n [] := by
  refine ⟨s.nextOp, ?_⟩
  have hme : { s.me with stores := s.me.stores ++ [] } = s.me := by rw [List.append_nil]
  have hthr : s.myCore.setThr s.cr s.me = s.myCore := by
    simp [Core.setThr, State.me, State.thr, Core.thr, State.myCore]
  have hcore : s.setCore s.cc s.myCore = s := by simp [State.setCore, State.myCore, State.core]
  exact ((congrArg (s.setCore s.cc) ((congrArg (s.myCore.setThr s.cr) hme).trans hthr)).trans hcore).symm

theorem State.withStores_withStores (s : State) (n m : Nat) (l l' : List Store) :
    (s.withStores n l).withStores m l' = s.withStores m (l ++ l') := by
  refine (State.upMe_upMe { s with nextOp := m } (fun t => { t with stores := t.stores ++ l }) fun t => { t with stores := t.stores ++ l' }).trans
    (State.upMe_congr ?_)
  exact congrArg (fun l => { s.me with stores := l }) (List.append_assoc ..)

/-- A group whose lanes share their pool joins the buffer as one store, with the bytes of all its lanes. -/
theorem State.storeGroup_adds (s : State) {k : Core} {vs whole : Nat} {g : (Option (Fin 64) × Nat) × List (Nat × Nat × Site)}
    (hg : ∃ x, x ∈ g.2) (hk : ∀ x ∈ g.2, storeKey s.cc x = g.1) : ∃ n st, s.storeGroup k vs whole g = s.withStores n [st] ∧
      st.pool = g.1.1 ∧ st.bytes = g.2.flatMap (k.laneCells vs) := by
  obtain ⟨x, hx⟩ := hg
  obtain ⟨⟨l, va, y⟩, ys, h2⟩ := List.exists_cons_of_ne_nil (List.ne_nil_of_mem hx)
  refine ⟨s.nextOp + 1,
    { id := s.nextOp, addr := y.addr, pool := y.pool s.cc, bytes := g.2.flatMap (k.laneCells vs), ms := y.ms, va := va, pages := y.pages,
      whole := whole }, ?_, congrArg Prod.fst (hk (l, va, y) (h2 ▸ List.mem_cons_self)), rfl⟩
  unfold State.storeGroup
  rw [h2]
  rfl

theorem State.foldl_storeGroup {k : Core} {vs whole : Nat} {c : Fin 64} {gs : List ((Option (Fin 64) × Nat) × List (Nat × Nat × Site))}
    (hg : ∀ g ∈ gs, (∃ x, x ∈ g.2) ∧ ∀ x ∈ g.2, storeKey c x = g.1) : ∀ s : State, s.cc = c → ∃ n new,
      gs.foldl (State.storeGroup k vs whole) s = s.withStores n new ∧
      new.map (fun st => (st.pool, st.bytes)) = gs.map fun g => (g.1.1, g.2.flatMap (k.laneCells vs)) := by
  induction gs with
  | nil =>
    intro s _
    obtain ⟨n, hn⟩ := s.withStores_nil
    exact ⟨n, [], hn, rfl⟩
  | cons g gs ih =>
    rintro s rfl
    obtain ⟨hmem, hkey⟩ := hg g List.mem_cons_self
    obtain ⟨m, st, hs, hp, hb⟩ := s.storeGroup_adds (k := k) (vs := vs) (whole := whole) hmem hkey
    obtain ⟨n, new, hf, hm⟩ := ih (fun g' hg' => hg g' (List.mem_cons_of_mem _ hg')) (s.storeGroup k vs whole g) (by rw [hs]; rfl)
    refine ⟨n, st :: new, ?_, ?_⟩
    · rw [List.foldl_cons, hf, hs, State.withStores_withStores, List.singleton_append]
    · rw [List.map_cons, List.map_cons, hm, hp, hb]

/-! ## The word (R117, R119, R242) -/

section
variable {n : Need} {reads : List (Fin 32)} {g : Guard} {vs : Nat} {idx : List Nat} {addr : Nat → Nat} {xs : List (Nat × Nat × Site)}

/-- The groups of a word's stores. -/
def storeGroups (c : Fin 64) (xs : List (Nat × Nat × Site)) : List ((Option (Fin 64) × Nat) × List (Nat × Nat × Site)) :=
  groupBy (storeKey c) xs

/-- The number of them that take an entry of the request table. -/
def devGroups (c : Fin 64) (xs : List (Nat × Nat × Site)) : Nat := ((storeGroups c xs).filter fun x => x.1.1 == none).length

theorem devGroups_le (c : Fin 64) (xs : List (Nat × Nat × Site)) : devGroups c xs ≤ xs.length :=
  (List.length_filter_le ..).trans length_groupBy_le

/-- Lanes of the own pool take none. -/
theorem devGroups_own {c : Fin 64} (h : ∀ x ∈ xs, ∃ o, x.2.2 = .own o) : devGroups c xs = 0 := by
  refine List.length_eq_zero_iff.2 (List.filter_eq_nil_iff.2 fun y hy => ?_)
  obtain ⟨x, hx⟩ := exists_mem_of_mem_groupBy hy
  obtain ⟨hm, hk⟩ := mem_of_mem_groupBy hy hx
  obtain ⟨o, ho⟩ := h x hm
  rw [← hk, storeKey, ho]
  exact Bool.false_ne_true

theorem State.keeps_storeWait (s s1 : State) (d : Nat) : s1.Keeps (s1.upMyCore fun k => if 0 < d then k.unwait (.thr s.cr) else k) := by
  refine State.keeps_upMyCore s1 ?_
  split
  · rfl
  · rfl

/-- A vector store past releases and acquires, whose lanes pass their checks, meet no lock and find room, joins the buffer. -/
theorem State.vstore_buffers (h : s.Issues n reads) (ha : s.asyncOpen = false) (hv : s.vloading vs = false) (hi : idx.any s.vloading = false)
    (hx : s.laneSites .write (lanesAt s.myCore.preds g addr) = .ok xs s1)
    (hl : ∀ x ∈ xs, s1.siteLocked x.2.2 x.2.1 4 = false ∧ x.2.2.dead = false)
    (hr : 0 < devGroups s.cc xs → s1.room (devGroups s.cc xs) = true) : s.vstore n reads g vs idx addr =
      .next (((storeGroups s.cc xs).foldl (State.storeGroup s1.myCore vs s1.nextOp)
        (s1.upMyCore fun k => if 0 < devGroups s.cc xs then k.unwait (.thr s.cr) else k)).upMe fun t => t.retire 2) := by
  have hdead : (xs.filter fun x => !x.2.2.dead) = xs := List.filter_eq_self.2 fun x hm => by simp [(hl x hm).2]
  have hlock : ¬((xs.any fun x => s1.siteLocked x.2.2 x.2.1 4) = true) := fun h1 => by
    obtain ⟨x, hm, hk⟩ := List.any_eq_true.1 h1
    rw [(hl x hm).1] at hk
    cases hk
  have hroom : ¬(0 < devGroups s.cc xs ∧ (!s1.room (devGroups s.cc xs)) = true) := by
    rintro ⟨h0, h1⟩
    rw [hr h0] at h1
    cases h1
  unfold lanesAt at hx
  rw [State.vstore, State.gate_issues h]
  simp only [ha, hv, hi, hx, Bool.false_eq_true, or_self, if_false]
  rw [hdead, if_neg hlock]
  exact (if_neg hroom).trans rfl

/-- The stores of such a word: what they change, and their bytes. -/
theorem State.vstore_stores (h : s.Issues n reads) (ha : s.asyncOpen = false) (hv : s.vloading vs = false) (hi : idx.any s.vloading = false)
    (hx : s.laneSites .write (lanesAt s.myCore.preds g addr) = .ok xs s1)
    (hl : ∀ x ∈ xs, s1.siteLocked x.2.2 x.2.1 4 = false ∧ x.2.2.dead = false)
    (hr : 0 < devGroups s.cc xs → s1.room (devGroups s.cc xs) = true) : ∃ (u : State) (new : List Store), s1.Keeps u ∧
      s.vstore n reads g vs idx addr = .next (u.upMe fun t => { t with stores := t.stores ++ new }.retire 2) ∧
      ∀ m cells, (∃ st ∈ new, st.pool = m ∧ st.bytes = cells) ↔
        ∃ y ∈ storeGroups s.cc xs, y.1.1 = m ∧ y.2.flatMap (s1.myCore.laneCells vs) = cells := by
  have hs := (State.laneSites_ok hx).2
  have hw := State.keeps_storeWait s s1 (devGroups s.cc xs)
  obtain ⟨n, new, hf, hm⟩ := State.foldl_storeGroup (k := s1.myCore) (vs := vs) (whole := s1.nextOp) (c := s.cc) (gs := storeGroups s.cc xs)
    (fun y hy => ⟨exists_mem_of_mem_groupBy hy, fun x hx => (mem_of_mem_groupBy hy hx).2⟩) _ (hw.cc.trans hs.cc)
  refine ⟨_, new, hw.trans (State.keeps_nextOp _ n), ?_, fun m cells => ?_⟩
  · rw [State.vstore_buffers h ha hv hi hx hl hr, hf, State.withStores, State.upMe_upMe]
  · have hmem : (m, cells) ∈ new.map (fun st => (st.pool, st.bytes)) ↔
        (m, cells) ∈ (storeGroups s.cc xs).map fun y => (y.1.1, y.2.flatMap (s1.myCore.laneCells vs)) := by rw [hm]
    simpa only [List.mem_map, Prod.mk.injEq] using hmem

/-- A byte in a store of a pool or of memory is a byte of a lane whose site lies there. -/
theorem mem_storeGroups_cells {k : Core} {c : Fin 64} {m : Option (Fin 64)} {e : Nat × Byte} :
    (∃ y ∈ storeGroups c xs, y.1.1 = m ∧ e ∈ y.2.flatMap (k.laneCells vs)) ↔ ∃ x ∈ xs, x.2.2.pool c = m ∧ e ∈ k.laneCells vs x := by
  constructor
  · rintro ⟨y, hy, rfl, he⟩
    obtain ⟨x, hx, he⟩ := List.mem_flatMap.1 he
    obtain ⟨hm, hk⟩ := mem_of_mem_groupBy hy hx
    exact ⟨x, hm, congrArg Prod.fst hk, he⟩
  · rintro ⟨x, hx, rfl, he⟩
    exact ⟨_, mem_groupBy_of_mem hx, rfl, List.mem_flatMap.2 ⟨x, List.mem_filter.2 ⟨hx, by simp⟩, he⟩⟩

theorem exists_store_iff {new : List Store} {k : Core} {c : Fin 64}
    (h : ∀ m cells, (∃ st ∈ new, st.pool = m ∧ st.bytes = cells) ↔
      ∃ y ∈ storeGroups c xs, y.1.1 = m ∧ y.2.flatMap (k.laneCells vs) = cells) (m : Option (Fin 64)) (e : Nat × Byte) :
    (∃ st ∈ new, st.pool = m ∧ e ∈ st.bytes) ↔ ∃ x ∈ xs, x.2.2.pool c = m ∧ e ∈ k.laneCells vs x := by
  rw [← mem_storeGroups_cells]
  constructor
  · rintro ⟨st, hst, hp, he⟩
    obtain ⟨y, hy, hp, hc⟩ := (h m st.bytes).1 ⟨st, hst, hp, rfl⟩
    exact ⟨y, hy, hp, hc ▸ he⟩
  · rintro ⟨y, hy, hp, he⟩
    obtain ⟨st, hst, hp, hc⟩ := (h m _).2 ⟨y, hy, hp, rfl⟩
    exact ⟨st, hst, hp, hc ▸ he⟩

theorem mem_laneCells {k : Core} {x : Nat × Nat × Site} {a : Nat} {b : Byte} : (a, b) ∈ k.laneCells vs x ↔
    ∃ j, j < 4 ∧ a = x.2.2.addr + j ∧ b = BitVec.ofNat 8 (k.lane vs x.1 / 256 ^ j) := by
  simp only [Core.laneCells, mem_storeCells, Prod.mk.injEq]

variable {i : Instr}

theorem vstoreRule_of (he : exec i s = s.vstore n reads g vs idx addr) : VstoreRule s i n reads g vs idx addr := by
  intro place h ha hv hi hl
  obtain ⟨xs, hx, hown, hmem⟩ := State.laneSites_window (a := .write) (addr := addr) (place := place) fun l h1024 hg => by
    obtain ⟨hw, hal, -⟩ := hl l h1024 hg
    exact ⟨hw, hal, nofun⟩
  obtain ⟨-, hact, -⟩ := State.lanes_of_laneSites hx
  have hfree : ∀ x ∈ xs, s.siteLocked x.2.2 x.2.1 4 = false ∧ x.2.2.dead = false := fun x hm => by
    obtain ⟨h1024, hg⟩ := hact x hm
    obtain ⟨-, -, hdead, hlock⟩ := hl x.1 h1024 hg
    rw [hown x hm]
    exact ⟨hlock, hdead⟩
  obtain ⟨u, new, hk, hu, hnew⟩ := State.vstore_stores h ha hv hi hx hfree fun h0 => by
    rw [devGroups_own fun x hm => ⟨_, hown x hm⟩] at h0
    cases h0
  have hpool : ∀ st ∈ new, st.pool = some s.cc := fun st hst => by
    obtain ⟨y, hy, hp, -⟩ := (hnew st.pool st.bytes).1 ⟨st, hst, rfl, rfl⟩
    obtain ⟨x, hxy⟩ := exists_mem_of_mem_groupBy hy
    obtain ⟨hm, hkey⟩ := mem_of_mem_groupBy hy hxy
    rw [← hp, ← hkey, storeKey, hown x hm]
    rfl
  refine ⟨_, new, he.trans hu, ?_, ?_, hk.frame (by simp), hpool, fun a b => ?_⟩
  · rw [State.me_upMe, Thread.retire_stores, hk.me]
  · rw [State.me_upMe, Thread.retire_g, hk.me]
  · have hiff := exists_store_iff hnew (some s.cc) (a, b)
    constructor
    · rintro ⟨st, hst, hb⟩
      obtain ⟨x, hm, -, hc⟩ := hiff.1 ⟨st, hst, hpool st hst, hb⟩
      obtain ⟨j, hj, ha, hb⟩ := mem_laneCells.1 hc
      obtain ⟨h1024, hg⟩ := hact x hm
      rw [hown x hm] at ha
      exact ⟨x.1, j, h1024, hg, hj, ha, hb⟩
    · rintro ⟨l, j, h1024, hg, hj, rfl, rfl⟩
      obtain ⟨st, hst, -, hb⟩ := hiff.2 ⟨_, hmem l h1024 hg, rfl, mem_laneCells.2 ⟨j, hj, rfl, rfl⟩⟩
      exact ⟨st, hst, hb⟩

theorem vstoreSites_of (he : exec i s = s.vstore n reads g vs idx addr) : VstoreSites s i n reads g vs idx addr := by
  intro xs s1 h ha hv hi hx hroom hl
  obtain ⟨-, -, hlen⟩ := State.lanes_of_laneSites hx
  have hs := (State.laneSites_ok hx).2
  obtain ⟨u, new, hk, hu, hnew⟩ := State.vstore_stores h ha hv hi hx (fun x hm => hl _ _ _ hm)
    fun _ => State.room_of_le hroom ((devGroups_le ..).trans hlen)
  refine ⟨_, new, he.trans hu, ?_, ?_, hk.mem, hk.sys, fun k => ?_, fun m a b => ?_⟩
  · rw [State.me_upMe, Thread.retire_stores, hk.me]
  · rw [State.me_upMe, Thread.retire_g, hk.me, hs.me]
  · obtain ⟨th, hc⟩ := u.core_upMe_threads (fun t => { t with stores := t.stores ++ new }.retire 2) k
    rw [hc]
    exact ⟨hk.read Core.pool k, hk.read Core.preds k⟩
  · rw [exists_store_iff hnew m (a, b)]
    constructor
    · rintro ⟨⟨l, va, x⟩, hm, rfl, hc⟩
      obtain ⟨j, hj, ha, hb⟩ := mem_laneCells.1 hc
      exact ⟨l, va, x, j, hm, hj, rfl, ha, hb⟩
    · rintro ⟨l, va, x, j, hm, hj, rfl, rfl, rfl⟩
      exact ⟨_, hm, rfl, mem_laneCells.2 ⟨j, hj, rfl, rfl⟩⟩

end

section
variable (s : State) (g : Guard) (d vi : Fin 64) (st b : Fin 32)

/-! Each word is the shared vector store, with the need and the addresses that the spec gives it. -/

theorem exec_vst : exec (.vst g d b) s = s.vstore { maj := 12, vregs := d.val + 1 } [b] g d.val [] fun l =>
    ((s.me.get b).toNat + 4 * l) % 2 ^ 64 := by
  rw [← vtop_one]
  rfl

theorem exec_vstS : exec (.vstS g d st b) s = s.vstore { maj := 12, vregs := d.val + 1 } [b, st] g d.val [] fun l =>
    ((s.me.get b).toNat + l / 64 * (s.me.get st).toNat + 4 * (l % 64)) % 2 ^ 64 := by
  rw [← vtop_one]
  rfl

theorem exec_vstX : exec (.vstX g d vi b) s = s.vstore { maj := 12, vregs := max (d.val + 1) (vi.val + 1) } [b] g d.val [vi.val] fun l =>
    ((((s.me.get b).toNat : Int) + sint 32 (s.myCore.lane vi.val l)) % 2 ^ 64).toNat := by
  rw [← vtop_two, ← indexAddr_eq]
  rfl

end

/-- Settles O16: each word is `State.vstore`, for lanes of the own pool and for lanes at any sites. -/
theorem vectorStores : Obligations.VectorStores :=
  ⟨fun g d b s => vstoreRule_of (exec_vst s g d b), fun g d st b s => vstoreRule_of (exec_vstS s g d st b),
    fun g d vi b s => vstoreRule_of (exec_vstX s g d vi b),
    fun g d vi st b s => ⟨vstoreSites_of (exec_vst s g d b), vstoreSites_of (exec_vstS s g d st b), vstoreSites_of (exec_vstX s g d vi b)⟩⟩

end Sys2Proof.Machine

/-! # ACQ, REL, FEN and EFEN (O31) -/

namespace Sys2Proof.Machine

variable {s : State} {k : Fin 8}

/-! ## The acquire and the release of a word (R133, R134) -/

theorem State.acqWaits_zero (s : State) : s.acqWaits 0 = false := rfl

theorem State.acquired_cur (s : State) (c : Fin 64) (r : Role) (sc : Nat) : (s.acquired c r sc).cur = s.cur := by
  unfold State.acquired
  repeat' split
  all_goals rfl

theorem State.acquired_me_g (s : State) (c : Fin 64) (r : Role) (sc : Nat) : (s.acquired c r sc).me.g = s.me.g := by
  rw [State.me, State.cc, State.cr, State.acquired_cur]
  exact State.acquired_g ..

theorem State.acquired_myCore_pool (s : State) (c : Fin 64) (r : Role) (sc : Nat) : (s.acquired c r sc).myCore.pool = s.myCore.pool := by
  rw [State.myCore, State.cc, State.acquired_cur]
  exact State.acquired_core_keeps (·.pool) (fun _ _ _ => rfl) (fun _ _ _ _ => rfl) ..

theorem State.acquireThen_wait {sc : Nat} (h : s.acqWaits sc = true) (go : State → Out) :
    s.acquireThen sc go = .next (s.upMe fun t => { t with why := 10, obj := 0 }) := if_pos h

theorem State.acquireThen_go {sc : Nat} (h : s.acqWaits sc = false) (go : State → Out) :
    s.acquireThen sc go = go (s.acquired s.cc s.cr sc) := if_neg (ne_true_of_eq_false h)

/-- The mark that the opening of a release leaves is of its own word, at the wider of its scope and that of the one still open. -/
theorem State.openRel_own (s : State) (sc : Nat) : ∃ m : RelMark, m.word = s.me.here ∧ m.nth = s.me.issued + 1 ∧ sc ≤ m.scope ∧
    s.openRel sc true = s.upMe fun t => { t with relUpto := some s.nextOp, relMark := some m } := by
  unfold State.openRel
  extract_lets was
  exact ⟨⟨max was sc, s.me.here, s.me.issued + 1⟩, rfl, rfl, le_max_right .., State.upMe_congr rfl⟩

/-! ## ACQ, REL and FEN (R147, R148) -/

theorem exec_acq (h : s.Issues { maj := 15 } []) : exec (.acq k) s = s.acquireThen k.val fun s => s.done 2 := by
  show execAcq k s = _
  rw [execAcq, State.gate_issues h]

theorem exec_rel (h : s.Issues { maj := 15 } []) : exec (.rel k) s =
    if k.val = 0 then s.done 2
    else if 3 ≤ k.val ∧ s.storeRecord s.cc s.cr then s.trap cENG 0x01
    else if (3 ≤ k.val ∧ s.storeLost s.cc s.cr) ∨ (k.val = 5 ∧ !s.hostup) then s.block 10 0
    else (s.openRel k.val true).done 2 := by
  show execRel k s = _
  rw [execRel, State.gate_issues h]

theorem exec_acq_of_go (h : s.Issues { maj := 15 } []) (ha : s.acqWaits k.val = false) :
    exec (.acq k) s = .next ((s.acquired s.cc s.cr k.val).upMe fun t => t.retire 2) := by
  rw [exec_acq h, State.acquireThen_go ha, State.done_eq]

theorem exec_acq_of_wait (h : s.Issues { maj := 15 } []) (ha : s.acqWaits k.val = true) :
    exec (.acq k) s = .next (s.upMe fun t => { t with why := 10, obj := 0 }) := by
  rw [exec_acq h, State.acquireThen_wait ha]

/-- At scope .th an acquire neither waits nor changes anything. -/
theorem acq_retires_of_zero (h : s.Issues { maj := 15 } []) : s.Retires (.acq 0) 2 id :=
  (exec_acq_of_go h s.acqWaits_zero).trans rfl

/-- A release at scope .th does nothing. -/
theorem rel_retires_of_zero (h : s.Issues { maj := 15 } []) : s.Retires (.rel 0) 2 id := (exec_rel h).trans (if_pos rfl)

/-- A REL that neither a record nor a store or host out of reach holds back opens its release. -/
theorem rel_retires_open (h : s.Issues { maj := 15 } []) (h0 : 0 < k.val)
    (hs : 3 ≤ k.val → s.storeRecord s.cc s.cr = false ∧ s.storeLost s.cc s.cr = false) (hu : k.val = 5 → s.hostup = true) :
    ∃ m : RelMark, m.word = s.me.here ∧ m.nth = s.me.issued + 1 ∧ k.val ≤ m.scope ∧
      s.Retires (.rel k) 2 fun t => { t with relUpto := some s.nextOp, relMark := some m } := by
  obtain ⟨m, hword, hnth, hscope, hopen⟩ := s.openRel_own k.val
  have hrec : ¬ (3 ≤ k.val ∧ s.storeRecord s.cc s.cr) := fun ⟨h3, hr⟩ => ne_true_of_eq_false (hs h3).1 hr
  have hwait : ¬ ((3 ≤ k.val ∧ s.storeLost s.cc s.cr) ∨ (k.val = 5 ∧ !s.hostup)) := by
    rintro (⟨h3, hl⟩ | ⟨h5, hd⟩)
    · exact ne_true_of_eq_false (hs h3).2 hl
    · simp [hu h5] at hd
  refine ⟨m, hword, hnth, hscope, ?_⟩
  rw [State.Retires, exec_rel h, if_neg h0.ne', if_neg hrec, if_neg hwait, hopen, State.done_eq, State.upMe_upMe]

theorem exec_rel_of_record (h : s.Issues { maj := 15 } []) (h3 : 3 ≤ k.val) (hr : s.storeRecord s.cc s.cr = true) :
    exec (.rel k) s = s.trap cENG 1 := by
  have h0 : k.val ≠ 0 := by omega
  rw [exec_rel h, if_neg h0, if_pos ⟨h3, hr⟩]

theorem exec_fen_of_go (h : s.Issues { maj := 15 } []) (hr : s.release k.val = .go) (ha : s.acqWaits k.val = false) :
    exec (.fen k) s = .next ((s.acquired s.cc s.cr k.val).upMe fun t => t.retire 2) := by
  show execFen k s = _
  rw [execFen, State.gate_issues h, hr]
  exact State.acquireThen_go ha _

theorem exec_fen_of_wait (h : s.Issues { maj := 15 } []) (hr : s.release k.val = .wait) :
    exec (.fen k) s = .next (s.upMe fun t => { t with why := 10, obj := 0 }) := by
  show execFen k s = _
  rw [execFen, State.gate_issues h, hr]
  rfl

/-! ## EFEN (R151) -/

section
variable {f : Fin 32} (h : s.Issues { maj := 16 } []) (hh : efenSel f 1 = true → s.myCore.haltedOf s.cr = none)
include h hh

/-- EFEN where no halted MA.MM of the thread is selected. -/
theorem exec_efen : exec (.efen f) s =
    if s.asyncBusy s.cc s.cr (efenSel f) then s.block 10 0
    else if s.myCore.asyncRec s.cr (efenSel f) then s.trap cENG 0x02
    else s.done 2 := by
  have hn : (if efenSel f 1 then s.myCore.haltedOf s.cr else none) = none := by
    split
    · exact hh ‹_›
    · rfl
  show execEfen f s = _
  rw [execEfen, State.gate_issues h]
  dsimp only
  rw [hn]

theorem efen_retires (hb : s.asyncBusy s.cc s.cr (efenSel f) = false) (hr : s.myCore.asyncRec s.cr (efenSel f) = false) :
    s.Retires (.efen f) 2 id := by
  rw [State.Retires, exec_efen h hh, hb, hr]
  rfl

theorem exec_efen_of_record (hb : s.asyncBusy s.cc s.cr (efenSel f) = false) (hr : s.myCore.asyncRec s.cr (efenSel f) = true) :
    exec (.efen f) s = s.trap cENG 2 := by
  rw [exec_efen h hh, hb, hr]
  rfl

theorem exec_efen_of_busy (hb : s.asyncBusy s.cc s.cr (efenSel f) = true) :
    exec (.efen f) s = .next (s.upMe fun t => { t with why := 10, obj := 0 }) := (exec_efen h hh).trans (if_pos hb)

end

/-- Settles O31: ACQ, REL and FEN case by case of what holds them back, what a completed acquire leaves, and EFEN likewise. -/
theorem orderingWords : Obligations.OrderingWords := by
  refine ⟨fun s k h => ⟨?_, exec_acq_of_go h, exec_acq_of_wait h, rel_retires_open h, exec_rel_of_record h, exec_fen_of_go h,
    exec_fen_of_wait h⟩, fun s k => ⟨State.acquired_mem .., State.acquired_me_g .., State.acquired_myCore_pool ..⟩,
    fun s f h hh => ⟨efen_retires h hh, exec_efen_of_record h hh, exec_efen_of_busy h hh⟩⟩
  rintro rfl
  exact ⟨acq_retires_of_zero h, rel_retires_of_zero h⟩

end Sys2Proof.Machine

/-! # Leaves, frames and lists: what a write at its home leaves of the machine -/

namespace Sys2Proof.Machine

variable {s t u : State} {d : Fin 4} {pa e x f n : Nat}

/-! ## A write at its home -/

/-- The state but for memory, its poison, the L2 copies, the watches and the base dies' rows. -/
def State.bare (s : State) : State :=
  { s with mem := [], pflip := [], l2own := [], watches := [], bds := Vector.replicate 8 { rows := [] } }

theorem State.dies_of_bare (h : t.bare = s.bare) : t.dies = s.dies :=
  show t.bare.dies = s.bare.dies from congrArg State.dies h

theorem State.die_of_bare (h : t.bare = s.bare) (d : Fin 4) : t.die d = s.die d := by rw [State.die, State.die, State.dies_of_bare h]

theorem State.core_of_bare (h : t.bare = s.bare) (c : Fin 64) : t.core c = s.core c := 
  State.core_of_cores_eq (show t.bare.cores = s.bare.cores from congrArg State.cores h) c

theorem State.cur_of_bare (h : t.bare = s.bare) : t.cur = s.cur :=
  show t.bare.cur = s.bare.cur from congrArg State.cur h

theorem State.me_of_bare (h : t.bare = s.bare) : t.me = s.me := by
  rw [State.me, State.me, State.thr, State.thr, State.core_of_bare h, State.cc, State.cc, State.cr, State.cr, State.cur_of_bare h]

@[simp] theorem State.physWrite_bare (s : State) (pa bs ms) : (s.physWrite pa bs ms).bare = s.bare :=
  s.physWrite_keeps pa bs ms State.bare fun _ _ _ _ _ _ => rfl

@[simp] theorem State.writeLeaf_bare (s : State) (pa old new) : (s.writeLeaf pa old new).bare = s.bare :=
  foldl_keeps State.bare (fun s _ => s.physWrite_bare ..) _ s

@[simp] theorem State.unbusy_bare (s : State) (pa) : (s.unbusy pa).bare = s.bare := by
  unfold State.unbusy
  dsimp only
  split
  · exact s.writeLeaf_bare ..
  · rfl

@[simp] theorem State.setFrameCount_bare (s : State) (f n) : (s.setFrameCount f n).bare = s.bare := s.physWrite_bare ..

theorem State.setPoison_bare (s : State) (l b) : (s.setPoison l b).bare = s.bare := rfl

theorem State.fire_bare (s : State) (pa n) : (s.fire pa n).bare = s.bare := rfl

theorem State.landRows_bare (s : State) (pa n) : (s.landRows pa n).bare = s.bare := by
  unfold State.landRows State.landWrite
  split
  · rfl
  · rfl

@[simp] theorem State.copyPage_bare (s : State) (f g n) : (s.copyPage f g n).bare = s.bare :=
  (State.landRows_bare ..).trans ((State.fire_bare ..).trans (foldl_keeps State.bare (fun s _ => s.setPoison_bare ..) _ _))

/-- The pieces of a store are written in turn, once every page has been found. -/
theorem State.hwStore_bare {die asid va bs} (h : s.hwStore die asid va bs = .ok t) : t.bare = s.bare := by
  have hp (l : List (Nat × Nat)) : ∀ a : State × List Byte,
      (l.foldl (fun (acc : State × List Byte) p => (acc.1.physWrite p.1 (acc.2.take p.2) true, acc.2.drop p.2)) a).1.bare = a.1.bare := by
    induction l with
    | nil => exact fun _ => rfl
    | cons p l ih => exact fun a => (ih _).trans (State.physWrite_bare ..)
  unfold State.hwStore at h
  dsimp only at h
  split at h
  · cases h
  · cases h
    exact hp ..

@[simp] theorem State.charge_bare (s : State) (die n o i) : (s.charge die n o i).bare = s.bare := by
  unfold State.charge
  split
  · rfl
  refine foldl_keeps State.bare (fun s x => ?_) _ s
  split
  · rfl
  split
  · rfl
  · next h => exact State.hwStore_bare h

theorem State.takeFrame_bare {die va} (h : s.takeFrame die va = some (f, t)) : t.bare = s.bare := by
  unfold State.takeFrame at h
  dsimp only at h
  repeat' split at h
  all_goals cases h
  exact State.hwStore_bare ‹_›

@[simp] theorem State.giveFrame_bare (s : State) (die va frame) : (s.giveFrame die va frame).bare = s.bare := by
  unfold State.giveFrame
  split
  · rfl
  dsimp only
  split
  · rfl
  split
  · rfl
  next s1 h1 =>
  split
  · rfl
  · next h2 => exact (State.hwStore_bare h2).trans (State.hwStore_bare h1)

theorem State.targetFrame_bare {tier stack} (h : s.targetFrame d tier stack = some (f, t)) : t.bare = s.bare := by
  unfold State.targetFrame at h
  split at h
  · exact State.takeFrame_bare h
  split at h
  · exact State.takeFrame_bare h
  split at h
  · exact State.takeFrame_bare h
  split at h
  · next hx =>
    cases h
    exact State.takeFrame_bare hx
  · exact State.takeFrame_bare h

theorem State.reclaim_bare (h : s.reclaim d f = some t) : t.bare = s.bare := by
  unfold State.reclaim at h
  dsimp only at h
  repeat' split at h
  all_goals cases h
  rename_i u hu _ ht
  exact (State.hwStore_bare ht).trans (State.hwStore_bare hu)

/-! ## Memory under these writes -/

theorem State.hwWrite_mem (s : State) (pa n v) : (s.hwWrite pa n v).mem = s.mem.write pa (leBytes n v) := State.physWrite_mem ..

theorem State.setFrameCount_mem (s : State) (f n) : (s.setFrameCount f n).mem = s.mem.write (s.sysBase 1 + 4 * f) (leBytes 4 (n % 2 ^ 28)) :=
  s.hwWrite_mem ..

theorem State.copyPage_mem (s : State) (f g n) : (s.copyPage f g n).mem = s.mem.copy (4096 * f) (4096 * g) (4096 * n) :=
  (State.landRows_mem ..).trans ((State.fire_mem ..).trans (foldl_mem (fun s _ => s.setPoison_mem ..) _ _))

theorem State.frameCount_lt (s : State) (f) : s.frameCount f < 2 ^ 28 := Nat.mod_lt _ (Nat.two_pow_pos 28)

/-- Entries written in turn, 8 bytes apart, all hold the value. -/
theorem physNat_foldl_hwWrite (n f x : Nat) (s : State) : ∀ j, j < n →
    ((List.range n).foldl (fun (s : State) i => s.hwWrite (f + 8 * i) 8 x) s).physNat (f + 8 * j) 8 = x % 2 ^ 64 := by
  induction n with
  | zero => exact fun _ h => absurd h (Nat.not_lt_zero _)
  | succ n ih =>
    intro j hj
    rw [List.range_succ, List.foldl_append]
    simp only [List.foldl_cons, List.foldl_nil, State.physNat, State.phys, State.hwWrite_mem] at ih ⊢
    by_cases h : j = n
    · subst h
      have := Mem.read_write_same ((List.range j).foldl (fun (s : State) i => s.hwWrite (f + 8 * i) 8 x) s).mem (f + 8 * j) (leBytes 8 x)
      rw [length_leBytes] at this
      rw [this, leNat_leBytes]
      norm_num
    · have hlt : j < n := by omega
      rw [Mem.read_write_out _ _ _ _ _ (by rw [length_leBytes]; omega), ih j hlt]

theorem get_foldl_hwWrite (n f x a : Nat) (s : State) (h : a < f ∨ f + 8 * n ≤ a) :
    ((List.range n).foldl (fun (s : State) i => s.hwWrite (f + 8 * i) 8 x) s).mem.get a = s.mem.get a := by
  induction n with
  | zero => rfl
  | succ n ih =>
    rw [List.range_succ, List.foldl_append]
    simp only [List.foldl_cons, List.foldl_nil, State.hwWrite_mem]
    rw [Mem.get_write_out _ _ _ _ (by rw [length_leBytes]; omega), ih (by omega)]

/-- Every entry of a leaf's run takes the value (R165). -/
theorem State.physNat_writeLeaf (s : State) {pa e x j : Nat} (hj : j < runLen (leafSize e)) :
    (s.writeLeaf pa e x).physNat (pa / 8 / runLen (leafSize e) * runLen (leafSize e) * 8 + 8 * j) 8 = x % 2 ^ 64 :=
  physNat_foldl_hwWrite _ _ _ s j hj

theorem State.get_writeLeaf (s : State) {pa e x a : Nat} (h : a < pa / 8 / runLen (leafSize e) * runLen (leafSize e) * 8 ∨
    pa / 8 / runLen (leafSize e) * runLen (leafSize e) * 8 + 8 * runLen (leafSize e) ≤ a) : (s.writeLeaf pa e x).mem.get a = s.mem.get a :=
  get_foldl_hwWrite _ _ _ a s h

/-! ## A leaf leaves the TLBs of every core (R171, R180, R184) -/

theorem Thread.dropWalk_eq (t : Thread) (own kind addr asid count) : ∃ w, t.dropWalk own kind addr asid count = { t with xwalk := w } := by
  unfold Thread.dropWalk
  split
  · exact ⟨t.xwalk, rfl⟩
  · extract_lets n
    split
    · exact ⟨none, rfl⟩
    · exact ⟨t.xwalk, rfl⟩

theorem Thread.dropWalk_keeps {β : Type} (p : Thread → β) (hp : ∀ (t : Thread) w, p { t with xwalk := w } = p t) (t : Thread)
    (own kind addr asid count) : p (t.dropWalk own kind addr asid count) = p t := by
  obtain ⟨w, hw⟩ := t.dropWalk_eq own kind addr asid count
  rw [hw, hp]

theorem Core.thr_dropTlb (k : Core) (kind addr asid count) (r : Role) :
    (k.dropTlb kind addr asid count).thr r = (k.thr r).dropWalk k.view.asid kind addr asid count := Vector.getElem_map ..

theorem Thread.advance_xwalk_with (t : Thread) (w) (n : Nat) : ({ t with xwalk := w } : Thread).advance n = { t.advance n with xwalk := w } := by
  unfold Thread.advance
  dsimp only [Thread.nextHdr]
  cases t.blk
  all_goals
    dsimp only
    split
    · rfl
    split
    · rfl
    · rfl

theorem Thread.put_xwalk_with (t : Thread) (w) (d : Fin 32) (v : Word) : ({ t with xwalk := w } : Thread).put d v = { t.put d v with xwalk := w } := by
  unfold Thread.put
  split
  · rfl
  · rfl

theorem Thread.retire_xwalk_with (t : Thread) (w) (n : Nat) : ({ t with xwalk := w } : Thread).retire n = t.retire n := by
  unfold Thread.retire
  rw [Thread.advance_xwalk_with]
  rfl

/-- What a walk has left for a word goes when the word retires. -/
theorem Thread.retire_put_dropWalk (t : Thread) (own kind addr asid count) (d : Fin 32) (v : Word) (n : Nat) :
    ((t.dropWalk own kind addr asid count).put d v).retire n = (t.put d v).retire n := by
  obtain ⟨w, hw⟩ := t.dropWalk_eq own kind addr asid count
  rw [hw, Thread.put_xwalk_with, Thread.retire_xwalk_with]

theorem State.core_dropLeaf (s : State) (asid va) (c : Fin 64) : (s.dropLeaf asid va).core c = (s.core c).dropTlb 0 va asid 0 :=
  Vector.getElem_map ..

theorem State.core_leafSynced (s : State) (c : Fin 64) : s.leafSynced.core c = (s.core c).bumpL1 := Vector.getElem_map ..

theorem State.dropLeaf_me (s : State) (asid va) : (s.dropLeaf asid va).me = s.me.dropWalk s.myCore.view.asid 0 va asid 0 := by
  rw [State.me, State.thr, State.core_dropLeaf, Core.thr_dropTlb]
  rfl

theorem State.leafSynced_me (s : State) : s.leafSynced.me = s.me := by
  rw [State.me, State.thr, State.core_leafSynced]
  exact Core.bumpL1_keeps (·.thr s.cr) (fun _ _ _ _ => rfl) _

theorem State.pool_dropLeaf (s : State) (asid va) (c : Fin 64) : ((s.dropLeaf asid va).core c).pool = (s.core c).pool := by
  rw [State.core_dropLeaf]
  rfl

theorem State.pool_leafSynced (s : State) (c : Fin 64) : (s.leafSynced.core c).pool = (s.core c).pool := by
  rw [State.core_leafSynced]
  exact Core.bumpL1_keeps Core.pool (fun _ _ _ _ => rfl) _

theorem State.pool_upMe (s : State) (f : Thread → Thread) (c : Fin 64) : ((s.upMe f).core c).pool = (s.core c).pool := by
  obtain ⟨th, h⟩ := s.core_upMe_threads f c
  rw [h]

theorem State.die_dropLeaf (s : State) (asid va) (d : Fin 4) : (s.dropLeaf asid va).die d = s.die d := rfl

theorem State.die_leafSynced (s : State) (d : Fin 4) : s.leafSynced.die d = s.die d := rfl

end Sys2Proof.Machine

/-! # TLB.INV, TLB.SYNC, PG.PROBE, PG.PIN and the frame counts (O32) -/

namespace Sys2Proof.Machine

variable {s : State} {a b d : Fin 32} {pa e va f : Nat}

/-! ## TLB.INV, TLB_INV_COMPLETE and TLB.SYNC (R183, R184) -/

theorem dieOf_val (c : Fin 64) : (dieOf c).val = c.val / 16 := by
  have : c.val / 16 < 4 := by omega
  simpa [dieOf] using this

theorem exec_tlbInv_posts {k : Fin 4} {c : Fin 8} (h : s.Issues { maj := 17, priv := true } [a, b]) (hs : s.me.stores = []) :
    exec (.tlbInv a b k c) s = .next ({ s with nextOp := s.nextOp + 1, invals := s.invals ++
      [(⟨s.nextOp, some (s.cc, s.cr), c.val, s.cc.val / 16, s.cc.val, k.val, (s.me.get a).toNat, bits (s.me.get b).toNat 0 12,
        bits (s.me.get b).toNat 16 32, false⟩ : Inval)] }.upMe fun t => t.retire 2) := by
  show execTlbInv a b k c s = _
  rw [execTlbInv, State.gate_issues h, ← dieOf_val]
  exact if_neg (by simp [hs])

theorem exec_tlbInv_waits {k : Fin 4} {c : Fin 8} (h : s.Issues { maj := 17, priv := true } [a, b]) (hs : s.me.stores ≠ []) :
    exec (.tlbInv a b k c) s = .next (s.upMe fun t => { t with why := 10, obj := 0 }) := by
  show execTlbInv a b k c s = _
  rw [execTlbInv, State.gate_issues h]
  exact if_pos (by simp [hs])

theorem State.core_bumpScope (s : State) (p) (c : Fin 64) : (s.bumpScope p).core c = if p c then (s.core c).bumpL1 else s.core c := by
  simp [State.core, State.bumpScope]

/-- An advance of L1GEN on some cores leaves what lies beside the L1. -/
theorem State.core_bumpScope_keeps {β : Type} (p : Core → β) (hp : ∀ (k : Core) g l c, p { k with l1gen := g, l1 := l, l1clear := c } = p k)
    (s : State) (q) (c : Fin 64) : p ((s.bumpScope q).core c) = p (s.core c) := by
  rw [State.core_bumpScope]
  split
  · exact Core.bumpL1_keeps p hp _
  · rfl

theorem exec_tlbSync_waits (h : s.Issues { maj := 17, priv := true } []) (hv : ∃ v ∈ s.invals, v.owner = some s.cur ∧ v.done = false) :
    exec .tlbSync s = .next s := by
  obtain ⟨v, hmem, hown, hdone⟩ := hv
  show execTlbSync s = _
  rw [execTlbSync, State.gate_issues h]
  exact if_pos (List.any_eq_true.2 ⟨v, List.mem_filter.2 ⟨hmem, by simp [hown]⟩, by simp [hdone]⟩)

theorem State.bumpScope_cur (s : State) (q) : (s.bumpScope q).cur = s.cur := by rw [State.bumpScope]

theorem State.bumpScope_invals (s : State) (q) : (s.bumpScope q).invals = s.invals := by rw [State.bumpScope]

theorem State.bumpScope_me (s : State) (q) : (s.bumpScope q).me = s.me := by
  rw [State.me, State.me, State.cc, State.cr, State.cc, State.cr, State.bumpScope_cur]
  exact State.core_bumpScope_keeps (·.thr s.cur.2) (fun _ _ _ _ => rfl) ..

theorem exec_tlbSync_goes (h : s.Issues { maj := 17, priv := true } []) (hv : ∀ v ∈ s.invals, v.owner = some s.cur → v.done = true) :
    exec .tlbSync s = .next (({ s with invals := s.invals.filter fun v => v.owner ≠ some s.cur }.bumpScope fun c =>
      (s.invals.filter fun v : Inval => v.owner == some s.cur).any (·.covers c)).upMe fun t => t.retire 2) := by
  have hdone : ((s.invals.filter fun v => v.owner == some s.cur).any fun v => !v.done) = false :=
    List.any_eq_false.2 fun v hm => by
      obtain ⟨hmem, hown⟩ := List.mem_filter.1 hm
      simp [hv v hmem (by simpa using hown)]
  show execTlbSync s = _
  rw [execTlbSync, State.gate_issues h]
  dsimp only
  rw [if_neg (ne_true_of_eq_false hdone), State.done_eq]

theorem tlbSync_retires (h : s.Issues { maj := 17, priv := true } []) (hv : ∀ v ∈ s.invals, v.owner = some s.cur → v.done = true) :
    ∃ s', exec .tlbSync s = .next s' ∧ s'.invals = s.invals.filter (fun v => v.owner ≠ some s.cur) ∧ s'.mem = s.mem ∧
      s'.me = s.me.retire 2 ∧ ∀ c : Fin 64, (s'.core c).pool = (s.core c).pool := by
  refine ⟨_, exec_tlbSync_goes h hv, ?_, ?_, ?_, fun c => ?_⟩
  · rw [State.upMe_invals, State.bumpScope_invals]
  · rw [State.upMe_mem, State.bumpScope_mem]
  · rw [State.me_upMe, State.bumpScope_me]
    rfl
  · obtain ⟨th, hc⟩ := State.core_upMe_threads _ (fun t => t.retire 2) c
    rw [hc]
    dsimp only
    rw [State.core_bumpScope_keeps Core.pool fun _ _ _ _ => rfl]
    rfl

theorem State.core_dropScope (s : State) (v : Inval) (c : Fin 64) : (s.dropScope v).core c =
    if v.covers c then (s.core c).dropTlb v.kind v.addr v.asid v.count else s.core c := by
  simp [State.core, State.dropScope]

theorem State.thr_dropScope_g (s : State) (v : Inval) (c : Fin 64) (r : Role) : ((s.dropScope v).thr c r).g = (s.thr c r).g := by
  rw [State.thr, State.core_dropScope]
  split
  · rw [Core.thr_dropTlb]
    exact Thread.dropWalk_keeps Thread.g (fun _ _ => rfl) ..
  · rfl

theorem State.dropScope_invals (s : State) (v : Inval) : (s.dropScope v).invals = s.invals := by rw [State.dropScope]

/-- An access under way is none of the TLBs' entries: a drop leaves it. -/
theorem State.using_dropScope (s : State) (v w : Inval) : (s.dropScope v).using w = s.using w := by
  refine List.any_congr rfl fun c => ?_
  rw [State.core_dropScope]
  split
  · have hs (own : Nat) (t : Thread) : (t.dropWalk own v.kind v.addr v.asid v.count).stores = t.stores :=
      t.dropWalk_keeps Thread.stores (fun _ _ => rfl) ..
    simp only [Core.dropTlb, Vector.toList_map, List.any_map, Function.comp_def, hs]
  · rfl

/-- From s to u memory and g registers stay, and of the TLBs the entries alone go that invalidation v names, on the cores in its scope. -/
structure State.Drops (s : State) (v : Inval) (u : State) : Prop where
  mem : u.mem = s.mem
  hit : ∀ c : Fin 64, v.covers c = true → (u.core c).ctlb = (s.core c).ctlb.filter (fun t => !(invDrops v.kind v.addr v.asid v.count t)) ∧
    ∀ p : Fin 6, (u.core c).ptlb[p] = (s.core c).ptlb[p].filter fun t => !(invDrops v.kind v.addr v.asid v.count t)
  miss : ∀ c : Fin 64, v.covers c = false → (u.core c).ctlb = (s.core c).ctlb ∧ (u.core c).ptlb = (s.core c).ptlb
  g : ∀ (c : Fin 64) (r : Role), (u.thr c r).g = (s.thr c r).g

theorem State.dropScope_drops (s : State) (v : Inval) : s.Drops v (s.dropScope v) where
  mem := s.dropScope_mem v
  hit c h := by
    rw [State.core_dropScope, if_pos h]
    exact ⟨rfl, fun p => Vector.getElem_map ..⟩
  miss c h := by
    rw [State.core_dropScope, if_neg (ne_true_of_eq_false h)]
    exact ⟨rfl, rfl⟩
  g := s.thr_dropScope_g v

theorem State.Drops.after {v : Inval} {t u : State} (h : s.Drops v t) (hm : u.mem = t.mem)
    (hc : ∀ c : Fin 64, (u.core c).ctlb = (t.core c).ctlb ∧ (u.core c).ptlb = (t.core c).ptlb ∧ (u.core c).threads = (t.core c).threads) :
    s.Drops v u where
  mem := hm.trans h.mem
  hit c hv := by
    obtain ⟨hctlb, hptlb, -⟩ := hc c
    rw [hctlb, hptlb]
    exact h.hit c hv
  miss c hv := by
    obtain ⟨hctlb, hptlb, -⟩ := hc c
    rw [hctlb, hptlb]
    exact h.miss c hv
  g c r := by
    obtain ⟨-, -, hthr⟩ := hc c
    rw [← h.g c r, State.thr, State.thr, Core.thr, Core.thr, hthr]

theorem State.core_reply' (s : State) (code status data) (c : Fin 64) : (s.reply' code status data).core c = s.core c := rfl

theorem State.mem_withInvals (s : State) (l) : ({ s with invals := l } : State).mem = s.mem := rfl

theorem State.core_withInvals (s : State) (l) (c : Fin 64) : ({ s with invals := l } : State).core c = s.core c := rfl

section
variable {v : Inval} {i : Nat} (hv : s.invals[i]? = some v)
include hv

theorem State.invDone_of_using (hu : s.using v = true) : s.invDone i = s.dropScope v := by
  unfold State.invDone
  rw [hv]
  dsimp only
  rw [State.using_dropScope, if_pos hu]

theorem State.invDone_of_owner (hu : s.using v = false) (ho : v.owner ≠ none) :
    s.invDone i = { s.dropScope v with invals := s.invals.set i { v with done := true } } := by
  unfold State.invDone
  rw [hv]
  dsimp only
  rw [State.using_dropScope, if_neg (ne_true_of_eq_false hu), if_pos (Option.isSome_iff_ne_none.2 ho), State.dropScope_invals]

theorem State.invDone_of_mailbox (hu : s.using v = false) (ho : v.owner = none) :
    s.invDone i = { (s.dropScope v).bumpScope (fun _ => true) with invals := s.invals.eraseIdx i }.reply' 2 0 [] := by
  unfold State.invDone
  rw [hv]
  dsimp only
  rw [State.using_dropScope, if_neg (ne_true_of_eq_false hu), ho, if_neg (by decide), State.dropScope_invals]

theorem State.invDone_drops : s.Drops v (s.invDone i) := by
  have h := s.dropScope_drops v
  by_cases hu : s.using v = true
  · rwa [State.invDone_of_using hv hu]
  rw [Bool.not_eq_true] at hu
  by_cases ho : v.owner = none
  · rw [State.invDone_of_mailbox hv hu ho]
    refine h.after (by rw [State.reply'_mem, State.bumpScope_mem]) fun c => ?_
    rw [State.core_reply', State.core_withInvals]
    exact ⟨State.core_bumpScope_keeps Core.ctlb (fun _ _ _ _ => rfl) .., State.core_bumpScope_keeps Core.ptlb (fun _ _ _ _ => rfl) ..,
      State.core_bumpScope_keeps Core.threads (fun _ _ _ _ => rfl) ..⟩
  · rw [State.invDone_of_owner hv hu ho]
    refine h.after (State.mem_withInvals ..) fun c => ?_
    rw [State.core_withInvals]
    exact ⟨rfl, rfl, rfl⟩

theorem tlbInvComplete_drops : ∃ s', exec (.tlbInvComplete i) s = .next s' ∧ s'.mem = s.mem ∧
    (∀ c : Fin 64, v.covers c = true → (s'.core c).ctlb = (s.core c).ctlb.filter (fun t => !(invDrops v.kind v.addr v.asid v.count t)) ∧
      ∀ p : Fin 6, (s'.core c).ptlb[p] = (s.core c).ptlb[p].filter fun t => !(invDrops v.kind v.addr v.asid v.count t)) ∧
    (∀ c : Fin 64, v.covers c = false → (s'.core c).ctlb = (s.core c).ctlb ∧ (s'.core c).ptlb = (s.core c).ptlb) ∧
    (s.using v = true → s'.invals = s.invals) ∧
    (s.using v = false → v.owner ≠ none → s'.invals = s.invals.set i { v with done := true }) ∧
    (s.using v = false → v.owner = none → s'.invals = s.invals.eraseIdx i ∧ s'.reply = some ⟨2, 0, []⟩) ∧
    ∀ (c : Fin 64) (r : Role), (s'.thr c r).g = (s.thr c r).g := by
  obtain ⟨hmem, hhit, hmiss, hg⟩ := State.invDone_drops hv
  refine ⟨_, rfl, hmem, hhit, hmiss, fun hu => ?_, fun hu ho => ?_, fun hu ho => ?_, hg⟩
  · rw [State.invDone_of_using hv hu, State.dropScope_invals]
  · rw [State.invDone_of_owner hv hu ho]
  · rw [State.invDone_of_mailbox hv hu ho]
    exact ⟨rfl, rfl⟩

end

/-! ## PG.PROBE (R185) -/

theorem pgProbe_of_window (h : s.Issues { maj := 18 } [a]) (ha : s.acqOpen s.cc s.cr = false) (hw : inWindow (s.me.get a).toNat = true) :
    s.Retires (.pgProbe a d) 2 fun t => t.put d 0x8000000000004000 := by
  show execPgProbe a d s = _
  rw [execPgProbe, State.gate_issues h]
  simp only [ha, hw, if_true, Bool.false_eq_true, if_false, State.done_eq, State.upMe_upMe]
  rfl

/-- A probe may leave its leaf in the core TLB. -/
theorem State.probed_keeps (s : State) (asid va e : Nat) :
    ∃ u : State, (if leafBusy e then s else s.upMyCore fun k => k.fillTlb asid va e) = u ∧ u.me = s.me ∧ u.mem = s.mem ∧
      u.myCore.pool = s.myCore.pool := by
  obtain ⟨l, hl⟩ := s.myCore.fillTlb_eq asid va e
  refine ⟨_, rfl, ?_⟩
  split
  · exact ⟨rfl, rfl, rfl⟩
  · exact ⟨s.me_upMyCore _ (by rw [hl]), rfl, by rw [State.myCore_upMyCore, hl]⟩

theorem pgProbe_of_leaf (h : s.Issues { maj := 18 } [a]) (ha : s.acqOpen s.cc s.cr = false) (hn : inWindow (s.me.get a).toNat = false)
    (hw : s.walk (dieOf s.cc) s.asid (s.me.get a).toNat = .leaf pa e) : ∃ s', exec (.pgProbe a d) s = .next s' ∧
      s'.me = (s.me.put d (word (if s.cr = .T then e else setBits e 20 40 0))).retire 2 ∧ s'.mem = s.mem ∧ s'.myCore.pool = s.myCore.pool := by
  obtain ⟨u, hu, hme, hmem, hpool⟩ := s.probed_keeps s.asid (s.me.get a).toNat e
  refine ⟨u.upMe fun t => (t.put d (word (if s.cr = .T then e else setBits e 20 40 0))).retire 2, ?_, ?_, hmem, ?_⟩
  · show execPgProbe a d s = _
    rw [execPgProbe, State.gate_issues h]
    simp only [ha, hn, hw, hu, Bool.false_eq_true, if_false, State.done_eq, State.upMe_upMe]
  · rw [State.me_upMe, hme]
  · rw [State.myCore_upMe, Core.setThr_pool, hpool]

theorem pgProbe_of_stop {l x : Nat} (h : s.Issues { maj := 18 } [a]) (ha : s.acqOpen s.cc s.cr = false) (hn : inWindow (s.me.get a).toNat = false)
    (hw : s.walk (dieOf s.cc) s.asid (s.me.get a).toNat = .stop l cPAGE x) (hx : x ≠ 0x0B) :
    s.Retires (.pgProbe a d) 2 fun t => t.put d (word (2 ^ 63 + 256 * x + 16 * l)) := by
  show execPgProbe a d s = _
  rw [execPgProbe, State.gate_issues h]
  simp only [ha, hn, hw, hx, Bool.false_eq_true, if_false, ne_eq, not_true, State.done_eq, State.upMe_upMe]

/-! ## PG.PIN (R187) -/

theorem pinned_leaf (e : Nat) (c : Fin 2) :
    leafSetBusy (setBits e 19 1 (if (c.val == 1) = true then 0 else 1)) false = setBits (setBits e 19 1 (1 - c.val)) 18 1 0 := by
  rcases Fin.exists_fin_two.1 ⟨c, rfl⟩ with rfl | rfl
  · rfl
  · rfl

theorem State.pinDone_ends (s : State) (d : Fin 32) (c : Fin 2) (va pa e : Nat) : ∃ s', s.pinDone d (c.val == 1) va pa e = .next s' ∧
    s'.me = (s.me.put d (if leafPin e then 1 else 0)).retire 2 ∧
    s'.mem = (s.writeLeaf pa e (setBits (setBits e 19 1 (1 - c.val)) 18 1 0)).mem ∧ ∀ k : Fin 64, (s'.core k).pool = (s.core k).pool := by
  have hb := s.writeLeaf_bare pa e (setBits (setBits e 19 1 (1 - c.val)) 18 1 0)
  refine ⟨(((s.writeLeaf pa e (setBits (setBits e 19 1 (1 - c.val)) 18 1 0)).dropLeaf s.asid va).leafSynced).upMe
    fun t => (t.put d (if leafPin e then 1 else 0)).retire 2, ?_, ?_, rfl, fun k => ?_⟩
  · rw [State.pinDone, pinned_leaf, State.done_eq, State.upMe_upMe]
    rfl
  · rw [State.me_upMe, State.leafSynced_me, State.dropLeaf_me, Thread.retire_put_dropWalk, State.me_of_bare hb]
  · rw [State.pool_upMe, State.pool_leafSynced, State.pool_dropLeaf, State.core_of_bare hb]

section
variable {c : Fin 2} (h : s.Issues { maj := 18, priv := true } [a])
include h

/-- PG.PIN at a leaf that it has not locked: it waits for a BUSY one, locks one in use, and pins any other. -/
theorem exec_pgPin_first (ha : s.acqOpen s.cc s.cr = false) (hs : ∀ p o, s.me.stage ≠ .pin p o) (hn : inWindow (s.me.get a).toNat = false)
    (hw : s.walk (dieOf s.cc) s.asid (s.me.get a).toNat = .leaf pa e) (ht : leafTier e ≠ 3) :
    exec (.pgPin a d c) s = if leafBusy e then s.block 13 0
      else if s.leafInUse e then
        (((s.writeLeaf pa e (leafSetBusy e true)).dropLeaf s.asid (s.me.get a).toNat).upMe fun t => { t with stage := .pin pa e }).block 13 0
      else s.pinDone d (c.val == 1) (s.me.get a).toNat pa e := by
  show execPgPin a d c s = _
  rw [execPgPin, State.gate_issues h]
  dsimp only
  split
  · next p o hp => exact absurd hp (hs p o)
  · rw [ha, if_neg Bool.false_ne_true, hn, if_neg Bool.false_ne_true, hw]
    exact if_neg ht

theorem exec_pgPin_again (hs : s.me.stage = .pin pa e) :
    exec (.pgPin a d c) s = if s.leafInUse e then s.block 13 0 else s.pinDone d (c.val == 1) (s.me.get a).toNat pa e := by
  show execPgPin a d c s = _
  rw [execPgPin, State.gate_issues h]
  dsimp only
  rw [hs]

theorem pgPin_first (ha : s.acqOpen s.cc s.cr = false) (hs : ∀ p o, s.me.stage ≠ .pin p o) (hn : inWindow (s.me.get a).toNat = false)
    (hw : s.walk (dieOf s.cc) s.asid (s.me.get a).toNat = .leaf pa e) (ht : leafTier e ≠ 3) :
    (leafBusy e = true → exec (.pgPin a d c) s = .next (s.upMe fun t => { t with why := 13, obj := 0 })) ∧
    (leafBusy e = false → s.leafInUse e = true → ∃ s', exec (.pgPin a d c) s = .next s' ∧ s'.me.stage = .pin pa e ∧ s'.me.why = 13 ∧
      s'.me.g = s.me.g ∧ s'.mem = (s.writeLeaf pa e (setBits e 18 1 1)).mem ∧ ∀ k : Fin 64, (s'.core k).pool = (s.core k).pool) ∧
    (leafBusy e = false → s.leafInUse e = false → ∃ s', exec (.pgPin a d c) s = .next s' ∧
      s'.me = (s.me.put d (if leafPin e then 1 else 0)).retire 2 ∧
      s'.mem = (s.writeLeaf pa e (setBits (setBits e 19 1 (1 - c.val)) 18 1 0)).mem ∧ ∀ k : Fin 64, (s'.core k).pool = (s.core k).pool) := by
  rw [exec_pgPin_first h ha hs hn hw ht]
  refine ⟨fun hb => if_pos hb, fun hb hu => ?_, fun hb hu => ?_⟩
  · have hbare := s.writeLeaf_bare pa e (setBits e 18 1 1)
    rw [hb, if_neg Bool.false_ne_true, if_pos hu]
    refine ⟨_, rfl, ?_⟩
    rw [State.upMe_upMe, State.me_upMe]
    refine ⟨rfl, rfl, ?_, rfl, fun k => ?_⟩
    · dsimp only
      rw [State.dropLeaf_me]
      exact (Thread.dropWalk_keeps Thread.g (fun _ _ => rfl) ..).trans (congrArg Thread.g (State.me_of_bare hbare))
    · rw [State.pool_upMe, State.pool_dropLeaf]
      exact congrArg Core.pool (State.core_of_bare hbare k)
  · rw [hb, if_neg Bool.false_ne_true, hu, if_neg Bool.false_ne_true]
    exact s.pinDone_ends ..

theorem pgPin_again (hs : s.me.stage = .pin pa e) :
    (s.leafInUse e = true → exec (.pgPin a d c) s = .next (s.upMe fun t => { t with why := 13, obj := 0 })) ∧
    (s.leafInUse e = false → ∃ s', exec (.pgPin a d c) s = .next s' ∧
      s'.me = (s.me.put d (if leafPin e then 1 else 0)).retire 2 ∧
      s'.mem = (s.writeLeaf pa e (setBits (setBits e 19 1 (1 - c.val)) 18 1 0)).mem ∧ ∀ k : Fin 64, (s'.core k).pool = (s.core k).pool) := by
  rw [exec_pgPin_again h hs]
  refine ⟨fun hu => if_pos hu, fun hu => ?_⟩
  rw [hu, if_neg Bool.false_ne_true]
  exact s.pinDone_ends ..

end

/-! ## FC.INC, FC.DEC and FC.READ (R188) -/

section
variable {regs : List (Fin 32)} {g : Nat → Option Nat} {z : Bool} (ha : s.asyncOpen = false) (hv : va = (s.me.get a).toNat)
  (h : s.Issues { maj := 19, priv := true } regs)
include ha hv h

theorem State.frameForm_of_busy (hc : s.countedFrame va = .ok none) : s.frameForm a d regs g z = s.block 13 0 := by
  rw [State.frameForm, State.gate_issues h]
  dsimp only
  rw [ha, if_neg Bool.false_ne_true, ← hv, hc]

theorem State.frameForm_of_stop {c x : Nat} (hc : s.countedFrame va = .error (c, x)) :
    s.frameForm a d regs g z = s.trapX { cause := c, detail := x, va := va, kind := 1 } := by
  rw [State.frameForm, State.gate_issues h]
  dsimp only
  rw [ha, if_neg Bool.false_ne_true, ← hv, hc]

theorem State.frameForm_refused (hc : s.countedFrame va = .ok (some f)) (hg : g (s.frameCount f) = none) :
    s.frameForm a d regs g z = .next (s.upMe fun t => (t.put d (word (s.frameCount f + 2 ^ 63))).retire 2) := by
  rw [State.frameForm, State.gate_issues h]
  dsimp only
  rw [ha, if_neg Bool.false_ne_true, ← hv, hc]
  dsimp only
  rw [hg]
  dsimp only
  rw [State.done_eq, State.upMe_upMe]

/-- A count that stays is not written. -/
theorem State.frameForm_same (hc : s.countedFrame va = .ok (some f)) (hg : g (s.frameCount f) = some (s.frameCount f)) :
    s.frameForm a d regs g z = .next (s.upMe fun t =>
      (t.put d (word (s.frameCount f + if z ∧ s.frameCount f = 0 then 2 ^ 62 else 0))).retire 2) := by
  rw [State.frameForm, State.gate_issues h]
  dsimp only
  rw [ha, if_neg Bool.false_ne_true, ← hv, hc]
  dsimp only
  rw [hg]
  dsimp only
  rw [if_pos rfl, State.done_eq, State.upMe_upMe]

/-- A count that changes is written to the frame's record, and the old one goes to the thread. -/
theorem State.frameForm_counts {n : Nat} (hc : s.countedFrame va = .ok (some f)) (hg : g (s.frameCount f) = some n) (hn : n < 2 ^ 28) :
    ∃ s', s.frameForm a d regs g z = .next s' ∧ s'.me = (s.me.put d (word (s.frameCount f + if z ∧ n = 0 then 2 ^ 62 else 0))).retire 2 ∧
      (n ≠ s.frameCount f → s'.mem = s.mem.write (s.sysBase 1 + 4 * f) (leBytes 4 n)) ∧ (n = s.frameCount f → s'.mem = s.mem) := by
  by_cases he : n = s.frameCount f
  · subst he
    exact ⟨_, State.frameForm_same ha hv h hc hg, State.me_upMe .., fun h => absurd rfl h, fun _ => rfl⟩
  · refine ⟨(s.setFrameCount f n).upMe fun t => (t.put d (word (s.frameCount f + if z ∧ n = 0 then 2 ^ 62 else 0))).retire 2,
      ?_, ?_, fun _ => ?_, fun h => absurd h he⟩
    · rw [State.frameForm, State.gate_issues h]
      dsimp only
      rw [ha, if_neg Bool.false_ne_true, ← hv, hc]
      dsimp only
      rw [hg]
      dsimp only
      rw [if_neg he, State.done_eq, State.upMe_upMe]
    · rw [State.me_upMe, State.me_of_bare (s.setFrameCount_bare f n)]
    · rw [State.upMe_mem, State.setFrameCount_mem, Nat.mod_eq_of_lt hn]

end

section
variable (hn : inWindow va = false) (hw : s.walk (dieOf s.cc) s.asid va = .leaf pa e)
include hn hw

theorem State.countedFrame_of_busy (hb : leafBusy e = true) : s.countedFrame va = .ok none := by
  rw [State.countedFrame, hn, if_neg Bool.false_ne_true, hw]
  exact if_pos hb

theorem State.countedFrame_of_t2 (hb : leafBusy e = false) (hl : leafAccess .read false e = none) (ht : leafTier e = 2) :
    s.countedFrame va = .error (cPAGE, 8) := by
  rw [State.countedFrame, hn, if_neg Bool.false_ne_true, hw]
  dsimp only
  rw [hb, if_neg Bool.false_ne_true, hl]
  exact if_pos ht

theorem State.countedFrame_found (hb : leafBusy e = false) (hl : leafAccess .read false e = none) (ht : leafTier e ≠ 2)
    (hr : s.lost (dieOf s.cc) (s.frameRec (leafFrame e)) = none) : s.countedFrame va = .ok (some (leafFrame e)) := by
  rw [State.countedFrame, hn, if_neg Bool.false_ne_true, hw]
  dsimp only
  rw [hb, if_neg Bool.false_ne_true, hl]
  dsimp only
  rw [if_neg ht, hr]

end

/-- The count that FC.INC makes of one, unless it passes its bound. -/
def incCount (n old : Nat) : Option Nat := if 0x0FFFFFFF < old + n then none else some (old + n)

/-- The count that FC.DEC makes of one, unless it falls below 0. -/
def decCount (n old : Nat) : Option Nat := if old < n then none else some (old - n)

theorem exec_fcRead : exec (.fcRead a d) s = s.frameForm a d [a] some false := rfl

theorem exec_fcInc : exec (.fcInc a b d) s = s.frameForm a d [a, b] (incCount (s.me.get b).toNat) false := rfl

theorem exec_fcDec : exec (.fcDec a b d) s = s.frameForm a d [a, b] (decCount (s.me.get b).toNat) true := rfl

section
variable (ha : s.asyncOpen = false) (hv : va = (s.me.get a).toNat) (hc : s.countedFrame va = .ok (some f))
include ha hv hc

theorem fcRead_retires (h : s.Issues { maj := 19, priv := true } [a]) : s.Retires (.fcRead a d) 2 fun t => t.put d (word (s.frameCount f)) := by
  rw [State.Retires, exec_fcRead]
  exact State.frameForm_same ha hv h hc rfl

variable (h : s.Issues { maj := 19, priv := true } [a, b])
include h

theorem fcInc_refused (hb : 2 ^ 28 ≤ s.frameCount f + (s.me.get b).toNat) :
    s.Retires (.fcInc a b d) 2 fun t => t.put d (word (s.frameCount f + 2 ^ 63)) := by
  rw [State.Retires, exec_fcInc]
  exact State.frameForm_refused ha hv h hc (if_pos (by omega))

theorem fcInc_adds (hb : s.frameCount f + (s.me.get b).toNat < 2 ^ 28) : ∃ s', exec (.fcInc a b d) s = .next s' ∧
    s'.me = (s.me.put d (word (s.frameCount f))).retire 2 ∧
    (s.me.get b ≠ 0 → s'.mem = s.mem.write (s.sysBase 1 + 4 * f) (leBytes 4 (s.frameCount f + (s.me.get b).toNat))) ∧
    (s.me.get b = 0 → s'.mem = s.mem) := by
  have hg : incCount (s.me.get b).toNat (s.frameCount f) = some (s.frameCount f + (s.me.get b).toNat) := if_neg (by omega)
  rw [exec_fcInc]
  obtain ⟨s', hs, hme, hwrites, hsame⟩ := State.frameForm_counts (d := d) (z := false) ha hv h hc hg hb
  refine ⟨s', hs, hme, fun h0 => hwrites ?_, fun h0 => hsame ?_⟩
  · have : (s.me.get b).toNat ≠ 0 := fun e => h0 (BitVec.eq_of_toNat_eq e)
    omega
  · rw [h0]
    rfl

theorem fcDec_refused (hb : s.frameCount f < (s.me.get b).toNat) :
    s.Retires (.fcDec a b d) 2 fun t => t.put d (word (s.frameCount f + 2 ^ 63)) := by
  rw [State.Retires, exec_fcDec]
  exact State.frameForm_refused ha hv h hc (if_pos hb)

theorem fcDec_subtracts (hb : (s.me.get b).toNat ≤ s.frameCount f) : ∃ s', exec (.fcDec a b d) s = .next s' ∧
    s'.me = (s.me.put d (word (s.frameCount f + if (s.me.get b).toNat = s.frameCount f then 2 ^ 62 else 0))).retire 2 ∧
    (s.me.get b ≠ 0 → s'.mem = s.mem.write (s.sysBase 1 + 4 * f) (leBytes 4 (s.frameCount f - (s.me.get b).toNat))) ∧
    (s.me.get b = 0 → s'.mem = s.mem) := by
  have hlt := s.frameCount_lt f
  have hg : decCount (s.me.get b).toNat (s.frameCount f) = some (s.frameCount f - (s.me.get b).toNat) := if_neg (by omega)
  rw [exec_fcDec]
  obtain ⟨s', hs, hme, hwrites, hsame⟩ := State.frameForm_counts (d := d) (z := true) ha hv h hc hg (by omega)
  have hz : (true = true ∧ s.frameCount f - (s.me.get b).toNat = 0) ↔ (s.me.get b).toNat = s.frameCount f := by
    simp only [true_and]
    omega
  refine ⟨s', hs, by rw [hme, if_congr hz rfl rfl], fun h0 => hwrites ?_, fun h0 => hsame ?_⟩
  · have : (s.me.get b).toNat ≠ 0 := fun e => h0 (BitVec.eq_of_toNat_eq e)
    omega
  · rw [h0]
    rfl

end

/-- Settles O32: the translation words and TLB_INV_COMPLETE case by case, what a write of a leaf leaves in memory, and the frame counts. -/
theorem translationWords : Obligations.TranslationWords := by
  refine ⟨⟨fun s a b k c h => ⟨exec_tlbInv_posts h, exec_tlbInv_waits h⟩, fun s h => ⟨exec_tlbSync_waits h, tlbSync_retires h⟩,
    fun s i v hv => tlbInvComplete_drops hv⟩,
    ⟨fun s a d h ha => ⟨pgProbe_of_window h ha, fun pa e hn hw => pgProbe_of_leaf h ha hn hw, fun l x hn hw hx => pgProbe_of_stop h ha hn hw hx⟩,
      fun s a d c pa e h ha hs hn hw ht => pgPin_first h ha hs hn hw ht, fun s a d c pa e h hs => pgPin_again h hs, ?_⟩, ?_⟩
  · rintro s pa e x n f rfl rfl
    exact ⟨fun j hj => s.physNat_writeLeaf hj, fun a ha => s.get_writeLeaf ha⟩
  · intro s a b d pa e f va ha hv hn hw hf
    refine ⟨fun hb => ?_, fun hb hl ht => ?_, fun hb hl ht hr => ?_⟩
    · have hc := State.countedFrame_of_busy hn hw hb
      rw [exec_fcRead, exec_fcInc, exec_fcDec]
      exact ⟨fun h => State.frameForm_of_busy ha hv h hc, fun h => ⟨State.frameForm_of_busy ha hv h hc, State.frameForm_of_busy ha hv h hc⟩⟩
    · have hc := State.countedFrame_of_t2 hn hw hb hl ht
      rw [exec_fcRead, exec_fcInc, exec_fcDec]
      exact ⟨fun h => State.frameForm_of_stop ha hv h hc, fun h => ⟨State.frameForm_of_stop ha hv h hc, State.frameForm_of_stop ha hv h hc⟩⟩
    · subst hf
      have hc := State.countedFrame_found hn hw hb hl ht hr
      exact ⟨fcRead_retires ha hv hc, fun h => ⟨fcInc_refused ha hv hc h, fcInc_adds ha hv hc h, fcDec_refused ha hv hc h,
        fcDec_subtracts ha hv hc h⟩⟩

end Sys2Proof.Machine

/-! # COW_BREAK (O33) -/

namespace Sys2Proof.Machine

variable {s u : State} {d : Fin 4} {i : Nat} {m : Move} {pa e : Nat}

/-! ## The moves of a die -/

theorem State.moves_of_bare (h : u.bare = s.bare) (d : Fin 4) : (u.die d).moves = (s.die d).moves := by rw [State.die_of_bare h]

theorem State.moves_setDie (s : State) (d : Fin 4) (l) : ((s.setDie d { s.die d with moves := l }).die d).moves = l := by rw [State.die_setDie]

theorem State.moves_endMove (s : State) (d : Fin 4) (id : Nat) : ((s.endMove d id).die d).moves = (s.die d).moves.filter (·.id ≠ id) :=
  s.moves_setDie d _

/-! ## The steps of a break (R171) -/

/-- The leaf is locked by BUSY, and the move keeps the COUNT read and the frame taken. -/
def State.cowMark (u : State) (d : Fin 4) (m : Move) (pa e c f : Nat) : State :=
  let u1 := (u.writeLeaf pa e (leafSetBusy e true)).dropLeaf m.asid m.va
  u1.setDie d { u1.die d with moves := (u1.die d).moves.map fun x =>
    if x.id = m.id then { x with locked := some c, frame := f, tier := leafSize e, pa := pa } else x }

theorem State.cowMark_mem (u : State) (d m pa e c f) : (u.cowMark d m pa e c f).mem = (u.writeLeaf pa e (setBits e 18 1 1)).mem := rfl

theorem State.cowMark_moves (u : State) (d m pa e c f) : ((u.cowMark d m pa e c f).die d).moves = (u.die d).moves.map fun x =>
    if x.id = m.id then { x with locked := some c, frame := f, tier := leafSize e, pa := pa } else x := by
  refine (State.moves_setDie ..).trans ?_
  rw [State.die_dropLeaf, State.moves_of_bare (u.writeLeaf_bare ..)]

/-- The break is over, its leaf as `new` says. -/
def State.cowOut (u : State) (d : Fin 4) (m : Move) (pa e new : Nat) : State :=
  (((u.writeLeaf pa e new).dropLeaf m.asid m.va).leafSynced).endMove d m.id

theorem State.cowOut_mem (u : State) (d m pa e new) : (u.cowOut d m pa e new).mem = (u.writeLeaf pa e new).mem := rfl

theorem State.cowOut_moves (u : State) (d m pa e new) : ((u.cowOut d m pa e new).die d).moves = (u.die d).moves.filter (·.id ≠ m.id) := by
  rw [State.cowOut, State.moves_endMove, State.die_leafSynced, State.die_dropLeaf, State.moves_of_bare (u.writeLeaf_bare ..)]

theorem State.cowDrop_spec {c : Nat} (hl : m.locked = some c) (hc : c ≠ 1) :
    (s.cowDrop d m).mem = ((s.giveFrame d (s.cowList d m.region m.tier) m.frame).unbusy m.pa).mem ∧
    ((s.cowDrop d m).die d).moves = (s.die d).moves.filter (·.id ≠ m.id) := by
  have hb : ((s.giveFrame d (s.cowList d m.region m.tier) m.frame).unbusy m.pa).bare = s.bare :=
    (State.unbusy_bare ..).trans (s.giveFrame_bare ..)
  have h : s.cowDrop d m = (((s.giveFrame d (s.cowList d m.region m.tier) m.frame).unbusy m.pa).dropLeaf m.asid m.va).endMove d m.id := by
    rw [State.cowDrop, hl]
    dsimp only
    rw [if_neg hc]
  rw [h, State.moves_endMove, State.die_dropLeaf, State.moves_of_bare hb]
  exact ⟨rfl, rfl⟩

section
variable (hm : (s.die d).moves[i]? = some m) (hc : m.cow = true) (he : m.ended = none) (hw : s.walk d m.asid m.va = .leaf pa e)
include hm hc he hw

theorem State.cowBreak_unlocked (hl : m.locked = none) :
    s.cowBreak d i = if !(leafCow e) then s.endMove d m.id else if leafBusy e then s else s.cowLock d m pa e := by
  unfold State.cowBreak
  rw [hm]
  dsimp only
  rw [hc, he, if_neg (by decide), hw]
  dsimp only
  rw [hl]

theorem State.cowBreak_locked {c : Nat} (hl : m.locked = some c) :
    s.cowBreak d i = if s.cowLost d m e then s.cowDrop d m else if s.leafInUse e then s else s.cowFinish d m c pa e := by
  unfold State.cowBreak
  rw [hm]
  dsimp only
  rw [hc, he, if_neg (by decide), hw]
  dsimp only
  rw [hl]

/-! ## The first event -/

theorem cowBreak_of_unshared (hl : m.locked = none) (hp : leafCow e = false) : ∃ s', exec (.cowBreak d i) s = .next s' ∧ s'.mem = s.mem ∧
    (s'.die d).moves = (s.die d).moves.filter (·.id ≠ m.id) := by
  refine ⟨_, rfl, ?_⟩
  rw [State.cowBreak_unlocked hm hc he hw hl, hp, Bool.not_false, if_pos rfl, State.moves_endMove]
  exact ⟨rfl, rfl⟩

theorem exec_cowBreak_of_busy (hl : m.locked = none) (hp : leafCow e = true) (hb : leafBusy e = true) : exec (.cowBreak d i) s = .next s := by
  refine congrArg Host.Outcome.next ?_
  rw [State.cowBreak_unlocked hm hc he hw hl, hp, Bool.not_true, if_neg Bool.false_ne_true, if_pos hb]

section
variable (hl : m.locked = none) (hp : leafCow e = true) (hb : leafBusy e = false)
include hl hp hb

theorem exec_cowBreak_locks : exec (.cowBreak d i) s = .next (s.cowLock d m pa e) := by
  refine congrArg Host.Outcome.next ?_
  rw [State.cowBreak_unlocked hm hc he hw hl, hp, Bool.not_true, if_neg Bool.false_ne_true, hb, if_neg Bool.false_ne_true]

theorem cowBreak_of_owner (hf : s.frameCount (leafFrame e) = 1) : ∃ s', exec (.cowBreak d i) s = .next s' ∧
    s'.mem = (s.writeLeaf pa e (setBits e 18 1 1)).mem ∧ (s'.die d).moves = (s.die d).moves.map fun x =>
      if x.id = m.id then { x with locked := some 1, frame := 0, tier := leafSize e, pa := pa } else x := by
  have h : s.cowLock d m pa e = s.cowMark d m pa e 1 0 := by
    rw [State.cowLock, hf]
    exact if_pos rfl
  exact ⟨_, exec_cowBreak_locks hm hc he hw hl hp hb, by rw [h, State.cowMark_mem], by rw [h, State.cowMark_moves]⟩

theorem cowBreak_takes {f : Nat} {s1 : State} (hf : s.frameCount (leafFrame e) ≠ 1)
    (ht : s.takeFrame d (s.cowList d m.region (leafSize e)) = some (f, s1)) : ∃ s', exec (.cowBreak d i) s = .next s' ∧
    s'.mem = (s1.writeLeaf pa e (setBits e 18 1 1)).mem ∧ (s'.die d).moves = (s.die d).moves.map fun x =>
      if x.id = m.id then { x with locked := some (s.frameCount (leafFrame e)), frame := f, tier := leafSize e, pa := pa } else x := by
  have h : s.cowLock d m pa e = s1.cowMark d m pa e (s.frameCount (leafFrame e)) f := by
    unfold State.cowLock
    dsimp only
    rw [if_neg hf, ht]
    rfl
  refine ⟨_, exec_cowBreak_locks hm hc he hw hl hp hb, by rw [h, State.cowMark_mem], ?_⟩
  rw [h, State.cowMark_moves, State.moves_of_bare (State.takeFrame_bare ht)]

theorem cowBreak_finds_none (hf : s.frameCount (leafFrame e) ≠ 1) (ht : s.takeFrame d (s.cowList d m.region (leafSize e)) = none) :
    ∃ s', exec (.cowBreak d i) s = .next s' ∧ s'.mem = s.mem ∧
      (s'.die d).moves = (s.die d).moves.map fun x => if x.id = m.id then { x with ended := some (leafSize e) } else x := by
  refine ⟨_, exec_cowBreak_locks hm hc he hw hl hp hb, ?_⟩
  unfold State.cowLock
  dsimp only
  rw [if_neg hf, ht]
  exact ⟨rfl, State.moves_setDie ..⟩

end

/-! ## The second event -/

theorem cowBreak_lost {c : Nat} (hl : m.locked = some c) (h1 : c ≠ 1)
    (h : s.lost d (4096 * leafFrame e) ≠ none ∨ s.lost d (4096 * m.frame) ≠ none) : ∃ s', exec (.cowBreak d i) s = .next s' ∧
    s'.mem = ((s.giveFrame d (s.cowList d m.region m.tier) m.frame).unbusy m.pa).mem ∧
    (s'.die d).moves = (s.die d).moves.filter (·.id ≠ m.id) := by
  have hlost : s.cowLost d m e = true := by
    simp only [State.cowLost, hl, Bool.and_eq_true, Bool.or_eq_true, Option.isSome_iff_ne_none]
    exact ⟨by simpa using h1, h⟩
  refine ⟨_, rfl, ?_⟩
  rw [State.cowBreak_locked hm hc he hw hl, if_pos hlost]
  exact State.cowDrop_spec hl h1

section
variable {c : Nat} (hl : m.locked = some c) (hr : c = 1 ∨ s.lost d (4096 * leafFrame e) = none ∧ s.lost d (4096 * m.frame) = none)
include hl hr

theorem exec_cowBreak_reaches :
    exec (.cowBreak d i) s = .next (if s.leafInUse e then s else s.cowFinish d m c pa e) := by
  have hlost : s.cowLost d m e = false := by
    rcases hr with rfl | ⟨h1, h2⟩
    · simp [State.cowLost, hl]
    · simp [State.cowLost, h1, h2]
  refine congrArg Host.Outcome.next ?_
  rw [State.cowBreak_locked hm hc he hw hl, hlost, if_neg Bool.false_ne_true]

theorem exec_cowBreak_of_use (hu : s.leafInUse e = true) : exec (.cowBreak d i) s = .next s := by
  rw [exec_cowBreak_reaches hm hc he hw hl hr, if_pos hu]

theorem exec_cowBreak_finishes (hu : s.leafInUse e = false) : exec (.cowBreak d i) s = .next (s.cowFinish d m c pa e) := by
  rw [exec_cowBreak_reaches hm hc he hw hl hr, hu, if_neg Bool.false_ne_true]

end

theorem cowBreak_ends_alone (hl : m.locked = some 1) (hu : s.leafInUse e = false) : ∃ s', exec (.cowBreak d i) s = .next s' ∧
    s'.mem = (s.writeLeaf pa e (setBits (setBits e 18 1 0) 8 1 0)).mem ∧ (s'.die d).moves = (s.die d).moves.filter (·.id ≠ m.id) := by
  have h : s.cowFinish d m 1 pa e = s.cowOut d m pa e (setBits (setBits e 18 1 0) 8 1 0) := by
    unfold State.cowFinish
    dsimp only
    rw [if_pos rfl]
    rfl
  refine ⟨_, exec_cowBreak_finishes hm hc he hw hl (.inl rfl) hu, ?_⟩
  rw [h, State.cowOut_mem, State.cowOut_moves]
  exact ⟨rfl, rfl⟩

section
variable {c : Nat} (hl : m.locked = some c) (h1 : c ≠ 1) (ho : s.lost d (4096 * leafFrame e) = none) (hn : s.lost d (4096 * m.frame) = none)
  (hu : s.leafInUse e = false) {s1 : State} (hs : s1 = s.copyPage (leafFrame e) m.frame (sizeFrames (leafSize e)))
include hl h1 ho hn hu hs

theorem cowBreak_copies (hf : 1 < s1.frameCount (leafFrame e)) : ∃ s', exec (.cowBreak d i) s = .next s' ∧
    s'.mem = (((s1.setFrameCount (leafFrame e) (s1.frameCount (leafFrame e) - 1)).setFrameCount m.frame 1).writeLeaf pa e
      (setBits (setBits (setBits (setBits e 18 1 0) 8 1 0) 20 40 m.frame) 5 2 (tierOf (4096 * m.frame)))).mem ∧
    (s'.die d).moves = (s.die d).moves.filter (·.id ≠ m.id) := by
  have hb : ((s1.setFrameCount (leafFrame e) (s1.frameCount (leafFrame e) - 1)).setFrameCount m.frame 1).bare = s.bare := by
    rw [State.setFrameCount_bare, State.setFrameCount_bare, hs, State.copyPage_bare]
  have h : s.cowFinish d m c pa e = ((s1.setFrameCount (leafFrame e) (s1.frameCount (leafFrame e) - 1)).setFrameCount m.frame 1).cowOut d m pa e
      (setBits (setBits (setBits (setBits e 18 1 0) 8 1 0) 20 40 m.frame) 5 2 (tierOf (4096 * m.frame))) := by
    unfold State.cowFinish
    dsimp only
    rw [if_neg h1, ← hs, if_pos hf]
    rfl
  refine ⟨_, exec_cowBreak_finishes hm hc he hw hl (.inr ⟨ho, hn⟩) hu, ?_⟩
  rw [h, State.cowOut_mem, State.cowOut_moves, State.moves_of_bare hb]
  exact ⟨rfl, rfl⟩

theorem cowBreak_gives_back (hf : s1.frameCount (leafFrame e) ≤ 1) : ∃ s', exec (.cowBreak d i) s = .next s' ∧
    s'.mem = ((s1.giveFrame d (s1.cowList d m.region (leafSize e)) m.frame).writeLeaf pa e (setBits (setBits e 18 1 0) 8 1 0)).mem ∧
    (s'.die d).moves = (s.die d).moves.filter (·.id ≠ m.id) := by
  have hb : (s1.giveFrame d (s1.cowList d m.region (leafSize e)) m.frame).bare = s.bare := by
    rw [State.giveFrame_bare, hs, State.copyPage_bare]
  have h : s.cowFinish d m c pa e =
      (s1.giveFrame d (s1.cowList d m.region (leafSize e)) m.frame).cowOut d m pa e (setBits (setBits e 18 1 0) 8 1 0) := by
    unfold State.cowFinish
    dsimp only
    rw [if_neg h1, ← hs, if_neg (by omega)]
    rfl
  refine ⟨_, exec_cowBreak_finishes hm hc he hw hl (.inr ⟨ho, hn⟩) hu, ?_⟩
  rw [h, State.cowOut_mem, State.cowOut_moves, State.moves_of_bare hb]
  exact ⟨rfl, rfl⟩

end

end

end Sys2Proof.Machine

/-! # PG.MIG (O33) -/

namespace Sys2Proof.Machine

variable {s s1 : State} {a b d : Fin 32} {w : Fin 2} {va tier stack pa e f : Nat}

/-- The word retires with a status in gD. -/
def State.migPut (s : State) (d : Fin 32) (v : Nat) : Out := (s.upMe fun t => t.put d (word v)).done 2

theorem State.migPut_eq (s : State) (d : Fin 32) (v : Nat) : s.migPut d v = .next (s.upMe fun t => (t.put d (word v)).retire 2) := by
  rw [State.migPut, State.done_eq, State.upMe_upMe]

/-- The move that PG.MIG starts for the page of va. -/
def State.migMove (s s1 : State) (w : Fin 2) (va tier pa e f : Nat) : Move :=
  { id := s1.nextOp, asid := s.asid, va := va / (4096 * sizeFrames (leafSize e)) * (4096 * sizeFrames (leafSize e)), cow := false, tier := tier,
    frame := f, locked := none, pa := pa, region := s.myCore.view.region, waits := w.val == 1, ended := none }

/-- The region charged and the leaf locked, the target frame taken. -/
def State.migMark (s s1 : State) (tier pa e : Nat) : State :=
  ({ s1 with nextOp := s1.nextOp + 1 }.charge (dieOf s.cc) s.myCore.view.region 136
    (framesIn (sizeFrames (leafSize e)) (leafTier e) tier)).writeLeaf pa e (leafSetBusy e true)

/-- The move of the page joins its die's. -/
def State.migStart (s s1 : State) (w : Fin 2) (va tier pa e f : Nat) : State :=
  let s3 := (s.migMark s1 tier pa e).dropLeaf s.asid (s.migMove s1 w va tier pa e f).va
  s3.setDie (dieOf s.cc) { s3.die (dieOf s.cc) with moves := (s3.die (dieOf s.cc)).moves ++ [s.migMove s1 w va tier pa e f] }

/-- PG.MIG of a page with leaf e whose request is sound (R186). -/
def State.migLeaf (s : State) (d : Fin 32) (w : Fin 2) (va tier stack pa e : Nat) : Out :=
  if s.migStatus (dieOf s.cc) tier stack e ≠ 0 then s.migPut d (s.migStatus (dieOf s.cc) tier stack e)
  else if tier = 0 ∧ leafTier e ≠ 0 ∧ !(fits 6 20 136 (sizeFrames (leafSize e)) (s.lineage (dieOf s.cc) s.myCore.view.region)) then s.migPut d 3
  else match s.targetFrame (dieOf s.cc) tier stack with
  | none => s.migPut d 3
  | some (f, s1) =>
    if w.val = 1 then ((s.migStart s1 w va tier pa e f).upMe fun t => { t with stage := .mig s1.nextOp }).block 10 0
    else (s.migStart s1 w va tier pa e f).migPut d 0

/-! ## The checks at issue -/

section
variable (h : s.Issues { maj := 18 } [a, b]) (hs : ∀ i, s.me.stage ≠ .mig i) (ha : s.acqOpen s.cc s.cr = false)
  (hv : va = (s.me.get a).toNat) (ht : tier = bits (s.me.get b).toNat 0 2) (hk : stack = bits (s.me.get b).toNat 2 4)
include h hs ha ht

theorem pgMig_of_tier (h3 : tier = 3) : s.Retires (.pgMig a b d w) 2 fun t => t.put d 5 := by
  show execPgMig a b d w s = _
  rw [execPgMig, State.gate_issues h]
  dsimp only
  split
  · next hm => exact absurd hm (hs _)
  · rw [ha, if_neg Bool.false_ne_true, ← ht, if_pos h3]
    exact s.migPut_eq d 5

include hk

theorem pgMig_of_target (h3 : tier < 3) (hb : (8 ≤ stack ∧ stack ≠ 15) ∨ (tier ≠ 0 ∧ stack ≠ 15)) :
    s.Retires (.pgMig a b d w) 2 fun t => t.put d 10 := by
  show execPgMig a b d w s = _
  rw [execPgMig, State.gate_issues h]
  dsimp only
  split
  · next hm => exact absurd hm (hs _)
  · rw [ha, if_neg Bool.false_ne_true, ← ht, ← hk, if_neg h3.ne, if_pos hb]
    exact s.migPut_eq d 10

section
variable (h3 : tier < 3) (hg : stack = 15 ∨ (tier = 0 ∧ stack < 8))
include hv h3 hg

theorem pgMig_of_window (hn : inWindow va = true) : s.Retires (.pgMig a b d w) 2 fun t => t.put d 4 := by
  show execPgMig a b d w s = _
  rw [execPgMig, State.gate_issues h]
  dsimp only
  split
  · next hm => exact absurd hm (hs _)
  · rw [ha, if_neg Bool.false_ne_true, ← ht, ← hk, ← hv, if_neg h3.ne, if_neg (by omega), if_pos hn]
    exact s.migPut_eq d 4

theorem pgMig_of_stop {l c x : Nat} (hn : inWindow va = false) (hw : s.walk (dieOf s.cc) s.asid va = .stop l c x) :
    s.Retires (.pgMig a b d w) 2 fun t => t.put d 4 := by
  show execPgMig a b d w s = _
  rw [execPgMig, State.gate_issues h]
  dsimp only
  split
  · next hm => exact absurd hm (hs _)
  · rw [ha, if_neg Bool.false_ne_true, ← ht, ← hk, ← hv, if_neg h3.ne, if_neg (by omega), hn, if_neg Bool.false_ne_true, hw]
    exact s.migPut_eq d 4

theorem exec_pgMig_of_leaf (hn : inWindow va = false) (hw : s.walk (dieOf s.cc) s.asid va = .leaf pa e) :
    exec (.pgMig a b d w) s = s.migLeaf d w va tier stack pa e := by
  show execPgMig a b d w s = _
  rw [execPgMig, State.gate_issues h]
  dsimp only
  split
  · next hm => exact absurd hm (hs _)
  · rw [ha, if_neg Bool.false_ne_true, ← ht, ← hk, ← hv, if_neg h3.ne, if_neg (by omega), hn, if_neg Bool.false_ne_true, hw]
    dsimp only
    unfold State.migLeaf
    split
    · rfl
    split
    · rfl
    cases s.targetFrame (dieOf s.cc) tier stack with
    | none => rfl
    | some x => rfl

end

end

/-! ## A page with a leaf -/

theorem migThere_iff {die : Fin 4} : migThere die tier stack e = true ↔ leafTier e = tier ∧ (tier = 0 →
    if stack < 8 then (stackOf (leafFrame e * 4096)).val = stack else (stackOf (leafFrame e * 4096)).val / 2 = die.val) := by
  unfold migThere
  dsimp only
  split
  · simp [or_iff_not_imp_left]
  · simp [or_iff_not_imp_left]

theorem State.migLeaf_of_status (h : s.migStatus (dieOf s.cc) tier stack e ≠ 0) :
    s.migLeaf d w va tier stack pa e = .next (s.upMe fun t => (t.put d (word (s.migStatus (dieOf s.cc) tier stack e))).retire 2) := by
  rw [← State.migPut_eq]
  exact if_pos h

section
variable (h : s.migStatus (dieOf s.cc) tier stack e = 0)
include h

theorem State.migLeaf_of_budget (ht : tier = 0) (hl : leafTier e ≠ 0)
    (hf : fits 6 20 136 (sizeFrames (leafSize e)) (s.lineage (dieOf s.cc) s.myCore.view.region) = false) :
    s.migLeaf d w va tier stack pa e = .next (s.upMe fun t => (t.put d 3).retire 2) := by
  rw [State.migLeaf, h, if_neg (not_not.2 rfl), if_pos ⟨ht, hl, by rw [hf]; rfl⟩]
  exact s.migPut_eq d 3

variable (hf : tier = 0 → leafTier e ≠ 0 →
  fits 6 20 136 (sizeFrames (leafSize e)) (s.lineage (dieOf s.cc) s.myCore.view.region) = true)
include hf

theorem State.migLeaf_of_list (hx : s.targetFrame (dieOf s.cc) tier stack = none) :
    s.migLeaf d w va tier stack pa e = .next (s.upMe fun t => (t.put d 3).retire 2) := by
  rw [State.migLeaf, h, if_neg (not_not.2 rfl), if_neg (fun ⟨h0, h1, h2⟩ => by simp [hf h0 h1] at h2), hx]
  exact s.migPut_eq d 3

theorem State.migLeaf_starts (hx : s.targetFrame (dieOf s.cc) tier stack = some (f, s1)) : s.migLeaf d w va tier stack pa e =
    if w.val = 1 then ((s.migStart s1 w va tier pa e f).upMe fun t => { t with stage := .mig s1.nextOp }).block 10 0
    else (s.migStart s1 w va tier pa e f).migPut d 0 := by
  rw [State.migLeaf, h, if_neg (not_not.2 rfl), if_neg (fun ⟨h0, h1, h2⟩ => by simp [hf h0 h1] at h2), hx]

end

/-! ## The start of a move -/

theorem State.migMark_bare : (s.migMark s1 tier pa e).bare = { s1 with nextOp := s1.nextOp + 1 }.bare :=
  (State.writeLeaf_bare ..).trans (State.charge_bare ..)

theorem State.migMark_mem : (s.migMark s1 tier pa e).mem = (({ s1 with nextOp := s1.nextOp + 1 }.charge (dieOf s.cc) s.myCore.view.region 136
    (if tier = 0 ∧ leafTier e ≠ 0 then sizeFrames (leafSize e) else 0)).writeLeaf pa e (setBits e 18 1 1)).mem := by
  rw [State.migMark, framesIn]
  rfl

theorem State.migStart_mem : (s.migStart s1 w va tier pa e f).mem = (s.migMark s1 tier pa e).mem := rfl

section
variable (hb : s1.bare = s.bare)
include hb

theorem State.migStart_moves : ((s.migStart s1 w va tier pa e f).die (dieOf s.cc)).moves =
    (s.die (dieOf s.cc)).moves ++ [s.migMove s1 w va tier pa e f] := by
  refine (State.moves_setDie ..).trans ?_
  rw [State.die_dropLeaf, State.moves_of_bare State.migMark_bare]
  exact congrArg (· ++ _) (State.moves_of_bare hb _)

theorem State.migStart_g : (s.migStart s1 w va tier pa e f).me.g = s.me.g := by
  refine (congrArg Thread.g (State.dropLeaf_me ..)).trans ?_
  rw [Thread.dropWalk_keeps Thread.g (fun _ _ => rfl), State.me_of_bare State.migMark_bare]
  exact congrArg Thread.g (show ({ s1 with nextOp := s1.nextOp + 1 } : State).me = s.me from State.me_of_bare (s := s) (t := s1) hb)

end

theorem Thread.get_retire (t : Thread) (n : Nat) (i : Fin 32) : (t.retire n).get i = t.get i := by
  rw [Thread.get, Thread.get, Thread.retire_g]

theorem Thread.get_put_zero (t : Thread) (i : Fin 32) : (t.put i 0).get i = 0 := by
  by_cases h : i = 0
  · rw [h, Thread.get_zero]
  · exact t.get_put_same i 0 h

theorem pgMig_starts (hx : s.targetFrame (dieOf s.cc) tier stack = some (f, s1))
    (he : exec (.pgMig a b d w) s = if w.val = 1 then ((s.migStart s1 w va tier pa e f).upMe fun t => { t with stage := .mig s1.nextOp }).block 10 0
      else (s.migStart s1 w va tier pa e f).migPut d 0) :
    ∃ s', exec (.pgMig a b d w) s = .next s' ∧
      (s'.die (dieOf s.cc)).moves = (s.die (dieOf s.cc)).moves ++ [s.migMove s1 w va tier pa e f] ∧ s'.mem = (s.migMark s1 tier pa e).mem ∧
      (w = 0 → s'.me.get d = 0 ∧ s'.me.why = 0) ∧ (w = 1 → s'.me.stage = .mig s1.nextOp ∧ s'.me.why = 10 ∧ s'.me.g = s.me.g) := by
  have hb := State.targetFrame_bare hx
  rcases Fin.exists_fin_two.1 ⟨w, rfl⟩ with rfl | rfl
  · refine ⟨_, he.trans ((if_neg (by decide)).trans (State.migPut_eq ..)), State.migStart_moves hb, rfl, fun _ => ?_, fun h => absurd h (by decide)⟩
    rw [State.me_upMe]
    refine ⟨?_, rfl⟩
    rw [Thread.get_retire]
    exact Thread.get_put_zero ..
  · refine ⟨_, he.trans (if_pos rfl), State.migStart_moves hb, rfl, fun h => absurd h (by decide), fun _ => ?_⟩
    rw [State.upMe_upMe, State.me_upMe]
    exact ⟨rfl, rfl, State.migStart_g hb⟩

/-- The status as the statement spells it: the checks in their order. -/
theorem State.migStatus_eq {die : Fin 4} : (if leafTier e = 3 then 4 else if leafBusy e = true then 6
    else if tier ≠ 0 ∧ (leafMs e = true ∨ leafSk e = true) then 9
    else if leafTier e = tier ∧ (tier = 0 → if stack < 8 then (stackOf (leafFrame e * 4096)).val = stack
      else (stackOf (leafFrame e * 4096)).val / 2 = die.val) then 1
    else if leafPin e = true then 2
    else if leafCow e = true ∧ tierOf (leafFrame e * 4096) ≤ 1 ∧ 1 < s.frameCount (leafFrame e) then 7 else 0) =
    s.migStatus die tier stack e := by
  simp only [State.migStatus, hasRec, decide_eq_true_eq, migThere_iff]

/-- PG.MIG of a page with a leaf, by the status of its checks. -/
theorem pgMig_leaf {st : Nat} (hx : exec (.pgMig a b d w) s = s.migLeaf d w va tier stack pa e)
    (hst : st = s.migStatus (dieOf s.cc) tier stack e) :
    (st ≠ 0 → s.Retires (.pgMig a b d w) 2 fun t => t.put d (word st)) ∧
    (st = 0 → tier = 0 → leafTier e ≠ 0 → fits 6 20 136 (sizeFrames (leafSize e)) (s.lineage (dieOf s.cc) s.myCore.view.region) = false →
      s.Retires (.pgMig a b d w) 2 fun t => t.put d 3) ∧
    (st = 0 → (tier = 0 → leafTier e ≠ 0 →
        fits 6 20 136 (sizeFrames (leafSize e)) (s.lineage (dieOf s.cc) s.myCore.view.region) = true) →
      (s.targetFrame (dieOf s.cc) tier stack = none → s.Retires (.pgMig a b d w) 2 fun t => t.put d 3) ∧
      ∀ f s1, s.targetFrame (dieOf s.cc) tier stack = some (f, s1) →
        ∃ s', exec (.pgMig a b d w) s = .next s' ∧
          (s'.die (dieOf s.cc)).moves = (s.die (dieOf s.cc)).moves ++ [s.migMove s1 w va tier pa e f] ∧
          s'.mem = (({ s1 with nextOp := s1.nextOp + 1 }.charge (dieOf s.cc) s.myCore.view.region 136
            (if tier = 0 ∧ leafTier e ≠ 0 then sizeFrames (leafSize e) else 0)).writeLeaf pa e (setBits e 18 1 1)).mem ∧
          (w = 0 → s'.me.get d = 0 ∧ s'.me.why = 0) ∧ (w = 1 → s'.me.stage = .mig s1.nextOp ∧ s'.me.why = 10 ∧ s'.me.g = s.me.g)) := by
  subst hst
  rw [State.Retires, State.Retires]
  refine ⟨fun h => hx.trans (State.migLeaf_of_status h), fun h ht hl hf => hx.trans (State.migLeaf_of_budget h ht hl hf),
    fun h hf => ⟨fun hn => hx.trans (State.migLeaf_of_list h hf hn), fun f s1 hn => ?_⟩⟩
  rw [← State.migMark_mem]
  exact pgMig_starts hn (hx.trans (State.migLeaf_starts h hf hn))

/-! ## The wait of PG.MIG.w -/

section
variable {k : Fin 4} {m : Move} (h : s.Issues { maj := 18 } [a, b]) (hs : s.me.stage = .mig m.id) (hm : m ∈ (s.die k).moves)
  (hu : ∀ (j : Fin 4), ∀ x ∈ (s.die j).moves, x.id = m.id → j = k ∧ x = m)

include hm hu in
/-- The move of an id is found on its die. -/
theorem State.findMove : ((List.finRange 4).findSome? fun d => ((s.die d).moves.find? (·.id == m.id)).map fun m => (d, m)) = some (k, m) := by
  have hsome : ((List.finRange 4).findSome? fun d => ((s.die d).moves.find? (·.id == m.id)).map fun m => (d, m)).isSome := by
    rw [List.findSome?_isSome_iff]
    exact ⟨k, List.mem_finRange k, by simpa using ⟨m, hm, rfl⟩⟩
  obtain ⟨⟨j, x⟩, hx⟩ := Option.isSome_iff_exists.1 hsome
  obtain ⟨d, -, hd⟩ := List.exists_of_findSome?_eq_some hx
  obtain ⟨y, hy, he⟩ := Option.map_eq_some_iff.1 hd
  obtain ⟨rfl, rfl⟩ := Prod.mk.inj he
  obtain ⟨rfl, rfl⟩ := hu d y (List.mem_of_find?_eq_some hy) (by simpa using List.find?_some hy)
  exact hx

include h hs hm hu

theorem exec_pgMig_waits (he : m.ended = none) : exec (.pgMig a b d w) s = .next (s.upMe fun t => { t with why := 10, obj := 0 }) := by
  show execPgMig a b d w s = _
  rw [execPgMig, State.gate_issues h]
  dsimp only
  rw [hs]
  dsimp only
  rw [State.findMove hm hu]
  dsimp only
  rw [he, State.block_eq]

theorem pgMig_ends {st : Nat} (he : m.ended = some st) : ∃ s', exec (.pgMig a b d w) s = .next s' ∧ s'.me = (s.me.put d (word st)).retire 2 ∧
    s'.mem = s.mem ∧ (s'.die k).moves = (s.die k).moves.filter (·.id ≠ m.id) := by
  have hx : exec (.pgMig a b d w) s =
      State.migPut (s.setDie k { s.die k with moves := (s.die k).moves.filter (·.id ≠ m.id) }) d st := by
    show execPgMig a b d w s = _
    rw [execPgMig, State.gate_issues h]
    dsimp only
    rw [hs]
    dsimp only
    rw [State.findMove hm hu]
    dsimp only
    rw [he]
    rfl
  exact ⟨_, hx.trans (State.migPut_eq ..), State.me_upMe .., rfl, State.moves_setDie ..⟩

end

end Sys2Proof.Machine

/-! # PAGE_MIGRATION_COMPLETE (O33) -/

namespace Sys2Proof.Machine

variable {s s1 u : State} {d : Fin 4} {i : Nat} {m : Move} {pa e : Nat}

/-! ## A leaf is a 64-bit word -/

theorem leNat_lt : ∀ l : List Byte, leNat l < 256 ^ l.length
  | [] => Nat.one_pos
  | b :: t => by
    have ih := leNat_lt t
    have hb : b.toNat < 256 := b.isLt
    rw [leNat, List.length_cons, Nat.pow_succ]
    omega

theorem State.physNat_lt (s : State) (pa n : Nat) : s.physNat pa n < 2 ^ (8 * n) := by
  have h := leNat_lt (s.phys pa n)
  rwa [State.phys, Mem.length_read, show 256 = 2 ^ 8 from rfl, ← Nat.pow_mul] at h

/-- An entry found in the walk cache or at its home is a word. -/
theorem State.entry_lt {die : Fin 4} {asid l va pa e : Nat}
    (h : (match s.cached die asid l va with | some e => Except.ok e | none => s.node die pa) = .ok e) : e < 2 ^ 64 := by
  cases hc : s.cached die asid l va with
  | some x =>
    rw [hc] at h
    cases h
    obtain ⟨y, -, rfl⟩ := Option.map_eq_some_iff.1 hc
    exact BitVec.isLt _
  | none =>
    rw [hc] at h
    dsimp only [State.node] at h
    split at h
    · cases h
    split at h
    · cases h
    · injection h with h
      rw [← h]
      exact s.physNat_lt pa 8

theorem State.walkFrom_leaf_lt {die : Fin 4} {asid va : Nat} : ∀ (ls : List Nat) (frame : Nat),
    s.walkFrom die asid va frame ls = .leaf pa e → e < 2 ^ 64
  | [], _, h => nomatch h
  | l :: ls, frame, h => by
    unfold State.walkFrom at h
    dsimp only at h
    split at h
    · cases h
    next x hx =>
    have hlt := State.entry_lt hx
    split at h
    · cases h
    split at h
    · cases h
    split at h
    · split at h
      · cases h
      split at h
      · cases h
      · cases h
        exact hlt
    split at h
    · cases h
    split at h
    · cases h
    split at h
    · cases h
    · exact State.walkFrom_leaf_lt ls _ h

theorem State.walk_leaf_lt {die : Fin 4} {asid va : Nat} (h : s.walk die asid va = .leaf pa e) : e < 2 ^ 64 := by
  unfold State.walk at h
  dsimp only at h
  split at h
  · cases h
  split at h
  · cases h
  split at h
  · cases h
  split at h
  · cases h
  split at h
  · cases h
  split at h
  · cases h
  · exact State.walkFrom_leaf_lt _ _ h

/-- A field put into a number of k bits leaves it one. -/
theorem setBits_lt {x lo n v k : Nat} (hx : x < 2 ^ k) (hk : lo + n ≤ k) : setBits x lo n v < 2 ^ k := by
  have hv : v % 2 ^ n + 1 ≤ 2 ^ n := Nat.mod_lt _ (Nat.two_pow_pos n)
  have hl : x % 2 ^ lo < 2 ^ lo := Nat.mod_lt _ (Nat.two_pow_pos lo)
  have hq : x / 2 ^ (lo + n) + 1 ≤ 2 ^ (k - (lo + n)) := by
    rw [Nat.succ_le_iff, Nat.div_lt_iff_lt_mul (Nat.two_pow_pos _), ← Nat.pow_add, Nat.sub_add_cancel hk]
    exact hx
  have hmid : (v % 2 ^ n + 1) * 2 ^ lo ≤ 2 ^ n * 2 ^ lo := Nat.mul_le_mul_right _ hv
  calc setBits x lo n v = setBits x lo n 0 + v % 2 ^ n * 2 ^ lo := by simp [setBits]
    _ = 2 ^ (lo + n) * (x / 2 ^ (lo + n)) + x % 2 ^ lo + v % 2 ^ n * 2 ^ lo := by rw [setBits_zero_eq]
    _ < 2 ^ (lo + n) * (x / 2 ^ (lo + n)) + 2 ^ (lo + n) := by
      rw [Nat.pow_add, Nat.mul_comm (2 ^ lo) (2 ^ n)]
      rw [Nat.add_mul, Nat.one_mul] at hmid
      omega
    _ = 2 ^ (lo + n) * (x / 2 ^ (lo + n) + 1) := by rw [Nat.mul_add, Nat.mul_one]
    _ ≤ 2 ^ (lo + n) * 2 ^ (k - (lo + n)) := Nat.mul_le_mul_left _ hq
    _ = 2 ^ k := by rw [← Nat.pow_add, Nat.add_sub_cancel' hk]

theorem leafSetFrame_lt {frame tier : Nat} (h : e < 2 ^ 64) : leafSetFrame (leafSetBusy e false) frame tier < 2 ^ 64 :=
  setBits_lt (setBits_lt (setBits_lt h (by decide)) (by decide)) (by decide)

/-! ## The end of a move (R173, R175) -/

/-- The moves of a die when one of them has ended: it stays, with its status, where its word waits for it. -/
def endedMoves (l : List Move) (m : Move) (st : Nat) : List Move :=
  l.filterMap fun x => if x.id ≠ m.id then some x else if m.waits then some { x with ended := some st } else none

def State.finishMove (s : State) (d : Fin 4) (m : Move) (st : Nat) : State :=
  s.setDie d { s.die d with moves := endedMoves (s.die d).moves m st }

/-- The migration is over with status st, its leaf as `new` says. -/
def State.migOut (u : State) (d : Fin 4) (m : Move) (pa e new st : Nat) : State :=
  (((u.writeLeaf pa e new).dropLeaf m.asid m.va).leafSynced).finishMove d m st

theorem State.migOut_mem (u : State) (d m pa e new st) : (u.migOut d m pa e new st).mem = (u.writeLeaf pa e new).mem := rfl

theorem State.finishMove_moves (hb : u.bare = s.bare) (st : Nat) :
    (((u.dropLeaf m.asid m.va).leafSynced.finishMove d m st).die d).moves = endedMoves (s.die d).moves m st := by
  rw [State.finishMove, State.moves_setDie, State.die_leafSynced, State.die_dropLeaf, State.moves_of_bare hb]

theorem State.migOut_moves (hb : u.bare = s.bare) (pa e new st : Nat) :
    ((u.migOut d m pa e new st).die d).moves = endedMoves (s.die d).moves m st :=
  State.finishMove_moves ((State.writeLeaf_bare ..).trans hb) st

/-- The page at its new frame, the watches of the old one fired. -/
def State.migPage (s1 : State) (m : Move) (e : Nat) : State :=
  (s1.copyPage (leafFrame e) m.frame (sizeFrames (leafSize e))).fire (4096 * leafFrame e) (4096 * sizeFrames (leafSize e))

/-- The page copied, COUNT moved to the new frame and the charge of a page that leaves T0 taken off. -/
def State.migCopied (s s1 : State) (d : Fin 4) (m : Move) (e : Nat) : State :=
  let c := if hasRec (leafFrame e) then s.frameCount (leafFrame e) else 1
  let s3 := if hasRec (leafFrame e) then (s1.migPage m e).setFrameCount (leafFrame e) 0 else s1.migPage m e
  let s4 := if hasRec m.frame then s3.setFrameCount m.frame c else s3
  s4.charge d m.region 136 (-(framesIn (sizeFrames (leafSize e)) m.tier (leafTier e)))

theorem State.migPage_mem (s1 : State) (m : Move) (e : Nat) :
    (s1.migPage m e).mem = s1.mem.copy (4096 * leafFrame e) (4096 * m.frame) (4096 * sizeFrames (leafSize e)) := by
  rw [State.migPage, State.fire_mem, State.copyPage_mem]

theorem State.counted_bare (s : State) (b : Bool) (f n : Nat) : (if b then s.setFrameCount f n else s).bare = s.bare := by
  split
  · exact s.setFrameCount_bare f n
  · rfl

theorem State.migCopied_bare (hr : s.reclaim d (leafFrame e) = some s1) : (s.migCopied s1 d m e).bare = s.bare := by
  rw [State.migCopied, State.charge_bare, State.counted_bare, State.counted_bare, State.migPage, State.fire_bare, State.copyPage_bare,
    State.reclaim_bare hr]

theorem neg_framesIn (n old new : Nat) : -(framesIn n old new) = if new = 0 ∧ old ≠ 0 then -(n : Int) else 0 := by
  rw [framesIn, apply_ite Neg.neg, neg_zero]

section
variable (hm : (s.die d).moves[i]? = some m) (hc : m.cow = false) (he : m.ended = none)
include hm hc he

theorem State.migrateDone_of_stop {l c x : Nat} (hw : s.walk d m.asid m.va = .stop l c x) : s.migrateDone d i =
    ((((s.charge d m.region 136 (-(framesIn (sizeFrames (leafSize (s.physNat m.pa 8))) (leafTier (s.physNat m.pa 8)) m.tier))).unbusy
      m.pa).dropLeaf m.asid m.va).leafSynced).finishMove d m 8 := by
  unfold State.migrateDone
  rw [hm]
  dsimp only
  rw [hc, he, if_neg (by decide), hw]
  rfl

theorem pageMigrationComplete_of_stop {l c x : Nat} (hw : s.walk d m.asid m.va = .stop l c x) :
    ∃ s', exec (.pageMigrationComplete d i) s = .next s' ∧
      s'.mem = ((s.charge d m.region 136 (if m.tier = 0 ∧ leafTier (s.physNat m.pa 8) ≠ 0 then
        -(sizeFrames (leafSize (s.physNat m.pa 8)) : Int) else 0)).unbusy m.pa).mem ∧ (s'.die d).moves = endedMoves (s.die d).moves m 8 := by
  refine ⟨_, rfl, ?_⟩
  rw [State.migrateDone_of_stop hm hc he hw, neg_framesIn]
  exact ⟨rfl, State.finishMove_moves ((State.unbusy_bare ..).trans (State.charge_bare ..)) 8⟩

section
variable (hw : s.walk d m.asid m.va = .leaf pa e)
include hw

/-- Past the walk a lost frame ends the move, and an access to the old frame or a full ring keeps it. -/
theorem State.migrateDone_of_leaf : s.migrateDone d i =
    if (s.lost d (leafFrame e * 4096)).isSome = true ∨ (s.lost d (m.frame * 4096)).isSome = true then
      (s.charge d m.region 136 (-(framesIn (sizeFrames (leafSize e)) (leafTier e) m.tier))).migOut d m pa e (leafSetBusy e false) 8
    else if s.leafInUse e then s
    else (s.reclaim d (leafFrame e)).elim s fun s1 =>
      (s.migCopied s1 d m e).migOut d m pa e (leafSetFrame (leafSetBusy e false) m.frame m.tier) 0 := by
  unfold State.migrateDone
  rw [hm]
  dsimp only
  rw [hc, he, if_neg (by decide), hw]
  dsimp only
  refine if_congr Iff.rfl rfl (if_congr Iff.rfl rfl ?_)
  cases s.reclaim d (leafFrame e) with
  | none => rfl
  | some s1 => rfl

theorem pageMigrationComplete_lost (hl : s.lost d (leafFrame e * 4096) ≠ none ∨ s.lost d (m.frame * 4096) ≠ none) :
    ∃ s', exec (.pageMigrationComplete d i) s = .next s' ∧
      s'.mem = ((s.charge d m.region 136 (if m.tier = 0 ∧ leafTier e ≠ 0 then -(sizeFrames (leafSize e) : Int) else 0)).writeLeaf pa e
        (setBits e 18 1 0)).mem ∧ (s'.die d).moves = endedMoves (s.die d).moves m 8 := by
  refine ⟨_, rfl, ?_⟩
  rw [State.migrateDone_of_leaf hm hc he hw, if_pos (by simpa only [Option.isSome_iff_ne_none] using hl), State.migOut_mem,
    State.migOut_moves (State.charge_bare ..), neg_framesIn]
  exact ⟨rfl, rfl⟩

section
variable (ho : s.lost d (leafFrame e * 4096) = none) (hn : s.lost d (m.frame * 4096) = none)
include ho hn

theorem State.migrateDone_reaches : s.migrateDone d i = if s.leafInUse e then s else (s.reclaim d (leafFrame e)).elim s fun s1 =>
    (s.migCopied s1 d m e).migOut d m pa e (leafSetFrame (leafSetBusy e false) m.frame m.tier) 0 := by
  rw [State.migrateDone_of_leaf hm hc he hw, ho, hn, if_neg (by decide)]

theorem exec_pageMigrationComplete_of_use (hu : s.leafInUse e = true) : exec (.pageMigrationComplete d i) s = .next s :=
  congrArg Host.Outcome.next ((State.migrateDone_reaches hm hc he hw ho hn).trans (if_pos hu))

section
variable (hu : s.leafInUse e = false)
include hu

theorem exec_pageMigrationComplete_of_ring (hr : s.reclaim d (leafFrame e) = none) : exec (.pageMigrationComplete d i) s = .next s := by
  refine congrArg Host.Outcome.next ?_
  rw [State.migrateDone_reaches hm hc he hw ho hn, if_neg (ne_true_of_eq_false hu), hr, Option.elim_none]

theorem State.migrateDone_copies (hr : s.reclaim d (leafFrame e) = some s1) : s.migrateDone d i =
    (s.migCopied s1 d m e).migOut d m pa e (leafSetFrame (leafSetBusy e false) m.frame m.tier) 0 := by
  rw [State.migrateDone_reaches hm hc he hw ho hn, if_neg (ne_true_of_eq_false hu), hr, Option.elim_some]

theorem pageMigrationComplete_copies (hr : s.reclaim d (leafFrame e) = some s1) :
    ∃ s' s2, exec (.pageMigrationComplete d i) s = .next s' ∧ (s'.die d).moves = endedMoves (s.die d).moves m 0 ∧
      s2 = (s1.copyPage (leafFrame e) m.frame (sizeFrames (leafSize e))).fire (4096 * leafFrame e) (4096 * sizeFrames (leafSize e)) ∧
      s2.mem = s1.mem.copy (4096 * leafFrame e) (4096 * m.frame) (4096 * sizeFrames (leafSize e)) ∧
      (let c := if tierOf (leafFrame e * 4096) ≤ 1 then s.frameCount (leafFrame e) else 1
       let s3 := if tierOf (leafFrame e * 4096) ≤ 1 then s2.setFrameCount (leafFrame e) 0 else s2
       let s4 := if tierOf (m.frame * 4096) ≤ 1 then s3.setFrameCount m.frame c else s3
       s'.mem = ((s4.charge d m.region 136 (if leafTier e = 0 ∧ m.tier ≠ 0 then -(sizeFrames (leafSize e) : Int) else 0)).writeLeaf pa e
         (setBits (setBits (setBits e 18 1 0) 20 40 m.frame) 5 2 m.tier)).mem) ∧
      (∀ j, j < runLen (leafSize e) → s'.physNat (pa / 8 / runLen (leafSize e) * runLen (leafSize e) * 8 + 8 * j) 8 =
        setBits (setBits (setBits e 18 1 0) 20 40 m.frame) 5 2 m.tier) := by
  refine ⟨_, s1.migPage m e, rfl, ?_, rfl, State.migPage_mem .., ?_, fun j hj => ?_⟩
  · rw [State.migrateDone_copies hm hc he hw ho hn hu hr, State.migOut_moves (State.migCopied_bare hr)]
  · rw [State.migrateDone_copies hm hc he hw ho hn hu hr, State.migOut_mem, State.migCopied, neg_framesIn]
    simp only [hasRec, decide_eq_true_eq]
    rfl
  · rw [State.migrateDone_copies hm hc he hw ho hn hu hr]
    refine (State.physNat_writeLeaf _ hj).trans (Nat.mod_eq_of_lt ?_)
    exact leafSetFrame_lt (State.walk_leaf_lt hw)

end

end

end

end

/-- Settles O33: the copy-on-write break and the migration case by case, with what a count and a copied page leave in memory. -/
theorem pagesAndFrames : Obligations.PagesAndFrames := by
  refine ⟨fun s d i m pa e hm hc he hw => ⟨cowBreak_of_unshared hm hc he hw, exec_cowBreak_of_busy hm hc he hw, cowBreak_of_owner hm hc he hw,
      fun f s1 hl hp hb hf => cowBreak_takes hm hc he hw hl hp hb hf, cowBreak_finds_none hm hc he hw,
      fun c hl h1 => cowBreak_lost hm hc he hw hl h1, fun c hl hr => exec_cowBreak_of_use hm hc he hw hl hr, cowBreak_ends_alone hm hc he hw,
      fun c s1 hl h1 ho hn hu hs => ⟨cowBreak_copies hm hc he hw hl h1 ho hn hu hs, cowBreak_gives_back hm hc he hw hl h1 ho hn hu hs⟩,
      s.setFrameCount_mem, s.copyPage_mem⟩, ⟨fun s a b d w va tier stack h hs ha hv ht hk => ⟨pgMig_of_tier h hs ha ht,
      pgMig_of_target h hs ha ht hk, fun h3 hg => ⟨pgMig_of_window h hs ha hv ht hk h3 hg, fun l c x => pgMig_of_stop h hs ha hv ht hk h3 hg, ?_⟩⟩,
      fun s a b d w k m h hs hm hu => ⟨exec_pgMig_waits h hs hm hu, fun st => pgMig_ends h hs hm hu⟩, ?_⟩⟩
  · rintro pa e st n k hn hw rfl rfl hst
    exact pgMig_leaf (exec_pgMig_of_leaf h hs ha hv ht hk h3 hg hn hw) (hst.trans State.migStatus_eq)
  · intro s d i m ends hm hc he hends
    rw [show ends = endedMoves (s.die d).moves m from funext hends]
    exact ⟨fun l c x => pageMigrationComplete_of_stop hm hc he, fun pa e hw => ⟨pageMigrationComplete_lost hm hc he hw, fun ho hn =>
      ⟨exec_pageMigrationComplete_of_use hm hc he hw ho hn, exec_pageMigrationComplete_of_ring hm hc he hw ho hn,
        fun s1 => pageMigrationComplete_copies hm hc he hw ho hn⟩⟩⟩

end Sys2Proof.Machine

/-! # The commands of the management mailbox (O53) -/

namespace Sys2Proof.Machine

variable {s : State}

/-! ## A command that runs, and its answer (R432) -/

/-- The status of a command that cannot be done. -/
def State.refusal (s : State) : Nat := 1 + s.freeVal.1.toNat % 65535

theorem State.refusal_ne_zero (s : State) : s.refusal ≠ 0 := Nat.ne_of_gt (Nat.add_pos_left Nat.one_pos _)

theorem State.reply_replyOdd (s : State) (code : Nat) : (s.replyOdd code).reply = some ⟨code, s.refusal, []⟩ := rfl

theorem State.reply_replyOk (s : State) (code : Nat) : (s.replyOk code).reply = some ⟨code, 0, []⟩ := rfl

theorem State.core_replyOk (s : State) (code : Nat) (c : Fin 64) : (s.replyOk code).core c = s.core c := rfl

theorem State.thr_replyOk (s : State) (code : Nat) (c : Fin 64) (r : Role) : (s.replyOk code).thr c r = s.thr c r := rfl

theorem State.task_replyOk (s : State) (code n : Nat) : (s.replyOk code).task n = s.task n := rfl

theorem State.chips_replyOk (s : State) (code : Nat) : (s.replyOk code).chips = s.chips := rfl

theorem State.wiped_replyOk (s : State) (code : Nat) : (s.replyOk code).wiped = s.wiped := rfl

theorem State.msix_replyOk (s : State) (code : Nat) : (s.replyOk code).msix[0] = true := Vector.getElem_set_self ..

/-- A change that leaves TASKIDs alone is found in the task that it is for. -/
theorem State.task_upTask_some {n : Nat} {t : Task} {f : Task → Task} (ht : s.task n = some t) (hf : ∀ t, (f t).id = t.id) :
    (s.upTask n f).task n = some (f t) := by
  rw [State.task_upTask s n hf, ht, Option.map_some]

/-- No command runs while the mailbox is down. -/
theorem State.mailbox_of_down (hu : s.mailboxUp = false) (go : Unit → State) : s.mailbox go = .next s := by
  rw [State.mailbox, hu]
  rfl

section
variable (hu : s.mailboxUp = true) (hi : s.invals.any (·.owner.isNone) = false)
include hu hi

theorem State.mailbox_of_up (go : Unit → State) : s.mailbox go = .next (go ()) := by
  rw [State.mailbox, hu, hi]
  rfl

end

/-! ## SYSWR (R404) -/

theorem HomeBlind.fwFreeState {β : Type} {g : State → β} (hg : HomeBlind g) (s : State) (d ix) : g (s.fwFreeState d ix) = g s := by
  have hv (s : State) : g (s.fwVacate d ix) = g s := (hg.setDie ..).trans ((hg.withFree ..).trans (hg.physWrite ..))
  unfold State.fwFreeState
  split
  · rfl
  refine Eq.trans ?_ (hv s)
  unfold State.fwLeave
  split
  · refine foldl_keeps g (fun s n => ?_) _ _
    split
    · exact hg.freeSlab ..
    · rfl
  · exact foldl_keeps g (fun s f => hg.giveFrame ..) _ _

theorem homeBlind_sys : HomeBlind State.sys := ⟨fun _ _ _ _ _ _ => rfl, fun _ _ => rfl, fun _ _ _ => rfl⟩

theorem State.dropStates_sys (s : State) : s.dropStates.sys = s.sys :=
  foldl_keeps State.sys (fun s _ => foldl_keeps State.sys (fun s _ => homeBlind_sys.fwFreeState s ..) _ s) _ s

theorem State.sysWrite_sys (s : State) (i : Fin 11) (v : Word) : (s.sysWrite i v).sys = s.sys.set i (v &&& word (sysMask i.val)) := by
  have h : (if i = 8 then s.dropStates else if i = 9 then s.dropHandles else s).sys = s.sys := by
    split
    · exact s.dropStates_sys
    split
    · rfl
    · rfl
  exact congrArg (fun l : Vector Word 11 => l.set i (v &&& word (sysMask i.val))) h

/-- A new entry of a route table stands for its host line, and the others stay. -/
theorem find?_route (l : List Route) (x : Route) {k : Nat} (hk : k ≠ x.h) :
    (x :: l.filter (·.h ≠ x.h)).find? (·.h == k) = l.find? (·.h == k) := by
  rw [List.find?_cons_of_neg (by simpa using hk.symm), List.find?_filter]
  congr 1
  funext y
  by_cases hy : y.h = k
  · simp [hy, hk]
  · simp [hy]

section
variable (hu : s.mailboxUp = true) (hi : s.invals.any (·.owner.isNone) = false)
include hu hi

theorem exec_syswr (n : Nat) (v : Word) :
    exec (.syswr n v) s = .next (if n < 11 then (s.sysWrite (Fin.ofNat 11 n) v).replyOk 1 else s.replyOdd 1) := by
  show execSyswr n v s = _
  exact State.mailbox_of_up hu hi _

theorem syswr_writes (i : Fin 11) (v : Word) : ∃ s', exec (.syswr i.val v) s = .next s' ∧ s'.sys[i] = v &&& word (sysMask i.val) ∧
    (∀ m : Fin 11, m ≠ i → s'.sys[m] = s.sys[m]) ∧ s'.reply = some ⟨1, 0, []⟩ ∧ s'.msix[0] = true := by
  have hx := exec_syswr hu hi i.val v
  rw [if_pos i.isLt, show Fin.ofNat 11 i.val = i from Fin.ext (Nat.mod_eq_of_lt i.isLt)] at hx
  have hs : ((s.sysWrite i v).replyOk 1).sys = s.sys.set i (v &&& word (sysMask i.val)) := s.sysWrite_sys i v
  refine ⟨_, hx, ?_, fun m hm => ?_, State.reply_replyOk .., State.msix_replyOk ..⟩
  · rw [hs]
    exact Vector.getElem_set_self ..
  · rw [hs, getElem_set_fin_ne _ hm]

theorem syswr_refuses {n : Nat} (v : Word) (h : 11 ≤ n) : ∃ s' x, exec (.syswr n v) s = .next s' ∧ s'.sys = s.sys ∧
    s'.reply = some ⟨1, x, []⟩ ∧ x ≠ 0 := by
  have hx := exec_syswr hu hi n v
  rw [if_neg (by omega)] at hx
  exact ⟨_, _, hx, rfl, s.reply_replyOdd 1, s.refusal_ne_zero⟩

/-! ## TLBINV, FEAT, LISTS, ROUTE, PREEMPT, AGE and ATTEST -/

theorem tlbinv_starts (k : Fin 4) (a b : Word) : ∃ s' v, exec (.tlbinv k a b) s = .next s' ∧ s'.invals = s.invals ++ [v] ∧ v.owner = none ∧
    v.scope = 4 ∧ v.kind = k.val ∧ v.addr = a.toNat ∧ v.done = false ∧ s'.reply = s.reply ∧ s'.mem = s.mem := by
  have hx : execTlbinv k a b s = _ := State.mailbox_of_up hu hi _
  exact ⟨_, _, hx, rfl, rfl, rfl, rfl, rfl, rfl, rfl, rfl⟩

theorem exec_feat (v : Word) (l : Bool) :
    exec (.feat v l) s = .next (if s.featlock then s.replyOdd 3 else { s with featack := featWord v, featlock := l }.replyOk 3) := by
  show execFeat v l s = _
  exact State.mailbox_of_up hu hi _

theorem feat_writes (v : Word) (l : Bool) (h : s.featlock = false) : ∃ s', exec (.feat v l) s = .next s' ∧ s'.featack = v &&& 0x7FFE ||| 1 ∧
    s'.featlock = l ∧ s'.reply = some ⟨3, 0, []⟩ := by
  have hx := exec_feat hu hi v l
  rw [if_neg (ne_true_of_eq_false h)] at hx
  exact ⟨_, hx, rfl, rfl, rfl⟩

theorem feat_of_lock (v : Word) (l : Bool) (h : s.featlock = true) : ∃ s', exec (.feat v l) s = .next s' ∧ s'.featack = s.featack ∧
    s'.featlock = true := by
  have hx := exec_feat hu hi v l
  rw [if_pos h] at hx
  exact ⟨_, hx, rfl, h⟩

theorem lists_sets (l : List Word) (h : l.length = 11) : ∃ s', exec (.lists l) s = .next s' ∧ (∀ i : Fin 11, s'.lists[i] = l.getD i.val 0) ∧
    s'.reply = some ⟨5, 0, []⟩ ∧ s'.mem = s.mem := by
  have hx : execLists l s = .next (if l.length = 11 then
      { s with lists := Vector.ofFn fun i : Fin 11 => l.getD i.val 0 }.replyOk 5 else s.replyOdd 5) := State.mailbox_of_up hu hi _
  rw [if_pos h] at hx
  exact ⟨_, hx, fun i => Vector.getElem_ofFn .., rfl, rfl⟩

theorem route_writes {h : Nat} (c p a : Nat) (hh : h < 65536) : ∃ s', exec (.route h c p a) s = .next s' ∧
    s'.routes.find? (·.h == h) = some ⟨h, c % 256, p % 256, a⟩ ∧ (∀ k, k ≠ h → s'.routes.find? (·.h == k) = s.routes.find? (·.h == k)) ∧
    s'.reply = some ⟨6, 0, []⟩ := by
  have hx : execRoute h c p a s = .next (if h < 65536 then
      { s with routes := ⟨h, c % 256, p % 256, a⟩ :: s.routes.filter (·.h ≠ h) }.replyOk 6 else s.replyOdd 6) := State.mailbox_of_up hu hi _
  rw [if_pos hh] at hx
  exact ⟨_, hx, List.find?_cons_of_pos (by simp), fun k hk => find?_route _ ⟨h, c % 256, p % 256, a⟩ hk, rfl⟩

theorem preempt_asks {id : Nat} {t : Task} (ht : s.task id = some t) (hp : t.phase ≠ .saved) : ∃ s', exec (.preempt id) s = .next s' ∧
    s'.task id = some { t with preempt := max t.preempt 2 } ∧ s'.reply = some ⟨7, 0, []⟩ ∧ s'.cores = s.cores := by
  refine ⟨(s.askPreempt id 2).replyOk 7, ?_, ?_, rfl, rfl⟩
  · show execPreempt id s = _
    refine (State.mailbox_of_up hu hi _).trans ?_
    rw [ht]
    exact congrArg Host.Outcome.next (if_neg hp)
  · show (s.upTask id fun t => { t with preempt := max t.preempt 2 }).task id = _
    exact State.task_upTask_some ht fun _ => rfl

theorem age_answers : ∃ s', exec .age s = .next s' ∧ s'.reply = some ⟨10, 0, s.age.toList.map BitVec.toNat⟩ ∧ s'.mem = s.mem := by
  have hx : execAge s = _ := State.mailbox_of_up hu hi _
  exact ⟨_, hx, rfl, rfl⟩

theorem attest_answers {c : Fin 18} (h : s.sessions[c] ≠ none) : ∃ s' l, exec (.attest c) s = .next s' ∧ s'.reply = some ⟨11, 0, l⟩ ∧
    s'.mem = s.mem := by
  obtain ⟨⟨ok, why, n⟩, hn⟩ := Option.ne_none_iff_exists'.1 h
  refine ⟨s.reply' 11 0 ((List.range (Config.transcriptLen n)).map fun i => (Config.transcriptByte n i).toNat), _, ?_, rfl, rfl⟩
  show execAttest c s = _
  refine (State.mailbox_of_up hu hi _).trans ?_
  rw [hn]

/-! ## LCS (R428) -/

theorem exec_lcs (n : Fin 5) (g : Bool) :
    exec (.lcs n g) s = .next (if lifeNext s.lcs (lifeOf n) g then s.rebootedAs (lifeOf n) else s.replyOdd 9) := by
  show execLcs n g s = _
  exact State.mailbox_of_up hu hi _

theorem lcs_changes {n : Fin 5} {g : Bool} (h : lifeNext s.lcs (lifeOf n) g = true) : ∃ s', exec (.lcs n g) s = .next s' ∧ s'.lcs = lifeOf n ∧
    s'.tasks = [] ∧ s'.cores = State.reset.cores ∧ s'.hostq = [] := by
  have hx := exec_lcs hu hi n g
  rw [if_pos h] at hx
  exact ⟨_, hx, rfl, rfl, rfl, rfl⟩

theorem lcs_refuses {n : Fin 5} {g : Bool} (h : lifeNext s.lcs (lifeOf n) g = false) : ∃ s' x, exec (.lcs n g) s = .next s' ∧ s'.lcs = s.lcs ∧
    s'.tasks = s.tasks ∧ s'.reply = some ⟨9, x, []⟩ ∧ x ≠ 0 := by
  have hx := exec_lcs hu hi n g
  rw [if_neg (ne_true_of_eq_false h)] at hx
  exact ⟨_, _, hx, rfl, rfl, s.reply_replyOdd 9, s.refusal_ne_zero⟩

end

theorem lifeNext_iff (o n : LifeCycle) (g : Bool) : lifeNext o n g = true ↔ (o = .manufacture ∧ n = .provisioned) ∨
    (o = .provisioned ∧ n = .operational) ∨ (o = .operational ∧ n = .rma) ∨ (o = .rma ∧ n = .provisioned ∧ g = true) ∨
    (o = .rma ∧ n = .decommissioned) := by
  cases o with
  | manufacture => simp [lifeNext]
  | provisioned => simp [lifeNext]
  | operational => simp [lifeNext]
  | rma => simp [lifeNext]
  | decommissioned => simp [lifeNext]

/-! ## DIERST (R427, R439) -/

theorem State.quarantine_cores (s : State) (c : Fin 18) : (s.quarantine c).cores = s.cores :=
  (s.setChip c .quarantined).shutLinks_cores c

theorem State.quarantine_chips (s : State) (c : Fin 18) : (s.quarantine c).chips = s.chips.set c .quarantined :=
  (s.setChip c .quarantined).shutLinks_chips c

theorem State.resetIod_spec (s : State) : s.resetIod.chips[(9 : Fin 18)] = .quarantined ∧ s.resetIod.wiped[(9 : Fin 18)] = true ∧
    s.resetIod.mem = s.mem ∧ s.resetIod.cores = s.cores :=
  ⟨s.quarantine_chips_same 9, Vector.getElem_set_self .., s.resetIod_mem, s.quarantine_cores 9⟩

theorem State.resetBd_wiped (s : State) {c : Fin 18} (hc : 10 ≤ c.val) : (s.resetBd (Fin.ofNat 8 (c.val - 10))).wiped[c] = true := by
  have hb : Fin.ofNat 18 (10 + (Fin.ofNat 8 (c.val - 10)).val) = c := by
    apply Fin.ext
    simp only [Fin.ofNat]
    omega
  simp only [State.resetBd, hb]
  exact Vector.getElem_set_self ..

/-- A chiplet outside the compute dies leaves memory and cores as they are. -/
theorem State.resetChip_spec (s : State) {c : Fin 18} (hc : 9 ≤ c.val) : (s.resetChip c).chips[c] = .quarantined ∧
    (s.resetChip c).wiped[c] = true ∧ (s.resetChip c).mem = s.mem ∧ (s.resetChip c).cores = s.cores := by
  have h8 : c ≠ 8 := by
    rintro rfl
    exact absurd hc (by decide)
  by_cases h9 : c = 9
  · subst h9
    rw [State.resetChip, if_neg (by decide), if_neg h8, if_pos rfl]
    exact s.resetIod_spec
  · have hc10 : 10 ≤ c.val := lt_of_le_of_ne hc fun e => h9 (Fin.ext e.symm)
    obtain ⟨hq, -, hm, hk⟩ := s.resetChip_base hc10
    refine ⟨hq, ?_, hm, hk⟩
    rw [State.resetChip, if_neg (by omega), if_neg h8, if_neg h9]
    exact s.resetBd_wiped hc10

theorem State.turnChannels_cores (s : State) : s.turnChannels.cores = s.cores := by rw [State.turnChannels]

theorem State.turnChannels_wiped (s : State) : s.turnChannels.wiped = s.wiped := by rw [State.turnChannels]

theorem State.forgetHandles_chips (s : State) (d : Fin 4) : (s.forgetHandles d).chips = s.chips := by rw [State.forgetHandles]

theorem State.forgetHandles_wiped (s : State) (d : Fin 4) : (s.forgetHandles d).wiped = s.wiped := by rw [State.forgetHandles]

theorem vaultOf_ne_die (d : Fin 4) : Fin.ofNat 18 d.val ≠ vaultOf d := by
  revert d
  decide

section
variable {d : Fin 4} {c v : Fin 18} (hc : c = Fin.ofNat 18 d.val)
include hc

theorem State.resetCd_chips (s : State) (hv : v = vaultOf d) : (s.resetCd d).chips[c] = .quarantined ∧ (s.resetCd d).chips[v] = .quarantined := by
  subst hc hv
  unfold State.resetCd
  extract_lets cd s1 s2 s3
  have h2 : s2.chips = ((s1.poisonOwned d).quarantine cd).chips.set (vaultOf d) .quarantined := State.quarantine_chips ..
  clear_value s2
  have h3 : s3.chips = s2.chips := by unfold s3; rfl
  rw [State.turnChannels_chips, State.forgetHandles_chips, State.setDie_chips, h3, h2, getElem_set_fin_ne _ (vaultOf_ne_die d)]
  exact ⟨State.quarantine_chips_same _ cd, Vector.getElem_set_self ..⟩

theorem State.resetCd_wiped (s : State) : (s.resetCd d).wiped[c] = true := by
  subst hc
  unfold State.resetCd
  extract_lets cd s1 s2 s3
  have h3 : s3.wiped = (s2.wiped.set cd true).set (vaultOf d) true := by unfold s3; rfl
  rw [State.turnChannels_wiped, State.forgetHandles_wiped, State.setDie_wiped, h3, getElem_set_fin_ne _ (vaultOf_ne_die d)]
  exact Vector.getElem_set_self ..

end

/-- The cores of a die that is reset are as at power-up. -/
theorem State.resetCd_core (s : State) {d : Fin 4} {k : Fin 64} (hk : dieOf k = d) : (s.resetCd d).core k = Core.reset := by
  unfold State.resetCd
  extract_lets cd s1 s2 s3
  have h3 : s3.core k = Core.reset := by
    unfold s3 State.core
    dsimp only
    rw [Fin.getElem_fin, Vector.getElem_ofFn, if_pos hk]
  have h : ((s3.setDie d (s3.die d).wipe).forgetHandles d).core k = { s3.core k with hcache := (s3.core k).hcache.filter fun x => hndDie x.handle != d } :=
    Vector.getElem_map ..
  rw [State.core_of_cores_eq (State.turnChannels_cores _), h, h3]
  rfl

section
variable (hu : s.mailboxUp = true) (hi : s.invals.any (·.owner.isNone) = false) {c : Fin 18}
include hu hi

theorem exec_dierst : exec (.dierst c) s = .next (if 4 ≤ c.val ∧ c.val < 9 then s.replyOdd 8
    else if s.wiped[c] then s.reply' 8 1 [] else (s.resetChip c).replyOk 8) := by
  show execDierst c s = _
  exact State.mailbox_of_up hu hi _

theorem dierst_refuses (h4 : 4 ≤ c.val) (h9 : c.val < 9) : ∃ s' x, exec (.dierst c) s = .next s' ∧ s'.chips = s.chips ∧
    s'.reply = some ⟨8, x, []⟩ ∧ x ≠ 0 := by
  have hx := exec_dierst hu hi (c := c)
  rw [if_pos ⟨h4, h9⟩] at hx
  exact ⟨_, _, hx, rfl, s.reply_replyOdd 8, s.refusal_ne_zero⟩

section
variable (hc : c.val < 4 ∨ 9 ≤ c.val)
include hc

theorem dierst_of_wiped (h : s.wiped[c] = true) : ∃ s', exec (.dierst c) s = .next s' ∧ s'.reply = some ⟨8, 1, []⟩ ∧ s'.chips = s.chips ∧
    s'.cores = s.cores := by
  have hx := exec_dierst hu hi (c := c)
  rw [if_neg (by omega), if_pos h] at hx
  exact ⟨_, hx, rfl, rfl, rfl⟩

theorem exec_dierst_resets (h : s.wiped[c] = false) : exec (.dierst c) s = .next ((s.resetChip c).replyOk 8) := by
  rw [exec_dierst hu hi, if_neg (by omega), if_neg (ne_true_of_eq_false h)]

end

theorem dierst_of_chiplet (hc : 9 ≤ c.val) (h : s.wiped[c] = false) : ∃ s', exec (.dierst c) s = .next s' ∧ s'.reply = some ⟨8, 0, []⟩ ∧
    s'.chips[c] = .quarantined ∧ s'.wiped[c] = true ∧ s'.mem = s.mem ∧ s'.cores = s.cores :=
  ⟨_, exec_dierst_resets hu hi (.inr hc) h, rfl, s.resetChip_spec hc⟩

theorem dierst_of_die (hc : c.val < 4) (h : s.wiped[c] = false) : ∃ s', exec (.dierst c) s = .next s' ∧ s'.reply = some ⟨8, 0, []⟩ ∧
    s'.chips[c] = .quarantined ∧ s'.chips[Fin.ofNat 18 (4 + c.val)] = .quarantined ∧ s'.wiped[c] = true ∧
    ∀ k : Fin 64, (dieOf k).val = c.val → s'.core k = Core.reset := by
  obtain ⟨d, hd⟩ : ∃ d : Fin 4, d.val = c.val := ⟨⟨c.val, hc⟩, rfl⟩
  have hcd : Fin.ofNat 18 d.val = c := Fin.ext (by rw [hd]; exact Nat.mod_eq_of_lt c.isLt)
  have hr : s.resetChip c = s.resetCd d := by
    rw [State.resetChip, if_pos (by omega), ← hd, show Fin.ofNat 4 d.val = d from Fin.ext (Nat.mod_eq_of_lt d.isLt)]
  have hvd : Fin.ofNat 18 (4 + c.val) = vaultOf d := congrArg (fun n => Fin.ofNat 18 (4 + n)) hd.symm
  obtain ⟨hq, hv⟩ := s.resetCd_chips hcd.symm hvd
  have hx := exec_dierst_resets hu hi (.inl hc) h
  rw [hr] at hx
  refine ⟨_, hx, State.reply_replyOk .., ?_, ?_, ?_, fun k hk => ?_⟩
  · rw [State.chips_replyOk]
    exact hq
  · rw [State.chips_replyOk]
    exact hv
  · rw [State.wiped_replyOk]
    exact s.resetCd_wiped hcd.symm
  · rw [State.core_replyOk]
    exact s.resetCd_core (Fin.ext (hk.trans hd.symm))

end

end Sys2Proof.Machine

/-! # ANSWER (O53) -/

namespace Sys2Proof.Machine

variable {s : State} {id i : Nat} {r : Role} {t : Task} {c : Fin 64} {k : Core}

/-! ## A thread that goes on (R399, R262) -/

theorem Core.thr_retry (k : Core) (r : Role) : (k.retry r).thr r = (k.thr r).retried := by
  obtain ⟨sl, q, h⟩ := (k.setThr r (k.thr r).retried).unhalt_eq r
  rw [Core.retry, h]
  exact Core.thr_setThr ..

theorem Thread.retried_status (t : Thread) : t.retried.status = .running := rfl

theorem Thread.retried_why (t : Thread) : t.retried.why = 0 := rfl

theorem Thread.retried_g (t : Thread) : t.retried.g = t.g := by
  unfold Thread.retried
  dsimp only
  split
  · split
    · rfl
    · rfl
  · rfl

section
variable {t : Thread} {p : PTrap} (hp : t.trap = some p)
include hp

theorem Thread.retried_fetch_of_service (hc : p.cause = cSYS ∨ p.cause = cBRK ∨ p.cause = cOVRN) :
    t.retried.fetch = some ⟨p.hdr, p.hdr, .resume p.reps p.wpos⟩ := by
  unfold Thread.retried
  rw [hp]
  dsimp only
  rw [if_pos hc]

theorem Thread.retried_fetch_of_other (h1 : p.cause ≠ cSYS) (h2 : p.cause ≠ cBRK) (h3 : p.cause ≠ cOVRN) (hf : t.fetch = none) :
    t.retried.fetch = some ⟨t.hdr, t.hdr, .resume t.reps t.wpos⟩ := by
  unfold Thread.retried
  rw [hp]
  dsimp only
  rw [if_neg (by simp only [h1, h2, h3, or_self, not_false_iff]), hf]

end

/-! ## A task that leaves (R399, R403) -/

theorem State.length_hostq_removeTask (s : State) (t : Task) : (s.removeTask t).hostq.length = s.hostq.length := by
  unfold State.removeTask
  extract_lets die s2 s3 held s4 s5
  have h2 : s2.hostq = s.hostq := by
    unfold s2
    split
    · rfl
    · exact coreBlind_hostq.charge ..
  have h3 : s3.hostq = s2.hostq :=
    (foldl_keeps State.hostq (fun s _ => coreBlind_hostq.unpin s _) _ _).trans
      (foldl_keeps State.hostq (fun s _ => coreBlind_hostq.dropSeq s _) _ _)
  have h4 : s4.hostq = s3.hostq := foldl_keeps State.hostq (fun s _ => coreBlind_hostq.freeSlab s ..) _ _
  have h5 : s5.hostq = s4.hostq := coreBlind_hostq.upCores s4 t.cores Core.vacate
  dsimp only
  rw [List.length_map, h5, h4, h3, h2]

theorem State.faultEnd_keeps {β : Type} {g : State → β} (hg : HomeBlind g) (s : State) (t : Task) : g (s.faultEnd t) = g (s.removeTask t) := by
  unfold State.faultEnd
  dsimp only
  split
  · exact hg.faultDomain ..
  · rfl

theorem State.task_faultEnd (s : State) (t : Task) : (s.faultEnd t).task t.id = none := by
  rw [State.task_of_tasks (s.faultEnd_keeps coreBlind_tasks.toHomeBlind t), State.task_removeTask]

theorem State.length_hostq_faultEnd (s : State) (t : Task) : (s.faultEnd t).hostq.length = s.hostq.length := by
  rw [s.faultEnd_keeps coreBlind_hostq.toHomeBlind t, State.length_hostq_removeTask]

/-! ## A save given up (R392) -/

/-- A thread that a pre-emption stopped runs again. -/
def Thread.thawed (t : Thread) : Thread :=
  match t.status with
  | .stopped _ _ => { t with status := .running }
  | _ => t

theorem Thread.thawed_g (t : Thread) : t.thawed.g = t.g := by
  unfold Thread.thawed
  split
  · rfl
  · rfl

theorem Thread.thawed_of_stopped {a b : Nat} {t : Thread} (h : t.status = .stopped a b) : t.thawed = { t with status := .running } := by
  rw [Thread.thawed, h]

theorem Thread.thawed_of_going {t : Thread} (h : ∀ a b, t.status ≠ .stopped a b) : t.thawed = t := by
  unfold Thread.thawed
  split
  · next hs => exact absurd hs (h _ _)
  · rfl

/-- A thread thawed twice is one thawed once: it is stopped no more. -/
theorem Thread.thawed_thawed (t : Thread) : t.thawed.thawed = t.thawed := by
  by_cases h : ∃ a b, t.status = .stopped a b
  · obtain ⟨a, b, h⟩ := h
    rw [Thread.thawed_of_stopped h]
    exact Thread.thawed_of_going fun _ _ => Status.noConfusion
  · have hg : t.thawed = t := Thread.thawed_of_going fun a b hs => h ⟨a, b, hs⟩
    rw [hg, hg]

def Core.thawed (k : Core) : Core := { k with threads := k.threads.map Thread.thawed }

theorem Core.thr_thawed (k : Core) (q : Role) : k.thawed.thr q = (k.thr q).thawed := Vector.getElem_map ..

theorem State.abortSave_eq (s : State) (t : Task) : ∃ d, s.abortSave t =
    ((s.upCores t.cores Core.thawed).giveBlocks d t.blocks).upTask t.id fun t =>
      { t with phase := .running, preempt := if t.cancel then 3 else 0, blocks := [], written := 0, cancel := false } := ⟨_, rfl⟩

theorem State.abortSave_hostq (s : State) (t : Task) : (s.abortSave t).hostq = s.hostq := by
  obtain ⟨d, h⟩ := s.abortSave_eq t
  rw [h]
  exact (coreBlind_hostq.giveBlocks ..).trans (coreBlind_hostq.upCores ..)

theorem State.task_abortSave (ht : s.task id = some t) : (s.abortSave t).task id =
    some { t with phase := .running, preempt := if t.cancel then 3 else 0, blocks := [], written := 0, cancel := false } := by
  obtain ⟨d, h⟩ := s.abortSave_eq t
  have hu : ((s.upCores t.cores Core.thawed).giveBlocks d t.blocks).task id = some t :=
    (State.task_of_tasks ((coreBlind_tasks.giveBlocks ..).trans (coreBlind_tasks.upCores ..)) id).trans ht
  obtain rfl := State.task_id ht
  rw [h]
  exact State.task_upTask_some hu fun _ => rfl

theorem State.core_abortSave (s : State) (t : Task) (c : Fin 64) : (s.abortSave t).core c = (s.upCores t.cores Core.thawed).core c := by
  obtain ⟨d, h⟩ := s.abortSave_eq t
  rw [h, State.core_upTask]
  exact State.core_of_cores_eq (homeBlind_cores.giveBlocks ..) c

/-- On the cores of the task registers and pool stay, and its stopped threads run again. -/
theorem State.abortSave_threads (s : State) (hc : c ∈ t.cores) (q : Role) : ((s.abortSave t).thr c q).g = (s.thr c q).g ∧
    ((s.abortSave t).core c).pool = (s.core c).pool ∧
    ∀ a b, (s.thr c q).status = .stopped a b → ((s.abortSave t).thr c q).status = .running := by
  rw [State.thr, State.thr, State.core_abortSave]
  refine ⟨?_, State.core_upCores_keeps (f := Core.thawed) Core.pool (fun _ => rfl) s, fun a b hs => ?_⟩
  · exact State.core_upCores_keeps (fun k => (k.thr q).g) (fun k => by rw [Core.thr_thawed, Thread.thawed_g]) s
  · have hkeep : (((s.upCores t.cores Core.thawed).core c).thr q).thawed = ((s.core c).thr q).thawed :=
      State.core_upCores_keeps (fun k => (k.thr q).thawed) (fun k => by rw [Core.thr_thawed, Thread.thawed_thawed]) s
    have hfix : (((s.upCores t.cores Core.thawed).core c).thr q).thawed = ((s.upCores t.cores Core.thawed).core c).thr q :=
      State.core_upCores_of_mem (P := fun k => (k.thr q).thawed = k.thr q) (fun k => by rw [Core.thr_thawed, Thread.thawed_thawed]) hc s
    rw [← hfix, hkeep, Thread.thawed_of_stopped hs]

/-- The blocks that a save had taken go back to their list. -/
def State.blocksBack (s : State) (t : Task) : State :=
  match t.cores with
  | c :: _ => s.giveBlocks (dieOf c) t.blocks
  | [] => s.giveBlocks 0 t.blocks

theorem State.blocksBack_keeps {β : Type} {g : State → β} (hg : HomeBlind g) (s : State) (t : Task) : g (s.blocksBack t) = g s := by
  unfold State.blocksBack
  split
  · exact hg.giveBlocks ..
  · exact hg.giveBlocks ..

/-! ## What an answer finds (R399, R400) -/

section
variable (ht : s.task id = some t)
include ht

theorem State.answerFor_savef (hp : t.phase = .savef) (b : Bool) : s.answerFor id r i b =
    (if b then s.upTask id fun t => { t with phase := .running } else s.abortSave t, 0) := by
  unfold State.answerFor
  rw [ht]
  exact if_pos hp

/-- An answer to a member's thread that is on a core. -/
theorem State.answerFor_running (hp : t.phase = .running) (hc : t.cores[i]? = some c) (b : Bool) : s.answerFor id r i b =
    if (s.thr c r).status ≠ .host then (s, 1) else if !b then ((s.blocksBack t).faultEnd t, 0) else (s.upCore c fun k => k.retry r, 0) := by
  unfold State.answerFor
  rw [ht]
  dsimp only
  rw [hp, if_neg (by decide), hc]
  rfl

/-- An answer to a member's thread in its task's save. -/
theorem State.answerFor_saved (hp : t.phase = .saved) (hn : t.cores = []) (hk : t.saved[i]? = some k) (hs : (k.thr r).status = .host) (b : Bool) :
    s.answerFor id r i b = if !b then ((s.blocksBack t).faultEnd t, 0)
      else (s.upTask id fun t => { t with saved := t.saved.set i (k.retry r) }, 0) := by
  unfold State.answerFor State.blocksBack
  rw [ht]
  dsimp only
  rw [hp, if_neg (by decide), hn, List.getElem?_nil]
  dsimp only
  rw [hk]
  dsimp only
  rw [if_neg (not_not.2 hs)]

end

section
variable (hu : s.mailboxUp = true) (hi : s.invals.any (·.owner.isNone) = false)
include hu hi

theorem exec_answer (id i : Nat) (r : Role) (b : Bool) : exec (.answer id r i b) s =
    .next (if (s.answerFor id r i b).2 = 0 then (s.answerFor id r i b).1.replyOk 4 else (s.answerFor id r i b).1.replyOdd 4) := by
  show execAnswer id r i b s = _
  exact State.mailbox_of_up hu hi _

theorem exec_answer_of_done {b : Bool} {u : State} (h : s.answerFor id r i b = (u, 0)) : exec (.answer id r i b) s = .next (u.replyOk 4) := by
  rw [exec_answer hu hi, h]
  exact congrArg Host.Outcome.next (if_pos rfl)

variable (ht : s.task id = some t)
include ht

/-- A task whose thread the driver gives up leaves with no event. -/
theorem answer_aborts (hh : s.answerFor id r i false = ((s.blocksBack t).faultEnd t, 0)) :
    ∃ s', exec (.answer id r i false) s = .next s' ∧ s'.task id = none ∧ s'.hostq.length = s.hostq.length ∧ s'.reply = some ⟨4, 0, []⟩ := by
  obtain rfl := State.task_id ht
  refine ⟨_, exec_answer_of_done hu hi hh, State.task_faultEnd .., ?_, rfl⟩
  exact (State.length_hostq_faultEnd ..).trans (congrArg List.length (State.blocksBack_keeps coreBlind_hostq.toHomeBlind s t))

theorem answer_retries_running (hp : t.phase = .running) (hc : t.cores[i]? = some c) (hs : (s.thr c r).status = .host) :
    ∃ s', exec (.answer id r i true) s = .next s' ∧ (s'.thr c r).status = .running ∧ (s'.thr c r).g = (s.thr c r).g ∧
      (s'.thr c r).why = 0 ∧ (∀ p, (s.thr c r).trap = some p →
        (p.cause = cSYS ∨ p.cause = cBRK ∨ p.cause = cOVRN → (s'.thr c r).fetch = some ⟨p.hdr, p.hdr, .resume p.reps p.wpos⟩) ∧
        (p.cause ≠ cSYS → p.cause ≠ cBRK → p.cause ≠ cOVRN → (s.thr c r).fetch = none →
          (s'.thr c r).fetch = some ⟨(s.thr c r).hdr, (s.thr c r).hdr, .resume (s.thr c r).reps (s.thr c r).wpos⟩)) ∧
      s'.reply = some ⟨4, 0, []⟩ := by
  have ha := State.answerFor_running (r := r) ht hp hc true
  rw [if_neg (not_not.2 hs), if_neg (by decide)] at ha
  have hthr : ((s.upCore c fun k => k.retry r).replyOk 4).thr c r = (s.thr c r).retried := by
    rw [State.thr_replyOk, State.thr, State.core_upCore, Core.thr_retry]
    rfl
  refine ⟨_, exec_answer_of_done hu hi ha, ?_⟩
  rw [hthr]
  exact ⟨rfl, Thread.retried_g _, rfl, fun p htrap => ⟨Thread.retried_fetch_of_service htrap, Thread.retried_fetch_of_other htrap⟩, rfl⟩

theorem answer_aborts_running (hp : t.phase = .running) (hc : t.cores[i]? = some c) (hs : (s.thr c r).status = .host) :
    ∃ s', exec (.answer id r i false) s = .next s' ∧ s'.task id = none ∧ s'.hostq.length = s.hostq.length ∧ s'.reply = some ⟨4, 0, []⟩ := by
  have ha := State.answerFor_running (r := r) ht hp hc false
  rw [if_neg (not_not.2 hs), if_pos (by decide)] at ha
  exact answer_aborts hu hi ht ha

theorem answer_of_going (hp : t.phase = .running) (hc : t.cores[i]? = some c) (hs : (s.thr c r).status ≠ .host) :
    ∃ s' x, exec (.answer id r i true) s = .next s' ∧ s'.cores = s.cores ∧ s'.tasks = s.tasks ∧ s'.reply = some ⟨4, x, []⟩ ∧ x ≠ 0 := by
  have ha := State.answerFor_running (r := r) ht hp hc true
  rw [if_pos hs] at ha
  have hx := exec_answer hu hi id i r true
  rw [ha] at hx
  exact ⟨s.replyOdd 4, _, hx, rfl, rfl, s.reply_replyOdd 4, s.refusal_ne_zero⟩

section
variable (hp : t.phase = .savef)
include hp

theorem answer_resumes_save : ∃ s', exec (.answer id r i true) s = .next s' ∧ s'.task id = some { t with phase := .running } ∧
    s'.cores = s.cores ∧ s'.reply = some ⟨4, 0, []⟩ := by
  refine ⟨_, exec_answer_of_done hu hi (State.answerFor_savef ht hp true), ?_, rfl, rfl⟩
  rw [State.task_replyOk]
  exact State.task_upTask_some ht fun _ => rfl

theorem answer_abandons_save : ∃ s', exec (.answer id r i false) s = .next s' ∧ s'.reply = some ⟨4, 0, []⟩ ∧ s'.hostq = s.hostq ∧
    s'.task id = some { t with phase := .running, preempt := if t.cancel then 3 else 0, blocks := [], written := 0, cancel := false } ∧
    ∀ c ∈ t.cores, ∀ q : Role, (s'.thr c q).g = (s.thr c q).g ∧ (s'.core c).pool = (s.core c).pool ∧
      ∀ a b, (s.thr c q).status = .stopped a b → (s'.thr c q).status = .running :=
  ⟨_, exec_answer_of_done hu hi (State.answerFor_savef ht hp false), rfl, s.abortSave_hostq t, State.task_abortSave ht,
    fun _ hc q => s.abortSave_threads hc q⟩

end

section
variable (hp : t.phase = .saved) (hn : t.cores = []) (hk : t.saved[i]? = some k) (hs : (k.thr r).status = .host)
include hp hn hk hs

theorem answer_retries_saved : ∃ s', exec (.answer id r i true) s = .next s' ∧
    s'.task id = some { t with saved := t.saved.set i (k.retry r) } ∧ s'.cores = s.cores ∧ s'.reply = some ⟨4, 0, []⟩ := by
  refine ⟨_, exec_answer_of_done hu hi (State.answerFor_saved ht hp hn hk hs true), ?_, rfl, rfl⟩
  rw [State.task_replyOk]
  exact State.task_upTask_some ht fun _ => rfl

theorem answer_aborts_saved : ∃ s', exec (.answer id r i false) s = .next s' ∧ s'.task id = none ∧ s'.hostq.length = s.hostq.length ∧
    s'.reply = some ⟨4, 0, []⟩ :=
  answer_aborts hu hi ht (State.answerFor_saved ht hp hn hk hs false)

end

end

theorem exec_syswr_of_down (hu : s.mailboxUp = false) (n : Nat) (v : Word) : exec (.syswr n v) s = .next s := by
  show execSyswr n v s = _
  exact State.mailbox_of_down hu _

theorem exec_age_of_down (hu : s.mailboxUp = false) : exec .age s = .next s := by
  show execAge s = _
  exact State.mailbox_of_down hu _

/-- Settles O53: the eleven commands in turn, each running once the mailbox is up, and what they do while it is down. -/
theorem mailboxCommands : Obligations.MailboxCommands := by
  refine ⟨fun s n v hu hi => ⟨?_, syswr_refuses hu hi v⟩, fun s k a b hu hi => tlbinv_starts hu hi k a b,
    fun s v l hu hi => ⟨feat_writes hu hi v l, feat_of_lock hu hi v l⟩,
    fun s id i r t c hu hi ht hp hc hs => ⟨answer_retries_running hu hi ht hp hc hs, answer_aborts_running hu hi ht hp hc hs⟩,
    fun s id i r t hu hi ht => ⟨fun hp => ⟨answer_resumes_save hu hi ht hp, answer_abandons_save hu hi ht hp⟩,
      fun k hp hn hk hs => ⟨answer_retries_saved hu hi ht hp hn hk hs, answer_aborts_saved hu hi ht hp hn hk hs⟩,
      fun c => answer_of_going hu hi ht⟩,
    fun s l hu hi => lists_sets hu hi l, fun s h c p a hu hi => route_writes hu hi c p a, fun s id t hu hi => preempt_asks hu hi,
    fun s c hu hi => ⟨dierst_refuses hu hi, dierst_of_wiped hu hi, dierst_of_chiplet hu hi, dierst_of_die hu hi⟩,
    fun s n g hu hi => ⟨lcs_changes hu hi, lcs_refuses hu hi⟩, lifeNext_iff, fun s hu hi => age_answers hu hi,
    fun s c hu hi => attest_answers hu hi, fun s n v hu => ⟨exec_syswr_of_down hu n v, exec_age_of_down hu⟩⟩
  rintro i rfl
  exact syswr_writes hu hi i v

end Sys2Proof.Machine
